-- ==== Sys2Proof/Word.lean ====
section
/-! DEFINITION. Sys2Proof/Word.lean: the machine's word, byte and register-number types, and the sparse map that
holds numbered things (contexts, cores, registers, rows). -/

namespace Sys2Proof

/-- A 64-bit word: a scalar register, a pointer, a system register (spec 01 R12, 03 R37). -/
abbrev Word := BitVec 64

/-- One byte of memory. -/
abbrev Byte := BitVec 8

/-- A scalar register number, x0 to x15 (05 R83). -/
abbrev Reg := BitVec 4

/-- A vector register number, v0 to v31 (05 R83). -/
abbrev VReg := BitVec 5

/-- A predicate register number, q0 to q7 (05 R83). -/
abbrev PReg := BitVec 3

/-- A vector register's 1,024 bits (08 R156). -/
abbrev VWord := BitVec 1024

/-- A sparse map from numbers, as a list of pairs with rising keys. A key that is not listed has the reader's default. -/
abbrev SMap (α : Type) := List (Nat × α)

/-- The value at key `k`, or `d`. The search stops at the first larger key. -/
def SMap.at {α : Type} (d : α) : SMap α → Nat → α
  | [], _ => d
  | (a, x) :: r, k => if k < a then d else if k = a then x else SMap.at d r k

/-- The map with `v` at key `k`. -/
def SMap.put {α : Type} : SMap α → Nat → α → SMap α
  | [], k, v => [(k, v)]
  | (a, x) :: r, k, v =>
    if k < a then (k, v) :: (a, x) :: r else if k = a then (k, v) :: r else (a, x) :: SMap.put r k v

/-- The map without key `k`. -/
def SMap.del {α : Type} (m : SMap α) (k : Nat) : SMap α := m.filter (fun p => decide (p.1 ≠ k))

/-- Membership of a sorted list of numbers. -/
def hasNat : List Nat → Nat → Bool
  | [], _ => false
  | a :: r, k => if k < a then false else if k = a then true else hasNat r k

/-- Insert a number into a sorted list with no repeats. -/
def addNat : List Nat → Nat → List Nat
  | [], k => [k]
  | a :: r, k => if k < a then k :: a :: r else if k = a then a :: r else a :: addNat r k

/-- Remove a number from a sorted list. -/
def delNat : List Nat → Nat → List Nat
  | [], _ => []
  | a :: r, k => if k < a then a :: r else if k = a then r else a :: delNat r k

end Sys2Proof
end

