-- ==== Sys2Proof/Config.lean ====
section
/-! DEFINITION. Sys2Proof/Config.lean: what the part fixes (01), and the free values: what the spec leaves open. A free
value has no body, so nothing can be proved about which value it is. -/

namespace Sys2Proof.Config

/-- Contexts per core, cores per cluster, clusters, dies (01 R8 to R12). -/
def ctxPerCore : Nat := 16
/-- Cores of the package. -/
def cores : Nat := 2048
/-- Clusters of the package. -/
def clusters : Nat := 512
/-- Contexts of the package. -/
def contexts : Nat := 32768

/-- A free choice, drawn with a plain counter of State. It says whether a clean copy has been evicted (03 R47) and which
of two values the spec allows is taken (09 R200). Log 6. -/
opaque freeBit : Nat → Bool

/-- A byte whose layout the spec leaves to the device, drawn with a plain counter of State (17 R406). Log 19. -/
opaque freeByte : Nat → Byte

/-- The 384-bit code of HMAC-SHA-384 over a byte string under a key (19 R448). The spec names the function by its
standard and gives no text of it. Log 9. -/
opaque hmac384 : Nat → List Byte → Nat

/-- Whether a firmware image carries the maker's ECDSA signature on P-384 (19 R444). Log 9. -/
opaque imageEcdsa : List Byte → Bool

/-- Whether a firmware image carries the maker's LMS signature (19 R444). Log 9. -/
opaque imageLms : List Byte → Bool

/-- The revision number that a firmware image carries (19 R444). Log 9. -/
opaque imageRev : List Byte → Nat

/-- A signed attestation report for the covered data and the running image (19 R445). Log 9. -/
opaque attestation : List Byte → List Byte → List Byte

/-- How far a limit lowers a clock, in steps of 20 MHz, for a limit code, a budget in sixteenths and a plain counter of
State: the spec does not state it (16 R387). Log 41. -/
opaque limitSteps : Nat → Nat → Nat → Nat

/-- The supply in mV for a clock below 940 MHz: the spec does not state it (16 R387, R389). Log 41. -/
opaque supplyMv : Nat → Nat

end Sys2Proof.Config
end

