-- ==== Sys2Proof/Syntax.lean ====
section
/-! DEFINITION. Sys2Proof/Syntax.lean: every row of the opcode table as a constructor. The first part is the
instructions that words encode (spec 05 R89); the second part is the device's own steps, which carry as operands
which agent takes the step and what comes in from outside. -/

namespace Sys2Proof

/-- An immediate, displacement or offset: in its own field, or as the 64-bit trailing literal (05 R78). -/
inductive Imm (n : Nat) where
  | short (v : BitVec n)
  | lit (v : Word)
deriving DecidableEq, Repr

/-- Where a write that arrives at its place comes from (10 R210, R211): the oldest entry of a context's store buffer,
or the `k`-th write-through that a cluster has begun. -/
inductive WriteSrc where
  | buffer (ctx : Nat)
  | through (clu k : Nat)
deriving DecidableEq, Repr

/-- A fabric packet: the header flit's fields of 18 R423 and the payload. `mop` is the operation or mode, `sz` the size
code, `cause` a response's cause, `floor` and `cur` the target's epoch window that every reply carries (16 R385). -/
structure FabPkt where
  cls : Nat
  opc : Nat
  detour : Bool
  vc : Nat
  tgtNode : Nat
  tgtPart : Nat
  srcNode : Nat
  srcPart : Nat
  eseq : Nat
  rev : BitVec 32
  cap : BitVec 128
  off : Word
  opnd : BitVec 128
  mop : Nat
  sz : Nat
  cause : BitVec 6
  floor : BitVec 8
  cur : BitVec 8
  data : List Byte
deriving DecidableEq, Repr

/-- A reduction contribution at the root: the target object, the arrival list (node, partition and sequence number of each
contributor), the first destination cell and the cells, 512 bits each, already in the exact form of 06 R112 (18 R435 to R437). -/
structure Contribution where
  part : Nat
  hidx : BitVec 12
  who : List (Nat × Nat × Nat)
  first : Nat
  cells : List (BitVec 512)
  /-- The REV and the epoch of its requests: only contributions in which these agree are merged (log 31). -/
  rev : BitVec 32 := 0
  epoch : Nat := 0
deriving DecidableEq, Repr

/-- What a retraining reports (18 R426): the last number that the far end has accepted, and the lanes found good by their test. -/
structure LaneReport where
  last : BitVec 16
  whole : BitVec 16
deriving DecidableEq, Repr

/-- A host request over CXL.mem (19 R439; 11 R253). -/
inductive HostOp where
  | read (pa n : Nat)
  | write (pa : Nat) (bytes : List Byte)
deriving DecidableEq, Repr

/-- What the management controller sets when it creates, resizes or removes a partition (16 R363). `entry` and `hvec` are
the pc and the vector base of the supervisor threads that the partition's runtime starts in the directory service slots
(02 R26); an entry of 0 starts none. -/
structure PartSpec where
  num : Nat
  remove : Bool
  clusters : List Nat
  width : Nat
  table : List Nat
  rank : Nat
  node : Nat
  wlim : Nat
  rlim : Nat
  budget : Nat
  /-- The balancing interval (02 R35). -/
  interval : Nat := 4096
  entry : Word
  hvec : Word
deriving DecidableEq, Repr

/-- The rows of the opcode table. -/
inductive Instr where
  /-- ADD. R128. -/
  | add (w : BitVec 2) (d : Reg) (a : Reg) (b : Reg)
  /-- SUB. R128. -/
  | sub (w : BitVec 2) (d : Reg) (a : Reg) (b : Reg)
  /-- AND. R128. -/
  | and (w : BitVec 2) (d : Reg) (a : Reg) (b : Reg)
  /-- OR. R128. -/
  | or (w : BitVec 2) (d : Reg) (a : Reg) (b : Reg)
  /-- XOR. R128. -/
  | xor (w : BitVec 2) (d : Reg) (a : Reg) (b : Reg)
  /-- ANDN. R128. -/
  | andn (w : BitVec 2) (d : Reg) (a : Reg) (b : Reg)
  /-- SHL. R128. -/
  | shl (w : BitVec 2) (d : Reg) (a : Reg) (b : Reg)
  /-- SHR. R128. -/
  | shr (w : BitVec 2) (d : Reg) (a : Reg) (b : Reg)
  /-- SHRA. R128. -/
  | shra (w : BitVec 2) (d : Reg) (a : Reg) (b : Reg)
  /-- ROT. R128. -/
  | rot (w : BitVec 2) (d : Reg) (a : Reg) (b : Reg)
  /-- MIN. R128. -/
  | min (w : BitVec 2) (d : Reg) (a : Reg) (b : Reg)
  /-- MAX. R128. -/
  | max (w : BitVec 2) (d : Reg) (a : Reg) (b : Reg)
  /-- MINN. R128. -/
  | minn (w : BitVec 2) (d : Reg) (a : Reg) (b : Reg)
  /-- MAXN. R128. -/
  | maxn (w : BitVec 2) (d : Reg) (a : Reg) (b : Reg)
  /-- ADDS. R128. -/
  | adds (w : BitVec 2) (d : Reg) (a : Reg) (b : Reg)
  /-- SUBS. R128. -/
  | subs (w : BitVec 2) (d : Reg) (a : Reg) (b : Reg)
  /-- ADDI. R129. -/
  | addi (d : Reg) (a : Reg) (i : Imm 15)
  /-- ANDI. R129. -/
  | andi (d : Reg) (a : Reg) (i : Imm 15)
  /-- ORI. R129. -/
  | ori (d : Reg) (a : Reg) (i : Imm 15)
  /-- XORI. R129. -/
  | xori (d : Reg) (a : Reg) (i : Imm 15)
  /-- SHI_SHL. R130. -/
  | shiShl (w : BitVec 2) (c : BitVec 6) (d : Reg) (a : Reg)
  /-- SHI_SHR. R130. -/
  | shiShr (w : BitVec 2) (c : BitVec 6) (d : Reg) (a : Reg)
  /-- SHI_SHRA. R130. -/
  | shiShra (w : BitVec 2) (c : BitVec 6) (d : Reg) (a : Reg)
  /-- SHI_ROT. R130. -/
  | shiRot (w : BitVec 2) (c : BitVec 6) (d : Reg) (a : Reg)
  /-- CMP. R131. -/
  | cmp (c : BitVec 3) (d : Reg) (a : Reg) (b : Reg)
  /-- CMPI. R131. -/
  | cmpi (c : BitVec 3) (d : Reg) (a : Reg) (i : Imm 12)
  /-- MUL. R132. -/
  | mul (d : Reg) (a : Reg) (b : Reg)
  /-- MULH. R132. -/
  | mulh (d : Reg) (a : Reg) (b : Reg)
  /-- MULHN. R132. -/
  | mulhn (d : Reg) (a : Reg) (b : Reg)
  /-- MAD. R132. -/
  | mad (d : Reg) (a : Reg) (b : Reg)
  /-- DIV. R132. -/
  | div (d : Reg) (a : Reg) (b : Reg)
  /-- DIVN. R132. -/
  | divn (d : Reg) (a : Reg) (b : Reg)
  /-- REM. R132. -/
  | rem (d : Reg) (a : Reg) (b : Reg)
  /-- REMN. R132. -/
  | remn (d : Reg) (a : Reg) (b : Reg)
  /-- CLZ. R133. -/
  | clz (d : Reg) (a : Reg)
  /-- CTZ. R133. -/
  | ctz (d : Reg) (a : Reg)
  /-- POPC. R133. -/
  | popc (d : Reg) (a : Reg)
  /-- BREV. R133. -/
  | brev (d : Reg) (a : Reg)
  /-- BSWAP. R133. -/
  | bswap (d : Reg) (a : Reg)
  /-- EXTB. R134. -/
  | extb (s : BitVec 1) (l : BitVec 6) (p : BitVec 6) (d : Reg) (a : Reg)
  /-- INSB. R134. -/
  | insb (l : BitVec 6) (p : BitVec 6) (d : Reg) (a : Reg)
  /-- SEL. R135. -/
  | sel (c : Reg) (d : Reg) (a : Reg) (b : Reg)
  /-- LEA. R136. -/
  | lea (s : BitVec 3) (d : Reg) (a : Reg) (b : Reg)
  /-- LDI. R137. -/
  | ldi (d : Reg) (i : Imm 15)
  /-- WIDF. R138. -/
  | widf (d : Reg) (a : Reg)
  /-- SHAPE. R138. -/
  | shape (d : Reg) (a : Reg)
  /-- LOCID. R138. -/
  | locid (d : Reg) (a : Reg)
  /-- FADD. R143. -/
  | fadd (f : BitVec 3) (r : BitVec 2) (d : Reg) (a : Reg) (b : Reg)
  /-- FSUB. R143. -/
  | fsub (f : BitVec 3) (r : BitVec 2) (d : Reg) (a : Reg) (b : Reg)
  /-- FMUL. R143. -/
  | fmul (f : BitVec 3) (r : BitVec 2) (d : Reg) (a : Reg) (b : Reg)
  /-- FDIV. R143. -/
  | fdiv (f : BitVec 3) (r : BitVec 2) (d : Reg) (a : Reg) (b : Reg)
  /-- FMIN. R143. -/
  | fmin (f : BitVec 3) (r : BitVec 2) (d : Reg) (a : Reg) (b : Reg)
  /-- FMAX. R143. -/
  | fmax (f : BitVec 3) (r : BitVec 2) (d : Reg) (a : Reg) (b : Reg)
  /-- FSQRT. R143. -/
  | fsqrt (f : BitVec 3) (r : BitVec 2) (d : Reg) (a : Reg)
  /-- FABS. R143. -/
  | fabs (f : BitVec 3) (r : BitVec 2) (d : Reg) (a : Reg)
  /-- FNEG. R143. -/
  | fneg (f : BitVec 3) (r : BitVec 2) (d : Reg) (a : Reg)
  /-- FCPYS. R143. -/
  | fcpys (f : BitVec 3) (r : BitVec 2) (d : Reg) (a : Reg) (b : Reg)
  /-- FMA. R144. -/
  | fma (f : BitVec 3) (r : BitVec 2) (d : Reg) (a : Reg) (b : Reg)
  /-- FCMP. R145. -/
  | fcmp (f : BitVec 3) (c : BitVec 3) (d : Reg) (a : Reg) (b : Reg)
  /-- FCVT. R146. -/
  | fcvt (r : BitVec 1) (t : BitVec 5) (s : BitVec 5) (d : Reg) (a : Reg)
  /-- FCLASS. R147. -/
  | fclass (f : BitVec 3) (d : Reg) (a : Reg)
  /-- RCP. R148. -/
  | rcp (f : BitVec 3) (d : Reg) (a : Reg)
  /-- RSQ. R148. -/
  | rsq (f : BitVec 3) (d : Reg) (a : Reg)
  /-- EXP2. R148. -/
  | exp2 (f : BitVec 3) (d : Reg) (a : Reg)
  /-- LOG2. R148. -/
  | log2 (f : BitVec 3) (d : Reg) (a : Reg)
  /-- SINPI. R148. -/
  | sinpi (f : BitVec 3) (d : Reg) (a : Reg)
  /-- COSPI. R148. -/
  | cospi (f : BitVec 3) (d : Reg) (a : Reg)
  /-- TANH. R148. -/
  | tanh (f : BitVec 3) (d : Reg) (a : Reg)
  /-- SIGM. R148. -/
  | sigm (f : BitVec 3) (d : Reg) (a : Reg)
  /-- BR. R150. -/
  | br (o : Imm 23)
  /-- CALL. R150. -/
  | call (o : Imm 23)
  /-- BC. R151. -/
  | bc (c : BitVec 3) (b : Reg) (a : Reg) (o : Imm 12)
  /-- BZ. R151. -/
  | bz (c : BitVec 3) (a : Reg) (o : Imm 12)
  /-- JMPR. R152. -/
  | jmpr (a : Reg)
  /-- CALLR. R152. -/
  | callr (d : Reg) (a : Reg)
  /-- RET. R152. -/
  | ret (a : Reg)
  /-- JTAB. R153. -/
  | jtab (a : Reg) (n : BitVec 32) (t : BitVec 30)
  /-- EXIT. R154. -/
  | exit (c : BitVec 8)
  /-- NOP. R155. -/
  | nop
  /-- LD. R219. -/
  | ld (scp : BitVec 2) (o : BitVec 2) (z : BitVec 3) (d : Reg) (a : Reg) (p : Imm 8)
  /-- ST. R219. -/
  | st (scp : BitVec 2) (o : BitVec 2) (z : BitVec 3) (d : Reg) (a : Reg) (p : Imm 8)
  /-- FENCE. R222. -/
  | fence (scp : BitVec 2) (k : BitVec 2)
  /-- LR. R225. -/
  | lr (scp : BitVec 2) (o : BitVec 2) (z : BitVec 3) (d : Reg) (a : Reg) (p : Imm 8)
  /-- SC. R225. -/
  | sc (scp : BitVec 2) (o : BitVec 2) (z : BitVec 3) (d : Reg) (a : Reg) (p : Imm 8)
  /-- AMO_ADD. R223. -/
  | amoAdd (scp : BitVec 2) (o : BitVec 2) (z : BitVec 3) (d : Reg) (a : Reg) (p : Imm 4)
  /-- AMO_AND. R223. -/
  | amoAnd (scp : BitVec 2) (o : BitVec 2) (z : BitVec 3) (d : Reg) (a : Reg) (p : Imm 4)
  /-- AMO_OR. R223. -/
  | amoOr (scp : BitVec 2) (o : BitVec 2) (z : BitVec 3) (d : Reg) (a : Reg) (p : Imm 4)
  /-- AMO_XOR. R223. -/
  | amoXor (scp : BitVec 2) (o : BitVec 2) (z : BitVec 3) (d : Reg) (a : Reg) (p : Imm 4)
  /-- AMO_SWAP. R223. -/
  | amoSwap (scp : BitVec 2) (o : BitVec 2) (z : BitVec 3) (d : Reg) (a : Reg) (p : Imm 4)
  /-- AMO_MIN. R223. -/
  | amoMin (scp : BitVec 2) (o : BitVec 2) (z : BitVec 3) (d : Reg) (a : Reg) (p : Imm 4)
  /-- AMO_MAX. R223. -/
  | amoMax (scp : BitVec 2) (o : BitVec 2) (z : BitVec 3) (d : Reg) (a : Reg) (p : Imm 4)
  /-- AMO_MINN. R223. -/
  | amoMinn (scp : BitVec 2) (o : BitVec 2) (z : BitVec 3) (d : Reg) (a : Reg) (p : Imm 4)
  /-- AMO_MAXN. R223. -/
  | amoMaxn (scp : BitVec 2) (o : BitVec 2) (z : BitVec 3) (d : Reg) (a : Reg) (p : Imm 4)
  /-- CAS. R224. -/
  | cas (z : BitVec 3) (scp : BitVec 2) (o : BitVec 2) (d : Reg) (a : Reg) (b : Reg) (p : Imm 32)
  /-- WAITRS. R227. -/
  | waitrs (scp : BitVec 2) (o : BitVec 2) (z : BitVec 3) (d : Reg) (a : Reg) (p : Imm 8)
  /-- RED. R228. -/
  | red (f : BitVec 5) (scp : BitVec 2) (o : BitVec 2) (a : Reg) (b : Reg) (p : Imm 32)
  /-- XSRD. R229. -/
  | xsrd (k : BitVec 1) (f : BitVec 5) (scp : BitVec 2) (o : BitVec 2) (d : Reg) (a : Reg) (p : Imm 32)
  /-- LDFE_READ. R230. -/
  | ldfeRead (scp : BitVec 2) (d : Reg) (a : Reg) (p : Imm 4)
  /-- LDFE_TAKE. R230. -/
  | ldfeTake (scp : BitVec 2) (d : Reg) (a : Reg) (p : Imm 4)
  /-- STFE_PUT. R230. -/
  | stfePut (scp : BitVec 2) (d : Reg) (a : Reg) (p : Imm 4)
  /-- STFE_FILL. R230. -/
  | stfeFill (scp : BitVec 2) (d : Reg) (a : Reg) (p : Imm 4)
  /-- STFE_CLEAR. R230. -/
  | stfeClear (scp : BitVec 2) (a : Reg) (p : Imm 4)
  /-- PREF. R232. -/
  | pref (scp : BitVec 2) (a : Reg) (p : Imm 4)
  /-- CLEAN. R232. -/
  | clean (scp : BitVec 2) (a : Reg) (p : Imm 4)
  /-- INVAL. R232. -/
  | inval (scp : BitVec 2) (a : Reg) (p : Imm 4)
  /-- INVAL_CLUSTER. R232. -/
  | invalCluster (scp : BitVec 2) (d : Reg) (a : Reg) (p : Imm 4)
  /-- LDC. R381. -/
  | ldc (scp : BitVec 2) (o : BitVec 2) (d : Reg) (a : Reg) (p : Imm 8)
  /-- STC. R381. -/
  | stc (scp : BitVec 2) (o : BitVec 2) (d : Reg) (a : Reg) (p : Imm 8)
  /-- SPAWN. R341. -/
  | spawn (k : BitVec 3) (c : Reg) (a : Reg) (b : Reg)
  /-- REAP. R342. -/
  | reap (d : Reg) (a : Reg)
  /-- REAP_ANY. R342. -/
  | reapAny (d : Reg)
  /-- BIND. R344. -/
  | bind (k : BitVec 3)
  /-- SEM_P. R345. -/
  | semP (a : Reg)
  /-- SEM_V. R345. -/
  | semV (a : Reg)
  /-- SEM_TRY. R345. -/
  | semTry (d : Reg) (a : Reg)
  /-- SEND. R348. -/
  | send (a : Reg) (b : Reg)
  /-- SEND_S. R348. -/
  | sendS (a : Reg) (b : Reg)
  /-- OPEN. R348. -/
  | openS (d : Reg) (a : Reg)
  /-- CLOSE. R348. -/
  | close (a : Reg)
  /-- WAKE. R348. -/
  | wake (a : Reg) (b : Reg)
  /-- RECV. R349. -/
  | recv (d : Reg) (b : Reg)
  /-- TRYRECV. R349. -/
  | tryrecv (d : Reg) (b : Reg)
  /-- RCALL. R351. -/
  | rcall (a : Reg) (b : Reg) (k : BitVec 1) (p : BitVec 32)
  /-- RREPLY. R353. -/
  | rreply (a : Reg)
  /-- BARA. R350. -/
  | bara (d : Reg) (bar : BitVec 4) (n : BitVec 16)
  /-- BARW. R350. -/
  | barw (a : Reg) (bar : BitVec 4)
  /-- LLPUSH. R356. -/
  | llpush (d : Reg) (a : Reg)
  /-- LLPOP. R356. -/
  | llpop (d : Reg) (b : Reg)
  /-- MIGRATE. R355. -/
  | migrate (a : Reg)
  /-- SPECB. R357. -/
  | specb (a : Reg) (b : Reg)
  /-- SPECC. R359. -/
  | specc
  /-- PAUSE. R315. -/
  | pause
  /-- INSTN. R315. -/
  | instn (d : Reg)
  /-- EMIT. R316. -/
  | emit (k : BitVec 2) (a : Reg) (b : Reg)
  /-- TEST. R317. -/
  | test (q : BitVec 2) (d : Reg) (a : Reg)
  /-- TESTV. R317. -/
  | testv (q : BitVec 2) (d : Reg) (a : Reg)
  /-- RENOUNCE. R318. -/
  | renounce (a : Reg)
  /-- EMITS. R319. -/
  | emits (sl : BitVec 2) (a : Reg) (b : Reg)
  /-- ABORTW. R320. -/
  | abortw (a : Reg) (p : BitVec 32)
  /-- SUSPW. R320. -/
  | suspw (a : Reg)
  /-- ENDW. R320. -/
  | endw
  /-- SIGFORCE. R321. -/
  | sigforce (k : BitVec 2) (a : Reg) (b : Reg)
  /-- LEHRW. R323. -/
  | lehrw (k : BitVec 1) (n : BitVec 16) (d : Reg) (a : Reg)
  /-- RLD. R233. -/
  | rld (m : BitVec 4) (o : BitVec 2) (z : BitVec 3) (d : Reg) (a : Reg) (b : Reg) (p : Imm 32)
  /-- RST. R233. -/
  | rst (m : BitVec 4) (o : BitVec 2) (z : BitVec 3) (d : Reg) (a : Reg) (b : Reg) (p : Imm 32)
  /-- RAMO. R233. -/
  | ramo (o : BitVec 2) (z : BitVec 3) (k : BitVec 4) (d : Reg) (a : Reg) (b : Reg) (p : Imm 32)
  /-- CDERIV. R382. -/
  | cderiv (d : Reg) (a : Reg) (b : Reg)
  /-- CGET. R382. -/
  | cget (d : Reg) (a : Reg) (b : Reg)
  /-- CCLR. R382. -/
  | cclr (d : Reg) (a : Reg)
  /-- VADD. R168. -/
  | vadd (s : BitVec 1) (f : BitVec 4) (q : PReg) (d : VReg) (a : VReg) (b : VReg)
  /-- VSUB. R168. -/
  | vsub (s : BitVec 1) (f : BitVec 4) (q : PReg) (d : VReg) (a : VReg) (b : VReg)
  /-- VMUL. R168. -/
  | vmul (s : BitVec 1) (f : BitVec 4) (q : PReg) (d : VReg) (a : VReg) (b : VReg)
  /-- VFMA. R168. -/
  | vfma (s : BitVec 1) (f : BitVec 4) (q : PReg) (d : VReg) (a : VReg) (b : VReg)
  /-- VMIN. R168. -/
  | vmin (s : BitVec 1) (q : PReg) (d : VReg) (a : VReg) (b : VReg)
  /-- VMAX. R168. -/
  | vmax (s : BitVec 1) (q : PReg) (d : VReg) (a : VReg) (b : VReg)
  /-- VAND. R168. -/
  | vand (s : BitVec 1) (q : PReg) (d : VReg) (a : VReg) (b : VReg)
  /-- VOR. R168. -/
  | vor (s : BitVec 1) (q : PReg) (d : VReg) (a : VReg) (b : VReg)
  /-- VXOR. R168. -/
  | vxor (s : BitVec 1) (q : PReg) (d : VReg) (a : VReg) (b : VReg)
  /-- VSHL. R169. -/
  | vshl (s : BitVec 1) (q : PReg) (d : VReg) (a : VReg) (b : VReg)
  /-- VSHR. R169. -/
  | vshr (s : BitVec 1) (f : BitVec 4) (q : PReg) (d : VReg) (a : VReg) (b : VReg)
  /-- VCMP. R170. -/
  | vcmp (s : BitVec 1) (f : BitVec 4) (q : PReg) (d : PReg) (a : VReg) (b : VReg)
  /-- VSEL. R171. -/
  | vsel (s : BitVec 1) (q : PReg) (d : VReg) (a : VReg) (b : VReg)
  /-- VCVT. R172. -/
  | vcvt (s : BitVec 1) (f : BitVec 4) (q : PReg) (d : VReg) (a : VReg) (b : VReg)
  /-- VAPX. R173. -/
  | vapx (f : BitVec 4) (q : PReg) (d : VReg) (a : VReg)
  /-- VABS. R168. -/
  | vabs (q : PReg) (d : VReg) (a : VReg)
  /-- VNEG. R168. -/
  | vneg (q : PReg) (d : VReg) (a : VReg)
  /-- VRED. R174. -/
  | vred (f : BitVec 4) (q : PReg) (d : VReg) (a : VReg)
  /-- VSCAN. R175. -/
  | vscan (f : BitVec 4) (q : PReg) (d : VReg) (a : VReg)
  /-- VPERM. R176. -/
  | vperm (q : PReg) (d : VReg) (a : VReg) (b : VReg)
  /-- VBCAST. R177. -/
  | vbcast (f : BitVec 1) (q : PReg) (d : VReg) (a : VReg) (b : Reg)
  /-- VMOVX. R178. -/
  | vmovx (f : BitVec 2) (d : VReg) (a : VReg) (b : Reg)
  /-- VLD. R181. -/
  | vld (s : BitVec 1) (q : PReg) (d : VReg) (a : Reg) (b : VReg)
  /-- VST. R181. -/
  | vst (s : BitVec 1) (q : PReg) (d : VReg) (a : Reg) (b : VReg)
  /-- VGATH. R182. -/
  | vgath (a : Reg) (sh : BitVec 3) (p : BitVec 3) (q : PReg) (vi : VReg) (d : VReg) (disp : BitVec 32)
  /-- VSCAT. R182. -/
  | vscat (a : Reg) (sh : BitVec 3) (p : BitVec 3) (q : PReg) (vi : VReg) (d : VReg) (disp : BitVec 32)
  /-- VSORT. R184. -/
  | vsort (n : BitVec 1) (k : BitVec 1) (q : PReg) (d : VReg) (a : VReg)
  /-- VMERGE. R184. -/
  | vmerge (h : BitVec 1) (n : BitVec 1) (k : BitVec 1) (q : PReg) (d : VReg) (a : VReg) (b : VReg)
  /-- VTOPK. R184. -/
  | vtopk (n : BitVec 1) (q : PReg) (d : VReg) (a : VReg) (b : Reg)
  /-- PLOG. R179. -/
  | plog (s : BitVec 1) (f : BitVec 4) (d : PReg) (a : PReg) (b : VReg)
  /-- REP. R165. -/
  | rep (t : BitVec 3) (l : BitVec 4) (a : Reg)
  /-- VCFG. R167. -/
  | vcfg (d : Reg)
  /-- VCFG_WR. R167. -/
  | vcfgWr (d : Reg) (a : Reg)
  /-- VCFG_CLR. R167. -/
  | vcfgClr (d : Reg)
  /-- MXQ. R191. -/
  | mxq (d : Reg) (a : Reg)
  /-- MXWAIT. R193. -/
  | mxwait (a : Reg)
  /-- MXWAIT_ALL. R193. -/
  | mxwaitAll
  /-- MXSTAT. R194. -/
  | mxstat (d : Reg) (a : Reg)
  /-- MXSTAT_RESUME. R194. -/
  | mxstatResume
  /-- MXSTAT_DROP. R194. -/
  | mxstatDrop
  /-- MXSTAT_SDROP. R194. -/
  | mxstatSdrop
  /-- CPQ. R268. -/
  | cpq (d : Reg) (a : Reg) (b : Reg)
  /-- CPWAIT. R269. -/
  | cpwait (a : Reg)
  /-- CPWAIT_ALL. R269. -/
  | cpwaitAll
  /-- SYNCW. R266. -/
  | syncw (a : Reg) (b : Reg)
  /-- SYNCW_RESET. R266. -/
  | syncwReset (a : Reg) (b : Reg)
  /-- SYNCWAIT. R267. -/
  | syncwait (d : Reg) (a : Reg) (b : Reg)
  /-- MBOX. R270. -/
  | mbox (d : Reg) (a : Reg)
  /-- MBOX_TRY. R270. -/
  | mboxTry (d : Reg) (a : Reg)
  /-- MBOX_ST. R270. -/
  | mboxSt (d : Reg)
  /-- GLD. R283. -/
  | gld (d : Reg) (a : Reg) (b : Reg) (p : BitVec 32)
  /-- GST. R284. -/
  | gst (d : Reg) (a : Reg) (b : Reg) (p : BitVec 32)
  /-- GSTEP. R286. -/
  | gstep (a : Reg) (b : Reg)
  /-- GWAIT. R287. -/
  | gwait (a : Reg) (b : Reg)
  /-- GWAIT_OUT. R287. -/
  | gwaitOut (a : Reg) (b : Reg)
  /-- FMT. R85. -/
  | fmt (s : BitVec 1) (g : BitVec 2) (f : BitVec 5)
  /-- TRAP. R398. -/
  | trap (c : BitVec 15)
  /-- BRK. R398. -/
  | brk (c : BitVec 15)
  /-- SYSRD. R370. -/
  | sysrd (n : BitVec 12) (d : Reg)
  /-- SYSWR. R370. -/
  | syswr (n : BitVec 12) (a : Reg)
  /-- ERET. R400. -/
  | eret
  /-- TLBINV. R377. -/
  | tlbinv (a : Reg) (b : Reg)
  /-- HTSET. R378. -/
  | htset (a : Reg) (b : Reg)
  /-- DTRACE_MARK. R417. -/
  | dtraceMark (a : Reg)
  /-- DTRACE_BON. R417. -/
  | dtraceBon
  /-- DTRACE_BOFF. R417. -/
  | dtraceBoff
  /-- DTRACE_SYNC. R417. -/
  | dtraceSync
  /-- PORT_ENTRY_EXECUTE. R161. -/
  | portEntryExecute (core : Nat) (port : Nat)
  /-- REP_PASS. R166. -/
  | repPass (core : Nat) (port : Nat)
  /-- MXQ_WINDOW_SUBMIT. R190. -/
  | mxqWindowSubmit (rec : Nat) (v : Word)
  /-- MMA. R198. -/
  | mma (core : Nat)
  /-- MMAI. R198. -/
  | mmai (core : Nat)
  /-- MMAQ. R198. -/
  | mmaq (core : Nat)
  /-- TLOAD. R201. -/
  | tload (core : Nat)
  /-- TSTORE. R201. -/
  | tstore (core : Nat)
  /-- TZERO. R202. -/
  | tzero (core : Nat)
  /-- TCFG. R202. -/
  | tcfg (core : Nat)
  /-- TROW. R202. -/
  | trow (core : Nat)
  /-- GANG_JOIN. R203. -/
  | gangJoin (core : Nat)
  /-- GANG_JOIN_COMPLETE. R203. -/
  | gangJoinComplete (core : Nat)
  /-- GANG_REDUCE. R204. -/
  | gangReduce (core : Nat)
  /-- SCALE_MISS_FILL. R200. -/
  | scaleMissFill (core : Nat)
  /-- MATRIX_COMPLETION. R205. -/
  | matrixCompletion (core : Nat)
  /-- COPY. R257. -/
  | copy (eng : Nat) (part : Nat) (q : Nat)
  /-- GATHER. R257. -/
  | gather (eng : Nat) (part : Nat) (q : Nat)
  /-- SCATTER. R257. -/
  | scatter (eng : Nat) (part : Nat) (q : Nat)
  /-- FILL. R257. -/
  | fill (eng : Nat) (part : Nat) (q : Nat)
  /-- REDUCE. R257. -/
  | reduce (eng : Nat) (part : Nat) (q : Nat)
  /-- HALOX. R289. -/
  | halox (eng : Nat) (part : Nat) (q : Nat)
  /-- RCOPY. R257. -/
  | rcopy (eng : Nat) (part : Nat) (q : Nat)
  /-- NOTIFY. R257. -/
  | notify (eng : Nat) (part : Nat) (q : Nat)
  /-- COPY_PACKET_COMPLETE. R262. -/
  | copyPacketComplete (pk : Nat)
  /-- COPY_HOLD_TIMEOUT. R263. -/
  | copyHoldTimeout (pk : Nat)
  /-- WATERMARK_ADVANCE. R260. -/
  | watermarkAdvance (pk : Nat)
  /-- MAILBOX_POST. R259. -/
  | mailboxPost (pk : Nat)
  /-- MAILBOX_TIMEOUT. R259. -/
  | mailboxTimeout (pk : Nat)
  /-- LAUNCH. R325. -/
  | launch (part : Nat) (q : Nat)
  /-- BLOCK_DISPATCH. R335. -/
  | blockDispatch (part : Nat) (core : Nat)
  /-- SCHEDULER_EPOCH. R333. -/
  | schedulerEpoch (part : Nat)
  /-- LAUNCH_COMPLETE. R338. -/
  | launchComplete (l : Nat)
  /-- QREG_REGISTER. R331. -/
  | qregRegister (a : Reg)
  /-- QREG_UNREGISTER. R331. -/
  | qregUnregister (a : Reg)
  /-- TAG_ARRIVAL. R32. -/
  | tagArrival (c : Nat)
  /-- RELEASE_MARKER_COMPLETE. R210. -/
  | releaseMarkerComplete (c : Nat)
  /-- HOME_WRITE. R216. -/
  | homeWrite (src : WriteSrc)
  /-- ATOMIC_AT_PLACE. R216. -/
  | atomicAtPlace (c : Nat)
  /-- FE_RESEND. R231. -/
  | feResend (c : Nat)
  /-- FE_LIMIT. R231. -/
  | feLimit (c : Nat)
  /-- LR_LOCK_EXPIRY. R226. -/
  | lrLockExpiry (line : Nat)
  /-- STREAM_IDLE_END. R51. -/
  | streamIdleEnd (unit : Nat) (k : Nat)
  /-- BANKMODE_WRITE. R44. -/
  | bankmodeWrite (clu : Nat) (v : Word)
  /-- BANK_MODE_CHANGE_DONE. R45. -/
  | bankModeChangeDone (clu : Nat) (bank : Nat)
  /-- FIFO_PUSH. R46. -/
  | fifoPush (clu : Nat) (bank : Nat) (v : Word)
  /-- FIFO_POP. R46. -/
  | fifoPop (clu : Nat) (bank : Nat)
  /-- HALO_FILL_START. R281. -/
  | haloFillStart (k : Nat)
  /-- HALO_FILL_COMPLETE. R281. -/
  | haloFillComplete (k : Nat)
  /-- SIGMA_UPDATE. R281. -/
  | sigmaUpdate (m : Nat)
  /-- HALO_FILL_ABANDON. R290. -/
  | haloFillAbandon (k : Nat) (cause : BitVec 6)
  /-- LEHR_DECIDE. R304. -/
  | lehrDecide (l : Nat)
  /-- INSTANT_LIMIT. R308. -/
  | instantLimit (l : Nat)
  /-- FRAME_APPLY. R296. -/
  | frameApply (l : Nat)
  /-- SIGNAL_EMISSION. R299. -/
  | signalEmission (m : Nat)
  /-- SIGNAL_RELEASE. R299. -/
  | signalRelease (m : Nat)
  /-- SIGNAL_QUERY. R317. -/
  | signalQuery (c : Nat)
  /-- CHANNEL_WORD_ARRIVAL. R346. -/
  | channelWordArrival (m : Nat)
  /-- EXIT_NOTICE. R343. -/
  | exitNotice (m : Nat)
  /-- BARRIER_ARRIVAL. R350. -/
  | barrierArrival (m : Nat)
  /-- MIGRATION_ARRIVAL. R354. -/
  | migrationArrival (m : Nat)
  /-- MIGRATION_RESEND. R354. -/
  | migrationResend (m : Nat)
  /-- RCALL_ARRIVAL. R351. -/
  | rcallArrival (m : Nat)
  /-- LOAD_LEVELLING_INTERVAL. R35. -/
  | loadLevellingInterval (core : Nat)
  /-- LL_ENTRIES_ARRIVE. R356. -/
  | llEntriesArrive (m : Nat)
  /-- PAGE_WALK. R373. -/
  | pageWalk (clu : Nat) (part : Nat) (host : Bool) (va : Nat)
  /-- STA_WRITE. R370. -/
  | staWrite (a : Reg)
  /-- HTBASE_WRITE. R377. -/
  | htbaseWrite (a : Reg)
  /-- HTLEN_WRITE. R377. -/
  | htlenWrite (a : Reg)
  /-- PTROOT_WRITE. R377. -/
  | ptrootWrite (a : Reg)
  /-- CAPEPOCH_WRITE. R386. -/
  | capepochWrite (a : Reg)
  /-- PCAPWHY_WRITE. R388. -/
  | pcapwhyWrite (a : Reg)
  /-- TRACECTL_WRITE. R411. -/
  | tracectlWrite (a : Reg)
  /-- TRACEPTR_WRITE. R412. -/
  | traceptrWrite (a : Reg)
  /-- ECAUSE_WRITE. R393. -/
  | ecauseWrite (n : BitVec 12) (a : Reg)
  /-- EVENT_DELIVERY. R392. -/
  | eventDelivery (c : Nat)
  /-- WATCHDOG. R395. -/
  | watchdog (c : Nat)
  /-- SPILL. R404. -/
  | spill (part : Nat)
  /-- RESTORE. R407. -/
  | restore (part : Nat)
  /-- SAVE. R405. -/
  | save (part : Nat)
  /-- PATROL_SCRUB. R408. -/
  | patrolScrub (g : Nat)
  /-- CONTROL_STATE_ERROR. R410. -/
  | controlStateError (c : Nat)
  /-- REPLAY_WAIT_TIMEOUT. R416. -/
  | replayWaitTimeout (part : Nat)
  /-- FLIT_RECEIVE. R425. -/
  | flitReceive (port : Nat) (bytes : List Byte)
  /-- LINK_ACK_RECEIVE. R425. -/
  | linkAckReceive (port : Nat) (lseq : BitVec 16) (nak : Bool)
  /-- LANE_LOSS_OF_SIGNAL. R426. -/
  | laneLossOfSignal (port : Nat) (lanes : BitVec 16)
  /-- RETRAIN_COMPLETE. R426. -/
  | retrainComplete (port : Nat) (r : LaneReport)
  /-- SERVICE_RETRAIN. R426. -/
  | serviceRetrain (port : Nat) (whole : BitVec 16)
  /-- LINK_STATE_UPDATE. R421. -/
  | linkStateUpdate (node : Nat) (port : Nat) (up : Bool)
  /-- FABRIC_FORWARD. R420. -/
  | fabricForward (inPort : Nat) (pkt : FabPkt)
  /-- FABRIC_REQUEST_INGRESS. R429. -/
  | fabricRequestIngress (pkt : FabPkt)
  /-- FABRIC_RESPONSE. R432. -/
  | fabricResponse (pkt : FabPkt)
  /-- E2E_RESEND. R428. The request's place among those outstanding. -/
  | e2eResend (n : Nat)
  /-- REMOTE_TIMEOUT. R235. The request's place among those outstanding. -/
  | remoteTimeout (n : Nat)
  /-- REVISION_EXCHANGE. R431. -/
  | revisionExchange (node : Nat) (rev : BitVec 32) (ops : BitVec 16) (fmts : BitVec 32)
  /-- REDUCTION_CONTRIBUTION. R437. -/
  | reductionContribution (c : Contribution)
  /-- REDUCTION_ROUND_FAIL. R437. -/
  | reductionRoundFail (part : Nat) (hidx : BitVec 12)
  /-- CAP_FRAME. R387. -/
  | capFrame (bytes : List Byte)
  /-- THERMAL_LIMIT. R449. -/
  | thermalLimit
  /-- CURRENT_LIMIT. R449. -/
  | currentLimit
  /-- THERMAL_TRIP. R449. -/
  | thermalTrip
  /-- POWER_UP. R442. -/
  | powerUp (image : List Byte)
  /-- CALIBRATION_DONE. R442. -/
  | calibrationDone (failed : List Nat) (badChannels : List Nat) (sizes : List Nat)
  /-- MEMORY_INIT_DONE. R442. -/
  | memoryInitDone
  /-- FWPTR_WRITE. R444. -/
  | fwptrWrite (v : Word)
  /-- ATTESTATION_REQUEST. R445. -/
  | attestationRequest (rack : Bool)
  /-- HREQ_WRITE. R441. -/
  | hreqWrite (part : Nat) (v : Word)
  /-- CXL_MEM_REQUEST. R439. -/
  | cxlMemRequest (part : Nat) (op : HostOp)
  /-- LIVE_FIRMWARE_UPDATE. R446. -/
  | liveFirmwareUpdate (image : List Byte)
  /-- DRAM_CHANNEL_RETRAIN. R446. -/
  | dramChannelRetrain (ch : Nat) (on : Bool)
  /-- CLUSTER_RECALIBRATION. R446. -/
  | clusterRecalibration (clu : Nat) (on : Bool)
  /-- CLUSTER_RETIRE. R447. -/
  | clusterRetire (clu : Nat)
  /-- CLUSTER_RETIRE_FINISH. R447. -/
  | clusterRetireFinish (clu : Nat)
  /-- PARTITION_CREATE. R363. -/
  | partitionCreate (p : PartSpec)
  /-- ILLEGAL_OPCODE. R81. -/
  | illegalOpcode
  /-- OSELL_TRAINING_END. R443. -/
  | osellTrainingEnd (port : Nat) (whole : BitVec 16)
  /-- THERMAL_LIMIT_RELEASE. R449. -/
  | thermalLimitRelease
  /-- CURRENT_LIMIT_RELEASE. R449. -/
  | currentLimitRelease
  /-- HALL_KEY_PROVISION. R448. -/
  | hallKeyProvision (key : Nat)
deriving DecidableEq, Repr

end Sys2Proof
end

