-- ==== Sys2Proof/WellFormed.lean ====
section
/-! DEFINITION. Sys2Proof/WellFormed.lean: which instruction terms the encoding admits. The conditions are the reserved
values of spec 05 R80 and R81 and of each instruction's description, and the code values that the opcode map leaves
unassigned. A device step has no encoding and is always well formed. -/

namespace Sys2Proof

/-- A register pair's field holds an even number (05 R80). -/
def evenReg (r : Reg) : Bool := decide (r.toNat % 2 = 0)

/-- A vector pair's field is even (08 R184). -/
def evenV (r : VReg) : Bool := decide (r.toNat % 2 = 0)

/-- With S = 1, VB names a scalar register and bit 4 is zero (05 R75, R81). -/
def vbOk (s : BitVec 1) (b : VReg) : Bool := decide (s.toNat = 0) || decide (b.toNat < 16)

/-- `FCVT` takes codes 0x05 to 0x0C, at least one of them a float (07 R146). Code 0x05 to 0x08 are integers. -/
def fcvtIllegal (t s : Nat) : Bool :=
  !(decide (5 ≤ t ∧ t ≤ 12) && decide (5 ≤ s ∧ s ≤ 12) && (decide (9 ≤ t) || decide (9 ≤ s)))

/-- `VSCAN` FN4 is 0 to 5 or 8 to 13 (08 R164, R175). -/
def vscanIllegal (f : Nat) : Bool := decide (f = 6 ∨ f = 7 ∨ f = 14 ∨ f = 15)

/-- The register fields of the four `VMOVX` variants (08 R178). -/
def vmovxOk (f d a : Nat) : Bool :=
  match f with
  | 0 => decide (d < 16)
  | 1 => decide (a < 16)
  | 2 => decide (d < 16) && decide (a < 8)
  | _ => decide (d < 8) && decide (a < 16)

/-- The fields a `PLOG` operation does not use are zero, and S = 1 stands only with FN4 7 (08 R179). -/
def plogOk (f s a b : Nat) : Bool :=
  if f ≤ 3 then decide (s = 0) && decide (b < 8)
  else if f = 4 then decide (s = 0) && decide (b = 0)
  else if f = 7 then decide (s = 1) && decide (a = 0) && decide (b < 16)
  else decide (f < 8) && decide (s = 0) && decide (a = 0) && decide (b = 0)

/-- The instruction terms that words encode, and every device step. -/
def Instr.wf : Instr → Bool
  | .shiShl w c _ _ => decide (c.toNat < 64 / 2 ^ w.toNat)
  | .shiShr w c _ _ => decide (c.toNat < 64 / 2 ^ w.toNat)
  | .shiShra w c _ _ => decide (c.toNat < 64 / 2 ^ w.toNat)
  | .shiRot w c _ _ => decide (c.toNat < 64 / 2 ^ w.toNat)
  | .cmp c _ _ _ => decide (c.toNat < 6)
  | .cmpi c _ _ _ => decide (c.toNat < 6)
  | .extb _ l p _ _ => decide (l.toNat + 1 + p.toNat ≤ 64)
  | .insb l p _ _ => decide (l.toNat + 1 + p.toNat ≤ 64)
  | .fadd f _ _ _ _ => decide (f.toNat < 4)
  | .fsub f _ _ _ _ => decide (f.toNat < 4)
  | .fmul f _ _ _ _ => decide (f.toNat < 4)
  | .fdiv f _ _ _ _ => decide (f.toNat < 4)
  | .fmin f _ _ _ _ => decide (f.toNat < 4)
  | .fmax f _ _ _ _ => decide (f.toNat < 4)
  | .fsqrt f _ _ _ => decide (f.toNat < 4)
  | .fabs f _ _ _ => decide (f.toNat < 4)
  | .fneg f _ _ _ => decide (f.toNat < 4)
  | .fcpys f _ _ _ _ => decide (f.toNat < 4)
  | .fma f _ _ _ _ => decide (f.toNat < 4)
  | .fcmp f c _ _ _ => decide (f.toNat < 4) && decide (c.toNat < 5)
  | .fcvt _ t s _ _ => !fcvtIllegal t.toNat s.toNat
  | .fclass f _ _ => decide (f.toNat < 4)
  | .rcp f _ _ => decide (1 ≤ f.toNat) && decide (f.toNat < 4)
  | .rsq f _ _ => decide (1 ≤ f.toNat) && decide (f.toNat < 4)
  | .exp2 f _ _ => decide (1 ≤ f.toNat) && decide (f.toNat < 4)
  | .log2 f _ _ => decide (1 ≤ f.toNat) && decide (f.toNat < 4)
  | .sinpi f _ _ => decide (1 ≤ f.toNat) && decide (f.toNat < 4)
  | .cospi f _ _ => decide (1 ≤ f.toNat) && decide (f.toNat < 4)
  | .tanh f _ _ => decide (1 ≤ f.toNat) && decide (f.toNat < 4)
  | .sigm f _ _ => decide (1 ≤ f.toNat) && decide (f.toNat < 4)
  | .bc c _ _ _ => decide (c.toNat < 6)
  | .bz c _ _ => decide (c.toNat < 6)
  | .ld scp o z _ _ _ => decide (z.toNat < 7) && decide (o.toNat < 2) && (decide (o.toNat = 1) || decide (scp.toNat = 0))
  | .st scp o z _ _ _ => decide (z.toNat < 7) && (decide (o.toNat = 1) || decide (scp.toNat = 0))
  | .fence _ k => decide (1 ≤ k.toNat)
  | .lr _ o z _ _ _ => (decide (4 ≤ z.toNat) && decide (z.toNat ≤ 6)) && decide (o.toNat < 2)
  | .sc _ o z _ _ _ => (decide (4 ≤ z.toNat) && decide (z.toNat ≤ 6)) && decide (o.toNat < 2)
  | .amoAdd _ _ z _ _ _ => (decide (4 ≤ z.toNat) && decide (z.toNat ≤ 6))
  | .amoAnd _ _ z _ _ _ => (decide (4 ≤ z.toNat) && decide (z.toNat ≤ 6))
  | .amoOr _ _ z _ _ _ => (decide (4 ≤ z.toNat) && decide (z.toNat ≤ 6))
  | .amoXor _ _ z _ _ _ => (decide (4 ≤ z.toNat) && decide (z.toNat ≤ 6))
  | .amoSwap _ _ z _ _ _ => (decide (4 ≤ z.toNat) && decide (z.toNat ≤ 6))
  | .amoMin _ _ z _ _ _ => (decide (4 ≤ z.toNat) && decide (z.toNat ≤ 6))
  | .amoMax _ _ z _ _ _ => (decide (4 ≤ z.toNat) && decide (z.toNat ≤ 6))
  | .amoMinn _ _ z _ _ _ => (decide (4 ≤ z.toNat) && decide (z.toNat ≤ 6))
  | .amoMaxn _ _ z _ _ _ => (decide (4 ≤ z.toNat) && decide (z.toNat ≤ 6))
  | .cas z _ _ _ _ _ _ => (decide (4 ≤ z.toNat) && decide (z.toNat ≤ 6))
  | .waitrs scp o z _ _ _ => (decide (4 ≤ z.toNat) && decide (z.toNat ≤ 6)) && decide (o.toNat < 2) && (decide (o.toNat = 1) || decide (scp.toNat = 0))
  | .red f _ o _ _ _ => decide (5 ≤ f.toNat) && decide (f.toNat ≤ 11) && decide (o.toNat < 2)
  | .xsrd _ f _ o _ _ _ => decide (5 ≤ f.toNat) && decide (f.toNat ≤ 12) && decide (o.toNat < 2)
  | .invalCluster _ d _ _ => decide (d.toNat ≠ 0)
  | .ldc scp o d _ _ => decide (o.toNat < 2) && (decide (o.toNat = 1) || decide (scp.toNat = 0)) && evenReg d && decide (d.toNat ≠ 0)
  | .stc scp o d _ _ => decide (o.toNat < 2) && (decide (o.toNat = 1) || decide (scp.toNat = 0)) && evenReg d && decide (d.toNat ≠ 0)
  | .spawn k _ _ _ => decide (k.toNat < 7)
  | .bind k => decide (k.toNat < 7)
  | .rcall a _ k _ => decide (k.toNat = 0) || evenReg a
  | .emit k _ _ => decide (k.toNat < 3)
  | .test q _ _ => decide (q.toNat < 3)
  | .testv q _ _ => decide (q.toNat < 3)
  | .sigforce k a b => decide (k.toNat < 3) && (decide (k.toNat ≠ 2) || (decide (a.toNat = 0) && decide (b.toNat = 0)))
  | .rld m o z _ a _ _ => evenReg a && decide (m.toNat < 3) && decide (o.toNat < 2) && decide (z.toNat < 7) && (decide (m.toNat = 0) || decide (z.toNat = 6))
  | .rst m o z _ a _ _ => evenReg a && decide (m.toNat < 4) && decide (o.toNat < 2) && decide (z.toNat < 7) && (decide (m.toNat = 0) || decide (z.toNat = 6))
  | .ramo _ z k _ a _ _ => evenReg a && decide (k.toNat < 9) && (decide (4 ≤ z.toNat) && decide (z.toNat ≤ 6))
  | .cderiv d a b => evenReg a && evenReg b && evenReg d && decide (d.toNat ≠ 0)
  | .cget d _ _ => evenReg d && decide (d.toNat ≠ 0)
  | .cclr d a => evenReg a && decide (d.toNat / 2 ≠ a.toNat / 2)
  | .vadd s f _ _ _ b => decide (f.toNat < 4) && vbOk s b
  | .vsub s f _ _ _ b => decide (f.toNat < 4) && vbOk s b
  | .vmul s f _ _ _ b => decide (f.toNat < 5) && vbOk s b
  | .vfma s f _ _ _ b => decide (f.toNat < 4) && vbOk s b
  | .vmin s _ _ _ b => vbOk s b
  | .vmax s _ _ _ b => vbOk s b
  | .vand s _ _ _ b => vbOk s b
  | .vor s _ _ _ b => vbOk s b
  | .vxor s _ _ _ b => vbOk s b
  | .vshl s _ _ _ b => vbOk s b
  | .vshr s f _ _ _ b => decide (f.toNat < 3) && vbOk s b
  | .vcmp s f _ _ _ b => decide (f.toNat < 5) && vbOk s b
  | .vsel s _ _ _ b => vbOk s b
  | .vcvt s f _ _ _ b => decide (f.toNat < 15) && vbOk s b && (decide (s.toNat = 1) || decide (b.toNat = 0))
  | .vapx f _ _ _ => decide (f.toNat < 8)
  | .vred f _ _ _ => decide (f.toNat < 6)
  | .vscan f _ _ _ => !vscanIllegal f.toNat
  | .vbcast f _ _ a _ => decide (f.toNat = 1) || decide (a.toNat = 0)
  | .vmovx f d a _ => vmovxOk f.toNat d.toNat a.toNat
  | .vld s _ _ _ b => vbOk s b && (decide (s.toNat = 1) || decide (b.toNat = 0))
  | .vst s _ _ _ b => vbOk s b && (decide (s.toNat = 1) || decide (b.toNat = 0))
  | .vsort _ _ _ d a => evenV d && evenV a
  | .vmerge _ _ _ _ d a b => evenV d && evenV a && evenV b
  | .vtopk _ _ d a _ => evenV d && evenV a
  | .plog s f _ a b => plogOk f.toNat s.toNat a.toNat b.toNat
  | .fmt _ g f => decide (1 ≤ f.toNat) && decide (f.toNat ≤ 17) && decide (g.toNat ≠ 3)
  | .add _ _ _ _ | .sub _ _ _ _ | .and _ _ _ _ | .or _ _ _ _ | .xor _ _ _ _ | .andn _ _ _ _ => true
  | .shl _ _ _ _ | .shr _ _ _ _ | .shra _ _ _ _ | .rot _ _ _ _ | .min _ _ _ _ | .max _ _ _ _ => true
  | .minn _ _ _ _ | .maxn _ _ _ _ | .adds _ _ _ _ | .subs _ _ _ _ | .addi _ _ _ | .andi _ _ _ => true
  | .ori _ _ _ | .xori _ _ _ | .mul _ _ _ | .mulh _ _ _ | .mulhn _ _ _ | .mad _ _ _ => true
  | .div _ _ _ | .divn _ _ _ | .rem _ _ _ | .remn _ _ _ | .clz _ _ | .ctz _ _ => true
  | .popc _ _ | .brev _ _ | .bswap _ _ | .sel _ _ _ _ | .lea _ _ _ _ | .ldi _ _ => true
  | .widf _ _ | .shape _ _ | .locid _ _ | .br _ | .call _ | .jmpr _ => true
  | .callr _ _ | .ret _ | .jtab _ _ _ | .exit _ | .nop | .ldfeRead _ _ _ _ => true
  | .ldfeTake _ _ _ _ | .stfePut _ _ _ _ | .stfeFill _ _ _ _ | .stfeClear _ _ _ | .pref _ _ _ | .clean _ _ _ => true
  | .inval _ _ _ | .reap _ _ | .reapAny _ | .semP _ | .semV _ | .semTry _ _ => true
  | .send _ _ | .sendS _ _ | .openS _ _ | .close _ | .wake _ _ | .recv _ _ => true
  | .tryrecv _ _ | .rreply _ | .bara _ _ _ | .barw _ _ | .llpush _ _ | .llpop _ _ => true
  | .migrate _ | .specb _ _ | .specc | .pause | .instn _ | .renounce _ => true
  | .emits _ _ _ | .abortw _ _ | .suspw _ | .endw | .lehrw _ _ _ _ | .vabs _ _ _ => true
  | .vneg _ _ _ | .vperm _ _ _ _ | .vgath _ _ _ _ _ _ _ | .vscat _ _ _ _ _ _ _ | .rep _ _ _ | .vcfg _ => true
  | .vcfgWr _ _ | .vcfgClr _ | .mxq _ _ | .mxwait _ | .mxwaitAll | .mxstat _ _ => true
  | .mxstatResume | .mxstatDrop | .mxstatSdrop | .cpq _ _ _ | .cpwait _ | .cpwaitAll => true
  | .syncw _ _ | .syncwReset _ _ | .syncwait _ _ _ | .mbox _ _ | .mboxTry _ _ | .mboxSt _ => true
  | .gld _ _ _ _ | .gst _ _ _ _ | .gstep _ _ | .gwait _ _ | .gwaitOut _ _ | .trap _ => true
  | .brk _ | .sysrd _ _ | .syswr _ _ | .eret | .tlbinv _ _ | .htset _ _ => true
  | .dtraceMark _ | .dtraceBon | .dtraceBoff | .dtraceSync => true
  | .portEntryExecute _ _ | .repPass _ _ | .mxqWindowSubmit _ _ | .mma _ | .mmai _ => true
  | .mmaq _ | .tload _ | .tstore _ | .tzero _ | .tcfg _ => true
  | .trow _ | .gangJoin _ | .gangJoinComplete _ | .gangReduce _ | .scaleMissFill _ => true
  | .matrixCompletion _ | .copy _ _ _ | .gather _ _ _ | .scatter _ _ _ | .fill _ _ _ => true
  | .reduce _ _ _ | .halox _ _ _ | .rcopy _ _ _ | .notify _ _ _ | .copyPacketComplete _ => true
  | .copyHoldTimeout _ | .watermarkAdvance _ | .mailboxPost _ | .mailboxTimeout _ | .launch _ _ => true
  | .blockDispatch _ _ | .schedulerEpoch _ | .launchComplete _ | .qregRegister _ | .qregUnregister _ => true
  | .tagArrival _ | .releaseMarkerComplete _ | .homeWrite _ | .atomicAtPlace _ | .feResend _ => true
  | .feLimit _ | .lrLockExpiry _ | .streamIdleEnd _ _ | .bankmodeWrite _ _ | .bankModeChangeDone _ _ => true
  | .fifoPush _ _ _ | .fifoPop _ _ | .haloFillStart _ | .haloFillComplete _ | .sigmaUpdate _ => true
  | .haloFillAbandon _ _ | .lehrDecide _ | .instantLimit _ | .frameApply _ | .signalEmission _ => true
  | .signalRelease _ | .signalQuery _ | .channelWordArrival _ | .exitNotice _ | .barrierArrival _ => true
  | .migrationArrival _ | .migrationResend _ | .rcallArrival _ | .loadLevellingInterval _ | .llEntriesArrive _ => true
  | .pageWalk _ _ _ _ | .staWrite _ | .htbaseWrite _ | .htlenWrite _ | .ptrootWrite _ => true
  | .capepochWrite _ | .pcapwhyWrite _ | .tracectlWrite _ | .traceptrWrite _ | .ecauseWrite _ _ => true
  | .eventDelivery _ | .watchdog _ | .spill _ | .restore _ | .save _ => true
  | .patrolScrub _ | .controlStateError _ | .replayWaitTimeout _ | .flitReceive _ _ | .linkAckReceive _ _ _ => true
  | .laneLossOfSignal _ _ | .retrainComplete _ _ | .serviceRetrain _ _ | .linkStateUpdate _ _ _ | .fabricForward _ _ => true
  | .fabricRequestIngress _ | .fabricResponse _ | .e2eResend _ | .remoteTimeout _ | .revisionExchange _ _ _ _ => true
  | .reductionContribution _ | .reductionRoundFail _ _ | .capFrame _ | .thermalLimit | .currentLimit => true
  | .thermalTrip | .powerUp _ | .calibrationDone _ _ _ | .memoryInitDone | .fwptrWrite _ => true
  | .attestationRequest _ | .hreqWrite _ _ | .cxlMemRequest _ _ | .liveFirmwareUpdate _ | .dramChannelRetrain _ _ => true
  | .clusterRecalibration _ _ | .clusterRetire _ | .clusterRetireFinish _ | .partitionCreate _ | .illegalOpcode => true
  | .osellTrainingEnd _ _ | .thermalLimitRelease | .currentLimitRelease | .hallKeyProvision _ => true

/-- Whether words encode the term: the instructions do, the device's own steps do not. -/
def Instr.encodable : Instr → Bool
  | .add _ _ _ _ | .sub _ _ _ _ | .and _ _ _ _ | .or _ _ _ _ | .xor _ _ _ _ | .andn _ _ _ _ => true
  | .shl _ _ _ _ | .shr _ _ _ _ | .shra _ _ _ _ | .rot _ _ _ _ | .min _ _ _ _ | .max _ _ _ _ => true
  | .minn _ _ _ _ | .maxn _ _ _ _ | .adds _ _ _ _ | .subs _ _ _ _ | .addi _ _ _ | .andi _ _ _ => true
  | .ori _ _ _ | .xori _ _ _ | .shiShl _ _ _ _ | .shiShr _ _ _ _ | .shiShra _ _ _ _ | .shiRot _ _ _ _ => true
  | .cmp _ _ _ _ | .cmpi _ _ _ _ | .mul _ _ _ | .mulh _ _ _ | .mulhn _ _ _ | .mad _ _ _ => true
  | .div _ _ _ | .divn _ _ _ | .rem _ _ _ | .remn _ _ _ | .clz _ _ | .ctz _ _ => true
  | .popc _ _ | .brev _ _ | .bswap _ _ | .extb _ _ _ _ _ | .insb _ _ _ _ | .sel _ _ _ _ => true
  | .lea _ _ _ _ | .ldi _ _ | .widf _ _ | .shape _ _ | .locid _ _ | .fadd _ _ _ _ _ => true
  | .fsub _ _ _ _ _ | .fmul _ _ _ _ _ | .fdiv _ _ _ _ _ | .fmin _ _ _ _ _ | .fmax _ _ _ _ _ | .fsqrt _ _ _ _ => true
  | .fabs _ _ _ _ | .fneg _ _ _ _ | .fcpys _ _ _ _ _ | .fma _ _ _ _ _ | .fcmp _ _ _ _ _ | .fcvt _ _ _ _ _ => true
  | .fclass _ _ _ | .rcp _ _ _ | .rsq _ _ _ | .exp2 _ _ _ | .log2 _ _ _ | .sinpi _ _ _ => true
  | .cospi _ _ _ | .tanh _ _ _ | .sigm _ _ _ | .br _ | .call _ | .bc _ _ _ _ => true
  | .bz _ _ _ | .jmpr _ | .callr _ _ | .ret _ | .jtab _ _ _ | .exit _ => true
  | .nop | .ld _ _ _ _ _ _ | .st _ _ _ _ _ _ | .fence _ _ | .lr _ _ _ _ _ _ | .sc _ _ _ _ _ _ => true
  | .amoAdd _ _ _ _ _ _ | .amoAnd _ _ _ _ _ _ | .amoOr _ _ _ _ _ _ | .amoXor _ _ _ _ _ _ | .amoSwap _ _ _ _ _ _ | .amoMin _ _ _ _ _ _ => true
  | .amoMax _ _ _ _ _ _ | .amoMinn _ _ _ _ _ _ | .amoMaxn _ _ _ _ _ _ | .cas _ _ _ _ _ _ _ | .waitrs _ _ _ _ _ _ | .red _ _ _ _ _ _ => true
  | .xsrd _ _ _ _ _ _ _ | .ldfeRead _ _ _ _ | .ldfeTake _ _ _ _ | .stfePut _ _ _ _ | .stfeFill _ _ _ _ | .stfeClear _ _ _ => true
  | .pref _ _ _ | .clean _ _ _ | .inval _ _ _ | .invalCluster _ _ _ _ | .ldc _ _ _ _ _ | .stc _ _ _ _ _ => true
  | .spawn _ _ _ _ | .reap _ _ | .reapAny _ | .bind _ | .semP _ | .semV _ => true
  | .semTry _ _ | .send _ _ | .sendS _ _ | .openS _ _ | .close _ | .wake _ _ => true
  | .recv _ _ | .tryrecv _ _ | .rcall _ _ _ _ | .rreply _ | .bara _ _ _ | .barw _ _ => true
  | .llpush _ _ | .llpop _ _ | .migrate _ | .specb _ _ | .specc | .pause => true
  | .instn _ | .emit _ _ _ | .test _ _ _ | .testv _ _ _ | .renounce _ | .emits _ _ _ => true
  | .abortw _ _ | .suspw _ | .endw | .sigforce _ _ _ | .lehrw _ _ _ _ | .rld _ _ _ _ _ _ _ => true
  | .rst _ _ _ _ _ _ _ | .ramo _ _ _ _ _ _ _ | .cderiv _ _ _ | .cget _ _ _ | .cclr _ _ | .vadd _ _ _ _ _ _ => true
  | .vsub _ _ _ _ _ _ | .vmul _ _ _ _ _ _ | .vfma _ _ _ _ _ _ | .vmin _ _ _ _ _ | .vmax _ _ _ _ _ | .vand _ _ _ _ _ => true
  | .vor _ _ _ _ _ | .vxor _ _ _ _ _ | .vshl _ _ _ _ _ | .vshr _ _ _ _ _ _ | .vcmp _ _ _ _ _ _ | .vsel _ _ _ _ _ => true
  | .vcvt _ _ _ _ _ _ | .vapx _ _ _ _ | .vabs _ _ _ | .vneg _ _ _ | .vred _ _ _ _ | .vscan _ _ _ _ => true
  | .vperm _ _ _ _ | .vbcast _ _ _ _ _ | .vmovx _ _ _ _ | .vld _ _ _ _ _ | .vst _ _ _ _ _ | .vgath _ _ _ _ _ _ _ => true
  | .vscat _ _ _ _ _ _ _ | .vsort _ _ _ _ _ | .vmerge _ _ _ _ _ _ _ | .vtopk _ _ _ _ _ | .plog _ _ _ _ _ | .rep _ _ _ => true
  | .vcfg _ | .vcfgWr _ _ | .vcfgClr _ | .mxq _ _ | .mxwait _ | .mxwaitAll => true
  | .mxstat _ _ | .mxstatResume | .mxstatDrop | .mxstatSdrop | .cpq _ _ _ | .cpwait _ => true
  | .cpwaitAll | .syncw _ _ | .syncwReset _ _ | .syncwait _ _ _ | .mbox _ _ | .mboxTry _ _ => true
  | .mboxSt _ | .gld _ _ _ _ | .gst _ _ _ _ | .gstep _ _ | .gwait _ _ | .gwaitOut _ _ => true
  | .fmt _ _ _ | .trap _ | .brk _ | .sysrd _ _ | .syswr _ _ | .eret => true
  | .tlbinv _ _ | .htset _ _ | .dtraceMark _ | .dtraceBon | .dtraceBoff | .dtraceSync => true
  | .portEntryExecute _ _ | .repPass _ _ | .mxqWindowSubmit _ _ | .mma _ | .mmai _ => false
  | .mmaq _ | .tload _ | .tstore _ | .tzero _ | .tcfg _ => false
  | .trow _ | .gangJoin _ | .gangJoinComplete _ | .gangReduce _ | .scaleMissFill _ => false
  | .matrixCompletion _ | .copy _ _ _ | .gather _ _ _ | .scatter _ _ _ | .fill _ _ _ => false
  | .reduce _ _ _ | .halox _ _ _ | .rcopy _ _ _ | .notify _ _ _ | .copyPacketComplete _ => false
  | .copyHoldTimeout _ | .watermarkAdvance _ | .mailboxPost _ | .mailboxTimeout _ | .launch _ _ => false
  | .blockDispatch _ _ | .schedulerEpoch _ | .launchComplete _ | .qregRegister _ | .qregUnregister _ => false
  | .tagArrival _ | .releaseMarkerComplete _ | .homeWrite _ | .atomicAtPlace _ | .feResend _ => false
  | .feLimit _ | .lrLockExpiry _ | .streamIdleEnd _ _ | .bankmodeWrite _ _ | .bankModeChangeDone _ _ => false
  | .fifoPush _ _ _ | .fifoPop _ _ | .haloFillStart _ | .haloFillComplete _ | .sigmaUpdate _ => false
  | .haloFillAbandon _ _ | .lehrDecide _ | .instantLimit _ | .frameApply _ | .signalEmission _ => false
  | .signalRelease _ | .signalQuery _ | .channelWordArrival _ | .exitNotice _ | .barrierArrival _ => false
  | .migrationArrival _ | .migrationResend _ | .rcallArrival _ | .loadLevellingInterval _ | .llEntriesArrive _ => false
  | .pageWalk _ _ _ _ | .staWrite _ | .htbaseWrite _ | .htlenWrite _ | .ptrootWrite _ => false
  | .capepochWrite _ | .pcapwhyWrite _ | .tracectlWrite _ | .traceptrWrite _ | .ecauseWrite _ _ => false
  | .eventDelivery _ | .watchdog _ | .spill _ | .restore _ | .save _ => false
  | .patrolScrub _ | .controlStateError _ | .replayWaitTimeout _ | .flitReceive _ _ | .linkAckReceive _ _ _ => false
  | .laneLossOfSignal _ _ | .retrainComplete _ _ | .serviceRetrain _ _ | .linkStateUpdate _ _ _ | .fabricForward _ _ => false
  | .fabricRequestIngress _ | .fabricResponse _ | .e2eResend _ | .remoteTimeout _ | .revisionExchange _ _ _ _ => false
  | .reductionContribution _ | .reductionRoundFail _ _ | .capFrame _ | .thermalLimit | .currentLimit => false
  | .thermalTrip | .powerUp _ | .calibrationDone _ _ _ | .memoryInitDone | .fwptrWrite _ => false
  | .attestationRequest _ | .hreqWrite _ _ | .cxlMemRequest _ _ | .liveFirmwareUpdate _ | .dramChannelRetrain _ _ => false
  | .clusterRecalibration _ _ | .clusterRetire _ | .clusterRetireFinish _ | .partitionCreate _ | .illegalOpcode => false
  | .osellTrainingEnd _ _ | .thermalLimitRelease | .currentLimitRelease | .hallKeyProvision _ => false

end Sys2Proof
end

