-- ==== Sys2Proof/Decode.lean ====
section
/-! DEFINITION. Sys2Proof/Decode.lean: from words to instructions, and back. The decoder is written from spec 05 R68
to R89: the length bits, the major opcode, the function codes, the reserved fields and the reserved values, in the
order of R82 (what is not assigned is illegal; an assigned instruction with a reserved bit or value is rejected as
reserved). -/

namespace Sys2Proof

/-- Why a word is no instruction (05 R81). `truncated` is for a list with too few words, which a fetch never gives. -/
inductive Reject where
  | illegalOpcode
  | reservedBits
  | truncated
deriving DecidableEq, Repr

/-- Bits `lo` to `lo + n - 1` of a word (00 R5). -/
def fld (w lo n : Nat) : Nat := w / 2 ^ lo % 2 ^ n

/-- A field as a bit vector. -/
def bits (n w lo : Nat) : BitVec n := BitVec.ofNat n (fld w lo n)

/-- The words of one instruction, told apart by LEN: word 0, the extension words and the literal (05 R68). -/
structure Raw where
  len : Nat
  w : Nat
  e1 : Nat
  e2 : Nat
  lit : Nat
deriving DecidableEq, Repr

/-- LEN 0b01 and 0b11 carry a trailing literal (05 R68). -/
def Raw.long (x : Raw) : Bool := decide (x.len = 1 ∨ x.len = 3)

/-- The field an immediate stands in, or the literal that replaces it (05 R78). -/
def Raw.imm (x : Raw) (n w lo : Nat) : Imm n :=
  if x.long then .lit (BitVec.ofNat 64 x.lit) else .short (bits n w lo)

/-- The instruction's words by LEN (05 R68). Words after the instruction's own are not looked at. -/
def Raw.of : List Nat → Option Raw
  | [] => none
  | w :: r =>
    if w % 4 = 0 then some ⟨0, w, 0, 0, 0⟩
    else if w % 4 = 1 then
      match r with
      | l :: h :: _ => some ⟨1, w, 0, 0, l + h * 2 ^ 32⟩
      | _ => none
    else if w % 4 = 2 then
      match r with
      | a :: b :: _ => some ⟨2, w, a, b, 0⟩
      | _ => none
    else
      match r with
      | a :: b :: l :: h :: _ => some ⟨3, w, a, b, l + h * 2 ^ 32⟩
      | _ => none

/-- How many words an instruction has, from its first (05 R68). -/
def wordCount (w : Nat) : Nat := if w % 4 = 0 then 1 else if w % 4 = 3 then 5 else 3

/-- Major 0x01 (05 R89; R128). -/
def dec01 (x : Raw) : Except Reject Instr :=
  if x.len = 0 ∧ fld x.w 21 4 = 0 ∧ fld x.w 27 5 = 0 then
      .ok (.add (bits 2 x.w 25) (bits 4 x.w 9) (bits 4 x.w 13) (bits 4 x.w 17))
  else if x.len = 0 ∧ fld x.w 21 4 = 1 ∧ fld x.w 27 5 = 0 then
      .ok (.sub (bits 2 x.w 25) (bits 4 x.w 9) (bits 4 x.w 13) (bits 4 x.w 17))
  else if x.len = 0 ∧ fld x.w 21 4 = 2 ∧ fld x.w 27 5 = 0 then
      .ok (.and (bits 2 x.w 25) (bits 4 x.w 9) (bits 4 x.w 13) (bits 4 x.w 17))
  else if x.len = 0 ∧ fld x.w 21 4 = 3 ∧ fld x.w 27 5 = 0 then
      .ok (.or (bits 2 x.w 25) (bits 4 x.w 9) (bits 4 x.w 13) (bits 4 x.w 17))
  else if x.len = 0 ∧ fld x.w 21 4 = 4 ∧ fld x.w 27 5 = 0 then
      .ok (.xor (bits 2 x.w 25) (bits 4 x.w 9) (bits 4 x.w 13) (bits 4 x.w 17))
  else if x.len = 0 ∧ fld x.w 21 4 = 5 ∧ fld x.w 27 5 = 0 then
      .ok (.andn (bits 2 x.w 25) (bits 4 x.w 9) (bits 4 x.w 13) (bits 4 x.w 17))
  else if x.len = 0 ∧ fld x.w 21 4 = 6 ∧ fld x.w 27 5 = 0 then
      .ok (.shl (bits 2 x.w 25) (bits 4 x.w 9) (bits 4 x.w 13) (bits 4 x.w 17))
  else if x.len = 0 ∧ fld x.w 21 4 = 7 ∧ fld x.w 27 5 = 0 then
      .ok (.shr (bits 2 x.w 25) (bits 4 x.w 9) (bits 4 x.w 13) (bits 4 x.w 17))
  else if x.len = 0 ∧ fld x.w 21 4 = 8 ∧ fld x.w 27 5 = 0 then
      .ok (.shra (bits 2 x.w 25) (bits 4 x.w 9) (bits 4 x.w 13) (bits 4 x.w 17))
  else if x.len = 0 ∧ fld x.w 21 4 = 9 ∧ fld x.w 27 5 = 0 then
      .ok (.rot (bits 2 x.w 25) (bits 4 x.w 9) (bits 4 x.w 13) (bits 4 x.w 17))
  else if x.len = 0 ∧ fld x.w 21 4 = 10 ∧ fld x.w 27 5 = 0 then
      .ok (.min (bits 2 x.w 25) (bits 4 x.w 9) (bits 4 x.w 13) (bits 4 x.w 17))
  else if x.len = 0 ∧ fld x.w 21 4 = 11 ∧ fld x.w 27 5 = 0 then
      .ok (.max (bits 2 x.w 25) (bits 4 x.w 9) (bits 4 x.w 13) (bits 4 x.w 17))
  else if x.len = 0 ∧ fld x.w 21 4 = 12 ∧ fld x.w 27 5 = 0 then
      .ok (.minn (bits 2 x.w 25) (bits 4 x.w 9) (bits 4 x.w 13) (bits 4 x.w 17))
  else if x.len = 0 ∧ fld x.w 21 4 = 13 ∧ fld x.w 27 5 = 0 then
      .ok (.maxn (bits 2 x.w 25) (bits 4 x.w 9) (bits 4 x.w 13) (bits 4 x.w 17))
  else if x.len = 0 ∧ fld x.w 21 4 = 14 ∧ fld x.w 27 5 = 0 then
      .ok (.adds (bits 2 x.w 25) (bits 4 x.w 9) (bits 4 x.w 13) (bits 4 x.w 17))
  else if x.len = 0 ∧ fld x.w 21 4 = 15 ∧ fld x.w 27 5 = 0 then
      .ok (.subs (bits 2 x.w 25) (bits 4 x.w 9) (bits 4 x.w 13) (bits 4 x.w 17))
  else .error .illegalOpcode

/-- Major 0x02 (05 R89; R129). -/
def dec02 (x : Raw) : Except Reject Instr :=
  if (x.len = 0 ∨ x.len = 1) then
      if (x.long = true ∧ fld x.w 17 15 ≠ 0) then .error .reservedBits
      else .ok (.addi (bits 4 x.w 9) (bits 4 x.w 13) (x.imm 15 x.w 17))
  else .error .illegalOpcode

/-- Major 0x03 (05 R89; R129). -/
def dec03 (x : Raw) : Except Reject Instr :=
  if (x.len = 0 ∨ x.len = 1) then
      if (x.long = true ∧ fld x.w 17 15 ≠ 0) then .error .reservedBits
      else .ok (.andi (bits 4 x.w 9) (bits 4 x.w 13) (x.imm 15 x.w 17))
  else .error .illegalOpcode

/-- Major 0x04 (05 R89; R129). -/
def dec04 (x : Raw) : Except Reject Instr :=
  if (x.len = 0 ∨ x.len = 1) then
      if (x.long = true ∧ fld x.w 17 15 ≠ 0) then .error .reservedBits
      else .ok (.ori (bits 4 x.w 9) (bits 4 x.w 13) (x.imm 15 x.w 17))
  else .error .illegalOpcode

/-- Major 0x05 (05 R89; R129). -/
def dec05 (x : Raw) : Except Reject Instr :=
  if (x.len = 0 ∨ x.len = 1) then
      if (x.long = true ∧ fld x.w 17 15 ≠ 0) then .error .reservedBits
      else .ok (.xori (bits 4 x.w 9) (bits 4 x.w 13) (x.imm 15 x.w 17))
  else .error .illegalOpcode

/-- Major 0x06 (05 R89; R130). -/
def dec06 (x : Raw) : Except Reject Instr :=
  if x.len = 0 ∧ fld x.w 30 2 = 0 then
      if fld x.w 23 5 ≠ 0 then .error .reservedBits
      else .ok (.shiShl (bits 2 x.w 28) (bits 6 x.w 17) (bits 4 x.w 9) (bits 4 x.w 13))
  else if x.len = 0 ∧ fld x.w 30 2 = 1 then
      if fld x.w 23 5 ≠ 0 then .error .reservedBits
      else .ok (.shiShr (bits 2 x.w 28) (bits 6 x.w 17) (bits 4 x.w 9) (bits 4 x.w 13))
  else if x.len = 0 ∧ fld x.w 30 2 = 2 then
      if fld x.w 23 5 ≠ 0 then .error .reservedBits
      else .ok (.shiShra (bits 2 x.w 28) (bits 6 x.w 17) (bits 4 x.w 9) (bits 4 x.w 13))
  else if x.len = 0 ∧ fld x.w 30 2 = 3 then
      if fld x.w 23 5 ≠ 0 then .error .reservedBits
      else .ok (.shiRot (bits 2 x.w 28) (bits 6 x.w 17) (bits 4 x.w 9) (bits 4 x.w 13))
  else .error .illegalOpcode

/-- Major 0x07 (05 R89; R131). -/
def dec07 (x : Raw) : Except Reject Instr :=
  if x.len = 0 ∧ fld x.w 24 8 = 0 then
      if 6 ≤ fld x.w 21 3 then .error .illegalOpcode
      else .ok (.cmp (bits 3 x.w 21) (bits 4 x.w 9) (bits 4 x.w 13) (bits 4 x.w 17))
  else .error .illegalOpcode

/-- Major 0x08 (05 R89; R131). -/
def dec08 (x : Raw) : Except Reject Instr :=
  if (x.len = 0 ∨ x.len = 1) then
      if 6 ≤ fld x.w 29 3 then .error .illegalOpcode
      else if (x.long = true ∧ fld x.w 17 12 ≠ 0) then .error .reservedBits
      else .ok (.cmpi (bits 3 x.w 29) (bits 4 x.w 9) (bits 4 x.w 13) (x.imm 12 x.w 17))
  else .error .illegalOpcode

/-- Major 0x09 (05 R89; R132). -/
def dec09 (x : Raw) : Except Reject Instr :=
  if x.len = 0 ∧ fld x.w 21 11 = 0 then
      .ok (.mul (bits 4 x.w 9) (bits 4 x.w 13) (bits 4 x.w 17))
  else if x.len = 0 ∧ fld x.w 21 11 = 1 then
      .ok (.mulh (bits 4 x.w 9) (bits 4 x.w 13) (bits 4 x.w 17))
  else if x.len = 0 ∧ fld x.w 21 11 = 2 then
      .ok (.mulhn (bits 4 x.w 9) (bits 4 x.w 13) (bits 4 x.w 17))
  else if x.len = 0 ∧ fld x.w 21 11 = 3 then
      .ok (.mad (bits 4 x.w 9) (bits 4 x.w 13) (bits 4 x.w 17))
  else if x.len = 0 ∧ fld x.w 21 11 = 4 then
      .ok (.div (bits 4 x.w 9) (bits 4 x.w 13) (bits 4 x.w 17))
  else if x.len = 0 ∧ fld x.w 21 11 = 5 then
      .ok (.divn (bits 4 x.w 9) (bits 4 x.w 13) (bits 4 x.w 17))
  else if x.len = 0 ∧ fld x.w 21 11 = 6 then
      .ok (.rem (bits 4 x.w 9) (bits 4 x.w 13) (bits 4 x.w 17))
  else if x.len = 0 ∧ fld x.w 21 11 = 7 then
      .ok (.remn (bits 4 x.w 9) (bits 4 x.w 13) (bits 4 x.w 17))
  else .error .illegalOpcode

/-- Major 0x0A (05 R89; R133). -/
def dec0A (x : Raw) : Except Reject Instr :=
  if x.len = 0 ∧ fld x.w 21 11 = 0 then
      if fld x.w 17 4 ≠ 0 then .error .reservedBits
      else .ok (.clz (bits 4 x.w 9) (bits 4 x.w 13))
  else if x.len = 0 ∧ fld x.w 21 11 = 1 then
      if fld x.w 17 4 ≠ 0 then .error .reservedBits
      else .ok (.ctz (bits 4 x.w 9) (bits 4 x.w 13))
  else if x.len = 0 ∧ fld x.w 21 11 = 2 then
      if fld x.w 17 4 ≠ 0 then .error .reservedBits
      else .ok (.popc (bits 4 x.w 9) (bits 4 x.w 13))
  else if x.len = 0 ∧ fld x.w 21 11 = 3 then
      if fld x.w 17 4 ≠ 0 then .error .reservedBits
      else .ok (.brev (bits 4 x.w 9) (bits 4 x.w 13))
  else if x.len = 0 ∧ fld x.w 21 11 = 4 then
      if fld x.w 17 4 ≠ 0 then .error .reservedBits
      else .ok (.bswap (bits 4 x.w 9) (bits 4 x.w 13))
  else .error .illegalOpcode

/-- Major 0x0B (05 R89; R134). -/
def dec0B (x : Raw) : Except Reject Instr :=
  if x.len = 0 then
      if fld x.w 30 2 ≠ 0 then .error .reservedBits
      else .ok (.extb (bits 1 x.w 29) (bits 6 x.w 23) (bits 6 x.w 17) (bits 4 x.w 9) (bits 4 x.w 13))
  else .error .illegalOpcode

/-- Major 0x0C (05 R89; R134). -/
def dec0C (x : Raw) : Except Reject Instr :=
  if x.len = 0 then
      if fld x.w 29 3 ≠ 0 then .error .reservedBits
      else .ok (.insb (bits 6 x.w 23) (bits 6 x.w 17) (bits 4 x.w 9) (bits 4 x.w 13))
  else .error .illegalOpcode

/-- Major 0x0D (05 R89; R135). -/
def dec0D (x : Raw) : Except Reject Instr :=
  if x.len = 0 ∧ fld x.w 25 7 = 0 then
      .ok (.sel (bits 4 x.w 21) (bits 4 x.w 9) (bits 4 x.w 13) (bits 4 x.w 17))
  else .error .illegalOpcode

/-- Major 0x0E (05 R89; R136). -/
def dec0E (x : Raw) : Except Reject Instr :=
  if x.len = 0 ∧ fld x.w 24 8 = 0 then
      .ok (.lea (bits 3 x.w 21) (bits 4 x.w 9) (bits 4 x.w 13) (bits 4 x.w 17))
  else .error .illegalOpcode

/-- Major 0x0F (05 R89; R137). -/
def dec0F (x : Raw) : Except Reject Instr :=
  if (x.len = 0 ∨ x.len = 1) then
      if fld x.w 13 4 ≠ 0 ∨ (x.long = true ∧ fld x.w 17 15 ≠ 0) then .error .reservedBits
      else .ok (.ldi (bits 4 x.w 9) (x.imm 15 x.w 17))
  else .error .illegalOpcode

/-- Major 0x10 (05 R89; R138). -/
def dec10 (x : Raw) : Except Reject Instr :=
  if x.len = 0 ∧ fld x.w 21 11 = 0 then
      if fld x.w 17 4 ≠ 0 then .error .reservedBits
      else .ok (.widf (bits 4 x.w 9) (bits 4 x.w 13))
  else if x.len = 0 ∧ fld x.w 21 11 = 1 then
      if fld x.w 17 4 ≠ 0 then .error .reservedBits
      else .ok (.shape (bits 4 x.w 9) (bits 4 x.w 13))
  else if x.len = 0 ∧ fld x.w 21 11 = 2 then
      if fld x.w 17 4 ≠ 0 then .error .reservedBits
      else .ok (.locid (bits 4 x.w 9) (bits 4 x.w 13))
  else .error .illegalOpcode

/-- Major 0x11 (05 R89; R143). -/
def dec11 (x : Raw) : Except Reject Instr :=
  if x.len = 0 ∧ fld x.w 21 4 = 0 ∧ fld x.w 25 2 = 0 then
      if 4 ≤ fld x.w 29 3 then .error .illegalOpcode
      else .ok (.fadd (bits 3 x.w 29) (bits 2 x.w 27) (bits 4 x.w 9) (bits 4 x.w 13) (bits 4 x.w 17))
  else if x.len = 0 ∧ fld x.w 21 4 = 1 ∧ fld x.w 25 2 = 0 then
      if 4 ≤ fld x.w 29 3 then .error .illegalOpcode
      else .ok (.fsub (bits 3 x.w 29) (bits 2 x.w 27) (bits 4 x.w 9) (bits 4 x.w 13) (bits 4 x.w 17))
  else if x.len = 0 ∧ fld x.w 21 4 = 2 ∧ fld x.w 25 2 = 0 then
      if 4 ≤ fld x.w 29 3 then .error .illegalOpcode
      else .ok (.fmul (bits 3 x.w 29) (bits 2 x.w 27) (bits 4 x.w 9) (bits 4 x.w 13) (bits 4 x.w 17))
  else if x.len = 0 ∧ fld x.w 21 4 = 3 ∧ fld x.w 25 2 = 0 then
      if 4 ≤ fld x.w 29 3 then .error .illegalOpcode
      else .ok (.fdiv (bits 3 x.w 29) (bits 2 x.w 27) (bits 4 x.w 9) (bits 4 x.w 13) (bits 4 x.w 17))
  else if x.len = 0 ∧ fld x.w 21 4 = 4 ∧ fld x.w 25 2 = 0 then
      if 4 ≤ fld x.w 29 3 then .error .illegalOpcode
      else .ok (.fmin (bits 3 x.w 29) (bits 2 x.w 27) (bits 4 x.w 9) (bits 4 x.w 13) (bits 4 x.w 17))
  else if x.len = 0 ∧ fld x.w 21 4 = 5 ∧ fld x.w 25 2 = 0 then
      if 4 ≤ fld x.w 29 3 then .error .illegalOpcode
      else .ok (.fmax (bits 3 x.w 29) (bits 2 x.w 27) (bits 4 x.w 9) (bits 4 x.w 13) (bits 4 x.w 17))
  else if x.len = 0 ∧ fld x.w 21 4 = 6 ∧ fld x.w 25 2 = 0 then
      if 4 ≤ fld x.w 29 3 then .error .illegalOpcode
      else if fld x.w 17 4 ≠ 0 then .error .reservedBits
      else .ok (.fsqrt (bits 3 x.w 29) (bits 2 x.w 27) (bits 4 x.w 9) (bits 4 x.w 13))
  else if x.len = 0 ∧ fld x.w 21 4 = 7 ∧ fld x.w 25 2 = 0 then
      if 4 ≤ fld x.w 29 3 then .error .illegalOpcode
      else if fld x.w 17 4 ≠ 0 then .error .reservedBits
      else .ok (.fabs (bits 3 x.w 29) (bits 2 x.w 27) (bits 4 x.w 9) (bits 4 x.w 13))
  else if x.len = 0 ∧ fld x.w 21 4 = 8 ∧ fld x.w 25 2 = 0 then
      if 4 ≤ fld x.w 29 3 then .error .illegalOpcode
      else if fld x.w 17 4 ≠ 0 then .error .reservedBits
      else .ok (.fneg (bits 3 x.w 29) (bits 2 x.w 27) (bits 4 x.w 9) (bits 4 x.w 13))
  else if x.len = 0 ∧ fld x.w 21 4 = 9 ∧ fld x.w 25 2 = 0 then
      if 4 ≤ fld x.w 29 3 then .error .illegalOpcode
      else .ok (.fcpys (bits 3 x.w 29) (bits 2 x.w 27) (bits 4 x.w 9) (bits 4 x.w 13) (bits 4 x.w 17))
  else .error .illegalOpcode

/-- Major 0x12 (05 R89; R144). -/
def dec12 (x : Raw) : Except Reject Instr :=
  if x.len = 0 ∧ fld x.w 21 6 = 0 then
      if 4 ≤ fld x.w 29 3 then .error .illegalOpcode
      else .ok (.fma (bits 3 x.w 29) (bits 2 x.w 27) (bits 4 x.w 9) (bits 4 x.w 13) (bits 4 x.w 17))
  else .error .illegalOpcode

/-- Major 0x13 (05 R89; R145). -/
def dec13 (x : Raw) : Except Reject Instr :=
  if x.len = 0 ∧ fld x.w 24 5 = 0 then
      if 4 ≤ fld x.w 29 3 ∨ 5 ≤ fld x.w 21 3 then .error .illegalOpcode
      else .ok (.fcmp (bits 3 x.w 29) (bits 3 x.w 21) (bits 4 x.w 9) (bits 4 x.w 13) (bits 4 x.w 17))
  else .error .illegalOpcode

/-- Major 0x14 (05 R89; R146). -/
def dec14 (x : Raw) : Except Reject Instr :=
  if x.len = 0 then
      if fcvtIllegal (fld x.w 26 5) (fld x.w 21 5) = true then .error .illegalOpcode
      else if fld x.w 17 4 ≠ 0 then .error .reservedBits
      else .ok (.fcvt (bits 1 x.w 31) (bits 5 x.w 26) (bits 5 x.w 21) (bits 4 x.w 9) (bits 4 x.w 13))
  else .error .illegalOpcode

/-- Major 0x15 (05 R89; R147). -/
def dec15 (x : Raw) : Except Reject Instr :=
  if x.len = 0 ∧ fld x.w 21 8 = 0 then
      if 4 ≤ fld x.w 29 3 then .error .illegalOpcode
      else if fld x.w 17 4 ≠ 0 then .error .reservedBits
      else .ok (.fclass (bits 3 x.w 29) (bits 4 x.w 9) (bits 4 x.w 13))
  else .error .illegalOpcode

/-- Major 0x16 (05 R89; R148). -/
def dec16 (x : Raw) : Except Reject Instr :=
  if x.len = 0 ∧ fld x.w 21 8 = 0 then
      if fld x.w 29 3 = 0 ∨ 4 ≤ fld x.w 29 3 then .error .illegalOpcode
      else if fld x.w 17 4 ≠ 0 then .error .reservedBits
      else .ok (.rcp (bits 3 x.w 29) (bits 4 x.w 9) (bits 4 x.w 13))
  else if x.len = 0 ∧ fld x.w 21 8 = 1 then
      if fld x.w 29 3 = 0 ∨ 4 ≤ fld x.w 29 3 then .error .illegalOpcode
      else if fld x.w 17 4 ≠ 0 then .error .reservedBits
      else .ok (.rsq (bits 3 x.w 29) (bits 4 x.w 9) (bits 4 x.w 13))
  else if x.len = 0 ∧ fld x.w 21 8 = 2 then
      if fld x.w 29 3 = 0 ∨ 4 ≤ fld x.w 29 3 then .error .illegalOpcode
      else if fld x.w 17 4 ≠ 0 then .error .reservedBits
      else .ok (.exp2 (bits 3 x.w 29) (bits 4 x.w 9) (bits 4 x.w 13))
  else if x.len = 0 ∧ fld x.w 21 8 = 3 then
      if fld x.w 29 3 = 0 ∨ 4 ≤ fld x.w 29 3 then .error .illegalOpcode
      else if fld x.w 17 4 ≠ 0 then .error .reservedBits
      else .ok (.log2 (bits 3 x.w 29) (bits 4 x.w 9) (bits 4 x.w 13))
  else if x.len = 0 ∧ fld x.w 21 8 = 4 then
      if fld x.w 29 3 = 0 ∨ 4 ≤ fld x.w 29 3 then .error .illegalOpcode
      else if fld x.w 17 4 ≠ 0 then .error .reservedBits
      else .ok (.sinpi (bits 3 x.w 29) (bits 4 x.w 9) (bits 4 x.w 13))
  else if x.len = 0 ∧ fld x.w 21 8 = 5 then
      if fld x.w 29 3 = 0 ∨ 4 ≤ fld x.w 29 3 then .error .illegalOpcode
      else if fld x.w 17 4 ≠ 0 then .error .reservedBits
      else .ok (.cospi (bits 3 x.w 29) (bits 4 x.w 9) (bits 4 x.w 13))
  else if x.len = 0 ∧ fld x.w 21 8 = 6 then
      if fld x.w 29 3 = 0 ∨ 4 ≤ fld x.w 29 3 then .error .illegalOpcode
      else if fld x.w 17 4 ≠ 0 then .error .reservedBits
      else .ok (.tanh (bits 3 x.w 29) (bits 4 x.w 9) (bits 4 x.w 13))
  else if x.len = 0 ∧ fld x.w 21 8 = 7 then
      if fld x.w 29 3 = 0 ∨ 4 ≤ fld x.w 29 3 then .error .illegalOpcode
      else if fld x.w 17 4 ≠ 0 then .error .reservedBits
      else .ok (.sigm (bits 3 x.w 29) (bits 4 x.w 9) (bits 4 x.w 13))
  else .error .illegalOpcode

/-- Major 0x18 (05 R89; R150). -/
def dec18 (x : Raw) : Except Reject Instr :=
  if (x.len = 0 ∨ x.len = 1) then
      if (x.long = true ∧ fld x.w 9 23 ≠ 0) then .error .reservedBits
      else .ok (.br (x.imm 23 x.w 9))
  else .error .illegalOpcode

/-- Major 0x19 (05 R89; R151). -/
def dec19 (x : Raw) : Except Reject Instr :=
  if (x.len = 0 ∨ x.len = 1) then
      if (x.long = true ∧ fld x.w 20 12 ≠ 0) then .error .reservedBits
      else .ok (.bc (bits 3 x.w 17) (bits 4 x.w 13) (bits 4 x.w 9) (x.imm 12 x.w 20))
  else .error .illegalOpcode

/-- Major 0x1A (05 R89; R151). -/
def dec1A (x : Raw) : Except Reject Instr :=
  if (x.len = 0 ∨ x.len = 1) then
      if fld x.w 13 4 ≠ 0 ∨ (x.long = true ∧ fld x.w 20 12 ≠ 0) then .error .reservedBits
      else .ok (.bz (bits 3 x.w 17) (bits 4 x.w 9) (x.imm 12 x.w 20))
  else .error .illegalOpcode

/-- Major 0x1B (05 R89; R150). -/
def dec1B (x : Raw) : Except Reject Instr :=
  if (x.len = 0 ∨ x.len = 1) then
      if (x.long = true ∧ fld x.w 9 23 ≠ 0) then .error .reservedBits
      else .ok (.call (x.imm 23 x.w 9))
  else .error .illegalOpcode

/-- Major 0x1C (05 R89; R152). -/
def dec1C (x : Raw) : Except Reject Instr :=
  if x.len = 0 ∧ fld x.w 21 11 = 0 then
      if fld x.w 9 4 ≠ 0 ∨ fld x.w 17 4 ≠ 0 then .error .reservedBits
      else .ok (.jmpr (bits 4 x.w 13))
  else if x.len = 0 ∧ fld x.w 21 11 = 1 then
      if fld x.w 17 4 ≠ 0 then .error .reservedBits
      else .ok (.callr (bits 4 x.w 9) (bits 4 x.w 13))
  else if x.len = 0 ∧ fld x.w 21 11 = 2 then
      if fld x.w 9 4 ≠ 0 ∨ fld x.w 17 4 ≠ 0 then .error .reservedBits
      else .ok (.ret (bits 4 x.w 13))
  else .error .illegalOpcode

/-- Major 0x1D (05 R89; R153). -/
def dec1D (x : Raw) : Except Reject Instr :=
  if x.len = 2 ∧ fld x.w 21 11 = 0 then
      if fld x.w 9 4 ≠ 0 ∨ fld x.w 17 4 ≠ 0 ∨ fld x.e2 0 2 ≠ 0 then .error .reservedBits
      else .ok (.jtab (bits 4 x.w 13) (bits 32 x.e1 0) (bits 30 x.e2 2))
  else .error .illegalOpcode

/-- Major 0x1E (05 R89; R154). -/
def dec1E (x : Raw) : Except Reject Instr :=
  if x.len = 0 then
      if fld x.w 9 8 ≠ 0 ∨ fld x.w 25 7 ≠ 0 then .error .reservedBits
      else .ok (.exit (bits 8 x.w 17))
  else .error .illegalOpcode

/-- Major 0x1F (05 R89; R155). -/
def dec1F (x : Raw) : Except Reject Instr :=
  if x.len = 0 then
      if fld x.w 9 23 ≠ 0 then .error .reservedBits
      else .ok (.nop)
  else .error .illegalOpcode

/-- Major 0x20 (05 R89; R219). -/
def dec20 (x : Raw) : Except Reject Instr :=
  if (x.len = 0 ∨ x.len = 1) then
      if (x.long = true ∧ fld x.w 24 8 ≠ 0) then .error .reservedBits
      else .ok (.ld (bits 2 x.w 22) (bits 2 x.w 20) (bits 3 x.w 17) (bits 4 x.w 9) (bits 4 x.w 13) (x.imm 8 x.w 24))
  else .error .illegalOpcode

/-- Major 0x21 (05 R89; R219). -/
def dec21 (x : Raw) : Except Reject Instr :=
  if (x.len = 0 ∨ x.len = 1) then
      if (x.long = true ∧ fld x.w 24 8 ≠ 0) then .error .reservedBits
      else .ok (.st (bits 2 x.w 22) (bits 2 x.w 20) (bits 3 x.w 17) (bits 4 x.w 9) (bits 4 x.w 13) (x.imm 8 x.w 24))
  else .error .illegalOpcode

/-- Major 0x22 (05 R89; R222). -/
def dec22 (x : Raw) : Except Reject Instr :=
  if x.len = 0 ∧ fld x.w 25 7 = 0 then
      if fld x.w 21 2 = 0 then .error .illegalOpcode
      else if fld x.w 9 12 ≠ 0 then .error .reservedBits
      else .ok (.fence (bits 2 x.w 23) (bits 2 x.w 21))
  else .error .illegalOpcode

/-- Major 0x23 (05 R89; R225). -/
def dec23 (x : Raw) : Except Reject Instr :=
  if (x.len = 0 ∨ x.len = 1) then
      if (x.long = true ∧ fld x.w 24 8 ≠ 0) then .error .reservedBits
      else .ok (.lr (bits 2 x.w 22) (bits 2 x.w 20) (bits 3 x.w 17) (bits 4 x.w 9) (bits 4 x.w 13) (x.imm 8 x.w 24))
  else .error .illegalOpcode

/-- Major 0x24 (05 R89; R225). -/
def dec24 (x : Raw) : Except Reject Instr :=
  if (x.len = 0 ∨ x.len = 1) then
      if (x.long = true ∧ fld x.w 24 8 ≠ 0) then .error .reservedBits
      else .ok (.sc (bits 2 x.w 22) (bits 2 x.w 20) (bits 3 x.w 17) (bits 4 x.w 9) (bits 4 x.w 13) (x.imm 8 x.w 24))
  else .error .illegalOpcode

/-- Major 0x25 (05 R89; R223). -/
def dec25 (x : Raw) : Except Reject Instr :=
  if (x.len = 0 ∨ x.len = 1) ∧ fld x.w 28 4 = 0 then
      if (x.long = true ∧ fld x.w 24 4 ≠ 0) then .error .reservedBits
      else .ok (.amoAdd (bits 2 x.w 22) (bits 2 x.w 20) (bits 3 x.w 17) (bits 4 x.w 9) (bits 4 x.w 13) (x.imm 4 x.w 24))
  else if (x.len = 0 ∨ x.len = 1) ∧ fld x.w 28 4 = 1 then
      if (x.long = true ∧ fld x.w 24 4 ≠ 0) then .error .reservedBits
      else .ok (.amoAnd (bits 2 x.w 22) (bits 2 x.w 20) (bits 3 x.w 17) (bits 4 x.w 9) (bits 4 x.w 13) (x.imm 4 x.w 24))
  else if (x.len = 0 ∨ x.len = 1) ∧ fld x.w 28 4 = 2 then
      if (x.long = true ∧ fld x.w 24 4 ≠ 0) then .error .reservedBits
      else .ok (.amoOr (bits 2 x.w 22) (bits 2 x.w 20) (bits 3 x.w 17) (bits 4 x.w 9) (bits 4 x.w 13) (x.imm 4 x.w 24))
  else if (x.len = 0 ∨ x.len = 1) ∧ fld x.w 28 4 = 3 then
      if (x.long = true ∧ fld x.w 24 4 ≠ 0) then .error .reservedBits
      else .ok (.amoXor (bits 2 x.w 22) (bits 2 x.w 20) (bits 3 x.w 17) (bits 4 x.w 9) (bits 4 x.w 13) (x.imm 4 x.w 24))
  else if (x.len = 0 ∨ x.len = 1) ∧ fld x.w 28 4 = 4 then
      if (x.long = true ∧ fld x.w 24 4 ≠ 0) then .error .reservedBits
      else .ok (.amoSwap (bits 2 x.w 22) (bits 2 x.w 20) (bits 3 x.w 17) (bits 4 x.w 9) (bits 4 x.w 13) (x.imm 4 x.w 24))
  else if (x.len = 0 ∨ x.len = 1) ∧ fld x.w 28 4 = 5 then
      if (x.long = true ∧ fld x.w 24 4 ≠ 0) then .error .reservedBits
      else .ok (.amoMin (bits 2 x.w 22) (bits 2 x.w 20) (bits 3 x.w 17) (bits 4 x.w 9) (bits 4 x.w 13) (x.imm 4 x.w 24))
  else if (x.len = 0 ∨ x.len = 1) ∧ fld x.w 28 4 = 6 then
      if (x.long = true ∧ fld x.w 24 4 ≠ 0) then .error .reservedBits
      else .ok (.amoMax (bits 2 x.w 22) (bits 2 x.w 20) (bits 3 x.w 17) (bits 4 x.w 9) (bits 4 x.w 13) (x.imm 4 x.w 24))
  else if (x.len = 0 ∨ x.len = 1) ∧ fld x.w 28 4 = 7 then
      if (x.long = true ∧ fld x.w 24 4 ≠ 0) then .error .reservedBits
      else .ok (.amoMinn (bits 2 x.w 22) (bits 2 x.w 20) (bits 3 x.w 17) (bits 4 x.w 9) (bits 4 x.w 13) (x.imm 4 x.w 24))
  else if (x.len = 0 ∨ x.len = 1) ∧ fld x.w 28 4 = 8 then
      if (x.long = true ∧ fld x.w 24 4 ≠ 0) then .error .reservedBits
      else .ok (.amoMaxn (bits 2 x.w 22) (bits 2 x.w 20) (bits 3 x.w 17) (bits 4 x.w 9) (bits 4 x.w 13) (x.imm 4 x.w 24))
  else .error .illegalOpcode

/-- Major 0x26 (05 R89; R224). -/
def dec26 (x : Raw) : Except Reject Instr :=
  if (x.len = 2 ∨ x.len = 3) ∧ fld x.w 21 11 = 0 then
      if fld x.e1 7 25 ≠ 0 ∨ (x.long = true ∧ fld x.e2 0 32 ≠ 0) then .error .reservedBits
      else .ok (.cas (bits 3 x.e1 4) (bits 2 x.e1 2) (bits 2 x.e1 0) (bits 4 x.w 9) (bits 4 x.w 13) (bits 4 x.w 17) (x.imm 32 x.e2 0))
  else .error .illegalOpcode

/-- Major 0x27 (05 R89; R227). -/
def dec27 (x : Raw) : Except Reject Instr :=
  if (x.len = 0 ∨ x.len = 1) then
      if (x.long = true ∧ fld x.w 24 8 ≠ 0) then .error .reservedBits
      else .ok (.waitrs (bits 2 x.w 22) (bits 2 x.w 20) (bits 3 x.w 17) (bits 4 x.w 9) (bits 4 x.w 13) (x.imm 8 x.w 24))
  else .error .illegalOpcode

/-- Major 0x28 (05 R89; R228). -/
def dec28 (x : Raw) : Except Reject Instr :=
  if (x.len = 2 ∨ x.len = 3) ∧ fld x.w 21 11 = 0 then
      if fld x.w 9 4 ≠ 0 ∨ fld x.e1 4 3 ≠ 0 ∨ fld x.e1 12 20 ≠ 0 ∨ (x.long = true ∧ fld x.e2 0 32 ≠ 0) then .error .reservedBits
      else .ok (.red (bits 5 x.e1 7) (bits 2 x.e1 2) (bits 2 x.e1 0) (bits 4 x.w 13) (bits 4 x.w 17) (x.imm 32 x.e2 0))
  else .error .illegalOpcode

/-- Major 0x29 (05 R89; R229). -/
def dec29 (x : Raw) : Except Reject Instr :=
  if (x.len = 2 ∨ x.len = 3) ∧ fld x.w 21 11 = 0 then
      if fld x.w 17 4 ≠ 0 ∨ fld x.e1 4 3 ≠ 0 ∨ fld x.e1 13 19 ≠ 0 ∨ (x.long = true ∧ fld x.e2 0 32 ≠ 0) then .error .reservedBits
      else .ok (.xsrd (bits 1 x.e1 12) (bits 5 x.e1 7) (bits 2 x.e1 2) (bits 2 x.e1 0) (bits 4 x.w 9) (bits 4 x.w 13) (x.imm 32 x.e2 0))
  else .error .illegalOpcode

/-- Major 0x2A (05 R89; R230). -/
def dec2A (x : Raw) : Except Reject Instr :=
  if (x.len = 0 ∨ x.len = 1) ∧ fld x.w 28 4 = 0 then
      if fld x.w 17 3 ≠ 6 ∨ fld x.w 20 2 ≠ 0 ∨ (x.long = true ∧ fld x.w 24 4 ≠ 0) then .error .reservedBits
      else .ok (.ldfeRead (bits 2 x.w 22) (bits 4 x.w 9) (bits 4 x.w 13) (x.imm 4 x.w 24))
  else if (x.len = 0 ∨ x.len = 1) ∧ fld x.w 28 4 = 1 then
      if fld x.w 17 3 ≠ 6 ∨ fld x.w 20 2 ≠ 0 ∨ (x.long = true ∧ fld x.w 24 4 ≠ 0) then .error .reservedBits
      else .ok (.ldfeTake (bits 2 x.w 22) (bits 4 x.w 9) (bits 4 x.w 13) (x.imm 4 x.w 24))
  else .error .illegalOpcode

/-- Major 0x2B (05 R89; R230). -/
def dec2B (x : Raw) : Except Reject Instr :=
  if (x.len = 0 ∨ x.len = 1) ∧ fld x.w 28 4 = 0 then
      if fld x.w 17 3 ≠ 6 ∨ fld x.w 20 2 ≠ 0 ∨ (x.long = true ∧ fld x.w 24 4 ≠ 0) then .error .reservedBits
      else .ok (.stfePut (bits 2 x.w 22) (bits 4 x.w 9) (bits 4 x.w 13) (x.imm 4 x.w 24))
  else if (x.len = 0 ∨ x.len = 1) ∧ fld x.w 28 4 = 1 then
      if fld x.w 17 3 ≠ 6 ∨ fld x.w 20 2 ≠ 0 ∨ (x.long = true ∧ fld x.w 24 4 ≠ 0) then .error .reservedBits
      else .ok (.stfeFill (bits 2 x.w 22) (bits 4 x.w 9) (bits 4 x.w 13) (x.imm 4 x.w 24))
  else if (x.len = 0 ∨ x.len = 1) ∧ fld x.w 28 4 = 2 then
      if fld x.w 9 4 ≠ 0 ∨ fld x.w 17 3 ≠ 6 ∨ fld x.w 20 2 ≠ 0 ∨ (x.long = true ∧ fld x.w 24 4 ≠ 0) then .error .reservedBits
      else .ok (.stfeClear (bits 2 x.w 22) (bits 4 x.w 13) (x.imm 4 x.w 24))
  else .error .illegalOpcode

/-- Major 0x2C (05 R89; R232). -/
def dec2C (x : Raw) : Except Reject Instr :=
  if (x.len = 0 ∨ x.len = 1) ∧ fld x.w 28 4 = 0 then
      if fld x.w 9 4 ≠ 0 ∨ fld x.w 17 5 ≠ 0 ∨ (x.long = true ∧ fld x.w 24 4 ≠ 0) then .error .reservedBits
      else .ok (.pref (bits 2 x.w 22) (bits 4 x.w 13) (x.imm 4 x.w 24))
  else if (x.len = 0 ∨ x.len = 1) ∧ fld x.w 28 4 = 1 then
      if fld x.w 9 4 ≠ 0 ∨ fld x.w 17 5 ≠ 0 ∨ (x.long = true ∧ fld x.w 24 4 ≠ 0) then .error .reservedBits
      else .ok (.clean (bits 2 x.w 22) (bits 4 x.w 13) (x.imm 4 x.w 24))
  else if (x.len = 0 ∨ x.len = 1) ∧ fld x.w 28 4 = 2 ∧ fld x.w 9 4 = 0 then
      if fld x.w 17 5 ≠ 0 ∨ (x.long = true ∧ fld x.w 24 4 ≠ 0) then .error .reservedBits
      else .ok (.inval (bits 2 x.w 22) (bits 4 x.w 13) (x.imm 4 x.w 24))
  else if (x.len = 0 ∨ x.len = 1) ∧ fld x.w 28 4 = 2 then
      if fld x.w 17 5 ≠ 0 ∨ (x.long = true ∧ fld x.w 24 4 ≠ 0) then .error .reservedBits
      else .ok (.invalCluster (bits 2 x.w 22) (bits 4 x.w 9) (bits 4 x.w 13) (x.imm 4 x.w 24))
  else .error .illegalOpcode

/-- Major 0x2D (05 R89; R381). -/
def dec2D (x : Raw) : Except Reject Instr :=
  if (x.len = 0 ∨ x.len = 1) then
      if fld x.w 17 3 ≠ 6 ∨ (x.long = true ∧ fld x.w 24 8 ≠ 0) then .error .reservedBits
      else .ok (.ldc (bits 2 x.w 22) (bits 2 x.w 20) (bits 4 x.w 9) (bits 4 x.w 13) (x.imm 8 x.w 24))
  else .error .illegalOpcode

/-- Major 0x2E (05 R89; R381). -/
def dec2E (x : Raw) : Except Reject Instr :=
  if (x.len = 0 ∨ x.len = 1) then
      if fld x.w 17 3 ≠ 6 ∨ (x.long = true ∧ fld x.w 24 8 ≠ 0) then .error .reservedBits
      else .ok (.stc (bits 2 x.w 22) (bits 2 x.w 20) (bits 4 x.w 9) (bits 4 x.w 13) (x.imm 8 x.w 24))
  else .error .illegalOpcode

/-- Major 0x30 (05 R89; R341). -/
def dec30 (x : Raw) : Except Reject Instr :=
  if x.len = 0 ∧ fld x.w 28 4 = 0 then
      if fld x.w 25 3 = 7 then .error .illegalOpcode
      else if fld x.w 9 4 ≠ 0 then .error .reservedBits
      else .ok (.spawn (bits 3 x.w 25) (bits 4 x.w 21) (bits 4 x.w 13) (bits 4 x.w 17))
  else .error .illegalOpcode

/-- Major 0x31 (05 R89; R342). -/
def dec31 (x : Raw) : Except Reject Instr :=
  if x.len = 0 ∧ fld x.w 21 11 = 0 then
      if fld x.w 17 4 ≠ 0 then .error .reservedBits
      else .ok (.reap (bits 4 x.w 9) (bits 4 x.w 13))
  else if x.len = 0 ∧ fld x.w 21 11 = 1 then
      if fld x.w 13 8 ≠ 0 then .error .reservedBits
      else .ok (.reapAny (bits 4 x.w 9))
  else .error .illegalOpcode

/-- Major 0x32 (05 R89; R344). -/
def dec32 (x : Raw) : Except Reject Instr :=
  if x.len = 0 ∧ fld x.w 24 8 = 0 then
      if fld x.w 21 3 = 7 then .error .illegalOpcode
      else if fld x.w 9 12 ≠ 0 then .error .reservedBits
      else .ok (.bind (bits 3 x.w 21))
  else .error .illegalOpcode

/-- Major 0x33 (05 R89; R345). -/
def dec33 (x : Raw) : Except Reject Instr :=
  if x.len = 0 ∧ fld x.w 21 11 = 0 then
      if fld x.w 9 4 ≠ 0 ∨ fld x.w 17 4 ≠ 0 then .error .reservedBits
      else .ok (.semP (bits 4 x.w 13))
  else if x.len = 0 ∧ fld x.w 21 11 = 1 then
      if fld x.w 9 4 ≠ 0 ∨ fld x.w 17 4 ≠ 0 then .error .reservedBits
      else .ok (.semV (bits 4 x.w 13))
  else if x.len = 0 ∧ fld x.w 21 11 = 2 then
      if fld x.w 17 4 ≠ 0 then .error .reservedBits
      else .ok (.semTry (bits 4 x.w 9) (bits 4 x.w 13))
  else .error .illegalOpcode

/-- Major 0x34 (05 R89; R348). -/
def dec34 (x : Raw) : Except Reject Instr :=
  if x.len = 0 ∧ fld x.w 21 11 = 0 then
      if fld x.w 9 4 ≠ 0 then .error .reservedBits
      else .ok (.send (bits 4 x.w 13) (bits 4 x.w 17))
  else if x.len = 0 ∧ fld x.w 21 11 = 16 then
      if fld x.w 9 4 ≠ 0 then .error .reservedBits
      else .ok (.sendS (bits 4 x.w 13) (bits 4 x.w 17))
  else if x.len = 0 ∧ fld x.w 21 11 = 1 then
      if fld x.w 17 4 ≠ 0 then .error .reservedBits
      else .ok (.openS (bits 4 x.w 9) (bits 4 x.w 13))
  else if x.len = 0 ∧ fld x.w 21 11 = 2 then
      if fld x.w 9 4 ≠ 0 ∨ fld x.w 17 4 ≠ 0 then .error .reservedBits
      else .ok (.close (bits 4 x.w 13))
  else if x.len = 0 ∧ fld x.w 21 11 = 3 then
      if fld x.w 9 4 ≠ 0 then .error .reservedBits
      else .ok (.wake (bits 4 x.w 13) (bits 4 x.w 17))
  else .error .illegalOpcode

/-- Major 0x35 (05 R89; R349). -/
def dec35 (x : Raw) : Except Reject Instr :=
  if x.len = 0 ∧ fld x.w 21 11 = 0 then
      if fld x.w 13 4 ≠ 0 then .error .reservedBits
      else .ok (.recv (bits 4 x.w 9) (bits 4 x.w 17))
  else if x.len = 0 ∧ fld x.w 21 11 = 1 then
      if fld x.w 13 4 ≠ 0 then .error .reservedBits
      else .ok (.tryrecv (bits 4 x.w 9) (bits 4 x.w 17))
  else .error .illegalOpcode

/-- Major 0x36 (05 R89; R350, R351, R353). -/
def dec36 (x : Raw) : Except Reject Instr :=
  if x.len = 2 ∧ fld x.w 21 11 = 0 then
      if fld x.w 9 4 ≠ 0 ∨ fld x.e1 1 31 ≠ 0 then .error .reservedBits
      else .ok (.rcall (bits 4 x.w 13) (bits 4 x.w 17) (bits 1 x.e1 0) (bits 32 x.e2 0))
  else if x.len = 2 ∧ fld x.w 21 11 = 1 then
      if fld x.w 9 4 ≠ 0 ∨ fld x.w 17 4 ≠ 0 ∨ fld x.e1 0 32 ≠ 0 ∨ fld x.e2 0 32 ≠ 0 then .error .reservedBits
      else .ok (.rreply (bits 4 x.w 13))
  else if x.len = 2 ∧ fld x.w 21 11 = 2 then
      if fld x.w 13 8 ≠ 0 ∨ fld x.e1 20 12 ≠ 0 ∨ fld x.e2 0 32 ≠ 0 then .error .reservedBits
      else .ok (.bara (bits 4 x.w 9) (bits 4 x.e1 16) (bits 16 x.e1 0))
  else if x.len = 2 ∧ fld x.w 21 11 = 3 then
      if fld x.w 9 4 ≠ 0 ∨ fld x.w 17 4 ≠ 0 ∨ fld x.e1 0 16 ≠ 0 ∨ fld x.e1 20 12 ≠ 0 ∨ fld x.e2 0 32 ≠ 0 then .error .reservedBits
      else .ok (.barw (bits 4 x.w 13) (bits 4 x.e1 16))
  else .error .illegalOpcode

/-- Major 0x37 (05 R89; R355, R356, R357, R359). -/
def dec37 (x : Raw) : Except Reject Instr :=
  if x.len = 0 ∧ fld x.w 21 11 = 0 then
      if fld x.w 17 4 ≠ 0 then .error .reservedBits
      else .ok (.llpush (bits 4 x.w 9) (bits 4 x.w 13))
  else if x.len = 0 ∧ fld x.w 21 11 = 1 then
      if fld x.w 13 4 ≠ 0 then .error .reservedBits
      else .ok (.llpop (bits 4 x.w 9) (bits 4 x.w 17))
  else if x.len = 0 ∧ fld x.w 21 11 = 2 then
      if fld x.w 9 4 ≠ 0 ∨ fld x.w 17 4 ≠ 0 then .error .reservedBits
      else .ok (.migrate (bits 4 x.w 13))
  else if x.len = 0 ∧ fld x.w 21 11 = 3 then
      if fld x.w 9 4 ≠ 0 then .error .reservedBits
      else .ok (.specb (bits 4 x.w 13) (bits 4 x.w 17))
  else if x.len = 0 ∧ fld x.w 21 11 = 4 then
      if fld x.w 9 12 ≠ 0 then .error .reservedBits
      else .ok (.specc)
  else .error .illegalOpcode

/-- Major 0x38 (05 R89; R315). -/
def dec38 (x : Raw) : Except Reject Instr :=
  if x.len = 0 ∧ fld x.w 21 11 = 0 then
      if fld x.w 9 12 ≠ 0 then .error .reservedBits
      else .ok (.pause)
  else if x.len = 0 ∧ fld x.w 21 11 = 1 then
      if fld x.w 13 8 ≠ 0 then .error .reservedBits
      else .ok (.instn (bits 4 x.w 9))
  else .error .illegalOpcode

/-- Major 0x39 (05 R89; R316). -/
def dec39 (x : Raw) : Except Reject Instr :=
  if x.len = 0 ∧ fld x.w 23 9 = 0 then
      if fld x.w 21 2 = 3 then .error .illegalOpcode
      else if fld x.w 9 4 ≠ 0 then .error .reservedBits
      else .ok (.emit (bits 2 x.w 21) (bits 4 x.w 13) (bits 4 x.w 17))
  else .error .illegalOpcode

/-- Major 0x3A (05 R89; R317, R318, R319). -/
def dec3A (x : Raw) : Except Reject Instr :=
  if x.len = 0 ∧ fld x.w 21 11 = 0 then
      if fld x.w 19 2 ≠ 0 then .error .reservedBits
      else .ok (.test (bits 2 x.w 17) (bits 4 x.w 9) (bits 4 x.w 13))
  else if x.len = 0 ∧ fld x.w 21 11 = 1 then
      if fld x.w 19 2 ≠ 0 then .error .reservedBits
      else .ok (.testv (bits 2 x.w 17) (bits 4 x.w 9) (bits 4 x.w 13))
  else if x.len = 0 ∧ fld x.w 21 11 = 2 then
      if fld x.w 9 4 ≠ 0 ∨ fld x.w 17 4 ≠ 0 then .error .reservedBits
      else .ok (.renounce (bits 4 x.w 13))
  else if x.len = 2 ∧ fld x.w 21 11 = 3 then
      if fld x.w 9 4 ≠ 0 ∨ fld x.e1 2 30 ≠ 0 ∨ fld x.e2 0 32 ≠ 0 then .error .reservedBits
      else .ok (.emits (bits 2 x.e1 0) (bits 4 x.w 13) (bits 4 x.w 17))
  else .error .illegalOpcode

/-- Major 0x3B (05 R89; R320, R321, R323). -/
def dec3B (x : Raw) : Except Reject Instr :=
  if x.len = 2 ∧ fld x.w 21 11 = 0 then
      if fld x.w 9 4 ≠ 0 ∨ fld x.w 17 4 ≠ 0 ∨ fld x.e1 0 32 ≠ 0 then .error .reservedBits
      else .ok (.abortw (bits 4 x.w 13) (bits 32 x.e2 0))
  else if x.len = 2 ∧ fld x.w 21 11 = 1 then
      if fld x.w 9 4 ≠ 0 ∨ fld x.w 17 4 ≠ 0 ∨ fld x.e1 0 32 ≠ 0 ∨ fld x.e2 0 32 ≠ 0 then .error .reservedBits
      else .ok (.suspw (bits 4 x.w 13))
  else if x.len = 2 ∧ fld x.w 21 11 = 2 then
      if fld x.w 9 12 ≠ 0 ∨ fld x.e1 0 32 ≠ 0 ∨ fld x.e2 0 32 ≠ 0 then .error .reservedBits
      else .ok (.endw)
  else if x.len = 2 ∧ fld x.w 21 11 = 3 then
      if fld x.w 9 4 ≠ 0 ∨ fld x.e1 2 30 ≠ 0 ∨ fld x.e2 0 32 ≠ 0 then .error .reservedBits
      else .ok (.sigforce (bits 2 x.e1 0) (bits 4 x.w 13) (bits 4 x.w 17))
  else if x.len = 2 ∧ fld x.w 21 11 = 4 then
      if fld x.w 17 4 ≠ 0 ∨ fld x.e1 17 15 ≠ 0 ∨ fld x.e2 0 32 ≠ 0 then .error .reservedBits
      else .ok (.lehrw (bits 1 x.e1 16) (bits 16 x.e1 0) (bits 4 x.w 9) (bits 4 x.w 13))
  else .error .illegalOpcode

/-- Major 0x3C (05 R89; R233). -/
def dec3C (x : Raw) : Except Reject Instr :=
  if (x.len = 2 ∨ x.len = 3) ∧ fld x.w 21 11 = 0 then
      if fld x.e1 0 4 ≠ 0 ∨ fld x.e1 7 1 ≠ 0 ∨ fld x.e1 10 2 ≠ 0 ∨ fld x.e1 16 16 ≠ 0 ∨ (x.long = true ∧ fld x.e2 0 32 ≠ 0) then .error .reservedBits
      else .ok (.rld (bits 4 x.e1 12) (bits 2 x.e1 8) (bits 3 x.e1 4) (bits 4 x.w 9) (bits 4 x.w 13) (bits 4 x.w 17) (x.imm 32 x.e2 0))
  else .error .illegalOpcode

/-- Major 0x3D (05 R89; R233). -/
def dec3D (x : Raw) : Except Reject Instr :=
  if (x.len = 2 ∨ x.len = 3) ∧ fld x.w 21 11 = 0 then
      if fld x.e1 0 4 ≠ 0 ∨ fld x.e1 7 1 ≠ 0 ∨ fld x.e1 10 2 ≠ 0 ∨ fld x.e1 16 16 ≠ 0 ∨ (x.long = true ∧ fld x.e2 0 32 ≠ 0) then .error .reservedBits
      else .ok (.rst (bits 4 x.e1 12) (bits 2 x.e1 8) (bits 3 x.e1 4) (bits 4 x.w 9) (bits 4 x.w 13) (bits 4 x.w 17) (x.imm 32 x.e2 0))
  else .error .illegalOpcode

/-- Major 0x3E (05 R89; R233). -/
def dec3E (x : Raw) : Except Reject Instr :=
  if (x.len = 2 ∨ x.len = 3) ∧ fld x.w 21 11 = 0 then
      if fld x.e1 7 1 ≠ 0 ∨ fld x.e1 10 22 ≠ 0 ∨ (x.long = true ∧ fld x.e2 0 32 ≠ 0) then .error .reservedBits
      else .ok (.ramo (bits 2 x.e1 8) (bits 3 x.e1 4) (bits 4 x.e1 0) (bits 4 x.w 9) (bits 4 x.w 13) (bits 4 x.w 17) (x.imm 32 x.e2 0))
  else .error .illegalOpcode

/-- Major 0x3F (05 R89; R382). -/
def dec3F (x : Raw) : Except Reject Instr :=
  if x.len = 0 ∧ fld x.w 21 11 = 0 then
      .ok (.cderiv (bits 4 x.w 9) (bits 4 x.w 13) (bits 4 x.w 17))
  else if x.len = 0 ∧ fld x.w 21 11 = 1 then
      .ok (.cget (bits 4 x.w 9) (bits 4 x.w 13) (bits 4 x.w 17))
  else if x.len = 0 ∧ fld x.w 21 11 = 2 then
      if fld x.w 17 4 ≠ 0 then .error .reservedBits
      else .ok (.cclr (bits 4 x.w 9) (bits 4 x.w 13))
  else .error .illegalOpcode

/-- Major 0x40 (05 R89; R168). -/
def dec40 (x : Raw) : Except Reject Instr :=
  if x.len = 0 then
      if 4 ≤ fld x.w 27 4 then .error .illegalOpcode
      else .ok (.vadd (bits 1 x.w 31) (bits 4 x.w 27) (bits 3 x.w 24) (bits 5 x.w 9) (bits 5 x.w 14) (bits 5 x.w 19))
  else .error .illegalOpcode

/-- Major 0x41 (05 R89; R168). -/
def dec41 (x : Raw) : Except Reject Instr :=
  if x.len = 0 then
      if 4 ≤ fld x.w 27 4 then .error .illegalOpcode
      else .ok (.vsub (bits 1 x.w 31) (bits 4 x.w 27) (bits 3 x.w 24) (bits 5 x.w 9) (bits 5 x.w 14) (bits 5 x.w 19))
  else .error .illegalOpcode

/-- Major 0x42 (05 R89; R168). -/
def dec42 (x : Raw) : Except Reject Instr :=
  if x.len = 0 then
      if 5 ≤ fld x.w 27 4 then .error .illegalOpcode
      else .ok (.vmul (bits 1 x.w 31) (bits 4 x.w 27) (bits 3 x.w 24) (bits 5 x.w 9) (bits 5 x.w 14) (bits 5 x.w 19))
  else .error .illegalOpcode

/-- Major 0x43 (05 R89; R168). -/
def dec43 (x : Raw) : Except Reject Instr :=
  if x.len = 0 then
      if 4 ≤ fld x.w 27 4 then .error .illegalOpcode
      else .ok (.vfma (bits 1 x.w 31) (bits 4 x.w 27) (bits 3 x.w 24) (bits 5 x.w 9) (bits 5 x.w 14) (bits 5 x.w 19))
  else .error .illegalOpcode

/-- Major 0x44 (05 R89; R168). -/
def dec44 (x : Raw) : Except Reject Instr :=
  if x.len = 0 ∧ fld x.w 27 4 = 0 then
      .ok (.vmin (bits 1 x.w 31) (bits 3 x.w 24) (bits 5 x.w 9) (bits 5 x.w 14) (bits 5 x.w 19))
  else .error .illegalOpcode

/-- Major 0x45 (05 R89; R168). -/
def dec45 (x : Raw) : Except Reject Instr :=
  if x.len = 0 ∧ fld x.w 27 4 = 0 then
      .ok (.vmax (bits 1 x.w 31) (bits 3 x.w 24) (bits 5 x.w 9) (bits 5 x.w 14) (bits 5 x.w 19))
  else .error .illegalOpcode

/-- Major 0x46 (05 R89; R168). -/
def dec46 (x : Raw) : Except Reject Instr :=
  if x.len = 0 ∧ fld x.w 27 4 = 0 then
      .ok (.vand (bits 1 x.w 31) (bits 3 x.w 24) (bits 5 x.w 9) (bits 5 x.w 14) (bits 5 x.w 19))
  else .error .illegalOpcode

/-- Major 0x47 (05 R89; R168). -/
def dec47 (x : Raw) : Except Reject Instr :=
  if x.len = 0 ∧ fld x.w 27 4 = 0 then
      .ok (.vor (bits 1 x.w 31) (bits 3 x.w 24) (bits 5 x.w 9) (bits 5 x.w 14) (bits 5 x.w 19))
  else .error .illegalOpcode

/-- Major 0x48 (05 R89; R168). -/
def dec48 (x : Raw) : Except Reject Instr :=
  if x.len = 0 ∧ fld x.w 27 4 = 0 then
      .ok (.vxor (bits 1 x.w 31) (bits 3 x.w 24) (bits 5 x.w 9) (bits 5 x.w 14) (bits 5 x.w 19))
  else .error .illegalOpcode

/-- Major 0x49 (05 R89; R169). -/
def dec49 (x : Raw) : Except Reject Instr :=
  if x.len = 0 ∧ fld x.w 27 4 = 0 then
      .ok (.vshl (bits 1 x.w 31) (bits 3 x.w 24) (bits 5 x.w 9) (bits 5 x.w 14) (bits 5 x.w 19))
  else .error .illegalOpcode

/-- Major 0x4A (05 R89; R169). -/
def dec4A (x : Raw) : Except Reject Instr :=
  if x.len = 0 then
      if 3 ≤ fld x.w 27 4 then .error .illegalOpcode
      else .ok (.vshr (bits 1 x.w 31) (bits 4 x.w 27) (bits 3 x.w 24) (bits 5 x.w 9) (bits 5 x.w 14) (bits 5 x.w 19))
  else .error .illegalOpcode

/-- Major 0x4B (05 R89; R170). -/
def dec4B (x : Raw) : Except Reject Instr :=
  if x.len = 0 then
      if 5 ≤ fld x.w 27 4 then .error .illegalOpcode
      else if fld x.w 12 2 ≠ 0 then .error .reservedBits
      else .ok (.vcmp (bits 1 x.w 31) (bits 4 x.w 27) (bits 3 x.w 24) (bits 3 x.w 9) (bits 5 x.w 14) (bits 5 x.w 19))
  else .error .illegalOpcode

/-- Major 0x4C (05 R89; R171). -/
def dec4C (x : Raw) : Except Reject Instr :=
  if x.len = 0 ∧ fld x.w 27 4 = 0 then
      .ok (.vsel (bits 1 x.w 31) (bits 3 x.w 24) (bits 5 x.w 9) (bits 5 x.w 14) (bits 5 x.w 19))
  else .error .illegalOpcode

/-- Major 0x4D (05 R89; R172). -/
def dec4D (x : Raw) : Except Reject Instr :=
  if x.len = 0 then
      if fld x.w 27 4 = 15 then .error .illegalOpcode
      else .ok (.vcvt (bits 1 x.w 31) (bits 4 x.w 27) (bits 3 x.w 24) (bits 5 x.w 9) (bits 5 x.w 14) (bits 5 x.w 19))
  else .error .illegalOpcode

/-- Major 0x4E (05 R89; R173). -/
def dec4E (x : Raw) : Except Reject Instr :=
  if x.len = 0 then
      if 8 ≤ fld x.w 27 4 then .error .illegalOpcode
      else if fld x.w 19 5 ≠ 0 ∨ fld x.w 31 1 ≠ 0 then .error .reservedBits
      else .ok (.vapx (bits 4 x.w 27) (bits 3 x.w 24) (bits 5 x.w 9) (bits 5 x.w 14))
  else .error .illegalOpcode

/-- Major 0x4F (05 R89; R168). -/
def dec4F (x : Raw) : Except Reject Instr :=
  if x.len = 0 ∧ fld x.w 27 4 = 0 then
      if fld x.w 19 5 ≠ 0 ∨ fld x.w 31 1 ≠ 0 then .error .reservedBits
      else .ok (.vabs (bits 3 x.w 24) (bits 5 x.w 9) (bits 5 x.w 14))
  else if x.len = 0 ∧ fld x.w 27 4 = 1 then
      if fld x.w 19 5 ≠ 0 ∨ fld x.w 31 1 ≠ 0 then .error .reservedBits
      else .ok (.vneg (bits 3 x.w 24) (bits 5 x.w 9) (bits 5 x.w 14))
  else .error .illegalOpcode

/-- Major 0x50 (05 R89; R174). -/
def dec50 (x : Raw) : Except Reject Instr :=
  if x.len = 0 then
      if 6 ≤ fld x.w 27 4 then .error .illegalOpcode
      else if fld x.w 19 5 ≠ 0 ∨ fld x.w 31 1 ≠ 0 then .error .reservedBits
      else .ok (.vred (bits 4 x.w 27) (bits 3 x.w 24) (bits 5 x.w 9) (bits 5 x.w 14))
  else .error .illegalOpcode

/-- Major 0x51 (05 R89; R175). -/
def dec51 (x : Raw) : Except Reject Instr :=
  if x.len = 0 then
      if vscanIllegal (fld x.w 27 4) = true then .error .illegalOpcode
      else if fld x.w 19 5 ≠ 0 ∨ fld x.w 31 1 ≠ 0 then .error .reservedBits
      else .ok (.vscan (bits 4 x.w 27) (bits 3 x.w 24) (bits 5 x.w 9) (bits 5 x.w 14))
  else .error .illegalOpcode

/-- Major 0x52 (05 R89; R176). -/
def dec52 (x : Raw) : Except Reject Instr :=
  if x.len = 0 ∧ fld x.w 27 4 = 0 then
      if fld x.w 31 1 ≠ 0 then .error .reservedBits
      else .ok (.vperm (bits 3 x.w 24) (bits 5 x.w 9) (bits 5 x.w 14) (bits 5 x.w 19))
  else .error .illegalOpcode

/-- Major 0x53 (05 R89; R177). -/
def dec53 (x : Raw) : Except Reject Instr :=
  if x.len = 0 ∧ fld x.w 28 3 = 0 then
      if fld x.w 23 1 ≠ 0 ∨ fld x.w 31 1 ≠ 1 then .error .reservedBits
      else .ok (.vbcast (bits 1 x.w 27) (bits 3 x.w 24) (bits 5 x.w 9) (bits 5 x.w 14) (bits 4 x.w 19))
  else .error .illegalOpcode

/-- Major 0x54 (05 R89; R178). -/
def dec54 (x : Raw) : Except Reject Instr :=
  if x.len = 0 ∧ fld x.w 29 2 = 0 then
      if fld x.w 23 4 ≠ 0 ∨ fld x.w 31 1 ≠ 1 then .error .reservedBits
      else .ok (.vmovx (bits 2 x.w 27) (bits 5 x.w 9) (bits 5 x.w 14) (bits 4 x.w 19))
  else .error .illegalOpcode

/-- Major 0x55 (05 R89; R181). -/
def dec55 (x : Raw) : Except Reject Instr :=
  if x.len = 0 ∧ fld x.w 27 4 = 0 then
      if fld x.w 18 1 ≠ 0 then .error .reservedBits
      else .ok (.vld (bits 1 x.w 31) (bits 3 x.w 24) (bits 5 x.w 9) (bits 4 x.w 14) (bits 5 x.w 19))
  else .error .illegalOpcode

/-- Major 0x56 (05 R89; R181). -/
def dec56 (x : Raw) : Except Reject Instr :=
  if x.len = 0 ∧ fld x.w 27 4 = 0 then
      if fld x.w 18 1 ≠ 0 then .error .reservedBits
      else .ok (.vst (bits 1 x.w 31) (bits 3 x.w 24) (bits 5 x.w 9) (bits 4 x.w 14) (bits 5 x.w 19))
  else .error .illegalOpcode

/-- Major 0x57 (05 R89; R182). -/
def dec57 (x : Raw) : Except Reject Instr :=
  if x.len = 2 ∧ fld x.w 21 11 = 0 then
      if fld x.w 9 4 ≠ 0 ∨ fld x.w 17 4 ≠ 0 ∨ fld x.e1 19 13 ≠ 0 then .error .reservedBits
      else .ok (.vgath (bits 4 x.w 13) (bits 3 x.e1 16) (bits 3 x.e1 13) (bits 3 x.e1 10) (bits 5 x.e1 5) (bits 5 x.e1 0) (bits 32 x.e2 0))
  else .error .illegalOpcode

/-- Major 0x58 (05 R89; R182). -/
def dec58 (x : Raw) : Except Reject Instr :=
  if x.len = 2 ∧ fld x.w 21 11 = 0 then
      if fld x.w 9 4 ≠ 0 ∨ fld x.w 17 4 ≠ 0 ∨ fld x.e1 19 13 ≠ 0 then .error .reservedBits
      else .ok (.vscat (bits 4 x.w 13) (bits 3 x.e1 16) (bits 3 x.e1 13) (bits 3 x.e1 10) (bits 5 x.e1 5) (bits 5 x.e1 0) (bits 32 x.e2 0))
  else .error .illegalOpcode

/-- Major 0x59 (05 R89; R184). -/
def dec59 (x : Raw) : Except Reject Instr :=
  if x.len = 0 ∧ fld x.w 29 2 = 0 then
      if fld x.w 19 5 ≠ 0 ∨ fld x.w 31 1 ≠ 0 then .error .reservedBits
      else .ok (.vsort (bits 1 x.w 28) (bits 1 x.w 27) (bits 3 x.w 24) (bits 5 x.w 9) (bits 5 x.w 14))
  else .error .illegalOpcode

/-- Major 0x5A (05 R89; R184). -/
def dec5A (x : Raw) : Except Reject Instr :=
  if x.len = 0 ∧ fld x.w 30 1 = 0 then
      if fld x.w 31 1 ≠ 0 then .error .reservedBits
      else .ok (.vmerge (bits 1 x.w 29) (bits 1 x.w 28) (bits 1 x.w 27) (bits 3 x.w 24) (bits 5 x.w 9) (bits 5 x.w 14) (bits 5 x.w 19))
  else .error .illegalOpcode

/-- Major 0x5B (05 R89; R184). -/
def dec5B (x : Raw) : Except Reject Instr :=
  if x.len = 0 ∧ fld x.w 28 3 = 0 then
      if fld x.w 23 1 ≠ 0 ∨ fld x.w 31 1 ≠ 1 then .error .reservedBits
      else .ok (.vtopk (bits 1 x.w 27) (bits 3 x.w 24) (bits 5 x.w 9) (bits 5 x.w 14) (bits 4 x.w 19))
  else .error .illegalOpcode

/-- Major 0x5C (05 R89; R179). -/
def dec5C (x : Raw) : Except Reject Instr :=
  if x.len = 0 then
      if 8 ≤ fld x.w 27 4 then .error .illegalOpcode
      else if fld x.w 12 2 ≠ 0 ∨ fld x.w 17 2 ≠ 0 ∨ fld x.w 24 3 ≠ 0 then .error .reservedBits
      else .ok (.plog (bits 1 x.w 31) (bits 4 x.w 27) (bits 3 x.w 9) (bits 3 x.w 14) (bits 5 x.w 19))
  else .error .illegalOpcode

/-- Major 0x5D (05 R89; R165). -/
def dec5D (x : Raw) : Except Reject Instr :=
  if x.len = 0 ∧ fld x.w 28 4 = 0 then
      if fld x.w 9 4 ≠ 0 ∨ fld x.w 17 4 ≠ 0 then .error .reservedBits
      else .ok (.rep (bits 3 x.w 25) (bits 4 x.w 21) (bits 4 x.w 13))
  else .error .illegalOpcode

/-- Major 0x5E (05 R89; R167). -/
def dec5E (x : Raw) : Except Reject Instr :=
  if x.len = 0 ∧ fld x.w 21 11 = 0 then
      if fld x.w 13 8 ≠ 0 then .error .reservedBits
      else .ok (.vcfg (bits 4 x.w 9))
  else if x.len = 0 ∧ fld x.w 21 11 = 1 then
      if fld x.w 17 4 ≠ 0 then .error .reservedBits
      else .ok (.vcfgWr (bits 4 x.w 9) (bits 4 x.w 13))
  else if x.len = 0 ∧ fld x.w 21 11 = 2 then
      if fld x.w 13 8 ≠ 0 then .error .reservedBits
      else .ok (.vcfgClr (bits 4 x.w 9))
  else .error .illegalOpcode

/-- Major 0x60 (05 R89; R191). -/
def dec60 (x : Raw) : Except Reject Instr :=
  if x.len = 0 ∧ fld x.w 21 11 = 0 then
      if fld x.w 17 4 ≠ 0 then .error .reservedBits
      else .ok (.mxq (bits 4 x.w 9) (bits 4 x.w 13))
  else .error .illegalOpcode

/-- Major 0x61 (05 R89; R193). -/
def dec61 (x : Raw) : Except Reject Instr :=
  if x.len = 0 ∧ fld x.w 21 11 = 0 then
      if fld x.w 9 4 ≠ 0 ∨ fld x.w 17 4 ≠ 0 then .error .reservedBits
      else .ok (.mxwait (bits 4 x.w 13))
  else if x.len = 0 ∧ fld x.w 21 11 = 1 then
      if fld x.w 9 12 ≠ 0 then .error .reservedBits
      else .ok (.mxwaitAll)
  else .error .illegalOpcode

/-- Major 0x62 (05 R89; R194). -/
def dec62 (x : Raw) : Except Reject Instr :=
  if x.len = 0 ∧ fld x.w 21 11 = 0 then
      if fld x.w 17 4 ≠ 0 then .error .reservedBits
      else .ok (.mxstat (bits 4 x.w 9) (bits 4 x.w 13))
  else if x.len = 0 ∧ fld x.w 21 11 = 1 then
      if fld x.w 9 12 ≠ 0 then .error .reservedBits
      else .ok (.mxstatResume)
  else if x.len = 0 ∧ fld x.w 21 11 = 2 then
      if fld x.w 9 12 ≠ 0 then .error .reservedBits
      else .ok (.mxstatDrop)
  else if x.len = 0 ∧ fld x.w 21 11 = 3 then
      if fld x.w 9 12 ≠ 0 then .error .reservedBits
      else .ok (.mxstatSdrop)
  else .error .illegalOpcode

/-- Major 0x68 (05 R89; R268). -/
def dec68 (x : Raw) : Except Reject Instr :=
  if x.len = 0 ∧ fld x.w 21 11 = 0 then
      .ok (.cpq (bits 4 x.w 9) (bits 4 x.w 13) (bits 4 x.w 17))
  else .error .illegalOpcode

/-- Major 0x69 (05 R89; R269). -/
def dec69 (x : Raw) : Except Reject Instr :=
  if x.len = 0 ∧ fld x.w 21 11 = 0 then
      if fld x.w 9 4 ≠ 0 ∨ fld x.w 17 4 ≠ 0 then .error .reservedBits
      else .ok (.cpwait (bits 4 x.w 13))
  else if x.len = 0 ∧ fld x.w 21 11 = 1 then
      if fld x.w 9 12 ≠ 0 then .error .reservedBits
      else .ok (.cpwaitAll)
  else .error .illegalOpcode

/-- Major 0x6A (05 R89; R266). -/
def dec6A (x : Raw) : Except Reject Instr :=
  if x.len = 0 ∧ fld x.w 21 11 = 0 then
      if fld x.w 9 4 ≠ 0 then .error .reservedBits
      else .ok (.syncw (bits 4 x.w 13) (bits 4 x.w 17))
  else if x.len = 0 ∧ fld x.w 21 11 = 1 then
      if fld x.w 9 4 ≠ 0 then .error .reservedBits
      else .ok (.syncwReset (bits 4 x.w 13) (bits 4 x.w 17))
  else .error .illegalOpcode

/-- Major 0x6B (05 R89; R267). -/
def dec6B (x : Raw) : Except Reject Instr :=
  if x.len = 0 ∧ fld x.w 21 11 = 0 then
      .ok (.syncwait (bits 4 x.w 9) (bits 4 x.w 13) (bits 4 x.w 17))
  else .error .illegalOpcode

/-- Major 0x6C (05 R89; R270). -/
def dec6C (x : Raw) : Except Reject Instr :=
  if x.len = 0 ∧ fld x.w 21 11 = 0 then
      if fld x.w 17 4 ≠ 0 then .error .reservedBits
      else .ok (.mbox (bits 4 x.w 9) (bits 4 x.w 13))
  else if x.len = 0 ∧ fld x.w 21 11 = 1 then
      if fld x.w 17 4 ≠ 0 then .error .reservedBits
      else .ok (.mboxTry (bits 4 x.w 9) (bits 4 x.w 13))
  else if x.len = 0 ∧ fld x.w 21 11 = 2 then
      if fld x.w 13 8 ≠ 0 then .error .reservedBits
      else .ok (.mboxSt (bits 4 x.w 9))
  else .error .illegalOpcode

/-- Major 0x70 (05 R89; R283). -/
def dec70 (x : Raw) : Except Reject Instr :=
  if x.len = 2 ∧ fld x.w 21 11 = 0 then
      if fld x.e1 0 32 ≠ 0 then .error .reservedBits
      else .ok (.gld (bits 4 x.w 9) (bits 4 x.w 13) (bits 4 x.w 17) (bits 32 x.e2 0))
  else .error .illegalOpcode

/-- Major 0x71 (05 R89; R284). -/
def dec71 (x : Raw) : Except Reject Instr :=
  if x.len = 2 ∧ fld x.w 21 11 = 0 then
      if fld x.e1 0 32 ≠ 0 then .error .reservedBits
      else .ok (.gst (bits 4 x.w 9) (bits 4 x.w 13) (bits 4 x.w 17) (bits 32 x.e2 0))
  else .error .illegalOpcode

/-- Major 0x72 (05 R89; R286). -/
def dec72 (x : Raw) : Except Reject Instr :=
  if x.len = 2 ∧ fld x.w 21 11 = 0 then
      if fld x.w 9 4 ≠ 0 ∨ fld x.e1 0 32 ≠ 0 ∨ fld x.e2 0 32 ≠ 0 then .error .reservedBits
      else .ok (.gstep (bits 4 x.w 13) (bits 4 x.w 17))
  else .error .illegalOpcode

/-- Major 0x73 (05 R89; R287). -/
def dec73 (x : Raw) : Except Reject Instr :=
  if x.len = 2 ∧ fld x.w 21 11 = 0 then
      if fld x.w 9 4 ≠ 0 ∨ fld x.e1 0 32 ≠ 0 ∨ fld x.e2 0 32 ≠ 0 then .error .reservedBits
      else .ok (.gwait (bits 4 x.w 13) (bits 4 x.w 17))
  else if x.len = 2 ∧ fld x.w 21 11 = 1 then
      if fld x.w 9 4 ≠ 0 ∨ fld x.e1 0 32 ≠ 0 ∨ fld x.e2 0 32 ≠ 0 then .error .reservedBits
      else .ok (.gwaitOut (bits 4 x.w 13) (bits 4 x.w 17))
  else .error .illegalOpcode

/-- Major 0x74 (05 R89; R85). -/
def dec74 (x : Raw) : Except Reject Instr :=
  if x.len = 0 then
      if fld x.w 17 15 ≠ 0 then .error .reservedBits
      else .ok (.fmt (bits 1 x.w 16) (bits 2 x.w 14) (bits 5 x.w 9))
  else .error .illegalOpcode

/-- Major 0x75 (05 R89; R398). -/
def dec75 (x : Raw) : Except Reject Instr :=
  if x.len = 0 then
      if fld x.w 9 8 ≠ 0 then .error .reservedBits
      else .ok (.trap (bits 15 x.w 17))
  else .error .illegalOpcode

/-- Major 0x76 (05 R89; R398). -/
def dec76 (x : Raw) : Except Reject Instr :=
  if x.len = 0 then
      if fld x.w 9 8 ≠ 0 then .error .reservedBits
      else .ok (.brk (bits 15 x.w 17))
  else .error .illegalOpcode

/-- Major 0x77 (05 R89; R370). -/
def dec77 (x : Raw) : Except Reject Instr :=
  if x.len = 0 then
      if fld x.w 13 4 ≠ 0 ∨ fld x.w 29 3 ≠ 0 then .error .reservedBits
      else .ok (.sysrd (bits 12 x.w 17) (bits 4 x.w 9))
  else .error .illegalOpcode

/-- Major 0x78 (05 R89; R370). -/
def dec78 (x : Raw) : Except Reject Instr :=
  if x.len = 0 then
      if fld x.w 9 4 ≠ 0 ∨ fld x.w 29 3 ≠ 0 then .error .reservedBits
      else .ok (.syswr (bits 12 x.w 17) (bits 4 x.w 13))
  else .error .illegalOpcode

/-- Major 0x79 (05 R89; R400). -/
def dec79 (x : Raw) : Except Reject Instr :=
  if x.len = 0 then
      if fld x.w 9 23 ≠ 0 then .error .reservedBits
      else .ok (.eret)
  else .error .illegalOpcode

/-- Major 0x7A (05 R89; R377, R378). -/
def dec7A (x : Raw) : Except Reject Instr :=
  if x.len = 0 ∧ fld x.w 21 11 = 0 then
      if fld x.w 9 4 ≠ 0 then .error .reservedBits
      else .ok (.tlbinv (bits 4 x.w 13) (bits 4 x.w 17))
  else if x.len = 0 ∧ fld x.w 21 11 = 1 then
      if fld x.w 9 4 ≠ 0 then .error .reservedBits
      else .ok (.htset (bits 4 x.w 13) (bits 4 x.w 17))
  else .error .illegalOpcode

/-- Major 0x7B (05 R89; R417). -/
def dec7B (x : Raw) : Except Reject Instr :=
  if x.len = 0 ∧ fld x.w 21 11 = 0 then
      if fld x.w 9 4 ≠ 0 ∨ fld x.w 17 4 ≠ 0 then .error .reservedBits
      else .ok (.dtraceMark (bits 4 x.w 13))
  else if x.len = 0 ∧ fld x.w 21 11 = 1 then
      if fld x.w 9 12 ≠ 0 then .error .reservedBits
      else .ok (.dtraceBon)
  else if x.len = 0 ∧ fld x.w 21 11 = 2 then
      if fld x.w 9 12 ≠ 0 then .error .reservedBits
      else .ok (.dtraceBoff)
  else if x.len = 0 ∧ fld x.w 21 11 = 3 then
      if fld x.w 9 12 ≠ 0 then .error .reservedBits
      else .ok (.dtraceSync)
  else .error .illegalOpcode

/-- The majors from 0x01 to 0x0B. -/
def decGroup0 (maj : Nat) (x : Raw) : Except Reject Instr :=
  if maj = 0x01 then dec01 x
  else if maj = 0x02 then dec02 x
  else if maj = 0x03 then dec03 x
  else if maj = 0x04 then dec04 x
  else if maj = 0x05 then dec05 x
  else if maj = 0x06 then dec06 x
  else if maj = 0x07 then dec07 x
  else if maj = 0x08 then dec08 x
  else if maj = 0x09 then dec09 x
  else if maj = 0x0A then dec0A x
  else if maj = 0x0B then dec0B x
  else .error .illegalOpcode

/-- The majors from 0x0C to 0x16. -/
def decGroup1 (maj : Nat) (x : Raw) : Except Reject Instr :=
  if maj = 0x0C then dec0C x
  else if maj = 0x0D then dec0D x
  else if maj = 0x0E then dec0E x
  else if maj = 0x0F then dec0F x
  else if maj = 0x10 then dec10 x
  else if maj = 0x11 then dec11 x
  else if maj = 0x12 then dec12 x
  else if maj = 0x13 then dec13 x
  else if maj = 0x14 then dec14 x
  else if maj = 0x15 then dec15 x
  else if maj = 0x16 then dec16 x
  else .error .illegalOpcode

/-- The majors from 0x18 to 0x22. -/
def decGroup2 (maj : Nat) (x : Raw) : Except Reject Instr :=
  if maj = 0x18 then dec18 x
  else if maj = 0x19 then dec19 x
  else if maj = 0x1A then dec1A x
  else if maj = 0x1B then dec1B x
  else if maj = 0x1C then dec1C x
  else if maj = 0x1D then dec1D x
  else if maj = 0x1E then dec1E x
  else if maj = 0x1F then dec1F x
  else if maj = 0x20 then dec20 x
  else if maj = 0x21 then dec21 x
  else if maj = 0x22 then dec22 x
  else .error .illegalOpcode

/-- The majors from 0x23 to 0x2D. -/
def decGroup3 (maj : Nat) (x : Raw) : Except Reject Instr :=
  if maj = 0x23 then dec23 x
  else if maj = 0x24 then dec24 x
  else if maj = 0x25 then dec25 x
  else if maj = 0x26 then dec26 x
  else if maj = 0x27 then dec27 x
  else if maj = 0x28 then dec28 x
  else if maj = 0x29 then dec29 x
  else if maj = 0x2A then dec2A x
  else if maj = 0x2B then dec2B x
  else if maj = 0x2C then dec2C x
  else if maj = 0x2D then dec2D x
  else .error .illegalOpcode

/-- The majors from 0x2E to 0x39. -/
def decGroup4 (maj : Nat) (x : Raw) : Except Reject Instr :=
  if maj = 0x2E then dec2E x
  else if maj = 0x30 then dec30 x
  else if maj = 0x31 then dec31 x
  else if maj = 0x32 then dec32 x
  else if maj = 0x33 then dec33 x
  else if maj = 0x34 then dec34 x
  else if maj = 0x35 then dec35 x
  else if maj = 0x36 then dec36 x
  else if maj = 0x37 then dec37 x
  else if maj = 0x38 then dec38 x
  else if maj = 0x39 then dec39 x
  else .error .illegalOpcode

/-- The majors from 0x3A to 0x44. -/
def decGroup5 (maj : Nat) (x : Raw) : Except Reject Instr :=
  if maj = 0x3A then dec3A x
  else if maj = 0x3B then dec3B x
  else if maj = 0x3C then dec3C x
  else if maj = 0x3D then dec3D x
  else if maj = 0x3E then dec3E x
  else if maj = 0x3F then dec3F x
  else if maj = 0x40 then dec40 x
  else if maj = 0x41 then dec41 x
  else if maj = 0x42 then dec42 x
  else if maj = 0x43 then dec43 x
  else if maj = 0x44 then dec44 x
  else .error .illegalOpcode

/-- The majors from 0x45 to 0x4F. -/
def decGroup6 (maj : Nat) (x : Raw) : Except Reject Instr :=
  if maj = 0x45 then dec45 x
  else if maj = 0x46 then dec46 x
  else if maj = 0x47 then dec47 x
  else if maj = 0x48 then dec48 x
  else if maj = 0x49 then dec49 x
  else if maj = 0x4A then dec4A x
  else if maj = 0x4B then dec4B x
  else if maj = 0x4C then dec4C x
  else if maj = 0x4D then dec4D x
  else if maj = 0x4E then dec4E x
  else if maj = 0x4F then dec4F x
  else .error .illegalOpcode

/-- The majors from 0x50 to 0x5A. -/
def decGroup7 (maj : Nat) (x : Raw) : Except Reject Instr :=
  if maj = 0x50 then dec50 x
  else if maj = 0x51 then dec51 x
  else if maj = 0x52 then dec52 x
  else if maj = 0x53 then dec53 x
  else if maj = 0x54 then dec54 x
  else if maj = 0x55 then dec55 x
  else if maj = 0x56 then dec56 x
  else if maj = 0x57 then dec57 x
  else if maj = 0x58 then dec58 x
  else if maj = 0x59 then dec59 x
  else if maj = 0x5A then dec5A x
  else .error .illegalOpcode

/-- The majors from 0x5B to 0x6B. -/
def decGroup8 (maj : Nat) (x : Raw) : Except Reject Instr :=
  if maj = 0x5B then dec5B x
  else if maj = 0x5C then dec5C x
  else if maj = 0x5D then dec5D x
  else if maj = 0x5E then dec5E x
  else if maj = 0x60 then dec60 x
  else if maj = 0x61 then dec61 x
  else if maj = 0x62 then dec62 x
  else if maj = 0x68 then dec68 x
  else if maj = 0x69 then dec69 x
  else if maj = 0x6A then dec6A x
  else if maj = 0x6B then dec6B x
  else .error .illegalOpcode

/-- The majors from 0x6C to 0x79. -/
def decGroup9 (maj : Nat) (x : Raw) : Except Reject Instr :=
  if maj = 0x6C then dec6C x
  else if maj = 0x70 then dec70 x
  else if maj = 0x71 then dec71 x
  else if maj = 0x72 then dec72 x
  else if maj = 0x73 then dec73 x
  else if maj = 0x74 then dec74 x
  else if maj = 0x75 then dec75 x
  else if maj = 0x76 then dec76 x
  else if maj = 0x77 then dec77 x
  else if maj = 0x78 then dec78 x
  else if maj = 0x79 then dec79 x
  else .error .illegalOpcode

/-- The majors from 0x7A to 0x7B. -/
def decGroup10 (maj : Nat) (x : Raw) : Except Reject Instr :=
  if maj = 0x7A then dec7A x
  else if maj = 0x7B then dec7B x
  else .error .illegalOpcode

/-- The instruction before the reserved values are looked at. A major that is not assigned is illegal (05 R81, R89). -/
def decodeRaw (x : Raw) : Except Reject Instr :=
  let maj := fld x.w 2 7
  if maj ≤ 0x0B then decGroup0 maj x
  else if maj ≤ 0x16 then decGroup1 maj x
  else if maj ≤ 0x22 then decGroup2 maj x
  else if maj ≤ 0x2D then decGroup3 maj x
  else if maj ≤ 0x39 then decGroup4 maj x
  else if maj ≤ 0x44 then decGroup5 maj x
  else if maj ≤ 0x4F then decGroup6 maj x
  else if maj ≤ 0x5A then decGroup7 maj x
  else if maj ≤ 0x6B then decGroup8 maj x
  else if maj ≤ 0x79 then decGroup9 maj x
  else decGroup10 maj x

/-- Rows 2 and 3 of 05 R82: what the words stand for, or why they are rejected. -/
def decode (ws : List Nat) : Except Reject Instr :=
  match Raw.of ws with
  | none => .error .truncated
  | some x =>
    match decodeRaw x with
    | .error e => .error e
    | .ok i => if i.wf then .ok i else .error .reservedBits

/-- The 32-bit words of a number whose bits count on from word to word. -/
def wordsOf : Nat → Nat → List Nat
  | 0, _ => []
  | k + 1, w => w % 2 ^ 32 :: wordsOf k (w / 2 ^ 32)

/-- The instruction that the decoder reads from the bits of `w`, at most `nbits` of them, every later word zero. -/
def decodeTableWord (nbits w : Nat) : Option Instr :=
  match decode (wordsOf 5 (w % 2 ^ nbits)) with
  | .ok i => some i
  | .error _ => none

/-- A word: the constant part and the fields, each at its lowest bit. -/
def pack (base : Nat) : List (Nat × Nat) → Nat
  | [] => base
  | (v, lo) :: r => v * 2 ^ lo + pack base r

/-- A one-word instruction, or the same with a trailing literal in place of the field at `lo` (05 R68, R78). -/
def encImm {n : Nat} (base lo : Nat) : Imm n → List Nat
  | .short v => [base + v.toNat * 2 ^ lo]
  | .lit v => [base + 1, v.toNat % 2 ^ 32, v.toNat / 2 ^ 32]

/-- A form X instruction whose second extension word is its immediate (05 R76, R78). -/
def encX (base e1 : Nat) : Imm 32 → List Nat
  | .short v => [base, e1, v.toNat]
  | .lit v => [base + 1, e1, 0, v.toNat % 2 ^ 32, v.toNat / 2 ^ 32]

/-- The words of an instruction, from the layouts of 05 R70 to R78 and each instruction's encoding table. -/
def encode : Instr → List Nat
  | .add w d a b => [pack 0x00000004 [(w.toNat, 25), (d.toNat, 9), (a.toNat, 13), (b.toNat, 17)]]
  | .sub w d a b => [pack 0x00200004 [(w.toNat, 25), (d.toNat, 9), (a.toNat, 13), (b.toNat, 17)]]
  | .and w d a b => [pack 0x00400004 [(w.toNat, 25), (d.toNat, 9), (a.toNat, 13), (b.toNat, 17)]]
  | .or w d a b => [pack 0x00600004 [(w.toNat, 25), (d.toNat, 9), (a.toNat, 13), (b.toNat, 17)]]
  | .xor w d a b => [pack 0x00800004 [(w.toNat, 25), (d.toNat, 9), (a.toNat, 13), (b.toNat, 17)]]
  | .andn w d a b => [pack 0x00A00004 [(w.toNat, 25), (d.toNat, 9), (a.toNat, 13), (b.toNat, 17)]]
  | .shl w d a b => [pack 0x00C00004 [(w.toNat, 25), (d.toNat, 9), (a.toNat, 13), (b.toNat, 17)]]
  | .shr w d a b => [pack 0x00E00004 [(w.toNat, 25), (d.toNat, 9), (a.toNat, 13), (b.toNat, 17)]]
  | .shra w d a b => [pack 0x01000004 [(w.toNat, 25), (d.toNat, 9), (a.toNat, 13), (b.toNat, 17)]]
  | .rot w d a b => [pack 0x01200004 [(w.toNat, 25), (d.toNat, 9), (a.toNat, 13), (b.toNat, 17)]]
  | .min w d a b => [pack 0x01400004 [(w.toNat, 25), (d.toNat, 9), (a.toNat, 13), (b.toNat, 17)]]
  | .max w d a b => [pack 0x01600004 [(w.toNat, 25), (d.toNat, 9), (a.toNat, 13), (b.toNat, 17)]]
  | .minn w d a b => [pack 0x01800004 [(w.toNat, 25), (d.toNat, 9), (a.toNat, 13), (b.toNat, 17)]]
  | .maxn w d a b => [pack 0x01A00004 [(w.toNat, 25), (d.toNat, 9), (a.toNat, 13), (b.toNat, 17)]]
  | .adds w d a b => [pack 0x01C00004 [(w.toNat, 25), (d.toNat, 9), (a.toNat, 13), (b.toNat, 17)]]
  | .subs w d a b => [pack 0x01E00004 [(w.toNat, 25), (d.toNat, 9), (a.toNat, 13), (b.toNat, 17)]]
  | .addi d a i => encImm (pack 0x00000008 [(d.toNat, 9), (a.toNat, 13)]) 17 i
  | .andi d a i => encImm (pack 0x0000000C [(d.toNat, 9), (a.toNat, 13)]) 17 i
  | .ori d a i => encImm (pack 0x00000010 [(d.toNat, 9), (a.toNat, 13)]) 17 i
  | .xori d a i => encImm (pack 0x00000014 [(d.toNat, 9), (a.toNat, 13)]) 17 i
  | .shiShl w c d a => [pack 0x00000018 [(w.toNat, 28), (c.toNat, 17), (d.toNat, 9), (a.toNat, 13)]]
  | .shiShr w c d a => [pack 0x40000018 [(w.toNat, 28), (c.toNat, 17), (d.toNat, 9), (a.toNat, 13)]]
  | .shiShra w c d a => [pack 0x80000018 [(w.toNat, 28), (c.toNat, 17), (d.toNat, 9), (a.toNat, 13)]]
  | .shiRot w c d a => [pack 0xC0000018 [(w.toNat, 28), (c.toNat, 17), (d.toNat, 9), (a.toNat, 13)]]
  | .cmp c d a b => [pack 0x0000001C [(c.toNat, 21), (d.toNat, 9), (a.toNat, 13), (b.toNat, 17)]]
  | .cmpi c d a i => encImm (pack 0x00000020 [(c.toNat, 29), (d.toNat, 9), (a.toNat, 13)]) 17 i
  | .mul d a b => [pack 0x00000024 [(d.toNat, 9), (a.toNat, 13), (b.toNat, 17)]]
  | .mulh d a b => [pack 0x00200024 [(d.toNat, 9), (a.toNat, 13), (b.toNat, 17)]]
  | .mulhn d a b => [pack 0x00400024 [(d.toNat, 9), (a.toNat, 13), (b.toNat, 17)]]
  | .mad d a b => [pack 0x00600024 [(d.toNat, 9), (a.toNat, 13), (b.toNat, 17)]]
  | .div d a b => [pack 0x00800024 [(d.toNat, 9), (a.toNat, 13), (b.toNat, 17)]]
  | .divn d a b => [pack 0x00A00024 [(d.toNat, 9), (a.toNat, 13), (b.toNat, 17)]]
  | .rem d a b => [pack 0x00C00024 [(d.toNat, 9), (a.toNat, 13), (b.toNat, 17)]]
  | .remn d a b => [pack 0x00E00024 [(d.toNat, 9), (a.toNat, 13), (b.toNat, 17)]]
  | .clz d a => [pack 0x00000028 [(d.toNat, 9), (a.toNat, 13)]]
  | .ctz d a => [pack 0x00200028 [(d.toNat, 9), (a.toNat, 13)]]
  | .popc d a => [pack 0x00400028 [(d.toNat, 9), (a.toNat, 13)]]
  | .brev d a => [pack 0x00600028 [(d.toNat, 9), (a.toNat, 13)]]
  | .bswap d a => [pack 0x00800028 [(d.toNat, 9), (a.toNat, 13)]]
  | .extb s l p d a => [pack 0x0000002C [(s.toNat, 29), (l.toNat, 23), (p.toNat, 17), (d.toNat, 9), (a.toNat, 13)]]
  | .insb l p d a => [pack 0x00000030 [(l.toNat, 23), (p.toNat, 17), (d.toNat, 9), (a.toNat, 13)]]
  | .sel c d a b => [pack 0x00000034 [(c.toNat, 21), (d.toNat, 9), (a.toNat, 13), (b.toNat, 17)]]
  | .lea s d a b => [pack 0x00000038 [(s.toNat, 21), (d.toNat, 9), (a.toNat, 13), (b.toNat, 17)]]
  | .ldi d i => encImm (pack 0x0000003C [(d.toNat, 9)]) 17 i
  | .widf d a => [pack 0x00000040 [(d.toNat, 9), (a.toNat, 13)]]
  | .shape d a => [pack 0x00200040 [(d.toNat, 9), (a.toNat, 13)]]
  | .locid d a => [pack 0x00400040 [(d.toNat, 9), (a.toNat, 13)]]
  | .fadd f r d a b => [pack 0x00000044 [(f.toNat, 29), (r.toNat, 27), (d.toNat, 9), (a.toNat, 13), (b.toNat, 17)]]
  | .fsub f r d a b => [pack 0x00200044 [(f.toNat, 29), (r.toNat, 27), (d.toNat, 9), (a.toNat, 13), (b.toNat, 17)]]
  | .fmul f r d a b => [pack 0x00400044 [(f.toNat, 29), (r.toNat, 27), (d.toNat, 9), (a.toNat, 13), (b.toNat, 17)]]
  | .fdiv f r d a b => [pack 0x00600044 [(f.toNat, 29), (r.toNat, 27), (d.toNat, 9), (a.toNat, 13), (b.toNat, 17)]]
  | .fmin f r d a b => [pack 0x00800044 [(f.toNat, 29), (r.toNat, 27), (d.toNat, 9), (a.toNat, 13), (b.toNat, 17)]]
  | .fmax f r d a b => [pack 0x00A00044 [(f.toNat, 29), (r.toNat, 27), (d.toNat, 9), (a.toNat, 13), (b.toNat, 17)]]
  | .fsqrt f r d a => [pack 0x00C00044 [(f.toNat, 29), (r.toNat, 27), (d.toNat, 9), (a.toNat, 13)]]
  | .fabs f r d a => [pack 0x00E00044 [(f.toNat, 29), (r.toNat, 27), (d.toNat, 9), (a.toNat, 13)]]
  | .fneg f r d a => [pack 0x01000044 [(f.toNat, 29), (r.toNat, 27), (d.toNat, 9), (a.toNat, 13)]]
  | .fcpys f r d a b => [pack 0x01200044 [(f.toNat, 29), (r.toNat, 27), (d.toNat, 9), (a.toNat, 13), (b.toNat, 17)]]
  | .fma f r d a b => [pack 0x00000048 [(f.toNat, 29), (r.toNat, 27), (d.toNat, 9), (a.toNat, 13), (b.toNat, 17)]]
  | .fcmp f c d a b => [pack 0x0000004C [(f.toNat, 29), (c.toNat, 21), (d.toNat, 9), (a.toNat, 13), (b.toNat, 17)]]
  | .fcvt r t s d a => [pack 0x00000050 [(r.toNat, 31), (t.toNat, 26), (s.toNat, 21), (d.toNat, 9), (a.toNat, 13)]]
  | .fclass f d a => [pack 0x00000054 [(f.toNat, 29), (d.toNat, 9), (a.toNat, 13)]]
  | .rcp f d a => [pack 0x00000058 [(f.toNat, 29), (d.toNat, 9), (a.toNat, 13)]]
  | .rsq f d a => [pack 0x00200058 [(f.toNat, 29), (d.toNat, 9), (a.toNat, 13)]]
  | .exp2 f d a => [pack 0x00400058 [(f.toNat, 29), (d.toNat, 9), (a.toNat, 13)]]
  | .log2 f d a => [pack 0x00600058 [(f.toNat, 29), (d.toNat, 9), (a.toNat, 13)]]
  | .sinpi f d a => [pack 0x00800058 [(f.toNat, 29), (d.toNat, 9), (a.toNat, 13)]]
  | .cospi f d a => [pack 0x00A00058 [(f.toNat, 29), (d.toNat, 9), (a.toNat, 13)]]
  | .tanh f d a => [pack 0x00C00058 [(f.toNat, 29), (d.toNat, 9), (a.toNat, 13)]]
  | .sigm f d a => [pack 0x00E00058 [(f.toNat, 29), (d.toNat, 9), (a.toNat, 13)]]
  | .br o => encImm (0x00000060) 9 o
  | .call o => encImm (0x0000006C) 9 o
  | .bc c b a o => encImm (pack 0x00000064 [(c.toNat, 17), (b.toNat, 13), (a.toNat, 9)]) 20 o
  | .bz c a o => encImm (pack 0x00000068 [(c.toNat, 17), (a.toNat, 9)]) 20 o
  | .jmpr a => [pack 0x00000070 [(a.toNat, 13)]]
  | .callr d a => [pack 0x00200070 [(d.toNat, 9), (a.toNat, 13)]]
  | .ret a => [pack 0x00400070 [(a.toNat, 13)]]
  | .jtab a n t => [pack 0x00000076 [(a.toNat, 13)], pack 0 [(n.toNat, 0)], pack 0 [(t.toNat, 2)]]
  | .exit c => [pack 0x00000078 [(c.toNat, 17)]]
  | .nop => [0x0000007C]
  | .ld scp o z d a p => encImm (pack 0x00000080 [(scp.toNat, 22), (o.toNat, 20), (z.toNat, 17), (d.toNat, 9), (a.toNat, 13)]) 24 p
  | .st scp o z d a p => encImm (pack 0x00000084 [(scp.toNat, 22), (o.toNat, 20), (z.toNat, 17), (d.toNat, 9), (a.toNat, 13)]) 24 p
  | .fence scp k => [pack 0x00000088 [(scp.toNat, 23), (k.toNat, 21)]]
  | .lr scp o z d a p => encImm (pack 0x0000008C [(scp.toNat, 22), (o.toNat, 20), (z.toNat, 17), (d.toNat, 9), (a.toNat, 13)]) 24 p
  | .sc scp o z d a p => encImm (pack 0x00000090 [(scp.toNat, 22), (o.toNat, 20), (z.toNat, 17), (d.toNat, 9), (a.toNat, 13)]) 24 p
  | .amoAdd scp o z d a p => encImm (pack 0x00000094 [(scp.toNat, 22), (o.toNat, 20), (z.toNat, 17), (d.toNat, 9), (a.toNat, 13)]) 24 p
  | .amoAnd scp o z d a p => encImm (pack 0x10000094 [(scp.toNat, 22), (o.toNat, 20), (z.toNat, 17), (d.toNat, 9), (a.toNat, 13)]) 24 p
  | .amoOr scp o z d a p => encImm (pack 0x20000094 [(scp.toNat, 22), (o.toNat, 20), (z.toNat, 17), (d.toNat, 9), (a.toNat, 13)]) 24 p
  | .amoXor scp o z d a p => encImm (pack 0x30000094 [(scp.toNat, 22), (o.toNat, 20), (z.toNat, 17), (d.toNat, 9), (a.toNat, 13)]) 24 p
  | .amoSwap scp o z d a p => encImm (pack 0x40000094 [(scp.toNat, 22), (o.toNat, 20), (z.toNat, 17), (d.toNat, 9), (a.toNat, 13)]) 24 p
  | .amoMin scp o z d a p => encImm (pack 0x50000094 [(scp.toNat, 22), (o.toNat, 20), (z.toNat, 17), (d.toNat, 9), (a.toNat, 13)]) 24 p
  | .amoMax scp o z d a p => encImm (pack 0x60000094 [(scp.toNat, 22), (o.toNat, 20), (z.toNat, 17), (d.toNat, 9), (a.toNat, 13)]) 24 p
  | .amoMinn scp o z d a p => encImm (pack 0x70000094 [(scp.toNat, 22), (o.toNat, 20), (z.toNat, 17), (d.toNat, 9), (a.toNat, 13)]) 24 p
  | .amoMaxn scp o z d a p => encImm (pack 0x80000094 [(scp.toNat, 22), (o.toNat, 20), (z.toNat, 17), (d.toNat, 9), (a.toNat, 13)]) 24 p
  | .cas z scp o d a b p => encX (pack 0x0000009A [(d.toNat, 9), (a.toNat, 13), (b.toNat, 17)]) (pack 0 [(z.toNat, 4), (scp.toNat, 2), (o.toNat, 0)]) p
  | .waitrs scp o z d a p => encImm (pack 0x0000009C [(scp.toNat, 22), (o.toNat, 20), (z.toNat, 17), (d.toNat, 9), (a.toNat, 13)]) 24 p
  | .red f scp o a b p => encX (pack 0x000000A2 [(a.toNat, 13), (b.toNat, 17)]) (pack 0 [(f.toNat, 7), (scp.toNat, 2), (o.toNat, 0)]) p
  | .xsrd k f scp o d a p => encX (pack 0x000000A6 [(d.toNat, 9), (a.toNat, 13)]) (pack 0 [(k.toNat, 12), (f.toNat, 7), (scp.toNat, 2), (o.toNat, 0)]) p
  | .ldfeRead scp d a p => encImm (pack 0x000C00A8 [(scp.toNat, 22), (d.toNat, 9), (a.toNat, 13)]) 24 p
  | .ldfeTake scp d a p => encImm (pack 0x100C00A8 [(scp.toNat, 22), (d.toNat, 9), (a.toNat, 13)]) 24 p
  | .stfePut scp d a p => encImm (pack 0x000C00AC [(scp.toNat, 22), (d.toNat, 9), (a.toNat, 13)]) 24 p
  | .stfeFill scp d a p => encImm (pack 0x100C00AC [(scp.toNat, 22), (d.toNat, 9), (a.toNat, 13)]) 24 p
  | .stfeClear scp a p => encImm (pack 0x200C00AC [(scp.toNat, 22), (a.toNat, 13)]) 24 p
  | .pref scp a p => encImm (pack 0x000000B0 [(scp.toNat, 22), (a.toNat, 13)]) 24 p
  | .clean scp a p => encImm (pack 0x100000B0 [(scp.toNat, 22), (a.toNat, 13)]) 24 p
  | .inval scp a p => encImm (pack 0x200000B0 [(scp.toNat, 22), (a.toNat, 13)]) 24 p
  | .invalCluster scp d a p => encImm (pack 0x200000B0 [(scp.toNat, 22), (d.toNat, 9), (a.toNat, 13)]) 24 p
  | .ldc scp o d a p => encImm (pack 0x000C00B4 [(scp.toNat, 22), (o.toNat, 20), (d.toNat, 9), (a.toNat, 13)]) 24 p
  | .stc scp o d a p => encImm (pack 0x000C00B8 [(scp.toNat, 22), (o.toNat, 20), (d.toNat, 9), (a.toNat, 13)]) 24 p
  | .spawn k c a b => [pack 0x000000C0 [(k.toNat, 25), (c.toNat, 21), (a.toNat, 13), (b.toNat, 17)]]
  | .reap d a => [pack 0x000000C4 [(d.toNat, 9), (a.toNat, 13)]]
  | .reapAny d => [pack 0x002000C4 [(d.toNat, 9)]]
  | .bind k => [pack 0x000000C8 [(k.toNat, 21)]]
  | .semP a => [pack 0x000000CC [(a.toNat, 13)]]
  | .semV a => [pack 0x002000CC [(a.toNat, 13)]]
  | .semTry d a => [pack 0x004000CC [(d.toNat, 9), (a.toNat, 13)]]
  | .send a b => [pack 0x000000D0 [(a.toNat, 13), (b.toNat, 17)]]
  | .sendS a b => [pack 0x020000D0 [(a.toNat, 13), (b.toNat, 17)]]
  | .openS d a => [pack 0x002000D0 [(d.toNat, 9), (a.toNat, 13)]]
  | .close a => [pack 0x004000D0 [(a.toNat, 13)]]
  | .wake a b => [pack 0x006000D0 [(a.toNat, 13), (b.toNat, 17)]]
  | .recv d b => [pack 0x000000D4 [(d.toNat, 9), (b.toNat, 17)]]
  | .tryrecv d b => [pack 0x002000D4 [(d.toNat, 9), (b.toNat, 17)]]
  | .rcall a b k p => [pack 0x000000DA [(a.toNat, 13), (b.toNat, 17)], pack 0 [(k.toNat, 0)], pack 0 [(p.toNat, 0)]]
  | .rreply a => [pack 0x002000DA [(a.toNat, 13)], 0, 0]
  | .bara d bar n => [pack 0x004000DA [(d.toNat, 9)], pack 0 [(bar.toNat, 16), (n.toNat, 0)], 0]
  | .barw a bar => [pack 0x006000DA [(a.toNat, 13)], pack 0 [(bar.toNat, 16)], 0]
  | .llpush d a => [pack 0x000000DC [(d.toNat, 9), (a.toNat, 13)]]
  | .llpop d b => [pack 0x002000DC [(d.toNat, 9), (b.toNat, 17)]]
  | .migrate a => [pack 0x004000DC [(a.toNat, 13)]]
  | .specb a b => [pack 0x006000DC [(a.toNat, 13), (b.toNat, 17)]]
  | .specc => [0x008000DC]
  | .pause => [0x000000E0]
  | .instn d => [pack 0x002000E0 [(d.toNat, 9)]]
  | .emit k a b => [pack 0x000000E4 [(k.toNat, 21), (a.toNat, 13), (b.toNat, 17)]]
  | .test q d a => [pack 0x000000E8 [(q.toNat, 17), (d.toNat, 9), (a.toNat, 13)]]
  | .testv q d a => [pack 0x002000E8 [(q.toNat, 17), (d.toNat, 9), (a.toNat, 13)]]
  | .renounce a => [pack 0x004000E8 [(a.toNat, 13)]]
  | .emits sl a b => [pack 0x006000EA [(a.toNat, 13), (b.toNat, 17)], pack 0 [(sl.toNat, 0)], 0]
  | .abortw a p => [pack 0x000000EE [(a.toNat, 13)], 0, pack 0 [(p.toNat, 0)]]
  | .suspw a => [pack 0x002000EE [(a.toNat, 13)], 0, 0]
  | .endw => [0x004000EE, 0, 0]
  | .sigforce k a b => [pack 0x006000EE [(a.toNat, 13), (b.toNat, 17)], pack 0 [(k.toNat, 0)], 0]
  | .lehrw k n d a => [pack 0x008000EE [(d.toNat, 9), (a.toNat, 13)], pack 0 [(k.toNat, 16), (n.toNat, 0)], 0]
  | .rld m o z d a b p => encX (pack 0x000000F2 [(d.toNat, 9), (a.toNat, 13), (b.toNat, 17)]) (pack 0 [(m.toNat, 12), (o.toNat, 8), (z.toNat, 4)]) p
  | .rst m o z d a b p => encX (pack 0x000000F6 [(d.toNat, 9), (a.toNat, 13), (b.toNat, 17)]) (pack 0 [(m.toNat, 12), (o.toNat, 8), (z.toNat, 4)]) p
  | .ramo o z k d a b p => encX (pack 0x000000FA [(d.toNat, 9), (a.toNat, 13), (b.toNat, 17)]) (pack 0 [(o.toNat, 8), (z.toNat, 4), (k.toNat, 0)]) p
  | .cderiv d a b => [pack 0x000000FC [(d.toNat, 9), (a.toNat, 13), (b.toNat, 17)]]
  | .cget d a b => [pack 0x002000FC [(d.toNat, 9), (a.toNat, 13), (b.toNat, 17)]]
  | .cclr d a => [pack 0x004000FC [(d.toNat, 9), (a.toNat, 13)]]
  | .vadd s f q d a b => [pack 0x00000100 [(s.toNat, 31), (f.toNat, 27), (q.toNat, 24), (d.toNat, 9), (a.toNat, 14), (b.toNat, 19)]]
  | .vsub s f q d a b => [pack 0x00000104 [(s.toNat, 31), (f.toNat, 27), (q.toNat, 24), (d.toNat, 9), (a.toNat, 14), (b.toNat, 19)]]
  | .vmul s f q d a b => [pack 0x00000108 [(s.toNat, 31), (f.toNat, 27), (q.toNat, 24), (d.toNat, 9), (a.toNat, 14), (b.toNat, 19)]]
  | .vfma s f q d a b => [pack 0x0000010C [(s.toNat, 31), (f.toNat, 27), (q.toNat, 24), (d.toNat, 9), (a.toNat, 14), (b.toNat, 19)]]
  | .vmin s q d a b => [pack 0x00000110 [(s.toNat, 31), (q.toNat, 24), (d.toNat, 9), (a.toNat, 14), (b.toNat, 19)]]
  | .vmax s q d a b => [pack 0x00000114 [(s.toNat, 31), (q.toNat, 24), (d.toNat, 9), (a.toNat, 14), (b.toNat, 19)]]
  | .vand s q d a b => [pack 0x00000118 [(s.toNat, 31), (q.toNat, 24), (d.toNat, 9), (a.toNat, 14), (b.toNat, 19)]]
  | .vor s q d a b => [pack 0x0000011C [(s.toNat, 31), (q.toNat, 24), (d.toNat, 9), (a.toNat, 14), (b.toNat, 19)]]
  | .vxor s q d a b => [pack 0x00000120 [(s.toNat, 31), (q.toNat, 24), (d.toNat, 9), (a.toNat, 14), (b.toNat, 19)]]
  | .vshl s q d a b => [pack 0x00000124 [(s.toNat, 31), (q.toNat, 24), (d.toNat, 9), (a.toNat, 14), (b.toNat, 19)]]
  | .vshr s f q d a b => [pack 0x00000128 [(s.toNat, 31), (f.toNat, 27), (q.toNat, 24), (d.toNat, 9), (a.toNat, 14), (b.toNat, 19)]]
  | .vcmp s f q d a b => [pack 0x0000012C [(s.toNat, 31), (f.toNat, 27), (q.toNat, 24), (d.toNat, 9), (a.toNat, 14), (b.toNat, 19)]]
  | .vsel s q d a b => [pack 0x00000130 [(s.toNat, 31), (q.toNat, 24), (d.toNat, 9), (a.toNat, 14), (b.toNat, 19)]]
  | .vcvt s f q d a b => [pack 0x00000134 [(s.toNat, 31), (f.toNat, 27), (q.toNat, 24), (d.toNat, 9), (a.toNat, 14), (b.toNat, 19)]]
  | .vapx f q d a => [pack 0x00000138 [(f.toNat, 27), (q.toNat, 24), (d.toNat, 9), (a.toNat, 14)]]
  | .vabs q d a => [pack 0x0000013C [(q.toNat, 24), (d.toNat, 9), (a.toNat, 14)]]
  | .vneg q d a => [pack 0x0800013C [(q.toNat, 24), (d.toNat, 9), (a.toNat, 14)]]
  | .vred f q d a => [pack 0x00000140 [(f.toNat, 27), (q.toNat, 24), (d.toNat, 9), (a.toNat, 14)]]
  | .vscan f q d a => [pack 0x00000144 [(f.toNat, 27), (q.toNat, 24), (d.toNat, 9), (a.toNat, 14)]]
  | .vperm q d a b => [pack 0x00000148 [(q.toNat, 24), (d.toNat, 9), (a.toNat, 14), (b.toNat, 19)]]
  | .vbcast f q d a b => [pack 0x8000014C [(f.toNat, 27), (q.toNat, 24), (d.toNat, 9), (a.toNat, 14), (b.toNat, 19)]]
  | .vmovx f d a b => [pack 0x80000150 [(f.toNat, 27), (d.toNat, 9), (a.toNat, 14), (b.toNat, 19)]]
  | .vld s q d a b => [pack 0x00000154 [(s.toNat, 31), (q.toNat, 24), (d.toNat, 9), (a.toNat, 14), (b.toNat, 19)]]
  | .vst s q d a b => [pack 0x00000158 [(s.toNat, 31), (q.toNat, 24), (d.toNat, 9), (a.toNat, 14), (b.toNat, 19)]]
  | .vgath a sh p q vi d disp => [pack 0x0000015E [(a.toNat, 13)], pack 0 [(sh.toNat, 16), (p.toNat, 13), (q.toNat, 10), (vi.toNat, 5), (d.toNat, 0)], pack 0 [(disp.toNat, 0)]]
  | .vscat a sh p q vi d disp => [pack 0x00000162 [(a.toNat, 13)], pack 0 [(sh.toNat, 16), (p.toNat, 13), (q.toNat, 10), (vi.toNat, 5), (d.toNat, 0)], pack 0 [(disp.toNat, 0)]]
  | .vsort n k q d a => [pack 0x00000164 [(n.toNat, 28), (k.toNat, 27), (q.toNat, 24), (d.toNat, 9), (a.toNat, 14)]]
  | .vmerge h n k q d a b => [pack 0x00000168 [(h.toNat, 29), (n.toNat, 28), (k.toNat, 27), (q.toNat, 24), (d.toNat, 9), (a.toNat, 14), (b.toNat, 19)]]
  | .vtopk n q d a b => [pack 0x8000016C [(n.toNat, 27), (q.toNat, 24), (d.toNat, 9), (a.toNat, 14), (b.toNat, 19)]]
  | .plog s f d a b => [pack 0x00000170 [(s.toNat, 31), (f.toNat, 27), (d.toNat, 9), (a.toNat, 14), (b.toNat, 19)]]
  | .rep t l a => [pack 0x00000174 [(t.toNat, 25), (l.toNat, 21), (a.toNat, 13)]]
  | .vcfg d => [pack 0x00000178 [(d.toNat, 9)]]
  | .vcfgWr d a => [pack 0x00200178 [(d.toNat, 9), (a.toNat, 13)]]
  | .vcfgClr d => [pack 0x00400178 [(d.toNat, 9)]]
  | .mxq d a => [pack 0x00000180 [(d.toNat, 9), (a.toNat, 13)]]
  | .mxwait a => [pack 0x00000184 [(a.toNat, 13)]]
  | .mxwaitAll => [0x00200184]
  | .mxstat d a => [pack 0x00000188 [(d.toNat, 9), (a.toNat, 13)]]
  | .mxstatResume => [0x00200188]
  | .mxstatDrop => [0x00400188]
  | .mxstatSdrop => [0x00600188]
  | .cpq d a b => [pack 0x000001A0 [(d.toNat, 9), (a.toNat, 13), (b.toNat, 17)]]
  | .cpwait a => [pack 0x000001A4 [(a.toNat, 13)]]
  | .cpwaitAll => [0x002001A4]
  | .syncw a b => [pack 0x000001A8 [(a.toNat, 13), (b.toNat, 17)]]
  | .syncwReset a b => [pack 0x002001A8 [(a.toNat, 13), (b.toNat, 17)]]
  | .syncwait d a b => [pack 0x000001AC [(d.toNat, 9), (a.toNat, 13), (b.toNat, 17)]]
  | .mbox d a => [pack 0x000001B0 [(d.toNat, 9), (a.toNat, 13)]]
  | .mboxTry d a => [pack 0x002001B0 [(d.toNat, 9), (a.toNat, 13)]]
  | .mboxSt d => [pack 0x004001B0 [(d.toNat, 9)]]
  | .gld d a b p => [pack 0x000001C2 [(d.toNat, 9), (a.toNat, 13), (b.toNat, 17)], 0, pack 0 [(p.toNat, 0)]]
  | .gst d a b p => [pack 0x000001C6 [(d.toNat, 9), (a.toNat, 13), (b.toNat, 17)], 0, pack 0 [(p.toNat, 0)]]
  | .gstep a b => [pack 0x000001CA [(a.toNat, 13), (b.toNat, 17)], 0, 0]
  | .gwait a b => [pack 0x000001CE [(a.toNat, 13), (b.toNat, 17)], 0, 0]
  | .gwaitOut a b => [pack 0x002001CE [(a.toNat, 13), (b.toNat, 17)], 0, 0]
  | .fmt s g f => [pack 0x000001D0 [(s.toNat, 16), (g.toNat, 14), (f.toNat, 9)]]
  | .trap c => [pack 0x000001D4 [(c.toNat, 17)]]
  | .brk c => [pack 0x000001D8 [(c.toNat, 17)]]
  | .sysrd n d => [pack 0x000001DC [(n.toNat, 17), (d.toNat, 9)]]
  | .syswr n a => [pack 0x000001E0 [(n.toNat, 17), (a.toNat, 13)]]
  | .eret => [0x000001E4]
  | .tlbinv a b => [pack 0x000001E8 [(a.toNat, 13), (b.toNat, 17)]]
  | .htset a b => [pack 0x002001E8 [(a.toNat, 13), (b.toNat, 17)]]
  | .dtraceMark a => [pack 0x000001EC [(a.toNat, 13)]]
  | .dtraceBon => [0x002001EC]
  | .dtraceBoff => [0x004001EC]
  | .dtraceSync => [0x006001EC]
  | .portEntryExecute _ _ | .repPass _ _ | .mxqWindowSubmit _ _ | .mma _ | .mmai _ => []
  | .mmaq _ | .tload _ | .tstore _ | .tzero _ | .tcfg _ => []
  | .trow _ | .gangJoin _ | .gangJoinComplete _ | .gangReduce _ | .scaleMissFill _ => []
  | .matrixCompletion _ | .copy _ _ _ | .gather _ _ _ | .scatter _ _ _ | .fill _ _ _ => []
  | .reduce _ _ _ | .halox _ _ _ | .rcopy _ _ _ | .notify _ _ _ | .copyPacketComplete _ => []
  | .copyHoldTimeout _ | .watermarkAdvance _ | .mailboxPost _ | .mailboxTimeout _ | .launch _ _ => []
  | .blockDispatch _ _ | .schedulerEpoch _ | .launchComplete _ | .qregRegister _ | .qregUnregister _ => []
  | .tagArrival _ | .releaseMarkerComplete _ | .homeWrite _ | .atomicAtPlace _ | .feResend _ => []
  | .feLimit _ | .lrLockExpiry _ | .streamIdleEnd _ _ | .bankmodeWrite _ _ | .bankModeChangeDone _ _ => []
  | .fifoPush _ _ _ | .fifoPop _ _ | .haloFillStart _ | .haloFillComplete _ | .sigmaUpdate _ => []
  | .haloFillAbandon _ _ | .lehrDecide _ | .instantLimit _ | .frameApply _ | .signalEmission _ => []
  | .signalRelease _ | .signalQuery _ | .channelWordArrival _ | .exitNotice _ | .barrierArrival _ => []
  | .migrationArrival _ | .migrationResend _ | .rcallArrival _ | .loadLevellingInterval _ | .llEntriesArrive _ => []
  | .pageWalk _ _ _ _ | .staWrite _ | .htbaseWrite _ | .htlenWrite _ | .ptrootWrite _ => []
  | .capepochWrite _ | .pcapwhyWrite _ | .tracectlWrite _ | .traceptrWrite _ | .ecauseWrite _ _ => []
  | .eventDelivery _ | .watchdog _ | .spill _ | .restore _ | .save _ => []
  | .patrolScrub _ | .controlStateError _ | .replayWaitTimeout _ | .flitReceive _ _ | .linkAckReceive _ _ _ => []
  | .laneLossOfSignal _ _ | .retrainComplete _ _ | .serviceRetrain _ _ | .linkStateUpdate _ _ _ | .fabricForward _ _ => []
  | .fabricRequestIngress _ | .fabricResponse _ | .e2eResend _ | .remoteTimeout _ | .revisionExchange _ _ _ _ => []
  | .reductionContribution _ | .reductionRoundFail _ _ | .capFrame _ | .thermalLimit | .currentLimit => []
  | .thermalTrip | .powerUp _ | .calibrationDone _ _ _ | .memoryInitDone | .fwptrWrite _ => []
  | .attestationRequest _ | .hreqWrite _ _ | .cxlMemRequest _ _ | .liveFirmwareUpdate _ | .dramChannelRetrain _ _ => []
  | .clusterRecalibration _ _ | .clusterRetire _ | .clusterRetireFinish _ | .partitionCreate _ | .illegalOpcode => []
  | .osellTrainingEnd _ _ | .thermalLimitRelease | .currentLimitRelease | .hallKeyProvision _ => []

end Sys2Proof
end

