-- ==== Sys2Proof/Machine/State.lean ====
section
/-! DEFINITION. Sys2Proof/Machine/State.lean: everything the spec gives the machine, as plain data, and the state after
reset. Numbered things (contexts, cores, clusters, partitions, launches) are sparse maps; an unlisted number has the
reset record. INVENTORY.md lists every field with its rule. -/

namespace Sys2Proof.Machine

/-- Why the machine itself stops. -/
inductive Fault where
  /-- Raised by `step` when nothing is on the agenda and a thermal trip has removed core power (19 R449): no context
  issues without power. Safe: the part does nothing then. -/
  | corePowerOff
  /-- Raised by `step` when nothing is on the agenda and bring-up found the part unusable (19 R442): the part stays out
  of service. Safe: the part runs nothing then. -/
  | bringUpFailed
deriving DecidableEq, Repr

/-- Why a step has no meaning. -/
inductive Refusal where
  /-- Raised by an arm of `exec` for an instruction that has no meaning yet. Safe: nothing is claimed of it. -/
  | notModelled (mnemonic : String)
deriving DecidableEq, Repr

/-- A cause code (17 R397). -/
abbrev Cause := BitVec 6

/-- A byte location of the package: device DRAM of partition `p` at physical address `a` is `p * 2^40 + a`; an SRAM byte
of cluster `c`, bank `b`, offset `o` is `2^60 + c * 2^21 + b * 2^16 + o`; host memory at `a` is `2^61 + a` (03 R40). A store buffer also
names bytes behind a PEER handle: `2^70 + (p * 2^12 + h) * 2^52 + o` for handle `h` of partition `p` (18 R433). -/
abbrev Loc := Nat

/-- Memory: the bytes that are not 0, by location, in rising order (19 R442: every byte is 0 after initialisation). -/
abbrev Memory := List (Nat × Byte)

/-- The canonical form of memory: locations strictly rising from `lo`, and no listed byte 0. -/
def Memory.wfFrom : Nat → Memory → Bool
  | _, [] => true
  | lo, (a, b) :: r => decide (lo ≤ a) && decide (b ≠ 0) && Memory.wfFrom (a + 1) r

/-- The canonical form of memory. -/
def Memory.wf (m : Memory) : Bool := Memory.wfFrom 0 m

/-- `STA` by its fields (16 R368). The bits of no field read as zero. -/
structure Sta where
  spec : Bool := false
  port : BitVec 2 := 0
  bind : BitVec 3 := 0
  ss : Bool := false
  sup : Bool := false
  /-- NV, DZ, OF, UF, NX from bit 4 down to bit 0 (06 R109). -/
  flags : BitVec 5 := 0
  rm : BitVec 3 := 0
  pfx : BitVec 8 := 0
  pp : Bool := false
deriving DecidableEq, Repr

/-- What a fault, trap or event carries (17 R392). -/
structure Exc where
  code : Cause
  addr : Word := 0
  info : Word := 0
deriving DecidableEq, Repr

/-- A directory overflow event (10 R236): its kind, the line, the cluster of 10 R237, and the writing thread's name. -/
structure DirEv where
  write : Bool
  line : Nat
  clu : Nat
  waiter : Option Nat
deriving DecidableEq, Repr

/-- The states of a context slot (02 R25). -/
inductive Slot where
  | free | reserved | ready | blocked | exited
deriving DecidableEq, Repr

/-- Slot run state helper: the thread in it is live. -/
def Slot.live : Slot → Bool
  | .ready | .blocked => true
  | .free | .reserved | .exited => false

/-- A full-empty operation that a word's state may make wait (10 R230). -/
inductive FeMode where
  | read | take | put | fill | clear
deriving DecidableEq, Repr

/-- What a BLOCKED context waits for (02 R32; 14 R302; 15 R360). -/
inductive Why where
  /-- The store buffer is full and every entry is held back (10 R209). -/
  | buffer
  /-- A release marker's writes are not all acknowledged (10 R210). -/
  | marker
  /-- An operation at a place whose line is locked or whose marker is pending (10 R216, R226). -/
  | place (loc : Nat)
  /-- A held bank must be saved first (17 R405). -/
  | bank (loc : Nat)
  | retry (loc : Nat)
  | watch (loc : Nat)
  | syncword (loc : Nat)
  | fifo (bank : Nat) (pop : Bool)
  | sem (n : Nat)
  | recv
  | mbox
  | send (dst : Nat)
  | openS (dst : Nat)
  | barArr
  | barrier (bar : Nat) (phase : Bool)
  | engine (kind : Nat)
  | drain
  | reap (c : Nat)
  | baton
  | rcall (token : Nat)
  | remote (eseq : Nat)
  | mxwait (ticket : Nat)
  | mxqueue
  | cpwait (ticket : Nat)
  | cpqueue
  /-- An access above a watermark: the packet whose channel holds it, and the access's locations (12 R260). -/
  | watermark (pk : Nat) (ls : List Nat)
  | grid (obj : Nat)
  | test (sig : Nat)
  | testv (sig : Nat)
  | pause
  | lehr
  | migrate (tgt : Nat)
  | trace
  | homes
  /-- The context ends with a code, and the report is made, once its buffered entries have been written (17 R395, R410). -/
  | lost (code : BitVec 8) (report : Exc)
  /-- Any other reply on its way. -/
  | reply
deriving DecidableEq, Repr

/-- The reply that ends a wait: registers to write, flags to raise, a fault instead, a new pc, or the instruction issues
again. -/
structure Reply where
  writes : List (Reg × Word) := []
  tagged : Option (Reg × Bool) := none
  flags : BitVec 5 := 0
  exc : Option Exc := none
  again : Bool := false
  pc : Option Word := none
  acq : Bool := false
deriving DecidableEq, Repr

/-- One entry of a store buffer: bytes of one 128-byte line (10 R209). `level` is how far a release has brought it: 0 the
thread alone, 1 every context of the core (10 R211). `tags` are the granule tag bits (16 R381). -/
structure BufEntry where
  line : Nat
  mask : BitVec 128
  data : BitVec 1024
  instant : Word := 0
  tags : BitVec 8 := 0
  nt : Bool := false
  wc : Bool := false
  keep : Bool := true
  level : Nat := 0
  /-- The scope to whose level the entry is written once the marker before it completes: a release store (10 R219). -/
  rel : Option (BitVec 2) := none
deriving DecidableEq, Repr

/-- A message on the message network (02 R53) or a reply on its way. -/
inductive MsgBody where
  /-- A word for a channel; `stream` when it belongs to an open stream (15 R348). -/
  | word (v : Word) (stream : Bool)
  | openS (stream : Nat) (d : Reg)
  | close
  | wake (v : Word)
  | emit (launch sig : Nat) (v : Word)
  | release (launch sig tid : Nat)
  | exitNotice (core slot : Nat) (launch : Option Nat) (block : Nat) (code : BitVec 8)
  /-- An arrival at a barrier of a launch, or of a thread that no launch started (15 R350, R352); `d` takes the phase. -/
  | barrier (launch : Option Nat) (bar count : Nat) (d : Reg)
  /-- A migrating context: its images are State.moving at the message's number (15 R354). -/
  | migrate
  | rcall (core : Nat) (part : Nat) (entry : Word) (args : List Word) (token : Nat) (scope : Nat) (remote : Option FabPkt)
  | rreply (token : Nat) (args : List Word) (cause : Option Cause)
  | entries (core : Nat) (l : List Word)
  | sigma (part obj : Nat) (step : Nat)
deriving DecidableEq, Repr

/-- A message: its sender and target context (or core), the phase tag of its sender (02 R54), and the sending thread's identity (17
R413). -/
structure Msg where
  id : Nat
  src : Nat
  dst : Nat
  tag : Bool
  body : MsgBody
  ident : Nat := 0
deriving DecidableEq, Repr

/-- What stands in a store buffer, oldest first: entries, release markers (10 R210), and messages that leave only when
every marker before them has completed (11 R245, R246). -/
inductive BufItem where
  | entry (e : BufEntry)
  | marker (scope : BitVec 2)
  | msg (m : Msg)
deriving DecidableEq, Repr

/-- A region of `ABORTW` or `SUSPW` (14 R306). -/
structure Region where
  abort : Bool
  sig : Nat
  handler : Word := 0
deriving DecidableEq, Repr

/-- The role of a context in a reactive domain (14 R293). -/
inductive Role where
  | outside | member | gaffer
deriving DecidableEq, Repr

/-- A speculation checkpoint (15 R357). -/
structure Checkpoint where
  x : Vector Word 16
  tags : BitVec 8
  sta : Sta
  pc : Word
  iter : Nat
  base : Nat
deriving DecidableEq, Repr

/-- What identifies the call a callee serves (15 R351). -/
structure CallInfo where
  token : Nat
  caller : Nat
  scope : Nat
  /-- A call over the fabric: the request to answer. -/
  remote : Option FabPkt := none
deriving DecidableEq, Repr

/-- A wait in progress: why, the instruction's bytes, and the reply once it has come. -/
structure WaitRec where
  why : Why
  len : Nat := 4
  reply : Option Reply := none
deriving DecidableEq, Repr

/-- A load reservation (10 R225). -/
structure Reserv where
  line : Nat
  ptr : Word
  size : Nat
deriving DecidableEq, Repr

/-- How far a vector access has come whose elements do not all lie in memory (03 R38; 18 R433): the pc of its instruction, what
has been done of its elements, with the values read, and whether one met an error (log 35). -/
structure VPart where
  pc : Word
  got : List (Nat × Nat) := []
  bad : Bool := false
  /-- The step whose access waits at a FIFO port (03 R46). -/
  fifo : Option Nat := none
deriving DecidableEq, Repr

/-- A thread context (01 R12; 02 R25). -/
structure Ctx where
  slot : Slot := .free
  part : Nat := 0
  x : Vector Word 16 := Vector.replicate 16 0
  pc : Word := 0
  sta : Sta := {}
  tags : BitVec 8 := 0
  epc : Word := 0
  esta : Word := 0
  ecause : Word := 0
  eaddr : Word := 0
  einfo : Word := 0
  hvec : Word := 0
  ih : Bool := false
  wid : Word := 0
  code : BitVec 8 := 0
  launch : Option Nat := none
  block : Nat := 0
  startSlot : Nat := 0
  /-- The model's own name of the thread: its tickets find it wherever it stands (12 R269). -/
  tid : Nat := 0
  spawnNo : Nat := 0
  ticket : Word := 0
  /-- Outstanding ticket numbers, and abandoned tickets with their cause and what it says beside the ticket (12 R269; 18
  R437). -/
  tickets : List Nat := []
  abandoned : List (Nat × Cause × Option Word) := []
  buf : List BufItem := []
  /-- Writes of this thread whose acknowledgement a directory service context still holds (10 R236). -/
  acks : Nat := 0
  resv : Option Reserv := none
  /-- The lines of which an `SC` has failed: the next `LR` of such a line queues for its lock (10 R226). -/
  scFailed : List Nat := []
  wait : Option WaitRec := none
  lastIssue : Option Nat := none
  /-- The first cycle in which the context is READY after an arrival (02 R32). -/
  readyFrom : Nat := 0
  handlerSince : Option Nat := none
  /-- Events that their sources hold for the context, in delivery order (17 R394). -/
  held : List Exc := []
  /-- The overflow event whose handler runs (10 R236). -/
  handling : Option DirEv := none
  role : Role := .outside
  dslots : List (Nat × Word) := []
  renounced : List Nat := []
  late : List Nat := []
  released : List Nat := []
  regions : List Region := []
  settled : Bool := false
  paused : Bool := false
  suspended : Bool := false
  stopped : Bool := false
  owner : Bool := false
  spec : Option Checkpoint := none
  readSet : List Nat := []
  btrace : Bool := false
  call : Option CallInfo := none
  /-- A remote operation that timed out (10 R235): its pc, the target node, its sequence number, and IH when it faulted. -/
  eseq : Option (Word × Nat × Nat × Bool) := none
  /-- The fault that a speculative thread holds until it has the baton (15 R358). -/
  heldFault : Option Exc := none
  /-- The trap of an instruction that has completed, still to be taken, and the IH with which it is taken: the SINGLE_STEP of a
  `TRAP`, or of a `PAUSE` that a boundary ended while its thread was spilled (17 R399). -/
  dueTrap : Option (Exc × Bool) := none
  /-- The pc of a remote operation that the trace holds already and that has not been performed, and IH then (17 R414). -/
  traced : Option (Word × Bool) := none
  /-- The last instant that `LEHRW.inst` reported (14 R323). -/
  lastInst : Option Word := none
  vpart : Option VPart := none
  /-- The pc of an instruction of several accesses, and for how many of them the thread has moved (02 R34). -/
  hops : Option (Word × Nat) := none
  raceNo : Nat := 0
  recvNo : Nat := 0
  /-- How far the thread's end has come: 1 its streams are closed and its signals released, 2 its writes are published. -/
  ending : Nat := 0
deriving DecidableEq, Repr

/-- A reap record (15 R343). -/
inductive ReapRec where
  | absent | live | exited (code : BitVec 8)
deriving DecidableEq, Repr

/-- A receive channel (15 R346): words oldest first, each with its sender's identity (17 R413), wake cell, open stream's sender, and the messages that wait. -/
structure Chan where
  words : List (Word × Nat) := []
  cell : Word := 0
  wake : Bool := false
  stream : Option Nat := none
  waiting : List Msg := []
deriving DecidableEq, Repr

/-- A stream detector's run (03 R51): handle, next line, length, last access cycle. -/
structure Stream where
  hidx : Nat
  next : Nat
  run : Nat
  last : Nat
deriving DecidableEq, Repr

/-- A core (01 R9). -/
structure CoreSt where
  rr : Nat := 0
  /-- The arithmetic cycle in which the core last issued (02 R30). -/
  issued : Option Nat := none
  launch : Option Nat := none
  block : Nat := 0
  running : Bool := false
  reaps : SMap ReapRec := []
  spawns : Nat := 0
  sems : SMap Nat := []
  semWait : SMap (List Nat) := []
  chans : SMap Chan := []
  /-- Outbound streams 0 to 3: the thread that holds one and its target (15 R348). -/
  streams : SMap (Nat × Nat) := []
  list : List Word := []
  promised : Nat := 0
  arrivals : List Msg := []
  mbox : List (BitVec 256) := []
  ovf : Bool := false
  shape : List Byte := []
  args : List Byte := []
  /-- Contexts that wait for an engine, in arrival order: engine 0 to 3 a port, 4 the matrix unit (15 R344). -/
  engWait : List (Nat × Nat) := []
  /-- Engines held for a save record: engine, partition, record offset, region offset (17 R404). -/
  engHeld : List (Nat × Nat × Nat × Nat) := []
  detectors : List Stream := []
  /-- Entries that a core-scope release has made readable to the core, oldest first, with their thread (10 R211). -/
  shared : List (Nat × BufEntry) := []
deriving DecidableEq, Repr

/-- A port's queued instruction with everything fixed at issue (08 R159, R161, R162): format, saturation, rounding mode, scalar
operand values, and the locations of the active elements of a memory form, with whether its lines may be kept. -/
structure VEntry where
  ins : Instr
  fmt : Nat := 0
  sat : Bool := false
  rm : Nat := 0
  xs : List Word := []
  segs : List (Nat × List Nat) := []
  keep : Bool := false
  /-- The lines of its elements that are no-allocate traffic (03 R51). -/
  na : List Nat := []
  /-- The release markers that the thread has placed behind it (08 R180; 10 R210). -/
  behind : Nat := 0
deriving DecidableEq, Repr

/-- A vector port (08 R156, R158, R165). -/
structure Port where
  v : SMap VWord := []
  q : SMap (BitVec 256) := []
  cfg : Word := 0x0B
  vpoison : BitVec 32 := 0
  qpoison : BitVec 8 := 0
  queue : List VEntry := []
  /-- Passes that a running `REP` has done. -/
  rep : Option Nat := none
  repBuf : List VEntry := []
deriving DecidableEq, Repr

/-- A matrix tile: its configuration and its bytes by row (09 R186, R187). -/
structure Tile where
  cols : Nat := 64
  rows : Nat := 64
  fmt : Nat := 0x0B
  data : SMap (BitVec 2048) := []
deriving DecidableEq, Repr

/-- A gang (09 R203). -/
structure Gang where
  rows : Nat
  cols : Nat
  myRow : Nat
  myCol : Nat
  base : Nat
deriving DecidableEq, Repr

/-- An accepted matrix command (09 R190): its record, the thread that queued it, its ticket and its progress. -/
structure MCmd where
  record : BitVec 512
  ctx : Nat
  ticket : Nat
  part : Nat
  launch : Option Nat := none
  /-- The parity of the instant in which it was accepted (09 R206). -/
  tag : Bool := false
  sup : Bool := false
  prog : Nat := 0
  /-- The tiles that a tile move has moved (09 R201). -/
  tile : Nat := 0
  /-- The row mask that a `TROW` has read, until it completes (09 R194). -/
  got : BitVec 128 := 0
  started : Bool := false
  finished : Bool := false
deriving DecidableEq, Repr

/-- A cached translation (16 R374). -/
structure Tlb where
  part : Nat
  shift : Nat
  vpn : Nat
  leaf : Word
deriving DecidableEq, Repr

/-- What a peer has answered to a request of a matrix command for an element behind a PEER handle (18 R433): the command's
ticket, the pointer, the cause of a failure or 0, and the bytes. -/
structure FarAns where
  ticket : Nat
  ptr : Word
  cause : Cause
  data : List Byte
deriving DecidableEq, Repr

/-- A matrix unit (09 R186 to R196). -/
structure Mat where
  tiles : SMap Tile := []
  mask : BitVec 128 := BitVec.allOnes 128
  gang : Option Gang := none
  accepted : Word := 0
  done : Word := 0
  queue : List MCmd := []
  staging : SMap (BitVec 512) := []
  stop : Bool := false
  cause : Cause := 0
  stopAddr : Word := 0
  stopInfo : Word := 0
  scale : List (Nat × Nat × Word) := []
  detectors : List Stream := []
  /-- The 64 translations of its load pipes (16 R374). -/
  tlb : List Tlb := []
  /-- Elements that peers have answered, for the commands in execution (18 R433). -/
  far : List FarAns := []
  /-- The completion scopes of the accepted commands, by ticket (09 R193). -/
  scopes : List Nat := []
  /-- The tile configurations and the row mask that completed commands have left: what `MXSTAT` shows (09 R194). -/
  shown : SMap Tile := []
  shownMask : BitVec 128 := BitVec.allOnes 128
deriving DecidableEq, Repr

/-- A clean line of a cluster cache (03 R47); `through` while a write-through of it is outstanding (10 R211); `way` is the
CACHE bank that holds it. -/
structure CLine where
  data : BitVec 1024
  through : Bool := false
  way : Nat := 0
deriving DecidableEq, Repr

/-- A line tagged by a speculative iteration (15 R358), of a context or, by its own key, of a spilled thread. -/
structure SpecLine where
  ctx : Nat
  line : Nat
  mask : BitVec 128
  data : BitVec 1024
deriving DecidableEq, Repr

/-- A non-leaf entry in the walk cache of a die's translation service (16 R374): the table that a walk of some virtual addresses
reaches at a level. -/
structure WalkEnt where
  die : Nat
  part : Nat
  lv : Nat
  pre : Nat
  table : Nat
deriving DecidableEq, Repr

/-- A waiting request of a retry list (10 R231). -/
structure FeReq where
  ctx : Nat
  loc : Nat
  mode : FeMode
  data : Word := 0
  reg : Reg := 0
  /-- A remote request: the packet to answer, instead of a context (10 R234). -/
  remote : Option FabPkt := none
  /-- The phase tag with which it was sent (02 R54). -/
  tag : Bool := false
deriving DecidableEq, Repr

/-- A bank held for a save record: partition, record offset, region offset, place in MASK, and the launch whose thread
was spilled (17 R404, R405). -/
structure BankHold where
  bank : Nat
  part : Nat
  rec_ : Nat
  eng : Nat
  place : Nat
  launch : Option Nat
deriving DecidableEq, Repr

/-- A cluster and the slice above it (01 R11). -/
structure Cluster where
  bankmode : Word := 0
  busy : BitVec 32 := 0
  pend : SMap Nat := []
  fifo : SMap (List Word) := []
  /-- Waiting FIFO accesses, in arrival order: context, register, and the word of a store (03 R46). -/
  fifoWait : SMap (List (Nat × Reg × Option Word)) := []
  cache : SMap CLine := []
  /-- The replacement trees of the sets, 31 bits each (03 R47). -/
  plru : SMap Nat := []
  throughs : List BufEntry := []
  inbox : List Nat := []
  tlb : List Tlb := []
  hcache : List (Nat × Nat × BitVec 256) := []
  /-- The capabilities kept with cached PEER entries, by partition and handle; none for a granule that has none (18 R433). -/
  pcaps : List (Nat × Nat × Option (BitVec 128)) := []
  group : Option (Nat × Nat) := none
  spec : List SpecLine := []
  retired : Bool := false
  retiring : Bool := false
  recal : Bool := false
  retry : List FeReq := []
  dirq : List DirEv := []
  /-- Banks held for a save record (17 R404). -/
  bankHeld : List BankHold := []
deriving DecidableEq, Repr

/-- A watch on a line (10 R227) or on a sync word (12 R267, `sync`): the waiting context, its location, size code and
destination. -/
structure Watch where
  ctx : Nat
  loc : Nat
  z : Nat := 6
  d : Reg := 0
  sync : Bool := false
  /-- A `WAITRS` through a PEER handle: the request to answer, instead of a context (10 R227; 18 R433). -/
  remote : Option FabPkt := none
deriving DecidableEq, Repr

/-- A home's directory entry of one line (10 R236): sharers, overflow bit, `LR` arrival queue and lock (10 R226),
watches. -/
structure DirLine where
  sharers : List Nat := []
  ovf : Bool := false
  lrq : List Nat := []
  lock : Option Nat := none
  watches : List Watch := []
deriving DecidableEq, Repr

/-- A watermark channel of a copy engine (12 R260): partition, range, watermark, packet. The range is `segs`, or, in a translated
space (`virt`: HOST or not, and the virtual address), what its pages map to, as the translation unit `unit` sees them. -/
structure Water where
  eng : Nat
  chan : Nat
  part : Nat
  segs : List (Nat × Nat)
  len : Nat
  w : Nat
  pk : Nat
  unit : Nat := 0
  virt : Option (Bool × Nat) := none
deriving DecidableEq, Repr

/-- A band of a grid part (13 R280): TAG and FSTEP, `none` for EMPTY, and FILL. -/
structure Band where
  tag : Option Nat := none
  fstep : Option Nat := none
  fill : Nat := 0
deriving DecidableEq, Repr

/-- The owner of a grid part (13 R276). -/
inductive GOwner where
  | core (k : Nat)
  | claim
  | peer (cap : BitVec 128)
deriving DecidableEq, Repr

/-- What the device keeps of a checked grid of a launch (13 R274 to R280): the virtual addresses of the descriptors that name
it and of its storage, the descriptor's bytes, the owner table, the cores that claimed a part, the published steps, the
steps as the neighbouring engines know them, and the bands. `outq` holds step messages to peers that have not left yet. -/
structure GridSt where
  part : Nat := 0
  launch : Option Nat := none
  bases : List Nat := []
  store : Nat := 0
  desc : List Byte := []
  owners : List GOwner := []
  claimed : SMap Nat := []
  sigma : SMap Nat := []
  known : SMap Nat := []
  bands : SMap Band := []
  outq : List (Nat × FabPkt) := []
deriving DecidableEq, Repr

/-- A halo fill into a part (13 R281): kind 0 exchange, 1 rule, 2 HALOX; its step; the cells that peers have still to push;
the packet that asked for it; for a peer-owned part, the pushes that have not left yet; the cause that abandoned it. -/
structure HFill where
  grid : Nat := 0
  dst : Nat := 0
  kind : Nat := 0
  step : Nat := 0
  started : Bool := false
  left : Nat := 0
  pk : Option Nat := none
  remote : List FabPkt := []
  lost : Option Cause := none
  /-- The steps at which a fill of the record has been abandoned, with the causes: no later one into their levels starts (13 R281,
  R290). -/
  gone : List (Nat × Cause) := []
  /-- The packet whose watermark channel holds an access of the fill (12 R260). -/
  heldOn : Option Nat := none
deriving DecidableEq, Repr

/-- A registered queue (15 R331): header pointer, owner, the index up to which slots have been taken. -/
structure QReg where
  hdr : Word
  owner : Nat
deriving DecidableEq, Repr

/-- A barrier of a launch (15 R350). -/
structure Barrier where
  count : Nat := 0
  arrived : Nat := 0
  phase : Bool := false
deriving DecidableEq, Repr

/-- The state of a signal at its home (14 R300). -/
inductive SigState where
  | unknown | present | final | absent | forced
deriving DecidableEq, Repr

/-- A signal at its home: state, combined value, and the pending emitters by their threads' names (14 R295, R299). -/
structure Signal where
  comb : Nat := 0
  st : SigState := .unknown
  acc : Word := 0
  cell : BitVec 512 := 0
  pend : List Nat := []
deriving DecidableEq, Repr

/-- A lehr event that has frozen a domain (14 R307, R324). -/
structure Frozen where
  cause : Cause
  instant : Word := 0
  listed : List (Nat × Word) := []
deriving DecidableEq, Repr

/-- The reactive domain of a launch (14 R293). -/
structure Domain where
  instant : Word := 0
  nsig : Nat := 0
  /-- C, the number of its clusters. -/
  clucnt : Nat := 1
  free : Bool := true
  ring : Word := 0
  ringLog : Nat := 0
  sigs : SMap Signal := []
  settled : Bool := false
  frozen : Option Frozen := none
  finished : Bool := false
  ended : Option Word := none
  awaiting : Bool := false
  /-- The lehr ends the domain as soon as what its members wrote can be published (14 R321, R322). -/
  ending : Bool := false
deriving DecidableEq, Repr

/-- The states of a launch (15 R332 to R338). -/
inductive LState where
  | waiting | ready | running | complete | abandoned
deriving DecidableEq, Repr

/-- A range that a card reads or writes (11 R248; 15 R329, R339): space 1 and a virtual address for translated spaces, space 0
and cluster * 2^40 + offset for scratchpad; bytes, read, write. -/
structure FootRange where
  space : Nat
  va : Nat
  len : Nat
  rd : Bool
  wr : Bool
deriving DecidableEq, Repr

/-- A launch (15 R325 to R338). `code` is memory as it stood when the launch started (05 R69). -/
structure Launch where
  part : Nat := 0
  queue : Nat := 0
  slotIdx : Nat := 0
  slotPtr : Word := 0
  pkt : BitVec 1024 := 0
  st : LState := .waiting
  readyAt : Nat := 0
  epochs : Nat := 0
  /-- The cause with which it was abandoned (15 R330, R332). -/
  fate : Option Cause := none
  pairs : List ((Nat × Nat) × Nat) := []
  nextBlock : Nat := 0
  ended : Nat := 0
  cores : List Nat := []
  clus : List Nat := []
  /-- The clusters in which a block of it has started (15 R336). -/
  begun : List Nat := []
  foot : List FootRange := []
  code : Option Memory := none
  replay : Nat := 0
  lcnt : Nat := 0
  bars : SMap Barrier := []
  dom : Option Domain := none
  feeders : List (Nat × Nat × Nat) := []
  shape : List Byte := []
  args : List Byte := []
deriving DecidableEq, Repr

/-- A copy packet taken from a queue (12 R254 to R263). Cards of one queue are numbered in the order in which they are
taken. -/
structure CopyPk where
  part : Nat := 0
  /-- The queue, by its header pointer. -/
  queue : Nat := 0
  slotPtr : Word := 0
  owner : Nat := 0
  eng : Nat := 0
  pkt : BitVec 512 := 0
  /-- The thread that queued it with `CPQ`, and its ticket. -/
  issuer : Option (Nat × Nat) := none
  /-- The cluster and the mode of that thread. -/
  clu : Option Nat := none
  sup : Bool := false
  /-- Its launch and the parity of the instant in which it was queued (12 R271). -/
  launch : Option Nat := none
  tag : Bool := false
  foot : List FootRange := []
  started : Bool := false
  moved : Bool := false
  /-- Elements moved, and bytes to arrive. -/
  written : Nat := 0
  bytes : Nat := 0
  hold : Option (Cause × Word) := none
  posted : Bool := false
  /-- Requests of an RCOPY or a REDUCE that have not left yet (12 R257; 18 R434, R435). -/
  remote : List FabPkt := []
  /-- The fill that a HALOX packet asked for (13 R289). -/
  fill : Option Nat := none
  /-- The cause with which it was abandoned (12 R263), and what 18 R437 says of it. -/
  fate : Option Cause := none
  info : Option Word := none
deriving DecidableEq, Repr

/-- A queue slot that `CPQ` has claimed: queue, index, the thread, its ticket, cluster, mode, launch and phase
(12 R268). -/
structure Claim where
  part : Nat
  queue : Nat
  idx : Nat
  tid : Nat
  ticket : Nat
  clu : Nat
  sup : Bool
  launch : Option Nat
  tag : Bool
deriving DecidableEq, Repr

/-- A partition (16 R363). -/
structure Part where
  live : Bool := false
  clusters : List Nat := []
  width : Nat := 0
  table : List Nat := []
  rank : Nat := 0
  node : Nat := 0
  wlim : Nat := 1000
  rlim : Nat := 50
  budget : Nat := 0
  htbase : Word := 0
  htlen : Word := 0
  ptroot : Word := 0
  epoch : Word := 0
  queues : List QReg := []
  pcapwhy : Word := 0
  fmhz : Nat := 940
  vmv : Nat := 675
  blvl : Nat := 0
  trace : Word := 0
  traceptr : Word := 0
  /-- Trace records begun and not yet in the ring (17 R412, R417). -/
  traceq : List (BitVec 256) := []
  /-- The balancing interval in reference cycles, the first cycle of the one that runs, and what is still to be shipped in it:
  core, recipient and number of entries (02 R35; 15 R356). -/
  interval : Nat := 4096
  llAt : Nat := 0
  llTodo : List (Nat × Nat × Nat) := []
  /-- The arithmetic clock of the partition's clusters (16 R366): its cycles, the part of the next one that has run in
  units of 1 / 940, and whether it has a cycle now. -/
  acyc : Nat := 0
  frac : Nat := 0
  beat : Bool := true
  retire : Bool := false
  /-- Pre-emption requests taken and not yet done (17 R402). -/
  cull : List (BitVec 512) := []
deriving DecidableEq, Repr

/-- What the egress knows of a peer node (18 R431). -/
structure Rev where
  rev : BitVec 32
  ops : BitVec 16
  fmts : BitVec 32
deriving DecidableEq, Repr

/-- An Osell port (18 R424 to R427): STATE, the lanes in use and the failed ones, the number of the next flit, the last
acknowledged number, the number that the receiving direction expects, replays, failed replays of one flit, the replay
buffer (packet and flit of it, oldest first), the packets that wait, the flits of a packet that arrives, whether a NAK is
due, and whether a service retrain runs. -/
structure OPort where
  state : Nat := 0
  lanes : BitVec 16 := 0
  dead : BitVec 16 := 0
  next : Nat := 0
  lseq : Nat := 0
  expect : Nat := 0
  replays : Nat := 0
  fails : Nat := 0
  unacked : List (FabPkt × Nat) := []
  sendq : List FabPkt := []
  rx : List (List Byte) := []
  nak : Bool := false
  service : Bool := false
  /-- Flits accepted since the last acknowledgement, and the last link-control flit sent on the reverse direction: the number
  that it names, and whether it is a NAK (18 R425). -/
  owed : Nat := 0
  ctl : Option (Nat × Bool) := none
  /-- Multicast packets that have arrived and wait for a free slot at every branch (18 R434). -/
  held : List FabPkt := []
  /-- The revision entries that this package has sent over the link since its bring-up (18 R431). -/
  told : SMap Rev := []
deriving DecidableEq, Repr

/-- A remote operation whose reply has not come (10 R235; 18 R428). -/
structure Outst where
  eseq : Nat
  ctx : Option Nat
  pk : Option Nat
  pkt : FabPkt
  reg : Reg := 0
  sz : Nat := 0
  acq : Bool := false
  /-- A push or a step message of a grid: the grid, the peer-owned part, and the fill of a push (13 R281). -/
  halo : Option (Nat × Nat × Option Nat) := none
  /-- Whether it has left the package (10 R218). -/
  sent : Bool := false
  /-- A buffered store through a PEER handle: the name of its thread and its line (18 R433). -/
  store : Option (Nat × Nat) := none
  /-- A matrix command's element: the core, the ticket and the pointer (18 R433). -/
  mat : Option (Nat × Nat × Word) := none
  /-- The step of a vector access that its reply ends (18 R433). -/
  elem : Option Nat := none
  /-- The PEER handle through which it went (16 R377). -/
  via : Option Nat := none
  /-- The target has acknowledged a call, whose reply is still to come (15 R351; 18 R429). -/
  acked : Bool := false
deriving DecidableEq, Repr

/-- Bytes that a buffered store writes through a PEER handle, on their way to the egress (10 R209; 18 R433): the thread's name,
its partition and mode, the cluster that translates, the handle, the offset and the bytes. -/
structure PeerWrite where
  tid : Nat
  part : Nat
  sup : Bool
  clu : Nat
  hidx : Nat
  off : Nat
  data : List Byte
deriving DecidableEq, Repr

/-- A request of a contribution that has come without the others (18 R435; log 31): its node, partition and number, how many
requests make the contribution, which of them it is, the card, and its cells from `first` on. -/
structure Share where
  node : Nat
  part : Nat
  eseq : Nat
  count : Nat
  idx : Nat
  card : Nat
  first : Nat
  cells : List (BitVec 512)
deriving DecidableEq, Repr

/-- A reduction object at its root: the contributors of the open round, the contributions held until it closes, and the parts of
contributions that are not whole yet (18 R437). -/
structure Round where
  part : Nat
  hidx : Nat
  parts : List Share := []
  came : List (Nat × Nat × Nat) := []
  waiting : List Contribution := []
deriving DecidableEq, Repr

/-- How a request of the host on CXL.mem has completed (19 R439): with an error or not, with the bytes that it read, and whether
one of them is poison. -/
structure CxlDone where
  error : Bool
  data : List Byte := []
  poison : Bool := false
deriving DecidableEq, Repr

/-- Package state outside the partitions (19). -/
structure Pkg where
  phase : Nat := 0
  ready : Bool := false
  fwrev : Nat := 0
  /-- Clusters retired since bring-up (19 R440). -/
  retired : Nat := 0
  failed : Bool := false
  /-- A thermal trip has removed core power (19 R449). -/
  tripped : Bool := false
  image : List Byte := []
  sizes : List Nat := []
  badChannels : List Nat := []
  retrainChannels : List Nat := []
  linkDown : List (Nat × Nat) := []
  revs : SMap Rev := []
  windows : List (Nat × Nat × BitVec 16) := []
  eseqs : SMap Nat := []
  seen : List (Nat × Nat × Nat × FabPkt) := []
  outst : List Outst := []
  outbox : List FabPkt := []
  /-- Buffered stores through PEER handles that have not been sent, oldest first (18 R433). -/
  peerq : List PeerWrite := []
  rounds : List Round := []
  node : Nat := 0
  fwptr : Word := 0
  /-- The attestation mailbox, and the report at the management port (19 R439, R445). -/
  attest : List Byte := []
  /-- The last completion of a CXL.mem request (19 R439). -/
  cxl : Option CxlDone := none
  rackReport : List Byte := []
  hallKey : Option Nat := none
  capSeq : Nat := 0
  capApplied : Bool := false
  capLevel : Nat := 0
  capRank : Nat := 0
  badFrames : Nat := 0
  thermal : Bool := false
  current : Bool := false
  corrected : Nat := 0
  scrubPoison : Nat := 0
  controller : List (Cause × Word × Word) := []
  nextToken : Nat := 0
  /-- The replies to calls over the fabric that the callers' ports have not acknowledged (15 R351). -/
  kept : List FabPkt := []
deriving DecidableEq, Repr

/-- The part of an engine region that only this device reads (17 R406): the port or the unit as it was saved. -/
structure EngImage where
  port : Port := {}
  mat : Mat := {}
  /-- No RESTORE has taken it back yet: its queue is still to be done. -/
  live : Bool := true
deriving DecidableEq, Repr

/-- What a spilled thread leaves beside its save record: the thread itself, when it was spilled, and the banks that were
held for it (17 R403, R404, R407). -/
structure Spilled where
  ctx : Ctx
  at_ : Nat
  mask : Nat := 0
  /-- The context that it was. -/
  from_ : Nat := 0
  /-- A write of the baton holder has met its read set: it restarts when it resumes (15 R359). -/
  again : Bool := false
deriving DecidableEq, Repr

/-- One turn of the agenda (log 2). -/
inductive Turn where
  /-- A device step. -/
  | device (i : Instr)
  /-- An issue slot of a core. -/
  | issue (core : Nat)
  /-- An upset of a granule of memory: one bit, which the device can correct, or two, which it cannot (17 R408, R409). -/
  | upset (granule : Nat) (double : Bool)
  /-- An uncorrectable error in a clean line of a cluster cache (17 R409). -/
  | copyError (clu line : Nat)
  /-- The host writes its own memory (11 R253; 19 R444). -/
  | hostWrite (pa : Nat) (bytes : List Byte)
deriving DecidableEq, Repr

/-- The whole machine. -/
structure State where
  agenda : List Turn := []
  turn : Nat := 0
  cur : Nat := 0
  fresh : Nat := 0
  cycle : Nat := 0
  refCycle : Nat := 0
  netCycle : Nat := 0
  ctxs : SMap Ctx := []
  cores : SMap CoreSt := []
  ports : SMap Port := []
  mats : SMap Mat := []
  clus : SMap Cluster := []
  mem : Memory := []
  empties : List Nat := []
  mtags : List Nat := []
  poison : List Nat := []
  ecc : List Nat := []
  /-- The granules that hold an error which the device can correct (17 R408). -/
  soft : List Nat := []
  /-- The walk caches of the dies' translation services (16 R374). -/
  walks : List WalkEnt := []
  dir : SMap DirLine := []
  /-- The reservations that contexts of other packages hold here: node, context, line (10 R215, R225). -/
  rresv : List (Nat × Nat × Nat) := []
  /-- The lines of which an `SC` of a context of another package has failed here, by the context's key (10 R226). -/
  rfailed : List (Nat × Nat) := []
  /-- The lines that carry the mark of a tile store of device or system scope (11 R252). -/
  tiles : List Nat := []
  parts : SMap Part := []
  launches : SMap Launch := []
  packets : SMap CopyPk := []
  nextCard : Nat := 0
  claims : List Claim := []
  nextTid : Nat := 1
  nextMsg : Nat := 0
  /-- The images of migrating contexts, by message number (02 R34; 15 R354). -/
  moving : SMap Ctx := []
  net : List Msg := []
  waters : List Water := []
  grids : SMap GridSt := []
  nextGrid : Nat := 0
  fills : SMap HFill := []
  nextFill : Nat := 0
  oports : SMap OPort := []
  /-- The stream detectors of the copy engines (03 R51). -/
  engDet : SMap (List Stream) := []
  /-- Engine images saved lazily, by partition * 2^52 + region offset (17 R405, R406). -/
  engImg : SMap EngImage := []
  /-- Saved FIFO words of held banks, by partition * 2^52 + offset of the bank's image (17 R405). -/
  bankImg : SMap (List Word) := []
  /-- Spilled threads, by partition * 2^52 + record offset (17 R403). -/
  spilled : SMap Spilled := []
  /-- The barriers of threads that no launch started, by context * 16 + barrier (15 R352). -/
  soloBars : SMap Barrier := []
  pkg : Pkg := {}
deriving DecidableEq, Repr

/-- The machine right after reset: power is applied, nothing has been brought up (19 R442: phase 0), no partition and no
thread exists, every register holds 0 or the value of its table. -/
def State.reset : State := {}

end Sys2Proof.Machine
end

