-- ==== Sys2Proof/Machine/Ops.lean ====
section
/-! DEFINITION. Sys2Proof/Machine/Ops.lean: the named operations over memory, registers and contexts, fetching and
translation, and taking an exception and returning from one (17 R391 to R400). -/

namespace Sys2Proof.Machine

/-! ## Where things stand (01 R9; 02 R27) -/

/-- The core of a context. -/
def coreOf (c : Nat) : Nat := c / 16
/-- The slot of a context in its core. -/
def slotOf (c : Nat) : Nat := c % 16
/-- The cluster of a context. -/
def cluOf (c : Nat) : Nat := c / 64
/-- The die of a cluster. -/
def dieOf (clu : Nat) : Nat := clu / 128

/-- Bits `lo` to `lo + n - 1` of a bit vector, as a number. -/
def bitsAt {k : Nat} (x : BitVec k) (lo n : Nat) : Nat := x.toNat / 2 ^ lo % 2 ^ n

/-- The bit vector with bits `lo` to `lo + n - 1` replaced. -/
def putBits {k : Nat} (x : BitVec k) (lo n v : Nat) : BitVec k :=
  BitVec.ofNat k (x.toNat - (x.toNat / 2 ^ lo % 2 ^ n) * 2 ^ lo + v % 2 ^ n * 2 ^ lo)

/-- The low `n` bits of a word. -/
def low (n : Nat) (v : Word) : Word := BitVec.ofNat 64 (v.toNat % 2 ^ n)

/-- The low `n` bits of a word, read as two's complement and extended (05 R79). -/
def sextW (n : Nat) (v : Word) : Word := (v.setWidth n).signExtend 64

/-! ## Records of State -/

/-- Whether a context is the directory service context of its cluster (02 R26). -/
def isDsc (c : Nat) : Bool := decide (c % 64 = 15)
/-- A slot that nothing has used: FREE, or RESERVED for a cluster's directory service context (02 R26). -/
def Ctx.unused (c : Nat) : Ctx := { slot := if isDsc c then .reserved else .free }
/-- A context. -/
def State.ctx (s : State) (c : Nat) : Ctx := SMap.at (Ctx.unused c) s.ctxs c
/-- Replace a context. -/
def State.setCtx (s : State) (c : Nat) (x : Ctx) : State := { s with ctxs := SMap.put s.ctxs c x }
/-- Change a context. -/
def State.modCtx (s : State) (c : Nat) (f : Ctx → Ctx) : State := s.setCtx c (f (s.ctx c))
/-- A core. -/
def State.core (s : State) (k : Nat) : CoreSt := SMap.at {} s.cores k
/-- Change a core. -/
def State.modCore (s : State) (k : Nat) (f : CoreSt → CoreSt) : State := { s with cores := SMap.put s.cores k (f (s.core k)) }
/-- A vector port, by core and port number. -/
def State.port (s : State) (k p : Nat) : Port := SMap.at {} s.ports (4 * k + p)
/-- Change a vector port. -/
def State.modPort (s : State) (k p : Nat) (f : Port → Port) : State :=
  { s with ports := SMap.put s.ports (4 * k + p) (f (s.port k p)) }
/-- A core's matrix unit. -/
def State.mat (s : State) (k : Nat) : Mat := SMap.at {} s.mats k
/-- Change a matrix unit. -/
def State.modMat (s : State) (k : Nat) (f : Mat → Mat) : State := { s with mats := SMap.put s.mats k (f (s.mat k)) }
/-- A cluster. -/
def State.clu (s : State) (k : Nat) : Cluster := SMap.at {} s.clus k
/-- Change a cluster. -/
def State.modClu (s : State) (k : Nat) (f : Cluster → Cluster) : State := { s with clus := SMap.put s.clus k (f (s.clu k)) }
/-- A partition. -/
def State.part (s : State) (p : Nat) : Part := SMap.at {} s.parts p
/-- The arithmetic cycle of a partition's clusters (16 R366). -/
def State.acycle (s : State) (p : Nat) : Nat := (s.part p).acyc
/-- The partition of a cluster. -/
def State.partOf (s : State) (clu : Nat) : Option Nat :=
  (s.parts.find? (fun p => p.2.live && decide (clu ∈ p.2.clusters))).map (·.1)
/-- Change a partition. -/
def State.modPart (s : State) (p : Nat) (f : Part → Part) : State := { s with parts := SMap.put s.parts p (f (s.part p)) }
/-- A launch. -/
def State.launch (s : State) (l : Nat) : Launch := SMap.at {} s.launches l
/-- Change a launch. -/
def State.modLaunch (s : State) (l : Nat) (f : Launch → Launch) : State :=
  { s with launches := SMap.put s.launches l (f (s.launch l)) }
/-- Change the package record. -/
def State.modPkg (s : State) (f : Pkg → Pkg) : State := { s with pkg := f s.pkg }
/-- A directory entry. -/
def State.dirAt (s : State) (line : Nat) : DirLine := SMap.at {} s.dir line
/-- Change a directory entry. -/
def State.modDir (s : State) (line : Nat) (f : DirLine → DirLine) : State :=
  { s with dir := SMap.put s.dir line (f (s.dirAt line)) }
/-- The partition of the running context. -/
def State.myPart (s : State) : Nat := (s.ctx s.cur).part
/-- Draw a free bit (log 6). -/
def State.draw (s : State) : Bool × State := (Config.freeBit s.fresh, { s with fresh := s.fresh + 1 })

/-! ## Status -/

/-- `STA` as its 64 bits (16 R368). -/
def Sta.toWord (t : Sta) : Word :=
  BitVec.ofNat 64 (t.pp.toNat + t.pfx.toNat * 2 ^ 1 + t.rm.toNat * 2 ^ 9 + t.flags.toNat * 2 ^ 12 + t.sup.toNat * 2 ^ 17
    + t.ss.toNat * 2 ^ 18 + t.bind.toNat * 2 ^ 19 + t.port.toNat * 2 ^ 22 + t.spec.toNat * 2 ^ 24)

/-- A bit of a word. -/
def bitOf {k : Nat} (x : BitVec k) (i : Nat) : Bool := decide (x.toNat / 2 ^ i % 2 = 1)

/-- The fields of a 64-bit `STA` (16 R368). -/
def Sta.ofWord (w : Word) : Sta :=
  { spec := bitOf w 24, port := BitVec.ofNat 2 (w.toNat / 2 ^ 22), bind := BitVec.ofNat 3 (w.toNat / 2 ^ 19),
    ss := bitOf w 18, sup := bitOf w 17, flags := BitVec.ofNat 5 (w.toNat / 2 ^ 12),
    rm := BitVec.ofNat 3 (w.toNat / 2 ^ 9), pfx := BitVec.ofNat 8 (w.toNat / 2), pp := bitOf w 0 }

/-! ## Registers (05 R83; 07 R124; 16 R380) -/

/-- A scalar register: x0 reads 0. -/
def Ctx.reg (x : Ctx) (r : Reg) : Word := if r = 0 then 0 else x.x[r.toNat]

/-- Clear the capability tag of a register's pair. -/
def Ctx.untag (x : Ctx) (r : Reg) : Ctx := { x with tags := x.tags &&& ~~~((1#8) <<< (r.toNat / 2)) }

/-- Write a scalar register: x0 ignores the write; any other write clears the tag of the register's pair. -/
def Ctx.setReg (x : Ctx) (r : Reg) (v : Word) : Ctx :=
  if r = 0 then x else { x with x := x.x.set r.toNat v, tags := x.tags &&& ~~~((1#8) <<< (r.toNat / 2)) }

/-- The tag of the pair that holds register `r` (16 R380: pair 0 is never tagged). -/
def Ctx.tagOf (x : Ctx) (r : Reg) : Bool := decide (2 ≤ r.toNat) && bitOf x.tags (r.toNat / 2)

/-- Set the tag of the pair of register `r`. -/
def Ctx.setTag (x : Ctx) (r : Reg) (t : Bool) : Ctx :=
  if t && decide (2 ≤ r.toNat) then { x with tags := x.tags ||| ((1#8) <<< (r.toNat / 2)) } else x.untag r

/-- Write several registers in order. -/
def Ctx.setRegs (x : Ctx) (l : List (Reg × Word)) : Ctx := l.foldl (fun x (p : Reg × Word) => x.setReg p.1 p.2) x

/-- Raise sticky flags (06 R109). -/
def Ctx.raise (x : Ctx) (f : BitVec 5) : Ctx := { x with sta := { x.sta with flags := x.sta.flags ||| f } }

/-- A scalar register of the running context. -/
def State.reg (s : State) (r : Reg) : Word := (s.ctx s.cur).reg r

/-- Write a scalar register of the running context. -/
def State.setReg (s : State) (r : Reg) (v : Word) : State := s.modCtx s.cur (·.setReg r v)

/-! ## Memory (03 R40; 10 R215) -/

/-- The byte at a location: an unlisted location reads 0. -/
def Memory.read : Memory → Nat → Byte
  | [], _ => 0
  | (x, b) :: r, a => if a < x then 0 else if a = x then b else Memory.read r a

/-- Memory with one byte written, in canonical form. -/
def Memory.write : Memory → Nat → Byte → Memory
  | [], a, v => if v = 0 then [] else [(a, v)]
  | (x, b) :: r, a, v =>
    if a < x then (if v = 0 then (x, b) :: r else (a, v) :: (x, b) :: r)
    else if a = x then (if v = 0 then r else (a, v) :: r)
    else (x, b) :: Memory.write r a v

/-- Memory with bytes written at the locations paired with them. -/
def Memory.writes (m : Memory) (l : List (Nat × Byte)) : Memory := l.foldl (fun m p => m.write p.1 p.2) m

/-- A number from little-endian bytes (00 R5). -/
def leNat : List Byte → Nat
  | [] => 0
  | b :: r => b.toNat + 256 * leNat r

/-- The `n` low bytes of a number, lowest first. -/
def leBytes : Nat → Nat → List Byte
  | 0, _ => []
  | n + 1, v => BitVec.ofNat 8 v :: leBytes n (v / 256)

/-- `n` locations from `l`. -/
def span (l n : Nat) : List Nat := (List.range n).map (l + ·)

/-- The locations of a list of segments (first location, bytes). -/
def spanAll (segs : List (Nat × Nat)) : List Nat := segs.flatMap (fun p => span p.1 p.2)

/-- `n` bytes of memory from `l`. -/
def State.peek (s : State) (l n : Nat) : List Byte := (span l n).map s.mem.read

/-- A little-endian number of `n` bytes at `l`. -/
def State.peekN (s : State) (l n : Nat) : Nat := leNat (s.peek l n)

/-- The bytes of a list of locations. -/
def State.bytesAt (s : State) (ls : List Nat) : List Byte := ls.map s.mem.read

/-- The first location of device DRAM of a partition. -/
def dramBase (p : Nat) : Nat := p * 2 ^ 40
/-- The first location of SRAM. -/
def sramBase : Nat := 2 ^ 60
/-- The first location of host memory. -/
def hostBase : Nat := 2 ^ 61
/-- A byte of a cluster's bank. -/
def sramLoc (clu bank off : Nat) : Nat := sramBase + clu * 2 ^ 21 + bank * 2 ^ 16 + off
/-- Device DRAM: partition and physical address. -/
def isDram (l : Nat) : Bool := decide (l < sramBase)
/-- SRAM. -/
def isSram (l : Nat) : Bool := decide (sramBase ≤ l) && decide (l < hostBase)
/-- The first location behind a PEER handle. -/
def peerBase : Nat := 2 ^ 70
/-- Host memory. -/
def isHost (l : Nat) : Bool := decide (hostBase ≤ l) && decide (l < peerBase)
/-- Bytes behind a PEER handle. -/
def isPeer (l : Nat) : Bool := decide (peerBase ≤ l)
/-- The byte at an offset of a PEER handle of a partition. -/
def peerLoc (part h off : Nat) : Nat := peerBase + (part * 2 ^ 12 + h) * 2 ^ 52 + off

/-- The slice hash of 03 R48: the exclusive or of the `w`-bit fields of PA[38:9]. -/
def sliceHash (w pa : Nat) : Nat :=
  (List.range ((30 + w - 1) / (if w = 0 then 1 else w))).foldl (fun h i => h ^^^ (pa / 2 ^ 9 % 2 ^ 30 / 2 ^ (w * i) % 2 ^ w)) 0

/-- The cluster beneath the home slice of a physical address of a partition (03 R48). -/
def homeOf (p : Part) (pa : Nat) : Nat := p.table.getD (sliceHash p.width pa) 0

/-- The offset of a physical address within its home channel, with interleave width `w` (03 R49). -/
def channelOffset (w pa : Nat) : Nat := pa / 2 ^ (9 + w) % 2 ^ (30 - w) * 2 ^ 7 + pa % 2 ^ 7

/-- The channel of a physical address (03 R48). -/
def channelOf (pa : Nat) : Nat := (pa / 2 ^ 7 % 4) ^^^ (pa / 2 ^ 11 % 4)

/-- The core that owns the home channel of a physical address (03 R48; 02 R34). -/
def homeCore (p : Part) (pa : Nat) : Nat := 4 * homeOf p pa + channelOf pa

/-- The cluster whose slice or banks are the place of a location. Host memory has its place at the CXL controller; its
waiters are kept with cluster 0's slice number, which no rule observes. -/
def State.placeClu (s : State) (l : Nat) : Nat :=
  if isDram l then homeOf (s.part (l / 2 ^ 40)) (l % 2 ^ 40)
  else if isSram l then (l - sramBase) / 2 ^ 21 else 0

/-- The device DRAM limit of a partition: 2^w times 768 MiB (03 R49). -/
def dramLimit (p : Part) : Nat := 2 ^ p.width * (768 * 2 ^ 20)

/-- SCRATCH banks of a `BANKMODE` word, in ascending order (03 R38, R44). -/
def banksOf (mode : Nat) (w : Word) : List Nat := (List.range 32).filter (fun b => decide (bitsAt w (2 * b) 2 = mode))

/-- Whether any bank of the cluster is in CACHE mode (03 R47). -/
def Cluster.hasCache (k : Cluster) : Bool := !(banksOf 0 k.bankmode).isEmpty

/-! ## Causes by name (17 R397) -/

namespace Cause
/-- 0x01. -/
def illegalOpcode : Cause := 0x01
/-- 0x02. -/
def reservedBits : Cause := 0x02
/-- 0x03. -/
def privileged : Cause := 0x03
/-- 0x04. -/
def noBinding : Cause := 0x04
/-- 0x05. -/
def prefixOrphan : Cause := 0x05
/-- 0x06. -/
def fetchFault : Cause := 0x06
/-- 0x07. -/
def misaligned : Cause := 0x07
/-- 0x08. -/
def handleInvalid : Cause := 0x08
/-- 0x09. -/
def handleBounds : Cause := 0x09
/-- 0x0A. -/
def handlePerm : Cause := 0x0A
/-- 0x0B. -/
def pageAbsent : Cause := 0x0B
/-- 0x0C. -/
def pagePerm : Cause := 0x0C
/-- 0x0D. -/
def walkError : Cause := 0x0D
/-- 0x0E. -/
def tableFetch : Cause := 0x0E
/-- 0x0F. -/
def atomicUnsupported : Cause := 0x0F
/-- 0x10. -/
def xcellFormat : Cause := 0x10
/-- 0x11. -/
def feLimit : Cause := 0x11
/-- 0x12. -/
def tileShape : Cause := 0x12
/-- 0x13. -/
def tilePage : Cause := 0x13
/-- 0x14. -/
def scaleMissing : Cause := 0x14
/-- 0x15. -/
def gangMismatch : Cause := 0x15
/-- 0x16. -/
def matrixCmdInvalid : Cause := 0x16
/-- 0x17. -/
def matrixOperand : Cause := 0x17
/-- 0x18. -/
def copyPacketInvalid : Cause := 0x18
/-- 0x19. -/
def footprintViolation : Cause := 0x19
/-- 0x1A. -/
def watermarkRange : Cause := 0x1A
/-- 0x1B. -/
def syncwordOverrun : Cause := 0x1B
/-- 0x1C. -/
def gridStale : Cause := 0x1C
/-- 0x1D. -/
def gridDescriptor : Cause := 0x1D
/-- 0x1E. -/
def haloPeerLost : Cause := 0x1E
/-- 0x1F. -/
def mailboxOverflow : Cause := 0x1F
/-- 0x20. -/
def causality : Cause := 0x20
/-- 0x21. -/
def channelDeadlock : Cause := 0x21
/-- 0x22. -/
def emitUndeclared : Cause := 0x22
/-- 0x23. -/
def instantLimit : Cause := 0x23
/-- 0x24. -/
def spawnInvalid : Cause := 0x24
/-- 0x25. -/
def migrationRefused : Cause := 0x25
/-- 0x26. -/
def rpcTarget : Cause := 0x26
/-- 0x27. -/
def semaphoreRange : Cause := 0x27
/-- 0x28. -/
def capTag : Cause := 0x28
/-- 0x29. -/
def capBounds : Cause := 0x29
/-- 0x2A. -/
def capPerm : Cause := 0x2A
/-- 0x2B. -/
def capRevoked : Cause := 0x2B
/-- 0x2C. -/
def remoteOpUnsupported : Cause := 0x2C
/-- 0x2D. -/
def remoteUnreachable : Cause := 0x2D
/-- 0x2E. -/
def remoteTimeout : Cause := 0x2E
/-- 0x2F. -/
def partitionViolation : Cause := 0x2F
/-- 0x30. -/
def eccUncorrectable : Cause := 0x30
/-- 0x31. -/
def poisonConsumed : Cause := 0x31
/-- 0x32. -/
def linkDegraded : Cause := 0x32
/-- 0x33. -/
def reductionIncomplete : Cause := 0x33
/-- 0x34. -/
def directoryOverflow : Cause := 0x34
/-- 0x35. -/
def replayDivergence : Cause := 0x35
/-- 0x36. -/
def powerEvent : Cause := 0x36
/-- 0x37. -/
def watchdog : Cause := 0x37
/-- 0x38. -/
def softwareTrap : Cause := 0x38
/-- 0x39. -/
def breakpoint : Cause := 0x39
/-- 0x3A. -/
def singleStep : Cause := 0x3A
/-- 0x3B. -/
def preempt : Cause := 0x3B
/-- 0x3C. -/
def hostRequest : Cause := 0x3C
/-- 0x3D. -/
def specLimit : Cause := 0x3D
/-- 0x3E. -/
def boundaryHook : Cause := 0x3E
/-- 0x3F. -/
def machineCheck : Cause := 0x3F
end Cause

/-! ## Permissions (03 R40) -/

/-- Permission bits: R. -/
def needR : Nat := 1
/-- W. -/
def needW : Nat := 2
/-- X. -/
def needX : Nat := 4
/-- AMO. -/
def needA : Nat := 8
/-- FE. -/
def needF : Nat := 16
/-- CAPLD. -/
def needL : Nat := 32
/-- CAPST. -/
def needS : Nat := 64

/-- Whether every bit of `need` is in `perm`. -/
def covers (perm need : Nat) : Bool := decide (perm &&& need = need)

/-- The page rights of a need (16 R373): C is 1, W is 2, X is 4. -/
def pageNeed (need : Nat) : Nat :=
  (if need &&& (1 + 32) ≠ 0 then 1 else 0) ||| (if need &&& 2 ≠ 0 then 2 else 0) ||| (if need &&& 4 ≠ 0 then 4 else 0)
    ||| (if need &&& (8 + 16 + 64) ≠ 0 then 3 else 0)

/-! ## Translation (16 R372 to R374) -/

/-- The index of a virtual address at a level. -/
def ptIndex (lv va : Nat) : Nat :=
  if lv = 4 then va / 2 ^ 16 % 32 else va / 2 ^ (48 - 9 * lv) % 512

/-- The page size exponent of a leaf at a level. -/
def ptShift (lv : Nat) : Nat := if lv = 2 then 30 else if lv = 3 then 21 else 16

/-- Whether the granules of some locations hold poison or an uncorrectable error: the cause met (17 R409). -/
def State.errAt (s : State) (ls : List Nat) : Option Cause :=
  if s.poison.isEmpty && s.ecc.isEmpty then none
  else if ls.any (fun l => hasNat s.poison (l / 16)) then some Cause.poisonConsumed
  else if ls.any (fun l => hasNat s.ecc (l / 16)) then some Cause.eccUncorrectable else none

/-- The access to some locations has met an uncorrectable error: its granule becomes poison (17 R409). -/
def State.errMet (s : State) (ls : List Nat) : State :=
  if s.ecc.isEmpty then s
  else
    match ls.find? (fun l => hasNat s.ecc (l / 16)) with
    | none => s
    | some l => { s with ecc := delNat s.ecc (l / 16), poison := addNat s.poison (l / 16) }

/-- A walk from the table at `t`, level `lv`, with `fuel` levels left (16 R373): the leaf and its page size exponent. A table
outside the partition's DRAM fails with WALK_ERROR (03 R49; 16 R364). -/
def State.walkFrom (s : State) (p : Nat) (va : Nat) : Nat → Nat → Nat → Except Cause (Word × Nat)
  | 0, _, _ => .error Cause.walkError
  | fuel + 1, lv, t =>
    let a := dramBase p + (t + 8 * ptIndex lv va)
    if dramLimit (s.part p) ≤ t + 8 * ptIndex lv va then .error Cause.walkError
    else if (s.errAt (span a 8)).isSome then .error Cause.walkError
    else
      let e := s.peekN a 8
      if e % 2 = 0 then .error Cause.pageAbsent
      else if e / 2 ^ 52 ≠ 0 ∨ e / 2 ^ 7 % 2 ≠ 0 ∨ e / 4 % 2 ≠ 0 then .error Cause.walkError
      else if e / 2 % 2 = 1 then
        if lv < 2 ∨ e / 2 ^ 8 * 2 ^ 8 % 2 ^ ptShift lv ≠ 0 then .error Cause.walkError
        else .ok (BitVec.ofNat 64 e, ptShift lv)
      else if lv = 4 ∨ e / 8 % 16 ≠ 0 then .error Cause.walkError
      else
        let n := e / 2 ^ 8 * 2 ^ 8
        if n % (if lv = 3 then 256 else 4096) ≠ 0 then .error Cause.walkError
        else State.walkFrom s p va fuel (lv + 1) n

/-- The numbers of the translation caches (16 R374): a cluster's is its number, 1,024 + k that of the load pipes of core k's
matrix unit, and 4,096 + d stands for none: the engines that use the service of die d directly. -/
def matUnit (core : Nat) : Nat := 1024 + core
/-- A die's translation service as a unit. -/
def serviceUnit (die : Nat) : Nat := 4096 + die
/-- The die whose service a unit uses. -/
def dieOfUnit (u : Nat) : Nat := if u < 1024 then dieOf u else if u < 4096 then dieOf ((u - 1024) / 4) else u - 4096
/-- The translations that a unit holds. -/
def State.tlbOf (s : State) (u : Nat) : List Tlb := if u < 1024 then (s.clu u).tlb else if u < 4096 then (s.mat (u - 1024)).tlb else []

/-- What tells the virtual addresses of one table at a level from others. -/
def ptPrefix (lv va : Nat) : Nat := va / 2 ^ (57 - 9 * lv)

/-- Where a walk begins: at the deepest level for which the die's walk cache holds the table, else at the root (16 R374). -/
def State.walkStart (s : State) (die p va : Nat) : Nat × Nat :=
  s.walks.foldl (fun b e =>
    if e.die = die ∧ e.part = p ∧ b.1 < e.lv ∧ e.pre = ptPrefix e.lv va then (e.lv, e.table) else b) (0, (s.part p).ptroot.toNat)

/-- A walk for a unit. -/
def State.walkFor (s : State) (u p va : Nat) : Except Cause (Word × Nat) :=
  let b := s.walkStart (dieOfUnit u) p va
  s.walkFrom p va (5 - b.1) b.1 b.2

/-- The size, as an exponent, of the page of a virtual address in the tables as they stand: the smallest for an address that has
none. -/
def State.pageSize (s : State) (p va : Nat) : Nat :=
  match s.walkFor (serviceUnit 0) p va with
  | .ok r => r.2
  | .error _ => 16

/-- The tables that a walk passes below the root, with their levels (16 R373). -/
def State.walkTables (s : State) (p va : Nat) : Nat → Nat → Nat → List (Nat × Nat)
  | 0, _, _ => []
  | fuel + 1, lv, t =>
    let e := s.peekN (dramBase p + (t + 8 * ptIndex lv va)) 8
    if dramLimit (s.part p) ≤ t + 8 * ptIndex lv va ∨ e % 4 ≠ 1 ∨ 4 ≤ lv then []
    else (lv + 1, e % 2 ^ 52 / 2 ^ 8 * 2 ^ 8) :: State.walkTables s p va fuel (lv + 1) (e % 2 ^ 52 / 2 ^ 8 * 2 ^ 8)

/-- The locations of the entries that a walk for a unit reads. -/
def State.walkReads (s : State) (u p va : Nat) : List Nat :=
  let b := s.walkStart (dieOfUnit u) p va
  (b :: s.walkTables p va (5 - b.1) b.1 b.2).flatMap (fun t => span (dramBase p + (t.2 + 8 * ptIndex t.1 va)) 8)

/-- The leaf of a virtual address: from the unit's translation cache, else by a walk (16 R373, R374). -/
def State.leafOf (s : State) (u p va : Nat) : Except Cause (Word × Nat) :=
  match (s.tlbOf u).find? (fun e => decide (e.part = p) && decide (e.vpn = va / 2 ^ e.shift)) with
  | some e => .ok (e.leaf, e.shift)
  | none => s.walkFor u p va

/-- A virtual address to a location (16 R373). `host` when the space is HOST; `need` as permission bits. -/
def State.xlate (s : State) (clu p : Nat) (host sup : Bool) (need va : Nat) : Except Cause Loc :=
  match s.leafOf clu p va with
  | .error e => .error e
  | .ok (leaf, sh) =>
    let pa := leaf.toNat % 2 ^ 52 / 2 ^ 8 * 2 ^ 8 + va % 2 ^ sh
    if !host && decide (dramLimit (s.part p) ≤ pa) then .error Cause.walkError
    else if !covers (leaf.toNat / 8 % 8) (pageNeed need) || (!sup && decide (leaf.toNat / 2 ^ 6 % 2 = 0)) then
      .error Cause.pagePerm
    else .ok (if host then hostBase + pa else dramBase p + pa)

/-- The segments of a range, page of the smallest size by page (10 R220). The first argument bounds the pages. -/
def State.xlatePages (s : State) (clu p : Nat) (host sup : Bool) (need : Nat) : Nat → Nat → Nat → Except Cause (List (Nat × Nat))
  | 0, _, _ => .ok []
  | fuel + 1, va, n =>
    match s.xlate clu p host sup need va with
    | .error e => .error e
    | .ok l =>
      let n1 := 2 ^ 16 - va % 2 ^ 16
      if n ≤ n1 then .ok [(l, n)]
      else
        match State.xlatePages s clu p host sup need fuel (va + n1) (n - n1) with
        | .error e => .error e
        | .ok r => .ok ((l, n1) :: r)

/-- A range to segments. -/
def State.xlateRange (s : State) (clu p : Nat) (host sup : Bool) (need va n : Nat) : Except Cause (List (Nat × Nat)) :=
  s.xlatePages clu p host sup need (n / 2 ^ 16 + 2) va n

/-! ## Handles (03 R38 to R41; 16 R376) -/

/-- A handle table entry's fields (03 R40). -/
structure HEntry where
  base : Nat
  len : Nat
  space : Nat
  policy : Nat
  perm : Nat
  valid : Bool
  priv : Bool
  peern : Nat
  peerh : Nat
deriving DecidableEq, Repr

/-- The fields of an entry's 32 bytes. -/
def HEntry.ofNat (e : Nat) : HEntry :=
  { base := e % 2 ^ 57, len := e / 2 ^ 64 % 2 ^ 52, space := e / 2 ^ 160 % 8, policy := e / 2 ^ 164 % 4,
    perm := e / 2 ^ 168 % 2 ^ 8, valid := decide (e / 2 ^ 176 % 2 = 1), priv := decide (e / 2 ^ 177 % 2 = 1),
    peern := e / 2 ^ 208 % 2 ^ 16, peerh := e / 2 ^ 224 % 2 ^ 16 }

/-- The 32 bytes of handle entry `h`: cached in the cluster, else fetched through the page tables as supervisor data
(16 R374, R376). -/
def State.handleRaw (s : State) (clu p h : Nat) : Except Cause (BitVec 256) :=
  match (s.clu clu).hcache.find? (fun e => decide (e.1 = p) && decide (e.2.1 = h)) with
  | some e => .ok e.2.2
  | none =>
    match s.xlate clu p false true needR ((s.part p).htbase.toNat + 32 * h) with
    | .error e => .error e
    | .ok l =>
      match s.errAt (span l 32) with
      | some e => .error e
      | none => .ok (BitVec.ofNat 256 (s.peekN l 32))

/-- Who accesses: the cluster that translates, the partition, the mode, and the core and context for the windows. -/
structure Who where
  clu : Nat
  part : Nat
  sup : Bool
  ctx : Nat := 0
  thread : Bool := true
deriving DecidableEq, Repr

/-- The running context as an accessor. -/
def State.who (s : State) (c : Nat) : Who :=
  { clu := cluOf c, part := (s.ctx c).part, sup := (s.ctx c).sta.sup, ctx := c }

/-- The object that a checked pointer names (03 R41). -/
inductive Obj where
  | scratch (off : Nat)
  | window (off : Nat)
  | signals (off : Nat)
  | table (e : HEntry) (off : Nat)
deriving DecidableEq, Repr

/-- The domain of a context: the launch that has one. -/
def State.domainOf (s : State) (c : Nat) : Option (Nat × Domain) :=
  match (s.ctx c).role, (s.ctx c).launch with
  | .outside, _ => none
  | _, none => none
  | _, some l => (s.launch l).dom.map (fun d => (l, d))

/-- R41: the checks of a pointer, in order. -/
def State.resolve (s : State) (w : Who) (ptr : Word) (size need : Nat) : Except Exc Obj :=
  let h := ptr.toNat / 2 ^ 52
  let off := ptr.toNat % 2 ^ 52
  let bad (c : Cause) : Except Exc Obj := .error { code := c, addr := ptr }
  if h = 0 ∨ (4 ≤ h ∧ h ≤ 15) then bad Cause.handleInvalid
  else if h = 1 then
    if !covers 0x7B need then bad Cause.handlePerm
    else if 65536 * (banksOf 1 (s.clu w.clu).bankmode).length < off + size then bad Cause.handleBounds
    else .ok (.scratch off)
  else if h = 2 then
    if !w.thread || !covers 0x1B need then bad Cause.handlePerm
    else if 0x2000 < off + size then bad Cause.handleBounds
    else .ok (.window off)
  else if h = 3 then
    if !w.thread then bad Cause.handlePerm
    else
      match s.domainOf w.ctx with
      | none => bad Cause.handleInvalid
      | some (_, d) =>
        if !covers 0x19 need then bad Cause.handlePerm
        else if 0x1000 + 8 * d.nsig < off + size then bad Cause.handleBounds
        else .ok (.signals off)
  else if (s.part w.part).htlen.toNat ≤ h then bad Cause.handleInvalid
  else
    match s.handleRaw w.clu w.part h with
    | .error e => .error { code := Cause.handleInvalid, addr := ptr, info := e.setWidth 64 }
    | .ok raw =>
      let e := HEntry.ofNat raw.toNat
      if !e.valid then bad Cause.handleInvalid
      else if e.priv && !w.sup then bad Cause.handlePerm
      else if !covers e.perm need then bad Cause.handlePerm
      else if e.len < off + size then bad Cause.handleBounds
      else .ok (.table e off)

/-- The segments of a scratchpad range, bank by bank: each 64 KiB of offset is one of `banks` (03 R38). -/
def scratchBanks (clu : Nat) (banks : List Nat) : Nat → Nat → Nat → List (Nat × Nat)
  | 0, _, _ => []
  | fuel + 1, off, n =>
    let n1 := 2 ^ 16 - off % 2 ^ 16
    let l := sramLoc clu (banks.getD (off / 2 ^ 16) 0) (off % 2 ^ 16)
    if n ≤ n1 then [(l, n)] else (l, n1) :: scratchBanks clu banks fuel (off + n1) (n - n1)

/-- The locations of a scratchpad range: each 64 KiB of offset is one SCRATCH bank, in ascending order (03 R38). -/
def State.scratchSegs (s : State) (clu off n : Nat) : List (Nat × Nat) :=
  scratchBanks clu (banksOf 1 (s.clu clu).bankmode) (n / 2 ^ 16 + 2) off n

/-! ## Fetching (05 R69) -/

/-- The memory that a thread's instruction words are read from: memory as it stood when its launch started. DESIGN CHOICE:
05 R69 names no moment for a thread that no launch started (a service thread, a callee of `RCALL`): it reads memory as it
stands (log 49). -/
def State.codeOf (s : State) (x : Ctx) : Memory :=
  match x.launch with
  | none => s.mem
  | some l => ((s.launch l).code).getD s.mem

/-- One 32-bit word of code at a pointer, or the cause that the fetch met. DRAM, HOST and XCELL pointers are translated
(03 R41). DESIGN CHOICE: the spec gives no fetch through GRID or PEER; one fails with HANDLE_PERM (log 49). -/
def State.fetchWord (s : State) (c : Nat) (sup : Bool) (ptr : Word) : Except Cause Nat :=
  let x := s.ctx c
  let w : Who := { clu := cluOf c, part := x.part, sup := sup, ctx := c }
  match s.resolve w ptr 4 needX with
  | .error e => .error e.code
  | .ok (.table e off) =>
    if e.space = 1 ∨ e.space = 2 ∨ e.space = 4 then
      match s.xlateRange w.clu w.part (decide (e.space = 2)) sup needX (e.base + off) 4 with
      | .error k => .error k
      | .ok segs =>
        match s.errAt (spanAll segs) with
        | some k => .error k
        | none => .ok (leNat ((spanAll segs).map (s.codeOf x).read))
    else .error Cause.handlePerm
  | .ok _ => .error Cause.handlePerm

/-- The `n` words from a pointer, or the pointer of the first that cannot be fetched and the cause (05 R69). -/
def State.fetchWords (s : State) (c : Nat) (ptr : Word) : Nat → Except (Word × Cause) (List Nat)
  | 0 => .ok []
  | n + 1 =>
    match s.fetchWord c (s.ctx c).sta.sup ptr with
    | .error e => .error (ptr, e)
    | .ok v =>
      match State.fetchWords s c (ptr + 4) n with
      | .error e => .error e
      | .ok r => .ok (v :: r)

/-- The words of the instruction at a pointer: word 0 first, then as many as its LEN asks for. -/
def State.fetch (s : State) (c : Nat) (ptr : Word) : Except (Word × Cause) (List Nat) :=
  match s.fetchWord c (s.ctx c).sta.sup ptr with
  | .error e => .error (ptr, e)
  | .ok v =>
    match s.fetchWords c (ptr + 4) (wordCount v - 1) with
    | .error e => .error e
    | .ok r => .ok (v :: r)

/-! ## Service contexts (02 R26; 17 R396; 10 R236) -/

/-- The directory service context of a cluster: slot 15 of its lowest-numbered core. -/
def dscOf (clu : Nat) : Nat := clu * 64 + 15

/-- The lowest of some numbers, 0 for none (01 R9). -/
def lowest (l : List Nat) : Nat := l.tail.foldl (fun m k => if k < m then k else m) (l.headD 0)

/-- The lowest-numbered cluster of a partition that is not retired. -/
def State.firstClu (s : State) (p : Nat) : Nat := lowest ((s.part p).clusters.filter (fun k => !(s.clu k).retired))

/-- The service context of a partition (17 R396). -/
def State.serviceCtx (s : State) (p : Nat) : Nat := dscOf (s.firstClu p)

/-- Where the directory events of a cluster's slice go (10 R236). -/
def State.dscFor (s : State) (p clu : Nat) : Nat := if (s.clu clu).retired then s.serviceCtx p else dscOf clu

/-- Insert an event in delivery order: MACHINE_CHECK first, then ascending code, and events of one cause as they came (17
R394). Directory overflow events queue at their slice. -/
def insEvent (e : Exc) : List Exc → List Exc
  | [] => [e]
  | h :: r =>
    if h.code = Cause.machineCheck then h :: insEvent e r
    else if e.code = Cause.machineCheck ∨ e.code.toNat < h.code.toNat then e :: h :: r
    else h :: insEvent e r

/-- Raise an event at a context: it is held until the context's next boundary with IH = 0 (17 R394). -/
def State.raiseAt (s : State) (c : Nat) (e : Exc) : State := s.modCtx c (fun x => { x with held := insEvent e x.held })

/-- Raise an event at a partition's service context (17 R396). -/
def State.raiseService (s : State) (p : Nat) (e : Exc) : State := s.raiseAt (s.serviceCtx p) e

/-- Report to the management controller. -/
def State.report (s : State) (e : Exc) : State :=
  s.modPkg (fun g => { g with controller := g.controller ++ [(e.code, e.addr, e.info)] })

/-! ## Taking an exception, and returning (17 R391 to R400) -/

/-- The pointer of a cause's vector: 16 instruction words each (17 R392). -/
def vectorOf (hvec : Word) (code : Cause) : Word := hvec + BitVec.ofNat 64 (64 * code.toNat)

/-- `ECAUSE` at an entry (17 R393). -/
def ecauseOf (nest : Bool) (kind : Nat) (code : Cause) : Word :=
  BitVec.ofNat 64 (code.toNat + kind * 2 ^ 6 + nest.toNat * 2 ^ 11)

/-- A trace record of 32 bytes (17 R413). -/
def traceRecord (kind b1 lcnt w4 w8 w16 now : Nat) : BitVec 256 :=
  BitVec.ofNat 256 (kind + b1 % 2 ^ 8 * 2 ^ 8 + lcnt % 2 ^ 16 * 2 ^ 16 + w4 % 2 ^ 32 * 2 ^ 32 + w8 % 2 ^ 64 * 2 ^ 64
    + w16 % 2 ^ 64 * 2 ^ 128 + now % 2 ^ 64 * 2 ^ 192)

/-- The trace mode of a partition: 0 off, 1 record, 2 replay (17 R411). -/
def Part.traceMode (p : Part) : Nat := bitsAt p.trace 1 2

/-- Begin a trace record of a context: it waits for the ring (17 R412). -/
def State.beginTrace (s : State) (c kind b1 w4 w8 w16 : Nat) : State :=
  let x := s.ctx c
  let lc := match x.launch with
    | none => 0
    | some l => (s.launch l).lcnt
  s.modPart x.part (fun p => { p with traceq := p.traceq ++ [traceRecord kind b1 lc w4 w8 w16 s.refCycle] })

/-- The BRANCH record of a traced context while MODE is 1 (17 R413, R417). -/
def State.branchTrace (s : State) (c kind : Nat) (src dst : Word) : State :=
  if (s.ctx c).btrace && decide ((s.part (s.ctx c).part).traceMode = 1) then s.beginTrace c 6 kind c src.toNat dst.toNat
  else s

/-- The entry to a handler, in the context's own registers (17 R392). -/
def Ctx.enter (x : Ctx) (kind : Nat) (epc : Word) (e : Exc) (now : Nat) : Ctx :=
  { x with esta := x.sta.toWord, epc := epc, ecause := ecauseOf x.ih kind e.code, eaddr := e.addr, einfo := e.info,
           sta := { x.sta with pp := false, pfx := 0, ss := false, sup := true }, ih := true,
           pc := vectorOf x.hvec e.code, resv := none, wait := none, slot := .ready,
           handlerSince := some (x.handlerSince.getD now) }

/-- A thread that has ended runs no iteration: its checkpoint, its read set and its tagged lines are dropped (15 R357,
R358). -/
def State.dropSpec (s : State) (c : Nat) : State :=
  if (s.ctx c).spec.isNone then s
  else
    (s.modCtx c (fun x => { x with spec := none, readSet := [], sta := { x.sta with spec := false } })).modClu (c / 64)
      (fun u => { u with spec := u.spec.filter (fun l => decide (l.ctx ≠ c)) })

/-- MACHINE_CHECK goes to the service context of a partition and to the management controller; where the context concerned is the
service context, to the controller only (17 R395, R397). -/
def State.machineCheck (s : State) (p c : Nat) (e : Exc) : State :=
  if c = s.serviceCtx p then s.report e else (s.raiseService p e).report e

/-- A context that has nothing more to write ends with a code, and the report is made. -/
def State.endLost (s : State) (c : Nat) (code : BitVec 8) (e : Exc) : State :=
  ((s.modCtx c (fun x => { x with slot := .exited, code := code, wait := none, resv := none })).dropSpec c).machineCheck (s.ctx c).part c e

/-- A context that cannot go on ends with a code, after its buffered entries have been written (17 R395, R410): until then it is
BLOCKED. -/
def State.lose (s : State) (c : Nat) (code : BitVec 8) (e : Exc) : State :=
  if (s.ctx c).buf.isEmpty then s.endLost c code e
  else (s.modCtx c (fun x => { x with slot := .blocked, wait := some { why := .lost code e }, resv := none })).dropSpec c

/-- Delivery: kind 0 fault, 1 trap, 2 event (17 R392). A delivery whose vector cannot be fetched is undeliverable: the context's
buffered entries are written, it becomes EXITED with code 254, and MACHINE_CHECK is reported (17 R395). -/
def State.enter (s : State) (c kind : Nat) (epc : Word) (e : Exc) : State :=
  let x := s.ctx c
  match s.fetchWord c true (vectorOf x.hvec e.code) with
  | .ok _ => (s.setCtx c (x.enter kind epc e s.refCycle)).branchTrace c 5 epc (vectorOf x.hvec e.code)
  | .error _ => s.lose c 254 { code := Cause.machineCheck, info := BitVec.ofNat 64 (c + e.code.toNat * 2 ^ 16 + 2 ^ 22) }

/-- `ERET`'s effect on the context, once its target is aligned (17 R400): `STA` from `ESTA` but for BIND, Port and SPEC,
IH from `ECAUSE.NEST`, pc from `EPC`. A remote operation that timed out keeps its number only where the return is to it (10
R235). -/
def Ctx.eret (x : Ctx) : Ctx :=
  let t := Sta.ofWord x.esta
  let ih := bitOf x.ecause 11
  { x with eseq := x.eseq.filter (fun q => decide (q.2.2.2 ≠ ih ∨ q.1 = x.epc)),
           traced := x.traced.filter (fun t => decide (t.2 ≠ ih ∨ t.1 = x.epc)), sta := { t with bind := x.sta.bind, port := x.sta.port, spec := x.sta.spec }, ih := bitOf x.ecause 11,
           pc := x.epc, vpart := x.vpart.filter (fun v => decide (v.pc = x.epc)), handlerSince := if bitOf x.ecause 11 then x.handlerSince else none }

end Sys2Proof.Machine
end

