-- ==== Sys2Proof/Machine/Places.lean ====
section
/-! DEFINITION. Sys2Proof/Machine/Places.lean: writes at their places and what they cause, store buffers and releases,
invalidation inboxes, and what a load returns (10 R209 to R216, R227, R231, R236; 11 R239 to R241). -/

namespace Sys2Proof.Machine

/-! ## Lines and entries -/

/-- The 128-byte line of a location. -/
def lineOf (l : Nat) : Nat := l / 128

/-- Byte `i` of a line's data. -/
def lineByte (d : BitVec 1024) (i : Nat) : Byte := BitVec.ofNat 8 (d.toNat / 2 ^ (8 * i))

/-- A line's data with byte `i` replaced. -/
def setLineByte (d : BitVec 1024) (i : Nat) (b : Byte) : BitVec 1024 := putBits d (8 * i) 8 b.toNat

/-- The bytes that an entry holds, with their locations. -/
def maskedBytes (line : Nat) (mask : BitVec 128) (data : BitVec 1024) : List (Nat × Byte) :=
  ((List.range 128).filter (fun i => bitOf mask i)).map (fun i => (line * 128 + i, lineByte data i))

/-- The bytes of a buffer entry. -/
def BufEntry.bytes (e : BufEntry) : List (Nat × Byte) := maskedBytes e.line e.mask e.data

/-- The byte of an entry at a location, if it holds it. -/
def BufEntry.byteAt (e : BufEntry) (l : Nat) : Option Byte :=
  if e.line = lineOf l ∧ bitOf e.mask (l % 128) then some (lineByte e.data (l % 128)) else none

/-- An entry with one more byte. A store clears the tag bit of the granule it touches (16 R381). -/
def BufEntry.put (e : BufEntry) (l : Nat) (b : Byte) : BufEntry :=
  { e with mask := e.mask ||| ((1#128) <<< (l % 128)), data := setLineByte e.data (l % 128) b,
           tags := e.tags &&& ~~~((1#8) <<< (l % 128 / 16)) }

/-- The distinct lines of some locations, in order. -/
def linesOf (ls : List Nat) : List Nat := ls.foldl (fun acc l => addNat acc (lineOf l)) []

/-- Change the thread of a name, wherever it stands: in a slot, on its way, or spilled. -/
def State.modThread (s : State) (tid : Nat) (f : Ctx → Ctx) : State :=
  let g (x : Ctx) : Ctx := if x.tid = tid then f x else x
  { s with ctxs := s.ctxs.map (fun p => (p.1, g p.2)), moving := s.moving.map (fun p => (p.1, g p.2)),
           spilled := s.spilled.map (fun p => (p.1, { p.2 with ctx := g p.2.ctx })) }

/-! ## Withdrawal (10 R218; 15 R361) -/

/-- Withdraw a waiting context from every list that holds it (10 R218; 15 R361). -/
def State.withdraw (s : State) (c : Nat) : State :=
  let clu (k : Cluster) : Cluster := { k with
    retry := k.retry.filter (fun r => decide (r.ctx ≠ c) || r.remote.isSome),
    fifoWait := k.fifoWait.map (fun p => (p.1, p.2.filter (fun q => decide (q.1 ≠ c)))) }
  let opening : List Nat := (s.cores.flatMap (fun p => p.2.chans.flatMap (fun h => h.2.waiting))).filterMap (fun m =>
    match m.body with
    | .openS n _ => if m.src = c then some n else none
    | _ => none)
  let core (i : Nat) (k : CoreSt) : CoreSt := { k with
    streams := if i = coreOf c then k.streams.filter (fun p => decide (p.1 ∉ opening)) else k.streams,
    semWait := k.semWait.map (fun p => (p.1, p.2.filter (fun q => decide (q ≠ c)))),
    engWait := k.engWait.filter (fun p => decide (p.2 ≠ c)),
    chans := k.chans.map (fun p => (p.1, { p.2 with waiting := p.2.waiting.filter (fun m => decide (m.src ≠ c)) })) }
  let dir (d : DirLine) : DirLine := { d with watches := d.watches.filter (fun w => decide (w.ctx ≠ c)),
                                              lrq := d.lrq.filter (fun q => decide (q ≠ c)) }
  let s1 : State := { s with clus := s.clus.map (fun p => (p.1, clu p.2)), cores := s.cores.map (fun p => (p.1, core p.1 p.2)),
                             dir := s.dir.map (fun p => (p.1, dir p.2)) }
  s1.modCtx c (fun x => { x with slot := .ready, wait := none, paused := false, heldFault := none })

/-! ## Speculation: restarts (15 R359) -/

/-- The key of a spilled thread's tagged lines: no context's number. -/
def spillKey (tid : Nat) : Nat := 2 ^ 20 + tid

/-- Restart a speculative context: its wait is withdrawn, with a request that it has sent; its checkpoint, no read set, no tagged
lines, and no held fault (15 R358). -/
def State.restart (s : State) (c : Nat) : State :=
  match (s.ctx c).spec with
  | none => s
  | some k =>
    let s := if (s.ctx c).wait.isSome then
        (s.withdraw c).modPkg (fun g => { g with outst := g.outst.filter (fun o => !decide (o.ctx = some c)) })
      else s
    (s.modCtx c (fun x => { x with x := k.x, tags := k.tags, sta := { k.sta with spec := true }, pc := k.pc, readSet := [],
                                   wait := none, slot := .ready })).modClu (cluOf c)
      (fun u => { u with spec := u.spec.filter (fun l => decide (l.ctx ≠ c)) })

/-- Whether a speculative context holds its cluster's baton (15 R357). -/
def State.holdsBaton (s : State) (c : Nat) : Bool :=
  match (s.ctx c).spec, (s.clu (cluOf c)).group with
  | some k, some g => decide (k.iter = g.2)
  | _, _ => false

/-- The contexts of a cluster that have a record. -/
def State.ctxsOf (s : State) (clu : Nat) : List Nat := (s.ctxs.map (·.1)).filter (fun c => decide (cluOf c = clu))

/-- Whether a thread that stands spilled is a younger iteration of a cluster whose read set holds the line. -/
def State.spilledReader (s : State) (clu line : Nat) (z : Spilled) : Bool :=
  z.ctx.spec.any (fun k => (s.clu clu).group.all (fun g => decide (k.iter ≠ g.2))) && decide (cluOf z.from_ = clu) &&
    hasNat z.ctx.readSet line

/-- A spilled iteration restarts when it resumes; its tagged lines go now (15 R358, R359). -/
def State.restartSpilled (s : State) (clu key : Nat) : State :=
  ({ s with spilled := s.spilled.map (fun p =>
      if spillKey p.2.ctx.tid = key then (p.1, { p.2 with again := true, ctx := { p.2.ctx with readSet := [] } }) else p) } : State).modClu clu
    (fun u => { u with spec := u.spec.filter (fun l => decide (l.ctx ≠ key)) })

/-- The spilled younger iterations whose read set holds the line restart when they resume: their tagged lines go, and their read
set. -/
def State.hitSpilled (s : State) (clu line : Nat) : State :=
  (s.spilled.filter (fun p => s.spilledReader clu line p.2)).foldl (fun s p => s.restartSpilled clu (spillKey p.2.ctx.tid)) s

/-- Restart the younger iterations of a cluster whose read set holds the line. The holder is never restarted. -/
def State.hitReaders (s : State) (clu line : Nat) : State :=
  ((s.ctxsOf clu).foldl (fun s c =>
    if (s.ctx c).spec.isSome && hasNat (s.ctx c).readSet line && !s.holdsBaton c then s.restart c else s) s).hitSpilled clu line

/-! ## Invalidation inboxes (10 R213) -/

/-- Apply one inbox entry: the cluster's copy is dropped, and its speculative readers restart. -/
def State.applyLine (s : State) (clu line : Nat) : State :=
  (s.modClu clu (fun k => { k with cache := SMap.del k.cache line })).hitReaders clu line

/-- A cluster applies its whole inbox. -/
def State.applyInbox (s : State) (clu : Nat) : State :=
  ((s.clu clu).inbox.foldl (fun s l => s.applyLine clu l) s).modClu clu (fun k => { k with inbox := [] })

/-- An inbox accepts an invalidation; a full inbox of 64 applies its oldest entry at once. -/
def State.invalidate (s : State) (clu line : Nat) : State :=
  let full := decide (64 ≤ (s.clu clu).inbox.length)
  let s1 := if full then s.applyLine clu ((s.clu clu).inbox.headD line) else s
  s1.modClu clu (fun k => { k with inbox := (if full then k.inbox.drop 1 else k.inbox) ++ [line] })

/-- An acquire at scope 0 core, 1 cluster, 2 device, 3 system (10 R212). -/
def State.acquire (s : State) (c scope : Nat) : State := if 2 ≤ scope then s.applyInbox (cluOf c) else s

/-! ## The cluster cache (03 R47) -/

/-- The set of a line in the cluster cache. -/
def setOf (line : Nat) : Nat := line % 512

/-- The tagged and tracked lines of a cluster's speculative iterations (15 R358). -/
def State.specLines (s : State) (clu : Nat) : List Nat :=
  let tracked := (s.ctxsOf clu).flatMap (fun c => if (s.ctx c).spec.isSome then (s.ctx c).readSet else []) ++
    s.spilled.flatMap (fun p => if p.2.ctx.spec.isSome && decide (cluOf p.2.from_ = clu) then p.2.ctx.readSet else [])
  (((s.clu clu).spec.map (·.line)) ++ tracked).foldl (fun acc l => addNat acc l) []

/-- A replacement tree after an access to a way: the five nodes from the root (1) to the way's leaf (32 + way) point away
from it. -/
def touchWay (t w : Nat) : Nat :=
  (List.range 5).foldl (fun t i =>
    let n := (32 + w) / 2 ^ (5 - i)
    let b := (32 + w) / 2 ^ (4 - i) % 2
    t - t / 2 ^ n % 2 * 2 ^ n + (1 - b) * 2 ^ n) t

/-- The way below a node that a replacement tree gives up: where its bit points, unless no way there may go. -/
def victimWay (t : Nat) (ok : Nat → Bool) : Nat → Nat → Option Nat
  | 0, n => if ok (n - 32) then some (n - 32) else none
  | k + 1, n =>
    let b := t / 2 ^ n % 2
    (victimWay t ok k (2 * n + b)).or (victimWay t ok k (2 * n + 1 - b))

/-- The way that a line newly kept in the cluster cache takes (03 R47): the lowest-numbered CACHE bank that holds no line of
the set, while tagged lines leave one free; else the way that the set's tree gives up, among clean lines that no write-through
and no iteration holds (10 R211; 15 R358). DESIGN CHOICE: the order of the empty ways, and the tree over all 32 banks in
which banks of other modes are passed over (log 50). -/
def State.wayFor (s : State) (clu line : Nat) : Option Nat :=
  let u := s.clu clu
  let banks := (banksOf 0 u.bankmode).filter (fun b => !bitOf u.busy b)
  let here := u.cache.filter (fun p => decide (setOf p.1 = setOf line))
  let pinned := s.specLines clu
  let apart := pinned.filter (fun l => decide (setOf l = setOf line ∧ l ≠ line) && here.all (fun p => decide (p.1 ≠ l)))
  let empty := banks.filter (fun b => here.all (fun p => decide (p.2.way ≠ b)))
  if apart.length < empty.length then empty.head?
  else victimWay (SMap.at 0 u.plru (setOf line)) (fun w => here.any (fun p =>
    decide (p.2.way = w) && !bitOf u.busy w && !p.2.through && !hasNat pinned p.1)) 5 1

/-- An access to a line that the cluster cache holds: its set's tree points away from it. -/
def State.touchLine (s : State) (clu line : Nat) : State :=
  match (s.clu clu).cache.find? (fun p => decide (p.1 = line)) with
  | none => s
  | some p => s.modClu clu (fun u => { u with plru := SMap.put u.plru (setOf line) (touchWay (SMap.at 0 u.plru (setOf line)) p.2.way) })

/-- The cluster cache keeps a line: in its own way if it is there, else in the way of `wayFor`, whose clean line drops. A
set with no way to give keeps nothing, and the answer is false. -/
def State.keepLine (s : State) (clu line : Nat) (data : BitVec 1024) (through : Bool) : Bool × State :=
  let way := match (s.clu clu).cache.find? (fun p => decide (p.1 = line)) with
    | some p => some p.2.way
    | none => s.wayFor clu line
  match way with
  | none => (false, s)
  | some w =>
    let room (c : SMap CLine) : SMap CLine := c.filter (fun p => !decide (setOf p.1 = setOf line ∧ p.2.way = w ∧ p.1 ≠ line))
    (true, (s.modClu clu (fun u => { u with cache := SMap.put (room u.cache) line ⟨data, through, w⟩ })).touchLine clu line)

/-- A tagged line takes a way of its set (15 R358): where the set has none left, the clean line that its tree gives up
drops. -/
def State.makeRoom (s : State) (clu line : Nat) : State :=
  let u := s.clu clu
  let here := u.cache.filter (fun p => decide (setOf p.1 = setOf line))
  let apart := (s.specLines clu).filter (fun l => decide (setOf l = setOf line) && here.all (fun p => decide (p.1 ≠ l)))
  if here.length + apart.length ≤ (banksOf 0 u.bankmode).length then s
  else
    match victimWay (SMap.at 0 u.plru (setOf line)) (fun w => here.any (fun p =>
      decide (p.2.way = w) && !p.2.through && !hasNat (s.specLines clu) p.1)) 5 1 with
    | none => s
    | some w => s.modClu clu (fun u => { u with cache := u.cache.filter (fun p => !decide (setOf p.1 = setOf line ∧ p.2.way = w)) })

/-- The byte that a cluster sees past its cache: a write-through it has begun, else the place. -/
def State.homeByte (s : State) (clu l : Nat) : Byte :=
  ((s.clu clu).throughs.foldl (fun acc e => match e.byteAt l with | some v => some v | none => acc) none).getD (s.mem.read l)

/-- A line as a cluster sees it past its cache. -/
def State.homeLine (s : State) (clu line : Nat) : BitVec 1024 :=
  BitVec.ofNat 1024 ((span (line * 128) 128).foldr (fun l n => (s.homeByte clu l).toNat + 256 * n) 0)

/-- The reply of an operation at a place brings the issuing cluster's copy of the line up to date (10 R216). -/
def State.refreshCopy (s : State) (clu line : Nat) : State :=
  s.modClu clu (fun u => { u with cache := u.cache.map (fun p => if p.1 = line then (p.1, { p.2 with data := s.homeLine clu line }) else p) })

/-! ## Replies -/

/-- Give a waiting context its reply: it becomes READY when the tag arrives (02 R32). -/
def State.giveReply (s : State) (c : Nat) (r : Reply) : State :=
  s.modCtx c (fun x => { x with wait := x.wait.map (fun w => { w with reply := some r }) })

/-- A packet's answer (18 R423, R429; 16 R385): class 1, source and target exchanged, ACK, or REPLY with bytes, or REJECT with
a cause, and the target partition's epoch window. Up to 16 bytes travel as OPND. -/
def answerPkt (p : FabPkt) (cause : Cause) (win : Word) (data : List Byte) : FabPkt :=
  { p with cls := 1, opc := if cause ≠ 0 then 0x12 else if data.isEmpty then 0x11 else 0x10,
           opnd := BitVec.ofNat 128 (leNat (data.take 16)), tgtNode := p.srcNode, tgtPart := p.srcPart, srcNode := p.tgtNode, srcPart := p.tgtPart,
           detour := false, cause := cause, floor := BitVec.ofNat 8 (win.toNat / 2 ^ 8), cur := BitVec.ofNat 8 win.toNat,
           data := if data.length ≤ 16 then [] else data }

/-! ## Extension (10 R219) -/

/-- The bytes of a size code. -/
def szBytes (z : Nat) : Nat := if z < 2 then 1 else if z < 4 then 2 else if z < 6 then 4 else 8

/-- A loaded value extended by its type: even codes below 6 sign-extend. -/
def extend (z : Nat) (v : Nat) : Word :=
  if z = 6 then BitVec.ofNat 64 v
  else if z % 2 = 0 then sextW (8 * szBytes z) (BitVec.ofNat 64 v) else BitVec.ofNat 64 v

/-! ## A write at its place (10 R216, R227, R231, R236) -/

/-- Who writes: the cluster that needs no invalidation, the context of a thread, and the name of an engine's or a peer's work
whose acknowledgement is awaited. -/
structure Writer where
  clu : Option Nat := none
  ctx : Option Nat := none
  key : Option Nat := none
deriving DecidableEq, Repr

/-- The name of a copy packet's writes. Threads' names are smaller. -/
def pkKey (id : Nat) : Nat := 2 ^ 50 + id
/-- The name of a matrix unit's writes. -/
def matKey (core : Nat) : Nat := 2 ^ 49 + core
/-- The name of a peer's request. -/
def peerKey (node eseq : Nat) : Nat := 2 ^ 60 + node * 2 ^ 32 + eseq

/-- Whether a directory service context still withholds an acknowledgement of some work's writes (10 R236). -/
def State.ackHeld (s : State) (key : Nat) : Bool :=
  let is (e : DirEv) : Bool := e.write && decide (e.waiter = some key)
  s.clus.any (fun k => k.2.dirq.any is) || s.ctxs.any (fun p => p.2.handling.any is)

/-- The bytes change: words touched become full, granules touched lose their tag, granules written whole lose their
poison (10 R216; 16 R380; 17 R409). -/
def State.rawWrite (s : State) (bs : List (Nat × Byte)) : State :=
  let ls := bs.map (·.1)
  let whole (g : Nat) : Bool := (span (16 * g) 16).all (fun l => decide (l ∈ ls))
  { s with mem := s.mem.writes bs,
           empties := ls.foldl (fun e l => delNat e (l / 8)) s.empties,
           mtags := ls.foldl (fun t l => delNat t (l / 16)) s.mtags,
           poison := if s.poison.isEmpty then [] else s.poison.filter (fun g => !whole g),
           ecc := if s.ecc.isEmpty then [] else s.ecc.filter (fun g => !whole g) }

/-- Wake the watches of a line: a `WAITRS` gets the value now, a `SYNCWAIT` looks again (10 R227; 12 R267). -/
def State.wakeWatches (s : State) (line : Nat) : State :=
  let ws := (s.dirAt line).watches
  if ws.isEmpty then s
  else
    (ws.foldl (fun s w =>
      match w.remote with
      | some p => s.modPkg (fun g => { g with outbox := g.outbox ++
          [answerPkt p 0 (s.part p.tgtPart).epoch (leBytes 8 (s.peekN w.loc (szBytes w.z)))] })
      | none =>
      if w.sync then s.giveReply w.ctx { again := true }
      else s.giveReply w.ctx { writes := [(w.d, extend w.z (s.peekN w.loc (szBytes w.z)))], acq := true }) s).modDir line
      (fun d => { d with watches := [] })

/-- Raise a directory overflow event at the slice of a line: it queues at its slice, and the oldest goes to the directory
service context (10 R236). -/
def State.dirEvent (s : State) (e : DirEv) : State :=
  let k := s.placeClu (e.line * 128)
  s.modClu k (fun u => { u with dirq := u.dirq ++ [e] })

/-- The CLU of a WRITE event (10 R237): the writing cluster. DESIGN CHOICE: an engine, the host and a peer write from no
cluster; their events carry 0x3FF, the number of none, so that the handler passes no cluster over (log 51). -/
def Writer.cluCode (wr : Writer) : Nat := wr.clu.getD 0x3FF

/-- Whether the WRITE event of a line has been raised and not ended (10 R236). -/
def State.writeAsked (s : State) (line : Nat) : Bool :=
  let is (e : DirEv) : Bool := e.write && decide (e.line = line)
  (s.dirAt line).ovf && (s.clus.any (fun k => k.2.dirq.any is) || s.ctxs.any (fun p => p.2.handling.any is))

/-- A write to a line whose overflow bit is set waits at its slice (10 R236; 11 R244): the pointed sharers are invalidated
and the WRITE event is raised, once, when the slice's queue of 16 has room. DEDUCED: 11 R244 lets no write be read before every
invalidation it needs has been accepted, and those of the overflowed sharers come from the event's handler, so the write is
performed, and acknowledged, at that handler's `ERET` (log 51). -/
def State.askWrite (s : State) (wr : Writer) (line : Nat) : State :=
  if (s.dirAt line).ovf && !s.writeAsked line && decide ((s.clu (s.placeClu (line * 128))).dirq.length < 16) then
    (((s.dirAt line).sharers.filter (fun k => decide (wr.clu ≠ some k))).foldl (fun s k => s.invalidate k line) s).dirEvent
      ⟨true, line, wr.cluCode, none⟩
  else s

/-- Every line of some whose overflow bit is set is asked for. -/
def State.askWrites (s : State) (wr : Writer) (lines : List Nat) : State := lines.foldl (fun s l => s.askWrite wr l) s

/-- What a write to a line causes beside the bytes: reservations end, watches wake, sharers are invalidated, the
writer's own cluster copy is brought up to date, an overflowed line raises its event, and the baton holder's write
restarts younger readers (10 R213, R216, R225, R236; 15 R359). Only the device's own records are written to a line whose
overflow bit is set; every other write waits (`State.askWrite`). DESIGN CHOICE: where such a record finds its slice's queue of
events full, the slice invalidates the line in every cluster by itself, and the bit is clear (log 51). -/
def State.noteWrite (s : State) (wr : Writer) (line : Nat) : State :=
  let lose (x : Ctx) : Ctx := if x.resv.any (fun r => decide (r.line = line)) then { x with resv := none } else x
  let s : State := { s with ctxs := s.ctxs.map (fun p => (p.1, lose p.2)), rresv := s.rresv.filter (fun r => decide (r.2.2 ≠ line)) }
  let s : State := s.wakeWatches line
  let d := s.dirAt line
  let s : State := (d.sharers.filter (fun k => decide (wr.clu ≠ some k))).foldl (fun s k => s.invalidate k line) s
  let s : State := match wr.clu with
    | none => s
    | some k => s.refreshCopy k line
  let room := decide ((s.clu (s.placeClu (line * 128))).dirq.length < 16)
  let s : State := if d.ovf && room then
      (s.dirEvent ⟨true, line, wr.cluCode, wr.key.or (wr.ctx.map (fun c => (s.ctx c).tid))⟩)
    else if d.ovf then
      (((s.clus.map (·.1)).filter (fun k => decide (wr.clu ≠ some k))).foldl (fun s k => s.invalidate k line) s).modDir line
        (fun d => { d with sharers := [], ovf := false })
    else if d.sharers.isEmpty then s
    else s.modDir line (fun d => { d with sharers := d.sharers.filter (fun k => decide (wr.clu = some k)) })
  let s : State := match wr.ctx with
    | none => s
    | some c =>
      let s : State := if d.ovf && room then s.modCtx c (fun x => { x with acks := x.acks + 1 }) else s
      if s.holdsBaton c then s.hitReaders (cluOf c) line else s
  s

/-- Whether a word is full. -/
def State.isFull (s : State) (l : Nat) : Bool := !hasNat s.empties (l / 8)

/-- Whether a full-empty operation can proceed on a word's state (10 R230). -/
def FeMode.ready (m : FeMode) (full : Bool) : Bool :=
  match m with
  | .read | .take => full
  | .put => !full
  | .fill | .clear => true

/-- A full-empty operation at its place: the value returned, and the state (10 R216, R230). TAKE and CLEAR are writes that
leave the data. -/
def State.fePerform (s : State) (wr : Writer) (l : Nat) (m : FeMode) (v : Word) : Word × State :=
  let old := BitVec.ofNat 64 (s.peekN l 8)
  match m with
  | .read => (old, s)
  | .take | .clear =>
    let s1 := { s with empties := addNat s.empties (l / 8), mtags := delNat s.mtags (l / 16) }
    (old, s1.noteWrite wr (lineOf l))
  | .put | .fill => (old, (s.rawWrite ((span l 8).zip (leBytes 8 v.toNat))).noteWrite wr (lineOf l))

/-- Whether a location lies in a bank that is changing mode (03 R45). -/
def State.bankBusy (s : State) (l : Nat) : Bool :=
  isSram l && bitOf (s.clu ((l - sramBase) / 2 ^ 21)).busy ((l - sramBase) / 2 ^ 16 % 32)

/-- Whether the DRAM channel of a location is being trained again (19 R446). -/
def State.channelBusy (s : State) (l : Nat) : Bool :=
  !s.pkg.retrainChannels.isEmpty && isDram l && hasNat s.pkg.retrainChannels (homeCore (s.part (l / 2 ^ 40)) (l % 2 ^ 40))

/-- Whether a write to a line must wait: it is locked for another context (10 R226), its overflow bit is set (10 R236; 11
R244), its bank is changing mode (03 R45), or its channel is being trained (19 R446). -/
def State.lockedFor (s : State) (line c : Nat) : Bool :=
  (match (s.dirAt line).lock with
    | none => false
    | some o => decide (o ≠ c)) || (s.dirAt line).ovf || s.bankBusy (line * 128) || s.channelBusy (line * 128)

/-- The number of no context: the writer of an engine, of the host or of a peer, for whom no line is locked. -/
def noCtx : Nat := 2 ^ 15

/-- Whether a line is locked for another context (10 R226). -/
def State.lockedByOther (s : State) (line c : Nat) : Bool :=
  match (s.dirAt line).lock with
  | none => false
  | some o => decide (o ≠ c)

/-- Whether a full-empty mode writes at the place (10 R216). -/
def FeMode.writes (m : FeMode) : Bool := decide (m ≠ .read)

/-- The writer of a full-empty request. -/
def FeReq.writer (r : FeReq) : Writer :=
  match r.remote with
  | none => { clu := some (cluOf r.ctx), ctx := some r.ctx }
  | some p => { key := some (peerKey p.srcNode p.eseq) }

/-- Whether a request of the retry list can be performed: its condition holds, and a write finds its line free. -/
def State.feCan (s : State) (r : FeReq) : Bool :=
  r.mode.ready (s.isFull r.loc) && !s.bankBusy r.loc && !s.channelBusy r.loc && !(r.mode.writes && s.lockedFor (lineOf r.loc) (if r.remote.isSome then noCtx else r.ctx))

/-- The replay mode in force for a launch: 0 off, 1 record, 2 replay: its own where the partition's MODE is the same (17
R411). -/
def State.replayIn (s : State) (l : Nat) : Nat :=
  let x := s.launch l
  if (s.part x.part).traceMode = x.replay then x.replay else 0

/-- The replay mode in force for a thread. -/
def State.replayOf (s : State) (c : Nat) : Nat :=
  match (s.ctx c).launch with
  | none => 0
  | some l => s.replayIn l

/-- Whether a full-empty request is an event of a trace: it is performed by itself, once its record allows (17 R414, R415). -/
def State.mustLog (s : State) (r : FeReq) : Bool := r.remote.isNone && decide (s.replayOf r.ctx ≠ 0)

/-- The oldest waiter of a word that can be performed now (10 R231). -/
def State.nextWaiter (s : State) (l : Nat) : Option FeReq :=
  (s.clu (s.placeClu l)).retry.find? (fun r => decide (r.loc = l) && s.feCan r)

/-- A waiter is performed at its place and answered (10 R231). -/
def State.serveOne (s : State) (r : FeReq) : State :=
  let s1 := s.modClu (s.placeClu r.loc) (fun u => { u with retry := u.retry.erase r })
  let (v, s2) := s1.fePerform r.writer r.loc r.mode r.data
  let loads := decide (r.mode = .read ∨ r.mode = .take)
  match r.remote with
  | none => (s2.refreshCopy (cluOf r.ctx) (lineOf r.loc)).giveReply r.ctx { writes := if loads then [(r.reg, v)] else [], acq := true }
  | some p => s2.modPkg (fun g => { g with outbox := g.outbox ++
      [answerPkt p 0 (s2.part p.tgtPart).epoch (if loads then leBytes 8 v.toNat else [])] })

/-- Serve the retry list on one word: the oldest waiter whose condition holds, until none can proceed (10 R231). -/
def State.serveWord (l : Nat) : Nat → State → State
  | 0, s => s
  | fuel + 1, s =>
    match s.nextWaiter l with
    | none => s
    | some r => if s.mustLog r then s else State.serveWord l fuel (s.serveOne r)

/-- Serve the waiters of every word of some locations. -/
def State.serveWords (s : State) (ls : List Nat) : State :=
  (ls.foldl (fun acc l => addNat acc (l / 8)) []).foldl (fun s w =>
    let k := s.placeClu (8 * w)
    if (s.clu k).retry.isEmpty then s else State.serveWord (8 * w) (s.clu k).retry.length s) s

/-- A write performed at its place. -/
def State.place (s : State) (wr : Writer) (bs : List (Nat × Byte)) : State :=
  let ls := bs.map (·.1)
  let s1 := s.rawWrite bs
  let s2 := (linesOf ls).foldl (fun s l => s.noteWrite wr l) s1
  s2.serveWords ls

/-- A write of a little-endian number of `n` bytes at `l`. -/
def State.placeN (s : State) (wr : Writer) (l n v : Nat) : State := s.place wr ((span l n).zip (leBytes n v))

/-- The writer that a context is. -/
def writerOf (c : Nat) : Writer := { clu := some (cluOf c), ctx := some c }

/-! ## Store buffers (10 R209 to R211; 11 R245) -/

/-- The outstanding write-throughs of a cluster whose lines pass a test reach their homes, oldest first (10 R211). -/
def State.throughsHome (s : State) (k : Nat) (hit : Nat → Bool) : State :=
  let out := (s.clu k).throughs.filter (fun e => hit e.line)
  let calm (p : Nat × CLine) : Nat × CLine := if hit p.1 then (p.1, { p.2 with through := false }) else p
  (out.foldl (fun s e => s.place { clu := some k } e.bytes) s).modClu k
    (fun u => { u with throughs := u.throughs.filter (fun e => !hit e.line), cache := u.cache.map calm })

/-- Whether two lines have one home slice: a cluster's requests reach it in the order in which they were issued (03 R53). -/
def State.sameHome (s : State) (a b : Nat) : Bool := decide (s.placeClu (a * 128) = s.placeClu (b * 128))

/-- The context as which a cluster's begun write-through reaches its home: while a line is locked for a context of the cluster,
only that context's own writes of it have begun, because others' wait (10 R226). -/
def State.throughCtx (s : State) (k line : Nat) : Nat :=
  match (s.dirAt line).lock with
  | none => noCtx
  | some o => if cluOf o = k then o else noCtx

/-- Whether what a cluster has begun to write to the home slice of a line cannot be written now. -/
def State.throughHeld (s : State) (k line : Nat) : Bool :=
  (s.clu k).throughs.any (fun e => s.sameHome e.line line && s.lockedFor e.line (s.throughCtx k e.line))

/-- The runs of consecutive offsets of a line's written bytes: the first offset of each, and its bytes. -/
def runsOf : List (Nat × Byte) → List (Nat × List Byte)
  | [] => []
  | (a, b) :: r =>
    match runsOf r with
    | [] => [(a, [b])]
    | (x, bs) :: t => if x = a + 1 then (a, b :: bs) :: t else (a, [b]) :: (x, bs) :: t

/-- Bytes behind PEER handles go to the egress, one WRITE for each run of bytes (18 R433). -/
def State.queuePeer (s : State) (tid : Nat) (sup : Bool) (clu : Nat) (bs : List (Nat × Byte)) : State :=
  if bs.isEmpty then s
  else
    s.modPkg (fun g => { g with peerq := g.peerq ++ (runsOf bs).map (fun r =>
      { tid := tid, part := (r.1 - peerBase) / 2 ^ 64, sup := sup, clu := clu, hidx := (r.1 - peerBase) / 2 ^ 52 % 2 ^ 12,
        off := (r.1 - peerBase) % 2 ^ 52, data := r.2 }) })

/-- The same for the bytes of a buffer entry of a thread. -/
def State.writePeer (s : State) (c : Nat) (e : BufEntry) : State :=
  s.queuePeer (s.ctx c).tid (s.ctx c).sta.sup (cluOf c) e.bytes

/-- Write an entry to its place, after what its cluster has begun to write to the same home slice, so that the writes keep
their order (03 R53; 11 R240). The bytes and their granules' tags are written together (16 R381): the waiters of the words
are served after both. -/
def State.writeEntry (s : State) (c : Nat) (e : BufEntry) : State :=
  if isPeer (e.line * 128) then s.writePeer c e
  else
    let s0 := if (s.clu (cluOf c)).throughs.any (fun t => s.sameHome t.line e.line) then
      s.throughsHome (cluOf c) (fun l => s.sameHome l e.line) else s
    let step (t : List Nat) (g : Nat) : List Nat := if bitOf e.tags g then addNat t (e.line * 8 + g) else t
    let s1 := s0.rawWrite e.bytes
    (({ s1 with mtags := (List.range 8).foldl step s1.mtags } : State).noteWrite (writerOf c) e.line).serveWords (e.bytes.map (·.1))

/-- Write a core's readable entries to their places (10 R211, device row). -/
def State.drainShared (s : State) (k : Nat) : State :=
  ((s.core k).shared.foldl (fun s p => s.writeEntry p.1 p.2) s).modCore k (fun u => { u with shared := [] })

/-- Write the outstanding write-throughs of a cluster to their homes (10 R211). -/
def State.drainThroughs (s : State) (k : Nat) : State := s.throughsHome k (fun _ => true)

/-- Record a reading cluster in a line's directory entry (10 R236): with all four pointers taken, the overflow bit and an
event of kind ADD. DESIGN CHOICE: for HOST lines, which have no home slice, every reading cluster is recorded at the CXL
controller (log 59). -/
def State.recordSharer (s : State) (line clu : Nat) : State :=
  let d := s.dirAt line
  if clu ∈ d.sharers then s
  else if isHost (line * 128) then s.modDir line (fun d => { d with sharers := d.sharers ++ [clu] })
  else if d.sharers.length < 4 then s.modDir line (fun d => { d with sharers := d.sharers ++ [clu] })
  else (s.modDir line (fun d => { d with ovf := true })).dirEvent ⟨false, line, clu, none⟩

/-- Whether an entry's line may be kept in the cluster cache of its context (10 R211, cluster row). -/
def State.keepable (s : State) (c : Nat) (e : BufEntry) : Bool :=
  !isSram (e.line * 128) && !isPeer (e.line * 128) && e.keep && (s.clu (cluOf c)).hasCache && decide (e.tags = 0)

/-- A read reply of some lines that carries the mark of a tile store makes the cluster apply its whole inbox first (11 R252):
`all` where the reply comes from the place whether or not the cluster holds a copy. -/
def State.tileSeen (s : State) (clu : Nat) (lines : List Nat) (all : Bool := false) : State :=
  if lines.any (fun l => hasNat s.tiles l && (all || !(s.clu clu).cache.any (fun p => decide (p.1 = l)))) then s.applyInbox clu else s

/-- Bring an entry to the cluster level (10 R211): scratchpad bytes to their bank; a line the cluster may keep into the
cluster cache with its write-through begun; any other to its place. -/
def State.clusterWrite (s : State) (c : Nat) (e : BufEntry) : State :=
  let k := cluOf c
  let s := if s.keepable c e then s.tileSeen k [e.line] else s
  let old := match (s.clu k).cache.find? (fun p => decide (p.1 = e.line)) with
    | some p => p.2.data
    | none => s.homeLine k e.line
  let d := e.bytes.foldl (fun d b => setLineByte d (b.1 % 128) b.2) old
  match s.keepable c e, s.keepLine k e.line d true with
  | true, (true, s1) =>
    let s2 := (s1.modClu k (fun u => { u with throughs := u.throughs ++ [e] })).recordSharer e.line k
    if s2.holdsBaton c then s2.hitReaders k e.line else s2
  | _, _ => s.writeEntry c e

/-- Bring an entry to the level of a release at `scope` (10 R211). -/
def State.levelWrite (s : State) (c scope : Nat) (e : BufEntry) : State :=
  if scope = 0 then s.modCore (coreOf c) (fun u => { u with shared := u.shared ++ [(c, { e with level := 1 })] })
  else if scope = 1 then s.clusterWrite c e
  else s.writeEntry c e

/-- The parity of the instant of a context's domain, 0 outside one: the phase tag of what it sends now (02 R54). -/
def State.phaseOf (s : State) (c : Nat) : Bool := (s.domainOf c).any (fun p => decide (p.2.instant.toNat % 2 = 1))

/-- Messages enter the network: each takes the phase tag of its sender's instant at that moment (01 R10; 02 R54). -/
def State.launchMsgs (s : State) (ms : List Msg) : State :=
  { s with net := s.net ++ ms.map (fun m => { m with tag := s.phaseOf m.src }) }

/-- The messages at the head of a buffer, before any marker, leave (11 R245). -/
def State.sendReady (s : State) (c : Nat) : State :=
  let b := (s.ctx c).buf
  let head := b.takeWhile (fun i => match i with | .marker _ => false | _ => true)
  let ms := head.filterMap (fun i => match i with | .msg m => some m | _ => none)
  if ms.isEmpty then s
  else
    let keep := head.filter (fun i => match i with | .msg _ => false | _ => true) ++ b.drop head.length
    (s.modCtx c (fun x => { x with buf := keep })).launchMsgs ms

/-- What a release adds (10 R211): readable entries of the core that the thread may have read, and at device and system
scope the cluster's begun write-throughs. -/
def State.cumulate (s : State) (c scope : Nat) : State :=
  if scope = 0 then s
  else if scope = 1 then s.drainShared (coreOf c)
  else (s.drainShared (coreOf c)).drainThroughs (cluOf c)

/-- The entries of a buffer. -/
def entriesOf (b : List BufItem) : List BufEntry := b.filterMap (fun i => match i with | .entry e => some e | _ => none)

/-- The entries before the first marker of a buffer. -/
def entriesAhead (b : List BufItem) : List BufEntry :=
  entriesOf (b.takeWhile (fun i => match i with | .marker _ => false | _ => true))

/-- Whether buffered stores of a thread through PEER handles wait for the peer's acknowledgement (10 R211, system row). -/
def State.peerOut (s : State) (tid : Nat) : Bool :=
  s.pkg.peerq.any (fun w => decide (w.tid = tid)) || s.pkg.outst.any (fun o => o.store.any (fun k => decide (k.1 = tid)))

/-- Whether a buffered store to a line behind a PEER handle has not been acknowledged. -/
def State.peerLineOut (s : State) (line : Nat) : Bool :=
  s.pkg.peerq.any (fun w => decide (lineOf (peerLoc w.part w.hidx w.off) = line)) ||
    s.pkg.outst.any (fun o => o.store.any (fun k => decide (k.2 = line)))

/-- Whether the writes of a release at `scope` have been acknowledged (10 R211, R236): at device scope by their homes, at
system scope by peers too. -/
def State.ackedAt (s : State) (c scope : Nat) : Bool :=
  decide (scope < 2) || (decide ((s.ctx c).acks = 0) && (decide (scope < 3) || !s.peerOut (s.ctx c).tid))

/-- Whether a buffer holds a marker. -/
def hasMarker (b : List BufItem) : Bool := b.any (fun i => match i with | .marker _ => true | _ => false)

/-- Whether a read of a line must wait at its slice (10 R236): it would raise a directory event and 16 wait, or the line's
WRITE event has not ended (11 R244). -/
def State.readHeld (s : State) (clu line : Nat) : Bool :=
  isDram (line * 128) && !(s.clu clu).cache.any (fun p => decide (p.1 = line)) &&
    (s.writeAsked line ||
      (decide (clu ∉ (s.dirAt line).sharers ∧ 4 ≤ (s.dirAt line).sharers.length) &&
        decide (16 ≤ (s.clu (s.placeClu (line * 128))).dirq.length)))

/-- Whether a read of a line would raise an event of kind ADD (10 R236). -/
def State.raisesAdd (s : State) (clu line : Nat) : Bool :=
  isDram (line * 128) && !(s.clu clu).cache.any (fun p => decide (p.1 = line)) &&
    decide (clu ∉ (s.dirAt line).sharers ∧ 4 ≤ (s.dirAt line).sharers.length)

/-- Whether a read of some lines together must wait: one is held, or a slice's queue has no room for the events of all (10
R236). -/
def State.readsHeld (s : State) (clu : Nat) (lines : List Nat) : Bool :=
  let add := lines.filter (fun l => s.raisesAdd clu l)
  lines.any (fun l => s.readHeld clu l) ||
    add.any (fun l => decide (16 < (s.clu (s.placeClu (l * 128))).dirq.length + (add.filter (fun m => s.sameHome m l)).length))

/-- Whether a cluster's copy of a line stands in a bank that is leaving CACHE: new accesses to it are held until the change
ends (03 R45). -/
def State.copyBusy (s : State) (clu line : Nat) : Bool :=
  (s.clu clu).cache.any (fun p => decide (p.1 = line) && bitOf (s.clu clu).busy p.2.way)

/-- The lines, each with a context, that a release at `scope` with some entries writes to their homes (10 R211). -/
def State.homeLines (s : State) (c scope : Nat) (es : List BufEntry) : List (Nat × Nat) :=
  if scope = 0 then []
  else
    let own := (es.filter (fun e => decide (2 ≤ scope) || !s.keepable c e)).map (fun e => (e.line, c)) ++
      (s.core (coreOf c)).shared.map (fun p => (p.2.line, p.1))
    own ++ ((s.clu (cluOf c)).throughs.filter (fun t => decide (2 ≤ scope) || own.any (fun p => s.sameHome p.1 t.line))).map (fun e =>
      (e.line, s.throughCtx (cluOf c) e.line))

/-- Whether a line that a release at `scope` must write, or must take into the cluster cache, is held back: its home holds it
(10 R226, R236), or a bank of the cluster that changes mode or a DRAM channel in training does (03 R45; 19 R446). -/
def State.heldBack (s : State) (c scope : Nat) (es : List BufEntry) : Bool :=
  (s.homeLines c scope es).any (fun p => s.lockedFor p.1 p.2) || es.any (fun e => s.lockedByOther e.line c) ||
    (decide (scope = 1) && (s.readsHeld (cluOf c) ((es.filter (fun e => s.keepable c e)).map (·.line)) ||
      es.any (fun e => s.keepable c e && s.copyBusy (cluOf c) e.line)))

/-- What a held release asks for: the WRITE events of its overflowed lines. -/
def State.askHeld (s : State) (c scope : Nat) (es : List BufEntry) : State :=
  s.askWrites (writerOf c) ((s.homeLines c scope es).map (·.1))

/-- Whether a WRITE event of some lines can be asked for now. -/
def State.askable (s : State) (lines : List Nat) : Bool :=
  lines.any (fun l => (s.dirAt l).ovf && !s.writeAsked l && decide ((s.clu (s.placeClu (l * 128))).dirq.length < 16))

/-- A buffer's oldest entry as it is written when its room is needed: to its place (10 R209). -/
def oldestOut (b : List BufItem) : List BufEntry := ((entriesAhead b).take 1).map (fun e => { e with keep := false })

/-- Write the release stores that stand before the next marker to the level of their scope (10 R219). -/
def State.writeReleased (s : State) (c : Nat) : State :=
  let due := (entriesAhead (s.ctx c).buf).filter (fun e => e.rel.isSome)
  due.foldl (fun s e =>
    let sc := (e.rel.getD 0).toNat
    if s.heldBack c sc [e] then s.askHeld c sc [e]
    else
      ((s.modCtx c (fun x => { x with buf := x.buf.erase (.entry e) })).cumulate c sc).levelWrite c sc { e with rel := none }) s

/-- The port entries of the engine that a context is bound to. -/
def State.portQueue (s : State) (c : Nat) : List VEntry :=
  if (s.ctx c).sta.bind = 1 then (s.port (coreOf c) (s.ctx c).sta.port.toNat).queue else []

/-- Whether an entry of a port is a vector load or store. -/
def VEntry.isMem (e : VEntry) : Bool :=
  match e.ins with | .vst _ _ _ _ _ | .vld _ _ _ _ _ => true | _ => false

/-- Whether vector loads or stores of a context wait in its port: a release orders them before what follows it, and waits for
them (08 R180; 11 R243). -/
def State.vstQueued (s : State) (c : Nat) : Bool := (s.portQueue c).any VEntry.isMem

/-- The markers of a buffer. -/
def markersIn (b : List BufItem) : Nat := (b.filter (fun i => match i with | .marker _ => true | _ => false)).length

/-- Whether a queued vector load or store stands before the first marker of a context's buffer: the marker waits for it (08
R180). -/
def State.vecAhead (s : State) (c : Nat) : Bool :=
  let n := markersIn (s.ctx c).buf
  (s.portQueue c).any (fun e => e.isMem && decide (n ≤ e.behind))

/-- Complete the first marker of a buffer, if there is one, no vector access stands before it, its lines are not held back, and
every acknowledgement of the thread's writes has come; the release stores behind it are then written (10 R210, R219, R236). -/
def State.markerDone (s : State) (c : Nat) : State :=
  let b := (s.ctx c).buf
  let es := entriesAhead b
  match (b.dropWhile (fun i => match i with | .marker _ => false | _ => true)) with
  | .marker sc :: rest =>
    if s.vecAhead c then s
    else if s.heldBack c sc.toNat es then s.askHeld c sc.toNat es
    else
      let s1 := (s.modCtx c (fun x => { x with buf := .marker sc :: rest })).cumulate c sc.toNat
      let s2 := es.foldl (fun s e => s.levelWrite c sc.toNat e) s1
      if s2.ackedAt c sc.toNat = false then s2
      else ((s2.modCtx c (fun x => { x with buf := rest })).sendReady c).writeReleased c
  | _ => s.writeReleased c

/-- The scope of the widest marker of a buffer, not below `scope`: a release completes no earlier than those before it. -/
def topScope (b : List BufItem) (scope : Nat) : Nat :=
  b.foldl (fun m i => match i with | .marker k => if m < k.toNat then k.toNat else m | _ => m) scope

/-- A release that the instruction waits for: every earlier marker completes, the entries reach the level of `scope`, and
the acknowledgements have come; otherwise the state so far, and false (10 R210, R211). -/
def State.release (s : State) (c scope : Nat) : State × Bool :=
  let es := entriesOf (s.ctx c).buf
  let top := topScope (s.ctx c).buf scope
  if s.vstQueued c then (s, false)
  else if s.heldBack c top es then (s.askHeld c top es, false)
  else
    let ms := (s.ctx c).buf.filterMap (fun i => match i with | .msg m => some m | _ => none)
    let s1 := (s.modCtx c (fun x => { x with buf := [] })).cumulate c top
    let s2 := es.foldl (fun s e => s.levelWrite c top e) s1
    let s3 := s2.launchMsgs ms
    (s3, s3.ackedAt c top)

/-- Place a release marker that the thread does not wait for (10 R210): behind what its port has queued. -/
def State.pushMarker (s : State) (c : Nat) (scope : BitVec 2) : State :=
  let s1 := if s.vstQueued c then
      s.modPort (coreOf c) (s.ctx c).sta.port.toNat (fun q => { q with queue := q.queue.map (fun e => { e with behind := e.behind + 1 }) })
    else s
  s1.modCtx c (fun x => { x with buf := x.buf ++ [.marker scope] })

/-- Write every entry of a context to its place, with what it may have read of its core and its cluster: what it has seen goes
with it (10 R214; 11 R240). No marker stands in the buffer then, or every release has been made by this write. -/
def State.drainAll (s : State) (c : Nat) : State :=
  let es := entriesOf (s.ctx c).buf
  let ms := (s.ctx c).buf.filterMap (fun i => match i with | .msg m => some m | _ => none)
  let s1 := s.cumulate c 2
  let s2 := es.foldl (fun s e => s.writeEntry c e) (s1.modCtx c (fun x => { x with buf := [] }))
  s2.launchMsgs ms

/-- The same, as the release at device scope that an exited thread's writes get (10 R214; 15 R343). -/
def State.publish (s : State) (c : Nat) : State := s.drainAll c

/-- Send a message, behind the thread's markers (11 R245). -/
def State.sendMsg (s : State) (c : Nat) (m : Msg) : State :=
  if hasMarker (s.ctx c).buf then s.modCtx c (fun x => { x with buf := x.buf ++ [.msg m] })
  else s.launchMsgs [m]

/-- A thread's identity (17 R413). -/
def Ctx.identity (x : Ctx) : Nat := x.block % 2 ^ 32 + x.startSlot % 16 * 2 ^ 32 + x.spawnNo % 2 ^ 12 * 2 ^ 36

/-- A new message with the phase tag of its sender's instant (02 R54). -/
def State.newMsg (s : State) (src dst : Nat) (b : MsgBody) : Msg :=
  { id := s.nextMsg, src := src, dst := dst, tag := s.phaseOf src, body := b, ident := (s.ctx src).identity }

/-- Create and send a message of a thread. -/
def State.post (s : State) (c dst : Nat) (b : MsgBody) : State :=
  ({ s with nextMsg := s.nextMsg + 1 }).sendMsg c (s.newMsg c dst b)

/-- Enter bytes of one line into a buffer, or fail when the store must wait (10 R209): merge with an entry of the line
that no marker stands behind, or take a free entry, writing the oldest to its place when all eight are taken; `more` entries
stand elsewhere. An entry that a core-scope release has made readable is one of the eight until it is written; DESIGN CHOICE:
no later store merges into it, because its bytes are readable (log 45). -/
def State.bufferLine (s : State) (c line : Nat) (bs : List (Nat × Byte)) (nt wc keep : Bool) (rel : Option (BitVec 2) := none)
    (more : Nat := 0) : Option State :=
  let x := s.ctx c
  let tail := (x.buf.reverse.takeWhile (fun i => match i with | .marker _ => false | _ => true)).reverse
  let front := x.buf.take (x.buf.length - tail.length)
  let merge (e : BufEntry) : BufEntry :=
    let e1 := bs.foldl (fun e b => e.put b.1 b.2) e
    { e1 with nt := e.nt || nt, wc := e.wc || wc, keep := e.keep && keep, rel := if rel.isSome then rel else e.rel }
  if tail.any (fun i => match i with | .entry e => decide (e.line = line) | _ => false) then
    some (s.setCtx c { x with buf := front ++ tail.map (fun i =>
      match i with | .entry e => if e.line = line then .entry (merge e) else .entry e | i => i) })
  else
    let inst := match s.domainOf c with
      | none => 0
      | some (_, d) => d.instant
    let fresh := merge { line := line, mask := 0, data := 0, instant := inst, keep := true }
    let n := (entriesOf x.buf).length
    let sh := ((s.core (coreOf c)).shared.filter (fun p => decide (p.1 = c))).length
    if n + sh + more < 8 then some (s.setCtx c { x with buf := x.buf ++ [.entry fresh] })
    else if 0 < sh ∧ n + more < 8 then
      if s.heldBack c 1 [] then none
      else some ((s.drainShared (coreOf c)).modCtx c (fun x => { x with buf := x.buf ++ [.entry fresh] }))
    else
      match entriesAhead x.buf with
      | [] => none
      | e :: _ =>
        if s.heldBack c 1 (oldestOut x.buf) then none
        else
          let s1 := (s.setCtx c { x with buf := x.buf.erase (.entry e) }).drainShared (coreOf c)
          some ((s1.writeEntry c e).modCtx c (fun x => { x with buf := x.buf ++ [.entry fresh] }))

/-! ## Operations at a place: the thread's own bytes first (10 R216) -/

/-- What an operation at the place of some lines writes there first: the cluster's begun write-throughs to their home slices (03
R53), the core's readable entries and the thread's own entries of them. -/
def State.flushing (s : State) (c : Nat) (lines : List Nat) : List (Nat × Nat) × List (Nat × BufEntry) × List BufEntry :=
  ((((s.clu (cluOf c)).throughs.map (·.line)).filter (fun l => lines.any (fun m => s.sameHome m l))).map (fun l =>
    (l, s.throughCtx (cluOf c) l)),
   (s.core (coreOf c)).shared.filter (fun p => decide (p.2.line ∈ lines)),
   (entriesAhead (s.ctx c).buf).filter (fun e => decide (e.line ∈ lines)))

/-- The lines of these writes, each with its writer. -/
def State.flushHeld (s : State) (c : Nat) (lines : List Nat) : List (Nat × Nat) :=
  let f := s.flushing c lines
  f.1 ++ f.2.1.map (fun p => (p.2.line, p.1)) ++ f.2.2.map (fun e => (e.line, c))

/-- Write the thread's own bytes of some lines to their places, with what its cluster and core hold of them; none while a
release marker stands before them, or while a line that must be written is held back (10 R216, R226, R236). -/
def State.flushLines (s : State) (c : Nat) (lines : List Nat) : Option State :=
  let b := (s.ctx c).buf
  let hit (e : BufEntry) : Bool := decide (e.line ∈ lines)
  let f := s.flushing c lines
  if (entriesOf (b.dropWhile (fun i => match i with | .marker _ => false | _ => true))).any hit then none
  else if (s.flushHeld c lines).any (fun p => s.lockedFor p.1 p.2) then none
  else
    let s2 := if f.1.isEmpty then s else s.throughsHome (cluOf c) (fun l => f.1.any (fun p => decide (p.1 = l)))
    let s3 := f.2.1.foldl (fun s p => s.writeEntry p.1 p.2)
      (s2.modCore (coreOf c) (fun k => { k with shared := k.shared.filter (fun p => !decide (p ∈ f.2.1)) }))
    some (f.2.2.foldl (fun s e => s.writeEntry c e)
      (s3.modCtx c (fun x => { x with buf := x.buf.filter (fun i => match i with | .entry e => !hit e | _ => true) })))

/-- What an operation whose lines are held back asks for. -/
def State.askFlush (s : State) (c : Nat) (lines : List Nat) : State := s.askWrites (writerOf c) ((s.flushHeld c lines).map (·.1))

/-- Enter the bytes of a store into a context's buffer, line by line; the lines `na` are not to be kept. -/
def State.bufferBytes (s : State) (c : Nat) (bs : List (Nat × Byte)) (nt wc keep : Bool) (rel : Option (BitVec 2) := none)
    (more : Nat := 0) (na : List Nat := []) : Option State :=
  (linesOf (bs.map (·.1))).foldl (fun o l =>
    match o with
    | none => none
    | some s => s.bufferLine c l (bs.filter (fun b => decide (lineOf b.1 = l))) nt wc (keep && !decide (l ∈ na)) rel more) (some s)

/-! ## What a load returns (10 R209, R219; 11 R240) -/

/-- The newest own buffered byte at a location. -/
def ownByte (b : List BufItem) (l : Nat) : Option Byte :=
  b.foldl (fun acc i => match i with
    | .entry e => (match e.byteAt l with | some v => some v | none => acc)
    | _ => acc) none

/-- The newest core-readable byte at a location. -/
def sharedByte (sh : List (Nat × BufEntry)) (l : Nat) : Option Byte :=
  sh.foldl (fun acc p => match p.2.byteAt l with | some v => some v | none => acc) none

/-- The byte of a cluster's cached copy of the line, if it has one. -/
def State.cachedByte (s : State) (clu l : Nat) : Option Byte :=
  ((s.clu clu).cache.find? (fun p => decide (p.1 = lineOf l))).map (fun p => lineByte p.2.data (l % 128))

/-- The byte of a line that a speculative iteration has tagged (15 R358). -/
def State.taggedByte (s : State) (c l : Nat) : Option Byte :=
  ((s.clu (cluOf c)).spec.find? (fun t => decide (t.ctx = c ∧ t.line = lineOf l) && bitOf t.mask (l % 128))).map
    (fun t => lineByte t.data (l % 128))

/-- What a load of one byte returns: own buffer, own tagged bytes, the core's readable entries, the cluster's copy, else the
home. -/
def State.viewByte (s : State) (c l : Nat) : Byte :=
  (((ownByte (s.ctx c).buf l).or (s.taggedByte c l)).or (sharedByte (s.core (coreOf c)).shared l)).getD
    ((s.cachedByte (cluOf c) l).getD (s.homeByte (cluOf c) l))

/-- A read of a line by a cluster: one that misses is recorded at its home in device DRAM (10 R236), and the cluster takes a
clean copy where it may keep it (03 R42, R47). -/
def State.fillLine (s : State) (clu line : Nat) (keep : Bool) : State :=
  if isSram (line * 128) then s
  else if (s.clu clu).cache.any (fun p => decide (p.1 = line)) then s.touchLine clu line
  else
    let s := s.tileSeen clu [line]
    let s1 := s.recordSharer line clu
    if !keep || !(s.clu clu).hasCache then s1 else (s1.keepLine clu line (s1.homeLine clu line) false).2

/-- Drop a cluster's clean copy of a line; one with a write-through outstanding is kept (10 R211). -/
def State.evictLine (s : State) (clu line : Nat) : State :=
  if (s.clu clu).cache.any (fun p => decide (p.1 = line) && !p.2.through) then
    s.modClu clu (fun u => { u with cache := u.cache.filter (fun p => decide (p.1 ≠ line)) })
  else s

/-- The bytes of an ordinary store of the baton holder take the place of bytes it has tagged (15 R358). -/
def State.untagBytes (s : State) (c : Nat) (ls : List Nat) : State :=
  if (s.clu (cluOf c)).spec.isEmpty then s
  else
    let cut (t : SpecLine) : SpecLine :=
      if t.ctx = c then { t with mask := ls.foldl (fun m l =>
        if lineOf l = t.line then m &&& ~~~((1#128) <<< (l % 128)) else m) t.mask } else t
    s.modClu (cluOf c) (fun k => { k with spec := k.spec.map cut })

/-- The lines that a load of some locations reads from the cluster's copies or from their homes: those of the bytes that no
buffer nearer to the thread supplies. -/
def State.fetched (s : State) (c : Nat) (ls : List Nat) : List Nat :=
  linesOf (ls.filter (fun l =>
    (((ownByte (s.ctx c).buf l).or (s.taggedByte c l)).or (sharedByte (s.core (coreOf c)).shared l)).isNone))

/-- Whether a read reply of some lines carries the mark of a tile store: the cluster misses one that has it (11 R252). -/
def State.tileReply (s : State) (clu : Nat) (lines : List Nat) : Bool :=
  lines.any (fun l => hasNat s.tiles l && !(s.clu clu).cache.any (fun p => decide (p.1 = l)))

/-- The granules of some locations whose errors the device can correct: the access that meets them corrects each, and the
management controller counts it (17 R408). -/
def State.correct (s : State) (ls : List Nat) : State :=
  if s.soft.isEmpty then s
  else
    let met := s.soft.filter (fun g => ls.any (fun l => decide (l / 16 = g)))
    ({ s with soft := s.soft.filter (fun g => !decide (g ∈ met)) } : State).modPkg (fun p => { p with corrected := p.corrected + met.length })

/-- The reply of an operation at the place of some locations of a line reaches a cluster: errors that the device can correct are
corrected; a line that carries a tile's mark makes the cluster apply its inbox (11 R252); its copy is brought up to date (10
R216). -/
def State.placeReply (s : State) (clu line : Nat) (ls : List Nat) : State :=
  ((s.correct ls).tileSeen clu [line] true).refreshCopy clu line

/-- The machine as a load of some locations finds it: the cluster has applied its inbox if a reply carries a tile's mark
(11 R252), and may have applied it by itself (10 R213; log 6). -/
def State.freshen (s : State) (c : Nat) (ls : List Nat) : State :=
  let (early, s0) := s.draw
  if early || s0.tileReply (cluOf c) (s0.fetched c ls) then s0.applyInbox (cluOf c) else s0

/-- A load of some locations by a context: the bytes, and the state with the copies the cluster took, of the lines `na` none. -/
def State.loadBytes (s : State) (c : Nat) (ls : List Nat) (keep : Bool) (na : List Nat := []) : List Byte × State :=
  let s1 := (s.freshen c ls).correct (ls.filter (fun l => decide (lineOf l ∈ s.fetched c ls) && (s.cachedByte (cluOf c) l).isNone))
  (ls.map (fun l => s1.viewByte c l), (s1.fetched c ls).foldl (fun s l => s.fillLine (cluOf c) l (keep && !decide (l ∈ na))) s1)

end Sys2Proof.Machine
end

