-- ==== Sys2Proof/Machine/Operands.lean ====
section
/-! DEFINITION. Sys2Proof/Machine/Operands.lean: operand forms, the order of checks, the checks of an access, how an
instruction ends (it completes, jumps, faults, waits or moves its thread), and how a reply is taken. -/

namespace Sys2Proof.Machine

/-! ## Immediates (05 R68, R78, R79) -/

/-- An immediate operand: the field sign-extended, or the literal. -/
def immW {n : Nat} : Imm n → Word
  | .short v => v.signExtend 64
  | .lit v => v

/-- A displacement: the field sign-extended and scaled, or the literal in bytes. -/
def dispW {n : Nat} (scale : Nat) : Imm n → Word
  | .short v => v.signExtend 64 * BitVec.ofNat 64 scale
  | .lit v => v

/-- Bytes of a one-word instruction with an immediate: 4, or 12 with a literal. -/
def immLen {n : Nat} : Imm n → Nat
  | .short _ => 4
  | .lit _ => 12

/-- Bytes of a form X instruction with an immediate: 12, or 20 with a literal. -/
def immLenX {n : Nat} : Imm n → Nat
  | .short _ => 12
  | .lit _ => 20

/-- The instruction at a context's pc, or the fault of rows 1 to 3 of 05 R82. -/
def State.nextInstr (s : State) (c : Nat) : Except Exc Instr :=
  match s.fetch c (s.ctx c).pc with
  | .error (p, k) => .error { code := Cause.fetchFault, addr := p, info := k.setWidth 64 }
  | .ok ws =>
    match decode ws with
    | .ok i => .ok i
    | .error .illegalOpcode => .error { code := Cause.illegalOpcode }
    | .error .reservedBits => .error { code := Cause.reservedBits }
    | .error .truncated => .error { code := Cause.illegalOpcode }

/-! ## How an instruction ends -/

/-- The outcome of an instruction's own rules. -/
inductive Res where
  /-- It completes; the pc moves to the next sequential instruction. -/
  | done (s : State)
  /-- It completes and transfers control (kind of 17 R413). -/
  | jump (s : State) (pc : Word) (kind : Nat)
  /-- It faults before any effect. -/
  | fault (e : Exc)
  /-- It completes and then traps (17 R391). -/
  | trap (s : State) (e : Exc)
  /-- The context is BLOCKED; the instruction issues again or is answered (02 R32). -/
  | wait (s : State) (w : Why)
  /-- The thread moves to another core before the access (02 R34). -/
  | move (core : Nat)
  /-- The instruction has said everything itself: no next instruction in this slot. -/
  | stay (s : State)

/-- A fault with a pointer. -/
def Res.bad (c : Cause) (addr : Word := 0) (info : Word := 0) : Res := .fault { code := c, addr := addr, info := info }

/-- What stops an access. -/
inductive Stop where
  | exc (e : Exc)
  | hold (w : Why)
  | move (core : Nat)
  /-- The access has become something else's business: a request to a peer, or the wait for it. -/
  | ends (r : Res)

/-- A stopped access as an outcome. -/
def Stop.res (s : State) : Stop → Res
  | .exc e => .fault e
  | .hold w => .wait s w
  | .move k => .move k
  | .ends r => r

/-- The rows of 05 R82 that an instruction is subject to beside decoding, and whether it runs while its thread is
speculative (15 R358). -/
structure Gate where
  priv : Bool := false
  fmt : Bool := false
  vec : Bool := false
  mat : Bool := false
  specOk : Bool := false

/-- The trap that a context still owes is taken, where it stands with the IH with which it was owed (17 R399). -/
def State.payTrap (s : State) (c : Nat) : State :=
  match (s.ctx c).dueTrap with
  | none => s
  | some (e, ih) =>
    if (s.ctx c).ih = ih then (s.modCtx c (fun x => { x with dueTrap := none })).enter c 1 (s.ctx c).pc e else s

/-- Complete an instruction at `pc`; `old` is the context before it. SINGLE_STEP traps while SS = 1 in user mode (17 R399). DESIGN CHOICE: a `TRAP` takes two traps at
one boundary, and a nested entry would overwrite what the first saved; its SINGLE_STEP is taken when the handler of its
SOFTWARE_TRAP has returned (log 63). -/
def State.complete (s : State) (c : Nat) (old : Ctx) (pc : Word) : State :=
  let s1 := s.modCtx c (fun x => { x with pc := pc })
  if old.sta.ss && !old.sta.sup then s1.enter c 1 pc { code := Cause.singleStep } else if old.dueTrap.isNone then s1 else s1.payTrap c

/-- Block a context on a wait (02 R32). -/
def State.block (s : State) (c : Nat) (w : Why) (len : Nat) : State :=
  s.modCtx c (fun x => { x with slot := .blocked, wait := some { why := w, len := len } })

/-- The first granule in error at or after a pointer's byte becomes poison: the access that faulted has met it
(17 R409). -/
def State.meetEcc (s : State) (c : Nat) (ptr : Word) : State :=
  if s.ecc.isEmpty then s
  else
    let w := s.who c
    let at_ (o : Obj) : List Nat := match o with
      | .scratch off => spanAll (s.scratchSegs w.clu off 1)
      | .table e off => (match s.xlate w.clu w.part (decide (e.space = 2)) true 0 (e.base + off) with
        | .ok l => [l]
        | .error _ => [])
      | .window _ => []
      | .signals _ => []
    let ls := (List.range 64).flatMap (fun i => match s.resolve { w with sup := true } (ptr + BitVec.ofNat 64 i) 1 0 with
      | .ok o => at_ o
      | .error _ => [])
    match (ls.map (· / 16)).find? (fun g => hasNat s.ecc g) with
    | none => s
    | some g => { s with ecc := delNat s.ecc g, poison := addNat s.poison g }

/-- Take a fault. A speculative thread holds it until it has the baton; it is then delivered (15 R358). -/
def State.takeFault (s : State) (c : Nat) (e : Exc) : State :=
  if (s.ctx c).spec.isSome && !s.holdsBaton c then (s.block c .baton 4).modCtx c (fun x => { x with heldFault := some e })
  else
    let s1 := if (s.ctx c).vpart.isSome ∨ (s.ctx c).hops.isSome then s.modCtx c (fun x => { x with vpart := none, hops := none }) else s
    let ecc := e.code = Cause.eccUncorrectable ∨ (e.code = Cause.fetchFault ∧ e.info = Cause.eccUncorrectable.setWidth 64)
    (if ecc then s1.meetEcc c e.addr else s1).enter c 0 (s.ctx c).pc e

/-! ## Receive channels (15 R346, R348) -/

/-- Channel `c` of a core. -/
def State.chan (s : State) (c : Nat) : Chan := SMap.at {} (s.core (coreOf c)).chans (slotOf c)

/-- Change a channel. -/
def State.modChan (s : State) (c : Nat) (f : Chan → Chan) : State :=
  s.modCore (coreOf c) (fun k => { k with chans := SMap.put k.chans (slotOf c) (f (SMap.at {} k.chans (slotOf c))) })

/-- Give a waiting sender its answer: the word that waited is sent, or the stream is open. -/
def State.admitMsg (s : State) (m : Msg) : State :=
  match m.body with
  | .word _ _ => (s.sendMsg m.src m).giveReply m.src {}
  | .openS n d => (s.modChan m.dst (fun h => { h with stream := some m.src })).giveReply m.src { writes := [(d, BitVec.ofNat 64 n)] }
  | _ => s

/-- Whether a message is the opening of a stream. -/
def Msg.opens (m : Msg) : Bool :=
  match m.body with
  | .openS _ _ => true
  | _ => false

/-- Empty the channel of a slot: its words and its wake go, and the words that wait for it leave and arrive at nothing (15 R346). A
stream that is open to it keeps its route, and the openings that wait for the route keep waiting: without a stream, the first of
them takes it (15 R348). -/
def State.emptyChan (s : State) (c : Nat) : State :=
  let h := s.chan c
  let opens := h.waiting.filter Msg.opens
  let first := if h.stream.isNone then opens.take 1 else []
  let h1 : Chan := { stream := h.stream, waiting := opens.drop first.length }
  let s1 := s.modCore (coreOf c) (fun k =>
    { k with chans := if h1 = {} then SMap.del k.chans (slotOf c) else SMap.put k.chans (slotOf c) h1 })
  (h.waiting.filter (fun m => !m.opens) ++ first).foldl (fun s m => s.admitMsg m) s1

/-- The record of a slot that no thread holds: FREE, or RESERVED for the directory service context (02 R26). The slot keeps
the cycle of its last issue, from which the next thread's distance counts (02 R30). -/
def Ctx.vacant (x : Ctx) (c : Nat) : Ctx :=
  { slot := if c % 64 = 15 then .reserved else .free, part := x.part, lastIssue := x.lastIssue }

/-- A thread's images leave for a core: its releases have completed, its entries and messages are out, and its slot becomes
FREE with its channel emptied (15 R346, R354; 11 R245). While a marker or a line of its buffer holds it back it stays
BLOCKED. -/
def State.depart (s : State) (c tgt : Nat) : State :=
  let es := entriesOf (s.ctx c).buf
  if hasMarker (s.ctx c).buf then s.block c (.migrate tgt) 4
  else if s.heldBack c 2 es then (s.askHeld c 2 es).block c (.migrate tgt) 4
  else
    let s1 := s.drainAll c
    if s1.net.any (fun m => decide (m.src = c)) then s1.block c (.migrate tgt) 4 else
    let x := s1.ctx c
    let m := s1.newMsg c (16 * tgt) .migrate
    let y : Ctx := { x with slot := .blocked, wait := none, resv := none }
    let s2 : State := { s1 with nextMsg := s1.nextMsg + 1, net := s1.net ++ [m], moving := SMap.put s1.moving m.id y }
    (s2.setCtx c (x.vacant c)).emptyChan c

/-- What an instruction's outcome makes of the machine. -/
def State.finish (s : State) (c len : Nat) (r : Res) : State :=
  let x := s.ctx c
  match r with
  | .done s1 => s1.complete c x (x.pc + BitVec.ofNat 64 len)
  | .jump s1 pc kind => (s1.branchTrace c kind x.pc pc).complete c x pc
  | .fault e => s.takeFault c e
  | .trap s1 e =>
    let due := if x.sta.ss && !x.sta.sup then some (({ code := Cause.singleStep } : Exc), x.ih) else x.dueTrap
    (s1.modCtx c (fun y => { y with pc := x.pc + BitVec.ofNat 64 len, dueTrap := due })).enter c 1 (x.pc + BitVec.ofNat 64 len) e
  | .wait s1 w => s1.block c w len
  | .move k => s.depart c k
  | .stay s1 => s1

/-- An instruction of the running context: rows 4 to 6 of 05 R82, the wait of a speculative thread for its baton, then
the instruction's own rules. -/
def State.run (s : State) (g : Gate) (len : Nat) (body : State → Res) : State :=
  let x := s.ctx s.cur
  if g.priv && !x.sta.sup then s.takeFault s.cur { code := Cause.privileged }
  else if x.sta.pp && !g.fmt then s.takeFault s.cur { code := Cause.prefixOrphan }
  else if (g.vec && decide (x.sta.bind ≠ 1)) || (g.mat && decide (x.sta.bind ≠ 2)) then
    s.takeFault s.cur { code := Cause.noBinding }
  else if x.spec.isSome && !g.specOk && !s.holdsBaton s.cur then s.block s.cur .baton len
  else s.finish s.cur len (body s)

/-- The outcome of a device step: it always leaves a next state. -/
def goes (s : State) : Host.Outcome State Fault Refusal := .next s

/-- Take the reply of a waiting context (02 R32): registers and flags are written together and the instruction completes,
or it faults, or it issues again; the context issues from the cycle after. -/
def State.takeReply (s : State) (c : Nat) : State :=
  let x := s.ctx c
  match x.wait with
  | none => s
  | some w =>
    match w.reply with
    | none => s
    | some r =>
      let y : Ctx := { x with slot := .ready, wait := none, readyFrom := s.acycle x.part + 1 }
      match r.exc with
      | some e => (s.setCtx c y).takeFault c e
      | none =>
        if r.again then s.setCtx c y
        else
          let z := ({ y with traced := x.traced.filter (fun t => decide (t.2 ≠ x.ih)) }.setRegs r.writes).raise r.flags
          let z := match r.tagged with
            | none => z
            | some (d, t) => z.setTag d t
          let s1 := s.setCtx c z
          let s2 := if r.acq then s1.applyInbox (cluOf c) else s1
          s2.complete c x (r.pc.getD (x.pc + BitVec.ofNat 64 w.len))

/-! ## Accesses (10 R217; 15 R339; 12 R260) -/

/-- What an access may reach, beyond R41 (10 R215). -/
inductive Reach where
  /-- Loads and stores. -/
  | plain
  /-- Atomics. -/
  | atomic
  /-- `LDFE`, `STFE`, `WAITRS`: not on HOST. -/
  | fe
  /-- `RED`, `XSRD`: XCELL, scratchpad or PEER. -/
  | cell
  /-- `LDC`, `STC`: DRAM or scratchpad. -/
  | cap
  /-- Sync words: scratchpad. -/
  | sync
deriving DecidableEq, Repr

/-- Where an access goes once it is checked: `keep` when its lines may be kept in the cluster cache (03 R42). -/
inductive Tgt where
  | mem (segs : List (Nat × Nat)) (keep : Bool) (space : Nat)
  | window (off : Nat)
  | signals (off : Nat)
  | grid (e : HEntry) (off : Nat)
  | peer (e : HEntry) (off : Nat)

/-- Whether 10 R215 refuses the object. Space codes: 1 DRAM, 2 HOST, 3 GRID, 4 XCELL, 5 PEER. -/
def Reach.refuses (r : Reach) (o : Obj) : Bool :=
  match r, o with
  | .plain, _ => false
  | .sync, .scratch _ => false
  | .sync, _ => true
  | _, .scratch _ => false
  | _, .window _ => true
  | _, .signals _ => true
  | .atomic, .table e _ => decide (e.space = 3)
  | .fe, .table e _ => decide (e.space = 3) || decide (e.space = 2)
  | .cell, .table e _ => decide (e.space ≠ 4) && decide (e.space ≠ 5)
  | .cap, .table e _ => decide (e.space ≠ 1)

/-- Whether a launch's footprint covers a range (15 R339). A list of count 0 declares every byte (15 R332). -/
def footCovers (foot : List FootRange) (va n : Nat) (wr : Bool) : Bool :=
  foot.isEmpty || (span va n).all (fun a => foot.any (fun f =>
    decide (f.space ≠ 0) && decide (f.va ≤ a) && decide (a < f.va + f.len) && (f.wr || (!wr && f.rd))))

/-- The footprint of a context's launch. -/
def State.footOf (s : State) (c : Nat) : List FootRange :=
  match (s.ctx c).launch with
  | none => []
  | some l => (s.launch l).foot

/-- Whether a location lies in a bank that is held for a save record of a thread of a launch other than this one (17 R405). -/
def State.keptFrom (s : State) (launch : Option Nat) (l : Nat) : Bool :=
  isSram l && (s.clu ((l - sramBase) / 2 ^ 21)).bankHeld.any (fun h =>
    decide (h.bank = (l - sramBase) / 2 ^ 16 % 32) && decide (h.launch ≠ launch))

/-- The same for the accessing thread. -/
def State.bankKept (s : State) (c l : Nat) : Bool := s.keptFrom (s.ctx c).launch l

/-- The locations of `n` bytes from a virtual address, page by page; a byte that maps nowhere has a number above every
location. -/
def State.pagesOf (s : State) (clu p : Nat) (host : Bool) : Nat → Nat → Nat → List Nat
  | 0, _, _ => []
  | fuel + 1, va, n =>
    let k := min n (2 ^ 16 - va % 2 ^ 16)
    let at_ := match s.xlate clu p host true 0 va with
      | .ok l => l
      | .error _ => 2 ^ 80 + va
    span at_ k ++ (if n ≤ k then [] else State.pagesOf s clu p host fuel (va + k) (n - k))

/-- The locations of a bound range, in order. -/
def State.waterLocs (s : State) (w : Water) : List Nat :=
  match w.virt with
  | none => spanAll w.segs
  | some (host, va) => s.pagesOf w.unit w.part host (w.len / 2 ^ 16 + 2) va w.len

/-- Whether an access to some locations is held on a watermark channel (12 R260). -/
def State.waterStops (s : State) (w : Water) (ls : List Nat) : Bool :=
  ((s.waterLocs w).zip (List.range w.len)).any (fun q => decide (w.w ≤ q.2) && decide (q.1 ∈ ls))

/-- What holds an access back, if anything does: a bank that is changing mode (03 R45), a DRAM channel in training (19 R446),
or a watermark channel (12 R260). -/
def State.waterHold (s : State) (p : Nat) (ls : List Nat) : Option Why :=
  match ls.find? (fun l => s.bankBusy l || s.channelBusy l) with
  | some l => some (.place l)
  | none => (s.waters.find? (fun w => decide (w.part = p) && s.waterStops w ls)).map (fun w => .watermark w.pk ls)

/-- Whether some locations overlap a queued vector access of a context (08 R180). -/
def State.vecBusy (s : State) (c : Nat) (ls : List Nat) : Bool :=
  (s.portQueue c).any (fun e => e.segs.any (fun g => g.2.any (fun l => decide (l ∈ ls))))

/-- Whether a COURIER thread moves for an access instead of performing it (02 R34; 14 R297; 15 R346). -/
def State.courier (s : State) (c : Nat) : Bool :=
  let x := s.ctx c
  decide (x.sta.bind = 3) && !x.owner && !((s.core (coreOf c)).streams.any (fun p => decide (p.2.1 = c)))
    && x.dslots.all (fun d => decide (d.2 = 0)) && x.regions.isEmpty && !x.sta.spec

/-- Whether lines of a handle may be kept in the cluster cache (03 R42): under ALLOC and COHERENT, and for HOST under STREAM
too, which acts as COHERENT there. -/
def HEntry.keeps (e : HEntry) : Bool :=
  decide (e.policy = 0) || decide (e.policy = 3) || (decide (e.space = 2) && decide (e.policy = 1))

/-- The core to which a COURIER thread moves for an access to some segments, if it moves (02 R34). DESIGN CHOICE: where a
misaligned access lies in two lines with different home channels, the first byte's line decides (log 52); no thread moves to a
core of a retired cluster, and the access is performed where the thread stands (19 R447; log 64). -/
def State.courierTo (s : State) (c : Nat) (segs : List (Nat × Nat)) : Option Nat :=
  let l := (segs.headD (0, 0)).1
  let home := homeCore (s.part (s.ctx c).part) (l % 2 ^ 40)
  if s.courier c && isDram l && decide (home ≠ coreOf c) && !(s.clu (home / 4)).retired then some home else none

/-- The byte that an operation at a place writes there first: the thread's own, its core's or its cluster's (10 R216). -/
def State.firstByte (s : State) (c l : Nat) : Option Byte :=
  ((ownByte (s.ctx c).buf l).or (sharedByte (s.core (coreOf c)).shared l)).or
    ((s.clu (cluOf c)).throughs.findSome? (fun e => e.byteAt l))

/-- Whether a byte comes from its place for a context: for a load, neither a buffer nearer to the thread nor the cluster's copy
holds the byte; for an operation at the place, the byte's whole granule is not written first (10 R209, R216, R219; 17 R409). -/
def State.fromPlace (s : State) (c : Nat) (own : Bool) (l : Nat) : Bool :=
  if own then decide (lineOf l ∈ s.fetched c [l]) && (s.cachedByte (cluOf c) l).isNone
  else !(span (l / 16 * 16) 16).all (fun k => (s.firstByte c k).isSome)

/-- The last checks of an access whose bytes are known: what holds it back, and, for one that consumes them, errors met at the
place (`own`: a load, which takes bytes from its own buffer). -/
def State.reachMem (s : State) (c : Nat) (ptr : Word) (segs : List (Nat × Nat)) (keep : Bool) (space : Nat) (rd own : Bool) :
    Except Stop Tgt :=
  let ls := spanAll segs
  if s.vecBusy c ls then .error (.hold .drain)
  else if own && rd && (linesOf ls).any (fun l => s.copyBusy (cluOf c) l) then .error (.hold (.place (ls.headD 0)))
  else
    match s.waterHold (s.ctx c).part ls with
    | some k => .error (.hold k)
    | none =>
      match ls.find? (s.bankKept c) with
      | some l => .error (.hold (.bank l))
      | none =>
        match (if rd then s.errAt (ls.filter (s.fromPlace c own)) else none) with
        | some k => .error (.exc { code := k, addr := ptr })
        | none => .ok (.mem segs keep space)

/-- An access through a GRID handle to its 128 bytes in DRAM, once `State.access` has passed it that far: the footprint,
translation, and what holds it (10 R217; 13 R272). -/
def State.gridMem (s : State) (c : Nat) (ptr : Word) (e : HEntry) (off size need : Nat) (wr rd : Bool) : Except Stop Tgt :=
  let w := s.who c
  if !footCovers (s.footOf c) (e.base + off) size wr then .error (.exc { code := Cause.footprintViolation, addr := ptr })
  else
    match s.xlateRange w.clu w.part false w.sup need (e.base + off) size with
    | .error k => .error (.exc { code := k, addr := ptr })
    | .ok segs =>
      match s.courierTo c segs with
      | some k => .error (.move k)
      | none => s.reachMem c ptr segs e.keeps 3 rd true

/-- The checks of an access in the order of 10 R217, and where it goes. `al` is the alignment required; `wr` whether it
counts as a write for the footprint; `rd` whether it consumes the data. -/
def State.access (s : State) (c : Nat) (ptr : Word) (size need al : Nat) (r : Reach) (wr rd : Bool) : Except Stop Tgt :=
  let w := s.who c
  match s.resolve w ptr size need with
  | .error e => .error (.exc e)
  | .ok o =>
    if ptr.toNat % al ≠ 0 then .error (.exc { code := Cause.misaligned, addr := ptr })
    else if r.refuses o then .error (.exc { code := Cause.atomicUnsupported, addr := ptr })
    else
      let own := decide (r = .plain)
      match o with
      | .scratch off => s.reachMem c ptr (s.scratchSegs w.clu off size) false 0 rd own
      | .window off => .ok (.window off)
      | .signals off => .ok (.signals off)
      | .table e off =>
        if e.space = 3 then .ok (.grid e off)
        else if e.space = 5 then .ok (.peer e off)
        else
          let va := e.base + off
          if !footCovers (s.footOf c) va size wr then
            .error (.exc { code := Cause.footprintViolation, addr := ptr })
          else
            match s.xlateRange w.clu w.part (decide (e.space = 2)) w.sup need va size with
            | .error k => .error (.exc { code := k, addr := ptr })
            | .ok segs =>
              match s.courierTo c segs with
              | some k => .error (.move k)
              | none => s.reachMem c ptr segs e.keeps e.space rd own

end Sys2Proof.Machine
end

