-- ==== Sys2Proof/Machine/Flags.lean ====
section
/-! DEFINITION. Sys2Proof/Machine/Flags.lean: number formats, exact values, the one rounding helper and the flags it
raises, conversions, the scalar float operations, grouped codes and the exact sum cell (06 R100 to R114). -/

namespace Sys2Proof.Machine

/-! ## Flags (06 R109) -/

/-- Invalid. -/
def fNV : BitVec 5 := 0x10
/-- Division by zero or a pole. -/
def fDZ : BitVec 5 := 0x08
/-- Overflow. -/
def fOF : BitVec 5 := 0x04
/-- Tiny and inexact. -/
def fUF : BitVec 5 := 0x02
/-- Inexact. -/
def fNX : BitVec 5 := 0x01

/-! ## Formats (06 R100, R103; 05 R84) -/

/-- A binary interchange format: exponent bits and fraction bits. -/
structure FFmt where
  eb : Nat
  fb : Nat
deriving DecidableEq, Repr

/-- f64. -/
def fF64 : FFmt := ⟨11, 52⟩
/-- f32. -/
def fF32 : FFmt := ⟨8, 23⟩
/-- f16. -/
def fF16 : FFmt := ⟨5, 10⟩
/-- bf16. -/
def fBf16 : FFmt := ⟨8, 7⟩

/-- The format of an FFF field (07 R143). -/
def fffFmt (f : Nat) : FFmt := if f = 0 then fF64 else if f = 1 then fF32 else if f = 2 then fF16 else fBf16

/-- The float format of a code, 0x09 to 0x0C (05 R84). -/
def codeFmt (k : Nat) : FFmt := if k = 9 then fF16 else if k = 10 then fBf16 else if k = 11 then fF32 else fF64

/-- Whether a code is a float format. -/
def isFloatCode (k : Nat) : Bool := decide (9 ≤ k) && decide (k ≤ 12)

/-- Bits of an integer code: i8 0x01 to n64 0x08, i4 0x0F, n4 0x10. -/
def intBits (k : Nat) : Nat := if k = 0x0F ∨ k = 0x10 then 4 else 8 * 2 ^ ((k - 1) / 2)

/-- Whether an integer code is signed. -/
def isSigned (k : Nat) : Bool := decide (k % 2 = 1)

/-- Bits of an element of a code (05 R84); grouped codes have 4 or 8. -/
def codeBits (k : Nat) : Nat :=
  if isFloatCode k then (codeFmt k).eb + (codeFmt k).fb + 1
  else if k = 0x0D then 4 else if k = 0x0E then 8 else if k = 0x11 then 512 else intBits k

/-- Bits of a float format. -/
def FFmt.width (f : FFmt) : Nat := f.eb + f.fb + 1
/-- The exponent bias. -/
def FFmt.bias (f : FFmt) : Nat := 2 ^ (f.eb - 1) - 1
/-- The canonical NaN (06 R104). -/
def FFmt.qnan (f : FFmt) : Nat := (2 ^ f.eb - 1) * 2 ^ f.fb + 2 ^ (f.fb - 1)
/-- An infinity. -/
def FFmt.inf (f : FFmt) (neg : Bool) : Nat := (2 ^ f.eb - 1) * 2 ^ f.fb + neg.toNat * 2 ^ (f.eb + f.fb)
/-- The largest finite magnitude, signed. -/
def FFmt.largest (f : FFmt) (neg : Bool) : Nat := (2 ^ f.eb - 1) * 2 ^ f.fb - 1 + neg.toNat * 2 ^ (f.eb + f.fb)
/-- A zero. -/
def FFmt.zero (f : FFmt) (neg : Bool) : Nat := neg.toNat * 2 ^ (f.eb + f.fb)
/-- The exponent of the last place of a subnormal. -/
def FFmt.qmin (f : FFmt) : Int := 1 - (f.bias : Int) - f.fb

/-- An exact value: m times 2^e, or, with `sticky`, a value strictly between m and m + 1 times 2^e. -/
inductive FVal where
  | nan
  | inf (neg : Bool)
  | fin (neg : Bool) (m : Nat) (e : Int) (sticky : Bool)
deriving DecidableEq, Repr

/-- The value of a float's bits (06 R103, R104). -/
def FFmt.value (f : FFmt) (w : Nat) : FVal :=
  let w := w % 2 ^ f.width
  let neg := decide (w / 2 ^ (f.eb + f.fb) = 1)
  let ex := w / 2 ^ f.fb % 2 ^ f.eb
  let fr := w % 2 ^ f.fb
  if ex = 2 ^ f.eb - 1 then (if fr = 0 then .inf neg else .nan)
  else if ex = 0 then .fin neg fr f.qmin false
  else .fin neg (2 ^ f.fb + fr) (f.qmin + ((ex : Int) - 1)) false

/-- An integer as an exact value. -/
def FVal.ofInt (i : Int) : FVal := .fin (decide (i < 0)) i.natAbs 0 false

/-- Two's complement of `w` bits. -/
def signedOf (w n : Nat) : Int := if n % 2 ^ w < 2 ^ (w - 1) then (n % 2 ^ w : Int) else (n % 2 ^ w : Int) - 2 ^ w

/-- An integer's low `w` bits. -/
def wrapTo (w : Nat) (i : Int) : Nat := (i % (2 ^ w : Int)).toNat

/-- The integer that bits of an integer code stand for. -/
def intValue (k n : Nat) : Int := if isSigned k then signedOf (intBits k) n else (n % 2 ^ intBits k : Int)

/-- The smallest value of an integer code. -/
def intMin (k : Nat) : Int := if isSigned k then -(2 ^ (intBits k - 1)) else 0
/-- The largest value of an integer code. -/
def intMax (k : Nat) : Int := if isSigned k then 2 ^ (intBits k - 1) - 1 else 2 ^ intBits k - 1

/-- Saturation (06 R101). -/
def sat (k : Nat) (v : Int) : Int := max (intMin k) (min (intMax k) v)

/-- The value of an element of an integer or float code. -/
def elemValue (k n : Nat) : FVal := if isFloatCode k then (codeFmt k).value n else .ofInt (intValue k n)

/-! ## Rounding (06 R105, R106) -/

/-- The length of a number in bits. -/
def bitLen (m : Nat) : Nat := if m = 0 then 0 else Nat.log2 m + 1

/-- m (and `sticky`) in units of 2^sh, rounded in mode `rm`: the integer and whether it is inexact. -/
def roundUnits (rm : Nat) (neg : Bool) (m sh : Nat) (sticky : Bool) : Nat × Bool :=
  let k := m / 2 ^ sh
  let r := m % 2 ^ sh
  let half := if sh = 0 then 1 else 2 ^ (sh - 1)
  let above := decide (sh ≠ 0) && (decide (half < r) || (decide (r = half) && sticky))
  let tie := decide (sh ≠ 0) && decide (r = half) && !sticky
  let inexact := decide (r ≠ 0) || sticky
  let up := if rm = 0 then above || (tie && decide (k % 2 = 1))
    else if rm = 1 then false
    else if rm = 2 then neg && inexact
    else if rm = 3 then !neg && inexact
    else above || tie
  (if up then k + 1 else k, inexact)

/-- A value rounded onto multiples of 2^q. -/
def roundAt (rm : Nat) (neg : Bool) (m : Nat) (e q : Int) (sticky : Bool) : Nat × Bool :=
  if e ≤ q then roundUnits rm neg m (q - e).toNat sticky else (m * 2 ^ (e - q).toNat, sticky)

/-- The overflow result of a mode (06 R105). -/
def overflowOf (f : FFmt) (rm : Nat) (neg : Bool) : Nat :=
  if rm = 1 ∨ (rm = 2 ∧ neg = false) ∨ (rm = 3 ∧ neg = true) then f.largest neg else f.inf neg

/-- R106: an exact value rounded to a format, and the flags raised. -/
def roundF (f : FFmt) (rm : Nat) (satf : Bool) (v : FVal) : Nat × BitVec 5 :=
  match v with
  | .nan => (f.qnan, 0)
  | .inf neg => (f.inf neg, 0)
  | .fin neg m e sticky =>
    if m = 0 then (f.zero neg, 0)
    else
      let top : Int := e + (bitLen m : Int) - 1
      let q1 : Int := top - f.fb
      let k1 := (roundAt rm neg m e q1 sticky).1
      let top1 : Int := if k1 = 2 ^ (f.fb + 1) then top + 1 else top
      if (f.bias : Int) < top1 then
        (if satf then f.largest neg else overflowOf f rm neg, fOF ||| fNX)
      else
        let tiny := decide (top1 < 1 - (f.bias : Int))
        let q := if q1 < f.qmin then f.qmin else q1
        let (k, inexact) := roundAt rm neg m e q sticky
        (f.zero neg + (q - f.qmin).toNat * 2 ^ f.fb + k,
          if inexact then (if tiny then fNX ||| fUF else fNX) else 0)

/-! ## Exact arithmetic -/

/-- A finite value as an integer in units of 2^q, for q at most e. -/
def unitsOf (neg : Bool) (m : Nat) (e q : Int) : Int :=
  let k : Int := (m : Int) * 2 ^ (e - q).toNat
  if neg then -k else k

/-- The sum of two values; `rm` fixes the sign of an exact zero (06 R106, R107). Infinities of opposite sign give NaN. -/
def fSum (rm : Nat) (a b : FVal) : FVal :=
  match a, b with
  | .nan, _ => .nan
  | _, .nan => .nan
  | .inf n, .inf k => if n = k then .inf n else .nan
  | .inf n, _ => .inf n
  | _, .inf k => .inf k
  | .fin n m e _, .fin k p g _ =>
    if m = 0 ∧ p = 0 then .fin (if n = k then n else decide (rm = 2)) 0 0 false
    else
      let q := min e g
      let t := unitsOf n m e q + unitsOf k p g q
      if t = 0 then .fin (decide (rm = 2)) 0 0 false else .fin (decide (t < 0)) t.natAbs q false

/-- The product of two values: zero times infinity gives NaN (06 R107). -/
def fProd (a b : FVal) : FVal :=
  match a, b with
  | .nan, _ => .nan
  | _, .nan => .nan
  | .inf n, .inf k => .inf (n != k)
  | .inf n, .fin k p _ _ => if p = 0 then .nan else .inf (n != k)
  | .fin n m _ _, .inf k => if m = 0 then .nan else .inf (n != k)
  | .fin n m e _, .fin k p g _ => .fin (n != k) (m * p) (e + g) false

/-- The value with its sign inverted. -/
def FVal.neg : FVal → FVal
  | .nan => .nan
  | .inf n => .inf (!n)
  | .fin n m e s => .fin (!n) m e s

/-- NaN. -/
def FVal.isNan : FVal → Bool
  | .nan => true
  | .inf _ => false
  | .fin _ _ _ _ => false
/-- Infinite. -/
def FVal.isInf : FVal → Bool
  | .inf _ => true
  | .nan => false
  | .fin _ _ _ _ => false
/-- Zero. -/
def FVal.isZero : FVal → Bool
  | .fin _ m _ _ => decide (m = 0)
  | .nan => false
  | .inf _ => false
/-- The sign. -/
def FVal.isNeg : FVal → Bool
  | .fin n _ _ _ => n
  | .inf n => n
  | .nan => false

/-- Strict order of two values that are not NaN; -0 equals +0. -/
def fLess (a b : FVal) : Bool :=
  match a, b with
  | .nan, _ => false
  | _, .nan => false
  | .inf n, .inf k => n && !k
  | .inf n, _ => n
  | _, .inf k => !k
  | .fin n m e _, .fin k p g _ => let q := min e g; decide (unitsOf n m e q < unitsOf k p g q)

/-- Equality of two values that are not NaN; -0 equals +0. -/
def fEq (a b : FVal) : Bool := !a.isNan && !b.isNan && !fLess a b && !fLess b a

/-- The integer square root by bits, from bit `k` down. -/
def isqrtFrom (n : Nat) : Nat → Nat → Nat
  | 0, r => r
  | k + 1, r => isqrtFrom n k (if (r + 2 ^ k) * (r + 2 ^ k) ≤ n then r + 2 ^ k else r)

/-- The integer square root. -/
def isqrt (n : Nat) : Nat := isqrtFrom n (bitLen n / 2 + 1) 0

/-- The quotient of two finite nonzero values, to more bits than any format holds, with the rest as sticky. -/
def fQuot (n : Bool) (m : Nat) (e : Int) (k : Bool) (p : Nat) (g : Int) : FVal :=
  let sh := 64 + bitLen p
  .fin (n != k) (m * 2 ^ sh / p) (e - g - sh) (decide (m * 2 ^ sh % p ≠ 0))

/-- The square root of a finite positive value. -/
def fRoot (m : Nat) (e : Int) : FVal :=
  let sh : Nat := if e % 2 = 0 then 128 else 129
  let r := isqrt (m * 2 ^ sh)
  .fin false r ((e - sh) / 2) (decide (r * r ≠ m * 2 ^ sh))

/-! ## The scalar float operations (06 R106, R107; 07 R143 to R147) -/

/-- NV when operands that are not NaN gave NaN. -/
def invalidOf (r : FVal) (ops : List FVal) : BitVec 5 := if r.isNan && !(ops.any FVal.isNan) then fNV else 0

/-- Addition. -/
def fAdd (f : FFmt) (rm : Nat) (st : Bool) (a b : Nat) : Nat × BitVec 5 :=
  let x := f.value a; let y := f.value b
  let r := fSum rm x y
  let z := roundF f rm st r
  (z.1, z.2 ||| invalidOf r [x, y])

/-- Subtraction. -/
def fSub (f : FFmt) (rm : Nat) (st : Bool) (a b : Nat) : Nat × BitVec 5 :=
  let x := f.value a; let y := f.value b
  let r := fSum rm x y.neg
  let z := roundF f rm st r
  (z.1, z.2 ||| invalidOf r [x, y])

/-- Multiplication. -/
def fMul (f : FFmt) (rm : Nat) (st : Bool) (a b : Nat) : Nat × BitVec 5 :=
  let x := f.value a; let y := f.value b
  let r := fProd x y
  let z := roundF f rm st r
  (z.1, z.2 ||| invalidOf r [x, y])

/-- Division (06 R107). -/
def fDiv (f : FFmt) (rm : Nat) (st : Bool) (a b : Nat) : Nat × BitVec 5 :=
  match f.value a, f.value b with
  | .nan, _ => (f.qnan, 0)
  | _, .nan => (f.qnan, 0)
  | .inf _, .inf _ => (f.qnan, fNV)
  | .inf n, .fin k _ _ _ => (f.inf (n != k), 0)
  | .fin n _ _ _, .inf k => (f.zero (n != k), 0)
  | .fin n m e _, .fin k p g _ =>
    if p = 0 then (if m = 0 then (f.qnan, fNV) else (f.inf (n != k), fDZ))
    else if m = 0 then (f.zero (n != k), 0)
    else roundF f rm st (fQuot n m e k p g)

/-- Square root: of -0 it is -0; below -0 it is NaN with NV (07 R143). -/
def fSqrt (f : FFmt) (rm : Nat) (st : Bool) (a : Nat) : Nat × BitVec 5 :=
  match f.value a with
  | .nan => (f.qnan, 0)
  | .inf n => if n then (f.qnan, fNV) else (f.inf false, 0)
  | .fin n m e _ =>
    if m = 0 then (f.zero n, 0) else if n then (f.qnan, fNV) else roundF f rm st (fRoot m e)

/-- a × b + d with one rounding (07 R144): 0 × ∞ is invalid even when d is NaN. -/
def fMad (f : FFmt) (rm : Nat) (st : Bool) (a b d : Nat) : Nat × BitVec 5 :=
  let x := f.value a; let y := f.value b; let w := f.value d
  let p := fProd x y
  let r := fSum rm p w
  let z := roundF f rm st r
  (z.1, z.2 ||| invalidOf p [x, y] ||| (if p.isNan then 0 else invalidOf r [p, w]))

/-- FMIN and FMAX (06 R107): -0 lies below +0; the other operand when exactly one is NaN. -/
def fPick (f : FFmt) (big : Bool) (a b : Nat) : Nat :=
  let x := f.value a; let y := f.value b
  let a := a % 2 ^ f.width; let b := b % 2 ^ f.width
  if x.isNan then (if y.isNan then f.qnan else b)
  else if y.isNan then a
  else
    let less := fLess x y || (x.isZero && y.isZero && x.isNeg && !y.isNeg)
    if big then (if less then b else a) else (if less then a else b)

/-- FABS, FNEG and FCPYS: the sign replaced; a NaN gives the canonical NaN (07 R143). -/
def fSign (f : FFmt) (a : Nat) (neg : Bool) : Nat :=
  if (f.value a).isNan then f.qnan else a % 2 ^ (f.eb + f.fb) + neg.toNat * 2 ^ (f.eb + f.fb)

/-- The sign bit of a float. -/
def fNegBit (f : FFmt) (a : Nat) : Bool := decide (a / 2 ^ (f.eb + f.fb) % 2 = 1)

/-- FCMP's conditions: 0 EQ, 1 NE, 2 LT, 3 LE, 4 UN (07 R145). -/
def fCompare (f : FFmt) (c a b : Nat) : Bool :=
  let x := f.value a; let y := f.value b
  let un := x.isNan || y.isNan
  if c = 0 then fEq x y
  else if c = 1 then !fEq x y
  else if c = 2 then !un && fLess x y
  else if c = 3 then !un && !fLess y x
  else un

/-- FCLASS's bit (07 R147). -/
def fClassOf (f : FFmt) (a : Nat) : Nat :=
  match f.value a with
  | .nan => 8
  | .inf n => if n then 0 else 7
  | .fin n m _ _ =>
    if m = 0 then (if n then 3 else 4)
    else if m < 2 ^ f.fb then (if n then 2 else 5)
    else (if n then 1 else 6)

/-- R108: a value to an integer code in mode `rm`. -/
def toInt (k rm : Nat) (v : FVal) : Nat × BitVec 5 :=
  let w := intBits k
  match v with
  | .nan => (0, fNV)
  | .inf n => (wrapTo w (if n then intMin k else intMax k), fNV)
  | .fin n m e sticky =>
    let (u, inexact) := roundAt rm n m e 0 sticky
    let i : Int := if n then -(u : Int) else u
    if i < intMin k then (wrapTo w (intMin k), fNV)
    else if intMax k < i then (wrapTo w (intMax k), fNV)
    else (wrapTo w i, if inexact then fNX else 0)

/-- A conversion of an exact value to a code: floats by R106, integers by R108. -/
def toCode (k rm : Nat) (st : Bool) (v : FVal) : Nat × BitVec 5 :=
  if isFloatCode k then roundF (codeFmt k) rm st v else toInt k rm v

/-- The rounding mode of an RR field: `STA.RM`, RNE, RTZ or RNA (07 R143). -/
def rrMode (rm : BitVec 3) (r : Nat) : Nat := if r = 0 then rm.toNat else if r = 1 then 0 else if r = 2 then 1 else 4

/-! ## Grouped codes (06 R110, R111) -/

/-- The value of a code of a group with zero point `z` and scale `s` (f16 bits). -/
def qval (q z s : Nat) : FVal :=
  match fF16.value s with
  | .nan => .nan
  | .inf n => if q = z then .nan else .inf (n != decide (q < z))
  | .fin n m e _ =>
    if q = z ∨ m = 0 then .fin false 0 0 false
    else .fin (n != decide (q < z)) ((if q < z then z - q else q - z) * m) e false

/-- Quantise a value to a code of `n` bits: v / s to the nearest integer, ties to even, plus z, always saturating. DESIGN
CHOICE: where NV is flagged the result is z, a code of 4 bits takes the low 4 bits of a z above 15, and an inexact quotient
raises no NX, which the rule does not name (log 58). -/
def qenc (v : FVal) (z s n : Nat) : Nat × BitVec 5 :=
  match fF16.value s with
  | .nan => (z, fNV)
  | .inf _ => (z, fNV)
  | .fin k p g _ =>
    match v with
    | .nan => (z, fNV)
    | .inf h => if p = 0 then (z, fNV) else (if h != k then 0 else 2 ^ n - 1, 0)
    | .fin h m e _ =>
      if p = 0 then (z, fNV)
      else if m = 0 then (min z (2 ^ n - 1), 0)
      else
        match fQuot h m e k p g with
        | .fin neg u t st =>
          let i := (roundAt 0 neg u t 0 st).1
          let x : Int := (if neg then -(i : Int) else i) + z
          ((max 0 (min x (2 ^ n - 1))).toNat, 0)
        | _ => (z, fNV)

/-! ## The exact sum cell (06 R112 to R114) -/

/-- ACC. -/
def xsAcc (c : BitVec 512) : Int := signedOf 448 (c.toNat % 2 ^ 448)
/-- COUNT. -/
def xsCount (c : BitVec 512) : Nat := bitsAt c 448 48
/-- FLAGS: PINF, NINF, NAN, OVF from bit 0. -/
def xsFlag (c : BitVec 512) (i : Nat) : Bool := bitOf c (496 + i)
/-- TAG. -/
def xsTag (c : BitVec 512) : Nat := bitsAt c 504 8

/-- A cell from its parts. -/
def xsCell (acc : Int) (count flags tag : Nat) : BitVec 512 :=
  BitVec.ofNat 512 (wrapTo 448 acc + count % 2 ^ 48 * 2 ^ 448 + flags % 2 ^ 8 * 2 ^ 496 + tag % 2 ^ 8 * 2 ^ 504)

/-- R113: a contribution, or none for XCELL_FORMAT. -/
def xsAdd (c : BitVec 512) (v : FVal) (f : Nat) : Option (BitVec 512) :=
  if f < 5 ∨ 11 < f ∨ (xsTag c ≠ 0 ∧ xsTag c ≠ f) then none
  else
    let fl := bitsAt c 496 8
    let last := decide (xsCount c = 2 ^ 48 - 1)
    let fl := if last then fl ||| 8 else fl
    let n := if last then xsCount c else xsCount c + 1
    match v with
    | .nan => some (xsCell (xsAcc c) n (fl ||| 4) f)
    | .inf neg => some (xsCell (xsAcc c) n (fl ||| (if neg then 2 else 1)) f)
    | .fin neg m e _ => some (xsCell (xsAcc c + unitsOf neg m e (-160)) n fl f)

/-- R114: the value of a cell in a format, and the flags for the reader. -/
def xsRead (c : BitVec 512) (f rm : Nat) : Nat × BitVec 5 :=
  if xsFlag c 3 then (if isFloatCode f then (codeFmt f).qnan else 0, fNV)
  else if xsFlag c 2 || (xsFlag c 0 && xsFlag c 1) then
    let z := toCode f rm false .nan
    (z.1, z.2 ||| (if xsFlag c 0 && xsFlag c 1 then fNV else 0))
  else if xsFlag c 0 then toCode f rm false (.inf false)
  else if xsFlag c 1 then toCode f rm false (.inf true)
  else toCode f rm false (.fin (decide (xsAcc c < 0)) (xsAcc c).natAbs (-160) false)

end Sys2Proof.Machine
end

