-- ==== Sys2Proof/Machine/Scalar.lean ====
section
/-! DEFINITION. Sys2Proof/Machine/Scalar.lean: integer register operations, identity, scalar floating point and control
transfer but for `EXIT` (07 R124 to R153, R155). -/

namespace Sys2Proof.Machine

/-- The gate of majors 0x01 to 0x1F: no format, no binding, and they run while speculative (15 R358). -/
def scalarGate : Gate := { specOk := true }

/-- An instruction whose one effect is a register write. -/
def State.writes (s : State) (d : Reg) (v : Word) : Res := .done (s.setReg d v)

/-! ## The ALU group (07 R128, R130) -/

/-- The operations of the group. -/
inductive AluOp where
  | add | sub | and | or | xor | andn | shl | shr | shra | rot | min | max | minn | maxn | adds | subs
deriving DecidableEq, Repr

/-- The width of a WW field. -/
def aluWidth (w : BitVec 2) : Nat := 64 / 2 ^ w.toNat

/-- The operation on `w`-bit operands `a` and `b` with shift count `n`, before it is narrowed to `w` bits. -/
def AluOp.exact (o : AluOp) (w a b n : Nat) : Int :=
  let sa := signedOf w a
  let sb := signedOf w b
  let lo : Int := -(2 ^ (w - 1))
  let hi : Int := 2 ^ (w - 1) - 1
  match o with
  | .add => (a : Int) + b
  | .sub => (a : Int) - b
  | .and => ((a &&& b : Nat) : Int)
  | .or => ((a ||| b : Nat) : Int)
  | .xor => ((a ^^^ b : Nat) : Int)
  | .andn => ((a &&& (2 ^ w - 1 - b) : Nat) : Int)
  | .shl => ((a * 2 ^ n : Nat) : Int)
  | .shr => ((a / 2 ^ n : Nat) : Int)
  | .shra => sa / 2 ^ n
  | .rot => ((a / 2 ^ n ||| a * 2 ^ (w - n) : Nat) : Int)
  | .min => if sa ≤ sb then sa else sb
  | .max => if sa ≤ sb then sb else sa
  | .minn => ((if a ≤ b then a else b : Nat) : Int)
  | .maxn => ((if a ≤ b then b else a : Nat) : Int)
  | .adds => if sa + sb < lo then lo else if hi < sa + sb then hi else sa + sb
  | .subs => if sa - sb < lo then lo else if hi < sa - sb then hi else sa - sb

/-- The group's result: narrowed to the width and zero-extended (07 R124). -/
def AluOp.value (o : AluOp) (w : BitVec 2) (x y : Word) : Word :=
  let k := aluWidth w
  BitVec.ofNat 64 (wrapTo k (o.exact k (x.toNat % 2 ^ k) (y.toNat % 2 ^ k) (y.toNat % 2 ^ k % k)))

/-- The shift group's result with an immediate count. -/
def AluOp.shift (o : AluOp) (w : BitVec 2) (x : Word) (n : Nat) : Word :=
  let k := aluWidth w
  BitVec.ofNat 64 (wrapTo k (o.exact k (x.toNat % 2 ^ k) 0 n))

/-- An ALU instruction. -/
def alu (o : AluOp) (w : BitVec 2) (d a b : Reg) (s : State) : State :=
  s.run scalarGate 4 (fun s => s.writes d (o.value w (s.reg a) (s.reg b)))

/-- ADD (07 R128). -/
def execAdd (w : BitVec 2) (d a b : Reg) (s : State) : Host.Outcome State Fault Refusal := goes (alu .add w d a b s)

/-- SUB (07 R128). -/
def execSub (w : BitVec 2) (d a b : Reg) (s : State) : Host.Outcome State Fault Refusal := goes (alu .sub w d a b s)

/-- AND (07 R128). -/
def execAnd (w : BitVec 2) (d a b : Reg) (s : State) : Host.Outcome State Fault Refusal := goes (alu .and w d a b s)

/-- OR (07 R128). -/
def execOr (w : BitVec 2) (d a b : Reg) (s : State) : Host.Outcome State Fault Refusal := goes (alu .or w d a b s)

/-- XOR (07 R128). -/
def execXor (w : BitVec 2) (d a b : Reg) (s : State) : Host.Outcome State Fault Refusal := goes (alu .xor w d a b s)

/-- ANDN (07 R128). -/
def execAndn (w : BitVec 2) (d a b : Reg) (s : State) : Host.Outcome State Fault Refusal := goes (alu .andn w d a b s)

/-- SHL (07 R128). -/
def execShl (w : BitVec 2) (d a b : Reg) (s : State) : Host.Outcome State Fault Refusal := goes (alu .shl w d a b s)

/-- SHR (07 R128). -/
def execShr (w : BitVec 2) (d a b : Reg) (s : State) : Host.Outcome State Fault Refusal := goes (alu .shr w d a b s)

/-- SHRA (07 R128). -/
def execShra (w : BitVec 2) (d a b : Reg) (s : State) : Host.Outcome State Fault Refusal := goes (alu .shra w d a b s)

/-- ROT (07 R128). -/
def execRot (w : BitVec 2) (d a b : Reg) (s : State) : Host.Outcome State Fault Refusal := goes (alu .rot w d a b s)

/-- MIN (07 R128). -/
def execMin (w : BitVec 2) (d a b : Reg) (s : State) : Host.Outcome State Fault Refusal := goes (alu .min w d a b s)

/-- MAX (07 R128). -/
def execMax (w : BitVec 2) (d a b : Reg) (s : State) : Host.Outcome State Fault Refusal := goes (alu .max w d a b s)

/-- MINN (07 R128). -/
def execMinn (w : BitVec 2) (d a b : Reg) (s : State) : Host.Outcome State Fault Refusal := goes (alu .minn w d a b s)

/-- MAXN (07 R128). -/
def execMaxn (w : BitVec 2) (d a b : Reg) (s : State) : Host.Outcome State Fault Refusal := goes (alu .maxn w d a b s)

/-- ADDS (07 R128). -/
def execAdds (w : BitVec 2) (d a b : Reg) (s : State) : Host.Outcome State Fault Refusal := goes (alu .adds w d a b s)

/-- SUBS (07 R128). -/
def execSubs (w : BitVec 2) (d a b : Reg) (s : State) : Host.Outcome State Fault Refusal := goes (alu .subs w d a b s)

/-- ADDI (07 R129). -/
def execAddi (d a : Reg) (i : Imm 15) (s : State) : Host.Outcome State Fault Refusal :=
  goes (s.run scalarGate (immLen i) (fun s => s.writes d (s.reg a + immW i)))

/-- ANDI (07 R129). -/
def execAndi (d a : Reg) (i : Imm 15) (s : State) : Host.Outcome State Fault Refusal :=
  goes (s.run scalarGate (immLen i) (fun s => s.writes d (s.reg a &&& immW i)))

/-- ORI (07 R129). -/
def execOri (d a : Reg) (i : Imm 15) (s : State) : Host.Outcome State Fault Refusal :=
  goes (s.run scalarGate (immLen i) (fun s => s.writes d (s.reg a ||| immW i)))

/-- XORI (07 R129). -/
def execXori (d a : Reg) (i : Imm 15) (s : State) : Host.Outcome State Fault Refusal :=
  goes (s.run scalarGate (immLen i) (fun s => s.writes d (s.reg a ^^^ immW i)))

/-- SHI, operation SHL (07 R130). -/
def execShiShl (w : BitVec 2) (c : BitVec 6) (d a : Reg) (s : State) : Host.Outcome State Fault Refusal :=
  goes (s.run scalarGate 4 (fun s => s.writes d (AluOp.shl.shift w (s.reg a) c.toNat)))

/-- SHI, operation SHR (07 R130). -/
def execShiShr (w : BitVec 2) (c : BitVec 6) (d a : Reg) (s : State) : Host.Outcome State Fault Refusal :=
  goes (s.run scalarGate 4 (fun s => s.writes d (AluOp.shr.shift w (s.reg a) c.toNat)))

/-- SHI, operation SHRA (07 R130). -/
def execShiShra (w : BitVec 2) (c : BitVec 6) (d a : Reg) (s : State) : Host.Outcome State Fault Refusal :=
  goes (s.run scalarGate 4 (fun s => s.writes d (AluOp.shra.shift w (s.reg a) c.toNat)))

/-- SHI, operation ROT (07 R130). -/
def execShiRot (w : BitVec 2) (c : BitVec 6) (d a : Reg) (s : State) : Host.Outcome State Fault Refusal :=
  goes (s.run scalarGate 4 (fun s => s.writes d (AluOp.rot.shift w (s.reg a) c.toNat)))

/-! ## Compare (07 R131) -/

/-- The conditions 0 EQ, 1 NE, 2 LT, 3 GE, 4 LTN, 5 GEN at 64 bits. -/
def condHolds (c : Nat) (x y : Word) : Bool :=
  if c = 0 then decide (x = y)
  else if c = 1 then decide (x ≠ y)
  else if c = 2 then decide (x.toInt < y.toInt)
  else if c = 3 then decide (y.toInt ≤ x.toInt)
  else if c = 4 then decide (x.toNat < y.toNat)
  else decide (y.toNat ≤ x.toNat)

/-- 1 or 0. -/
def boolW (b : Bool) : Word := if b then 1 else 0

/-- CMP (07 R131). -/
def execCmp (c : BitVec 3) (d a b : Reg) (s : State) : Host.Outcome State Fault Refusal :=
  goes (s.run scalarGate 4 (fun s => s.writes d (boolW (condHolds c.toNat (s.reg a) (s.reg b)))))

/-- CMPI (07 R131). -/
def execCmpi (c : BitVec 3) (d a : Reg) (i : Imm 12) (s : State) : Host.Outcome State Fault Refusal :=
  goes (s.run scalarGate (immLen i) (fun s => s.writes d (boolW (condHolds c.toNat (s.reg a) (immW i)))))

/-! ## Multiply, divide and bits (07 R132, R133; 06 R102) -/

/-- Signed division, truncating, with the corner results of 06 R102. -/
def divS (x y : Word) : Word := if y = 0 then BitVec.allOnes 64 else BitVec.ofInt 64 (x.toInt.tdiv y.toInt)
/-- Unsigned division. -/
def divU (x y : Word) : Word := if y = 0 then BitVec.allOnes 64 else BitVec.ofNat 64 (x.toNat / y.toNat)
/-- Signed remainder: the sign of the dividend. -/
def remS (x y : Word) : Word := if y = 0 then x else BitVec.ofInt 64 (x.toInt.tmod y.toInt)
/-- Unsigned remainder. -/
def remU (x y : Word) : Word := if y = 0 then x else BitVec.ofNat 64 (x.toNat % y.toNat)
/-- The high half of a signed product. -/
def mulHi (x y : Word) : Word := BitVec.ofInt 64 (x.toInt * y.toInt / 2 ^ 64)
/-- The high half of an unsigned product. -/
def mulHiU (x y : Word) : Word := BitVec.ofNat 64 (x.toNat * y.toNat / 2 ^ 64)

/-- The number of one bits of the low `k` bits. -/
def popCount (n : Nat) : Nat → Nat
  | 0 => 0
  | k + 1 => n / 2 ^ k % 2 + popCount n k

/-- The number of leading zeros of 64 bits. -/
def clz64 (n : Nat) : Nat := 64 - bitLen n

/-- The number of trailing zeros among the low `k` bits from bit `i`. -/
def ctzFrom (n : Nat) : Nat → Nat → Nat
  | 0, _ => 0
  | k + 1, i => if n / 2 ^ i % 2 = 1 then 0 else 1 + ctzFrom n k (i + 1)

/-- The low `k` bits reversed. -/
def reverseBits (n : Nat) : Nat → Nat
  | 0 => 0
  | k + 1 => 2 * reverseBits n k + n / 2 ^ k % 2

/-- MUL (07 R132). -/
def execMul (d a b : Reg) (s : State) : Host.Outcome State Fault Refusal :=
  goes (s.run scalarGate 4 (fun s => s.writes d (s.reg a * s.reg b)))

/-- MULH (07 R132). -/
def execMulh (d a b : Reg) (s : State) : Host.Outcome State Fault Refusal :=
  goes (s.run scalarGate 4 (fun s => s.writes d (mulHi (s.reg a) (s.reg b))))

/-- MULHN (07 R132). -/
def execMulhn (d a b : Reg) (s : State) : Host.Outcome State Fault Refusal :=
  goes (s.run scalarGate 4 (fun s => s.writes d (mulHiU (s.reg a) (s.reg b))))

/-- MAD (07 R132). -/
def execMad (d a b : Reg) (s : State) : Host.Outcome State Fault Refusal :=
  goes (s.run scalarGate 4 (fun s => s.writes d (s.reg d + s.reg a * s.reg b)))

/-- DIV (07 R132). -/
def execDiv (d a b : Reg) (s : State) : Host.Outcome State Fault Refusal :=
  goes (s.run scalarGate 4 (fun s => s.writes d (divS (s.reg a) (s.reg b))))

/-- DIVN (07 R132). -/
def execDivn (d a b : Reg) (s : State) : Host.Outcome State Fault Refusal :=
  goes (s.run scalarGate 4 (fun s => s.writes d (divU (s.reg a) (s.reg b))))

/-- REM (07 R132). -/
def execRem (d a b : Reg) (s : State) : Host.Outcome State Fault Refusal :=
  goes (s.run scalarGate 4 (fun s => s.writes d (remS (s.reg a) (s.reg b))))

/-- REMN (07 R132). -/
def execRemn (d a b : Reg) (s : State) : Host.Outcome State Fault Refusal :=
  goes (s.run scalarGate 4 (fun s => s.writes d (remU (s.reg a) (s.reg b))))

/-- CLZ (07 R133). -/
def execClz (d a : Reg) (s : State) : Host.Outcome State Fault Refusal :=
  goes (s.run scalarGate 4 (fun s => s.writes d (BitVec.ofNat 64 (clz64 (s.reg a).toNat))))

/-- CTZ (07 R133). -/
def execCtz (d a : Reg) (s : State) : Host.Outcome State Fault Refusal :=
  goes (s.run scalarGate 4 (fun s => s.writes d (BitVec.ofNat 64 (ctzFrom (s.reg a).toNat 64 0))))

/-- POPC (07 R133). -/
def execPopc (d a : Reg) (s : State) : Host.Outcome State Fault Refusal :=
  goes (s.run scalarGate 4 (fun s => s.writes d (BitVec.ofNat 64 (popCount (s.reg a).toNat 64))))

/-- BREV (07 R133). -/
def execBrev (d a : Reg) (s : State) : Host.Outcome State Fault Refusal :=
  goes (s.run scalarGate 4 (fun s => s.writes d (BitVec.ofNat 64 (reverseBits (s.reg a).toNat 64))))

/-- BSWAP (07 R133). -/
def execBswap (d a : Reg) (s : State) : Host.Outcome State Fault Refusal :=
  goes (s.run scalarGate 4 (fun s => s.writes d (BitVec.ofNat 64 (leNat (leBytes 8 (s.reg a).toNat).reverse))))

/-! ## Fields, selection, addresses, constants (07 R134 to R137) -/

/-- A field of `l` bits from bit `p`, sign-extended when `sg`. -/
def extractW (sg : Bool) (x : Word) (p l : Nat) : Word :=
  if sg then BitVec.ofInt 64 (signedOf l (bitsAt x p l)) else BitVec.ofNat 64 (bitsAt x p l)

/-- EXTB (07 R134). -/
def execExtb (sg : BitVec 1) (l p : BitVec 6) (d a : Reg) (s : State) : Host.Outcome State Fault Refusal :=
  goes (s.run scalarGate 4 (fun s => s.writes d (extractW (decide (sg = 1)) (s.reg a) p.toNat (l.toNat + 1))))

/-- INSB (07 R134): D is read first. -/
def execInsb (l p : BitVec 6) (d a : Reg) (s : State) : Host.Outcome State Fault Refusal :=
  goes (s.run scalarGate 4 (fun s => s.writes d (putBits (s.reg d) p.toNat (l.toNat + 1) (s.reg a).toNat)))

/-- SEL (07 R135). -/
def execSel (c d a b : Reg) (s : State) : Host.Outcome State Fault Refusal :=
  goes (s.run scalarGate 4 (fun s => s.writes d (if s.reg c ≠ 0 then s.reg a else s.reg b)))

/-- LEA (07 R136). -/
def execLea (sh : BitVec 3) (d a b : Reg) (s : State) : Host.Outcome State Fault Refusal :=
  goes (s.run scalarGate 4 (fun s => s.writes d (s.reg a + s.reg b <<< sh.toNat)))

/-- LDI (07 R137). -/
def execLdi (d : Reg) (i : Imm 15) (s : State) : Host.Outcome State Fault Refusal :=
  goes (s.run scalarGate (immLen i) (fun s => s.writes d (immW i)))

/-! ## Identity (07 R138 to R142; 02 R19 to R27; 15 R327, R352) -/

/-- The width of field k in a width and placement word (15 R327). -/
def fieldWidth (w k : Nat) : Nat := w / 2 ^ (7 * k) % 2 ^ 7
/-- The level code of field k (15 R327). -/
def fieldLevel (w k : Nat) : Nat := w / 2 ^ (42 + 3 * k) % 8
/-- The lowest bit of field k in a WID (02 R19). -/
def fieldBase (w k : Nat) : Nat := ((List.range k).map (fieldWidth w)).sum
/-- The extent of field k: 1 for width 0 (02 R20). -/
def fieldExtent (w ext k : Nat) : Nat := ext / 2 ^ fieldBase w k % 2 ^ fieldWidth w k + 1
/-- Field k of a WID. -/
def fieldOf (w wid k : Nat) : Nat := wid / 2 ^ fieldBase w k % 2 ^ fieldWidth w k

/-- The width and placement word and the extent word of a context's launch; a thread with no launch has fields of width 0
(15 R352). -/
def State.fieldWords (s : State) (c : Nat) : Nat × Nat :=
  match (s.ctx c).launch with
  | none => (0, 0)
  | some l => (bitsAt (s.launch l).pkt 256 64, bitsAt (s.launch l).pkt 576 64)

/-- WIDF (07 R139). -/
def execWidf (d a : Reg) (s : State) : Host.Outcome State Fault Refusal :=
  goes (s.run scalarGate 4 (fun s =>
    let v := s.reg a
    let k := v.toNat % 8
    if 16 ≤ v.toNat ∨ 6 ≤ k then Res.bad Cause.reservedBits 0 v
    else
      let (w, ext) := s.fieldWords s.cur
      s.writes d (BitVec.ofNat 64 (if 8 ≤ v.toNat then fieldExtent w ext k else fieldOf w (s.ctx s.cur).wid.toNat k))))

/-- The tensor shape record that a context reads: its launch's, or the zero record (07 R140, R141; 15 R352). -/
def State.shapeOf (s : State) (c : Nat) : List Byte :=
  match (s.ctx c).launch with
  | none => []
  | some l => (s.launch l).shape

/-- A little-endian number of `n` bytes at offset `o` of a record; bytes past its end are 0. -/
def recN (r : List Byte) (o n : Nat) : Nat := leNat ((span o n).map (fun i => r.getD i 0))

/-- SHAPE's bounds of the thread's slice (07 R141), or none for RESERVED_BITS. -/
def shapeBounds (r : List Byte) (w ext wid t j : Nat) : Option (Nat × Nat) :=
  if recN r 0 1 ≤ t ∨ recN r (1 + t) 1 ≤ j then none
  else
    let o := 16 + 40 * t + 10 * j
    let e := recN r o 4
    let f := recN r (o + 8) 1
    if f = 0xFF then some (0, e)
    else if f ≤ 5 then
      let n := fieldExtent w ext f
      let bs := if recN r (o + 4) 4 = 0 then (e + n - 1) / n else recN r (o + 4) 4
      let lo := min (fieldOf w wid f * bs) e
      some (lo, min (lo + bs) e)
    else none

/-- SHAPE (07 R141). On a core that runs another launch it then waits for its tag (`State.variable`; log 5). -/
def execShape (d a : Reg) (s : State) : Host.Outcome State Fault Refusal :=
  goes (s.run scalarGate 4 (fun s =>
    let v := s.reg a
    if 64 ≤ v.toNat then Res.bad Cause.reservedBits 0 v
    else
      let (w, ext) := s.fieldWords s.cur
      match shapeBounds (s.shapeOf s.cur) w ext (s.ctx s.cur).wid.toNat (v.toNat / 8) (v.toNat / 2 % 4) with
      | none => Res.bad Cause.reservedBits 0 v
      | some (lo, hi) => s.writes d (BitVec.ofNat 64 (if v.toNat % 2 = 1 then hi else lo))))

/-- LOCID's selectors (07 R142). -/
def State.locPart (s : State) (c k : Nat) : Nat :=
  if k = 0 then c % 16
  else if k = 1 then c / 16 % 4
  else if k = 2 then c / 64 % 128
  else if k = 3 then c / 8192
  else if k = 4 then c / 16
  else if k = 5 then c
  else if k = 6 then (s.ctx c).part
  else ((s.part (s.ctx c).part).clusters.filter (fun q => decide (q < cluOf c))).length

/-- LOCID (07 R142). -/
def execLocid (d a : Reg) (s : State) : Host.Outcome State Fault Refusal :=
  goes (s.run scalarGate 4 (fun s =>
    if 8 ≤ (s.reg a).toNat then Res.bad Cause.reservedBits 0 (s.reg a)
    else s.writes d (BitVec.ofNat 64 (s.locPart s.cur (s.reg a).toNat))))

/-! ## Scalar floating point (07 R143 to R147) -/

/-- A float instruction's effect: the result and the flags together (07 R126). -/
def State.writesF (s : State) (d : Reg) (r : Nat × BitVec 5) : Res :=
  .done (s.modCtx s.cur (fun x => (x.setReg d (BitVec.ofNat 64 r.1)).raise r.2))

/-- The mode of an instruction's RR field. -/
def State.mode (s : State) (r : BitVec 2) : Nat := rrMode (s.ctx s.cur).sta.rm r.toNat

/-- FADD (07 R143). -/
def execFadd (f : BitVec 3) (r : BitVec 2) (d a b : Reg) (s : State) : Host.Outcome State Fault Refusal :=
  goes (s.run scalarGate 4 (fun s => s.writesF d (fAdd (fffFmt f.toNat) (s.mode r) false (s.reg a).toNat (s.reg b).toNat)))

/-- FSUB (07 R143). -/
def execFsub (f : BitVec 3) (r : BitVec 2) (d a b : Reg) (s : State) : Host.Outcome State Fault Refusal :=
  goes (s.run scalarGate 4 (fun s => s.writesF d (fSub (fffFmt f.toNat) (s.mode r) false (s.reg a).toNat (s.reg b).toNat)))

/-- FMUL (07 R143). -/
def execFmul (f : BitVec 3) (r : BitVec 2) (d a b : Reg) (s : State) : Host.Outcome State Fault Refusal :=
  goes (s.run scalarGate 4 (fun s => s.writesF d (fMul (fffFmt f.toNat) (s.mode r) false (s.reg a).toNat (s.reg b).toNat)))

/-- FDIV (07 R143). -/
def execFdiv (f : BitVec 3) (r : BitVec 2) (d a b : Reg) (s : State) : Host.Outcome State Fault Refusal :=
  goes (s.run scalarGate 4 (fun s => s.writesF d (fDiv (fffFmt f.toNat) (s.mode r) false (s.reg a).toNat (s.reg b).toNat)))

/-- FMIN (07 R143; 06 R107). -/
def execFmin (f : BitVec 3) (_r : BitVec 2) (d a b : Reg) (s : State) : Host.Outcome State Fault Refusal :=
  goes (s.run scalarGate 4 (fun s => s.writesF d (fPick (fffFmt f.toNat) false (s.reg a).toNat (s.reg b).toNat, 0)))

/-- FMAX (07 R143; 06 R107). -/
def execFmax (f : BitVec 3) (_r : BitVec 2) (d a b : Reg) (s : State) : Host.Outcome State Fault Refusal :=
  goes (s.run scalarGate 4 (fun s => s.writesF d (fPick (fffFmt f.toNat) true (s.reg a).toNat (s.reg b).toNat, 0)))

/-- FSQRT (07 R143). -/
def execFsqrt (f : BitVec 3) (r : BitVec 2) (d a : Reg) (s : State) : Host.Outcome State Fault Refusal :=
  goes (s.run scalarGate 4 (fun s => s.writesF d (fSqrt (fffFmt f.toNat) (s.mode r) false (s.reg a).toNat)))

/-- FABS (07 R143). -/
def execFabs (f : BitVec 3) (_r : BitVec 2) (d a : Reg) (s : State) : Host.Outcome State Fault Refusal :=
  goes (s.run scalarGate 4 (fun s => s.writesF d (fSign (fffFmt f.toNat) (s.reg a).toNat false, 0)))

/-- FNEG (07 R143). -/
def execFneg (f : BitVec 3) (_r : BitVec 2) (d a : Reg) (s : State) : Host.Outcome State Fault Refusal :=
  goes (s.run scalarGate 4 (fun s =>
    let g := fffFmt f.toNat
    s.writesF d (fSign g (s.reg a).toNat (!fNegBit g (s.reg a).toNat), 0)))

/-- FCPYS (07 R143). -/
def execFcpys (f : BitVec 3) (_r : BitVec 2) (d a b : Reg) (s : State) : Host.Outcome State Fault Refusal :=
  goes (s.run scalarGate 4 (fun s =>
    let g := fffFmt f.toNat
    s.writesF d (fSign g (s.reg a).toNat (fNegBit g (s.reg b).toNat), 0)))

/-- FMA (07 R144): D is read first. -/
def execFma (f : BitVec 3) (r : BitVec 2) (d a b : Reg) (s : State) : Host.Outcome State Fault Refusal :=
  goes (s.run scalarGate 4 (fun s =>
    s.writesF d (fMad (fffFmt f.toNat) (s.mode r) false (s.reg a).toNat (s.reg b).toNat (s.reg d).toNat)))

/-- FCMP (07 R145). -/
def execFcmp (f c : BitVec 3) (d a b : Reg) (s : State) : Host.Outcome State Fault Refusal :=
  goes (s.run scalarGate 4 (fun s =>
    s.writes d (boolW (fCompare (fffFmt f.toNat) c.toNat (s.reg a).toNat (s.reg b).toNat))))

/-- FCVT (07 R146): target code `t`, source code `k`. -/
def execFcvt (r : BitVec 1) (t k : BitVec 5) (d a : Reg) (s : State) : Host.Outcome State Fault Refusal :=
  goes (s.run scalarGate 4 (fun s =>
    let rm := if r = 1 then 1 else (s.ctx s.cur).sta.rm.toNat
    s.writesF d (toCode t.toNat rm false (elemValue k.toNat (s.reg a).toNat))))

/-- FCLASS (07 R147). -/
def execFclass (f : BitVec 3) (d a : Reg) (s : State) : Host.Outcome State Fault Refusal :=
  goes (s.run scalarGate 4 (fun s => s.writes d (BitVec.ofNat 64 (2 ^ fClassOf (fffFmt f.toNat) (s.reg a).toNat))))

/-! ## Control transfer (07 R149 to R153) -/

/-- A transfer to `t`: MISALIGNED at the transfer when bits [1:0] are nonzero, else it takes effect whole. -/
def State.transfer (s : State) (t : Word) (kind : Nat) : Res :=
  if t.toNat % 4 ≠ 0 then Res.bad Cause.misaligned t else .jump s t kind

/-- The running context's pc. -/
def State.pc (s : State) : Word := (s.ctx s.cur).pc

/-- BR (07 R150). -/
def execBr (off : Imm 23) (s : State) : Host.Outcome State Fault Refusal :=
  goes (s.run scalarGate (immLen off) (fun s => s.transfer (s.pc + 4 * immW off) 0))

/-- CALL (07 R150): x15 := the next instruction's pointer. -/
def execCall (off : Imm 23) (s : State) : Host.Outcome State Fault Refusal :=
  goes (s.run scalarGate (immLen off) (fun s =>
    (s.setReg 15 (s.pc + BitVec.ofNat 64 (immLen off))).transfer (s.pc + 4 * immW off) 1))

/-- A conditional branch: taken to its target, or to the next sequential instruction. -/
def State.branchIf (s : State) (p : Bool) (t : Word) : Res := if p then s.transfer t 0 else .done s

/-- BC (07 R151). -/
def execBc (c : BitVec 3) (b a : Reg) (off : Imm 12) (s : State) : Host.Outcome State Fault Refusal :=
  goes (s.run scalarGate (immLen off) (fun s =>
    s.branchIf (condHolds c.toNat (s.reg a) (s.reg b)) (s.pc + 4 * immW off)))

/-- BZ (07 R151). -/
def execBz (c : BitVec 3) (a : Reg) (off : Imm 12) (s : State) : Host.Outcome State Fault Refusal :=
  goes (s.run scalarGate (immLen off) (fun s => s.branchIf (condHolds c.toNat (s.reg a) 0) (s.pc + 4 * immW off)))

/-- JMPR (07 R152). -/
def execJmpr (a : Reg) (s : State) : Host.Outcome State Fault Refusal :=
  goes (s.run scalarGate 4 (fun s => s.transfer (s.reg a) 3))

/-- CALLR (07 R152): the target is read first. -/
def execCallr (d a : Reg) (s : State) : Host.Outcome State Fault Refusal :=
  goes (s.run scalarGate 4 (fun s => (s.setReg d (s.pc + 4)).transfer (s.reg a) 1))

/-- RET (07 R152). -/
def execRet (a : Reg) (s : State) : Host.Outcome State Fault Refusal :=
  goes (s.run scalarGate 4 (fun s => s.transfer (s.reg a) 2))

/-- JTAB (07 R153): `n` entries, the table at byte offset `t` × 4 from word 0. -/
def execJtab (a : Reg) (n : BitVec 32) (t : BitVec 30) (s : State) : Host.Outcome State Fault Refusal :=
  goes (s.run scalarGate 12 (fun s =>
    if n.toNat ≤ (s.reg a).toNat then .done s
    else
      let p := s.pc + 4 * t.signExtend 64 + 4 * s.reg a
      match s.fetchWord s.cur (s.ctx s.cur).sta.sup p with
      | .error k => Res.bad Cause.tableFetch p (k.setWidth 64)
      | .ok e => s.transfer (s.pc + 4 * sextW 32 (BitVec.ofNat 64 e)) 4))

/-- NOP (07 R155). -/
def execNop (s : State) : Host.Outcome State Fault Refusal := goes (s.run scalarGate 4 (fun s => .done s))

end Sys2Proof.Machine
end

