-- ==== Sys2Proof/Machine/Approx.lean ====
section
/-! DEFINITION. Sys2Proof/Machine/Approx.lean: the approximate functions (06 R120 to R122; 07 R148). The seven tables hold
the outcome of the construction of R121, computed once with exact integers and 80-digit decimals (log 7). Each table is
one number: segment i holds 58 bits from bit 58 i: C0 in 28 bits, C1 in 18 and C2 in 12 (two's complement). -/

namespace Sys2Proof.Machine

/-- The segments of RCP. -/
def rcpTable : Nat :=
  0x102dfdfe01008044177e7c80c121b108df5da050c9f842f7c6d81c635c10eded8609293984477a5182cf750115de4fa0d56b38463782883dcf9511bddc3a119576847f75f184eedd3122dd34615e5ee449b73ad86053c3129dca161a488ac4b7715a872032b131dc0ae1ebdbf44d76ef8883fddf139db70623460344f76c8789645c5141dad2227e1d1c5176a058a8dcd2149da2fe2c91aa053767748bbc50d151d9896315610855b64d18cf008d15ad8de6362f8d057f621d8e2917e163d82f23b1ead05a35f568f67a1e16dd77b240240245cb5c7c90abcc0177d6c2245402445f3598f91f5bcc181d60464a73afc61b568e93459be18bd54164fbf4706475377949b92e196d47925523924673504b95f7cc71a1d3ab25aa140469f4d08975a7511add2d7a60390546cf49ae98c3bac1b9d1fde65eb9dc703463b9a33cd61c6d11e26bb9cc073342af9baade91d3d037e71a45a876b3f099d2921c1e1cf4ae77ac1b47a33b479eaecc91efce5727dd1e847db3769a03c1691fecd5be8416a4c817336ea1d139820dcc5968a7b3c48572f54a36e71a21dcb4ee9100a448972b1aa513fd722eca3c697a7dbc8db26bfa6c21df23fc92169e71ec49232241a879171251c7fd6a55feac96b1da0aa392f3264c6d06ac72f749b718d8ac02b01277c599ab3ac3e4a0713eaadd5e6328cc4592bb0cf88a5b0ed3afb321a2a1c30dec2966d0ab30991b19ab5c2b7c1b7eca49f0cb0f0423b38cf9b2cec056ad228e74b6afe86b58a4852e7bee96da34c4cbcef8b8b79300b300bd6fee26f0dcc36f2b8b9a786331bbbe96ead9584ca2ec83bbc8409336ba552f3754d8d16e616bdf59c9353b8b2afc44aa4d8edf6fc0300c0372b70170549404e0ad88bc278061392b54070e84f78e8ed167c4ce07b3b3b36f317f9d00f16ca00c73293d3d7b18cb21a9e24fa6c252c9a63403fcaf9832b9761903eba5bcc29787422ad90b35c49d50deb216cebcf8c44bab7574034035186a97fd161544476a94534ae8211236a092d4173294a4a6feb55e3a612ee974bd6df4404d3a4a1361296653b28da4d9ba425505a22b36cbc5c94828399dca8f1653a9f9b3789facd55a7924dfac1f75729cf0384d6a756426e3fe2c4a695ad9a2879164cb573262e4e5f36cb5ec974239e4dcb9836570ce93965262e943bbab959019464aafec9791267491137b9403b9a663dc6f00f00f6be8dc6fc7522f5b963049f3a0d5370d8a543d5d00f5cda222ef74e3fc76186b8fe4bec89e36136cfb188567ba82f27f423955fa203f8ff00ff0

/-- The segments of RSQ. -/
def rsqTable : Nat :=
  0xc2dfcfd008060431b7db74060da20cadf0a1028987c33b7a9040e4b370d2de3c1049f4b035b7748416bc410dbdd65d06c22e837f73dd41f62df0e4dc86908f2be43a7704d42841520eedb9dd0b318e83cf6c9643159fe0f8daaad0d7f3c43fb68b543aaf69103d9ad10fdc6f042764a7444444410fd8a3d1249d7c457606b44e1b6b11cd78e914c833448b5bfc45837e9129d66c517584a44c357584629cfa137d53c119faf304ff527a46d4e13147d3fd51cb112053f4d604784ee6157d2ae91f7b9b857f4804483a365168d14f1225b9505cb426248f4fc917bcfdd525521646173c7549b589c18fce58528604c066b36384a7c2b91a5ccbe52b8778c6c32fa34b4935d1bccb0d92ec8f8072728b14c1d0291d6c944d322640078f215a4cf7f321f1c761935a0e547ff19964dda70720fc5621393a9c887b115b4ec4ec522fc343d3cf53f490308a04fb7e20252c103d40d2cf8992ff5a50b3d77278be9f944d57c8a32f57b51b95e72a1bc13948ffa6cadeeaf552c91612cfb95c14d53e78b9edfba53e3ac6300b674d51d5174c6ed3b85509dfd337b35955686548d56c6d9563c81e374b00455b6b0e4e52b909577c7933b7ac6f560870d8f6eaa2c58cac48401a894165de82d0a69a265a287e0112d27a96abf73846347c05b0b71d11dd162d6da079848f434b5bc5e83129d03fd70935444bf3ea75c84eae135cf10d7398bf04f339d15d48aa0142cdd4d76b180052734c85e11587150cc8b979de6885632f865edf2c315fcb3417d2057459f2a0a5fb25e916fc9cd180783845df244f608b2c617fc856183e70686231e516169d65191c6cdd876dcc866b180c624ea121a4c53358b0da646bb117b6339d631b8c38558ec7c3070f0a9a642bc3b1cec1c25929d65c76703626524bd21e5bfe91968fe807c6fbce66251bd1febdf819aa0bb482ef3d7672d3f7218bbed19ed16b889aeb76683d8e8235b9c6da323a18912e2a36956770253b7831a799260992d9556a786f7274b51f5ac33e40a1acf826ba3f73298b2991b0f5ed8aaec5216cd997c2bfafeddb5e17d4b4eba256e19e5c2e9ad1a5baf8fe0bfeae826f65820316aa1b5c03f0d4cbaa22970bd1ac347a6ed1c5b681cd8a950b72216d937da38b1cb6271ce6a871573934893b89ff0dd1463acf5e783475138cd3f89c195d76589906e685276a330443f97fe5ddc46391965756784340648c93995e4673292da452379f4e564e28ee2deb52d1944231997bb965854189d25f28c9b55d21c957d9228f5aa845e1fa1a7bd78a05ec7f80bec

/-- The segments of EXP2. -/
def exp2Table : Nat :=
  0x3d5587bffd3b2d8f416005fdedd1b3cb5787ff23b004f155c3bfb3193d3c056967e759290eed587af87ce0e3b655a7bdc95544ec554c4f5cfa433ac54bb7d1ef2f0e9d5119f329c923a253d1fc766678e754d77f08b3b639852eabbcfaac8e4d49dfedf3e6b38e5205fb2abae4e254652eb63b743845123fa8791d4dfd42cee8da99637a504439e62ab8dd53f54e6587973714f66b94680b0db13be3e3dd4453674e8bb8a88ef0d89387ce168e6d35e4db3380c50c4d65351edefb4e23544cdcf771c170d4131cadc9467934b4c08f6d8dc54d1d2e7fda3420b3424b3736419cd8cf92b3dd7da6733394a67f5abfe74cd52803d587291330499ab517fca8cb124d3d33a54532748cfb4859300c8d21acd0f3d7731f4806f3f4bd1cc691e8dceb3a0d31647407365769cc491b77cc799f230e467bf2d7bb34c251869ca45c1630545b9724b86a8c051564c817f682fd44f931c0d4bcbe51267c5f02dd2f5443af137a148bc50f72c3ce56d2ed437ef0afe830ba10c85c1b260f2e442c4b029a55cb8109a1bf9c3c22dd420cafa4d4c4b6506c4bd8bd852d541566f217270b4503f0bb812592cd40a22e9f7a6cb250123b97c1432c53fefee1ee8ccb04fe5eb77c94c2bd3f3fad9fb9bcae8fba0b58297d2b63e916d21e964ac8f8ebb38e0e42ae3de4aca573fcaacf63cb19ee8f2a73d3a2c2a55cca8cf395afb51902a03c912bb08b20a70f0f5add08fe2983bea2b381050a54ee5dabf13ee2913b44eac0e1bca38ebccaa1717a28a3aa1aa4afbd0a1ce941a8420c028339ffe9d65b04a00e6bea6720dc27c395fe962fbd49e4e442a4a70f127538c1a8f0dacc9c8e1cca2e102126f3825287ff4809acdf5ea11fd94268378a68104588994dcf69f6387026136f127a1ca88978da949dabfe025b3659a7348038960d83a9bf931225435c3e6c86344944d5e59a4b13324e352fa65d707892cd39898a1977247349ce5f3a494910d15096fcb10241340be58afc748f8cf0f955c53323b337c652374ec8e0ccd493c071a23532ee64bd0ae48c8ca9f9228ffe22f3261e457bb448b0c8709095f1b22931d6e3f38308898c6488f073af223314d63905f2c880c4258d7ccfc21d30c5a32e4cb0868c2088bf6a43217303f22cd48a8850bff18a74aca2112fb9e26d5028838bde088f6dd620c2f36620e6050824bbd4877d2b02062eb421b0764880cb9ce86078a32002e3361538f387f8b7ce8495efb1fb2db3e0f7a8587e0b5d383285071f52d35e09cbee47ccb3dd81bea171f02cb96042d0287b4b1ed8058d7d

/-- The segments of LOG2. -/
def log2Table : Nat :=
  0xe8d2e41dfe8e4f3a28b9c17eea301e872e9f5f8c0467a10bb3a7d7536be812efe1f2e67839f8bcb87bfd460e7b2f5e9ed00b4b9e0be3d7a8251de752fc09e70eca79c8bfc879044dce6e30241e11086f9acc15a77832cee6830895db05b6b990c2f275fee24e6130f05d4ee247978c4917477606e5a3158dcec99a3958c63772ec999e5331c35c897dff93cc7e4715e7fbe4c322f5c258bc7920c9996fcd044e44329d9bc0bf5b900cb556e38188e3c330d5b5b14f38e0cd186c9fad3e34337f5af488b78c0cee46b03b2be2c33f35a8d16b38a0d0b76964190e2434691a24badb880d29367c0cfbe1b34e159bb70ff85cd4786619c5ee13355b995134d7838d665646eea2e0a35d7d8e60207814d85c62c02ace0036569879d3ff7f0da5b610d755df736d7d80ca6237c8dc655f56b71ded375b579e73ab7a0de785d9bdcbde337e1572f37af778e0955bdcd23dd93869d6beed2774ce2bc5a19832dce38f5164d8edb720e4ee5851da8dc3398315db17776f4e72c5685c29db83a139567817f6c8e97454b5251dac3aa754f2c743698ebc852dfeafda03b3dd47ce2f7668ee285105fc9d933bd75405ce8f634f0954f27419d873c74138d83e3600f30e4d43a0dd7a3d141313fc8f5ccf5954b5b005d6c3db7529931fb594f829496d456d5e3e5e121d1d5f55cfacb477a547d503f08519fb7bb520fd7b4582111d413fb65120f9d74e5003b43845ddd31406810a0dc374a5030a41811c6d21411dd01f572b46505e83f782d7d1141d78f9c62b742108d83d69709d0042958f17f6a33dd0bd83b54c44cee4357ce920a673950eea393a05fcdc441e8e0a953b34d120e371911bcc944e9cd818dfb2fd154534f1c29cb645ba0cf6eb3f2ad188f32c3f21ca1468f0c6aa33b25d1bee308f786c8c47694bdcabdb2091f622e542c7c7748490b4cfa971ad22eb2c11e37c60492e0abb848f151268b29c8710c494a190a283e830f52a432777a74c304b0a09931cb30912e13251f567c174c0108fc12ff02931fc22bf4cfbfd4cfe886314befbd35ff2057574be14e02c7c814d2f4d3a1e1de73febc54f0dc72b0592ed93e591b6ecf1ba75020468bd8cae6142b118edcafb89513a45ea7fb2de547291663f70b69525c0546eae6d614bc013d1147b47538604a10a56cd950791134e1bb2454b8c3f8cd42c4955550e8f1a7b0055f4034e223ebb55a550bdf775ada573902a0f70ab195f7c0925adcab2588781f1389aa7564ca06616ffa8859e0013ed30a9cd6a4203926c7a5d5b438089b18a9196fe500b84e2

/-- The segments of SINPI. -/
def sinpiTable : Nat :=
  0xb11009e1fffd886c4407677ffa72db1103159ffc251ec4811447fe1c77b13058c9ff38312c501b1f7fb563bb150802dfe5f3b2c5824f57f754e8b180a77dfd37916c642ec67f2191bb1b0ceb1fbc161ac7438907eba3a4b200f5c5f9fce56c8842517e3f580b2511cb5f7ea62ac9c4c077db0fdfb2b14379f58a2b2cb855b27d0f421b3116a0df2dc9cacd45f507c5a3d5b3819065efe220ecf068df7b920b9b411b681ec9b2d6d14725e7ab6cbab491dc5de90843ad387bcb79c89f7b53201ede529f06d60852578c7abab5d2272de100cced8c8e6b77b417eb6824c15dc8d7cedb8979a768e0eab74270a5d7d0b06de8a0b37555bd5b80294d5d2cb222e1ca9b2740b540b8d2b8a1cd7d98ae50b29772af05ab9b2dc01c7e8e56e88bb617141080baa2feedc20de42ec4c40e6fc1938bb932165bbed7c6f00cc9d6e30e35bc834361b588a02f44d50c6c8f352bd9364ddaee04b6f84dd5a6adcc96bea385d1a7f5856fcce5866919e32bfc3a63da0c95ef014ed8f6746c7dc0e3c615995cf3305cf5736563bf9c213e55d91b16730acfd31637114dc344040589c7e9f0f904c8616f147c484221581a1b3714d0c375f5e0dbc5d43f7d794005b1a1137d5d3e523c7245c4170a42b71f51a985b1035dc884785567cf78724d218758d40e9c9f493b95ec34972a9284a568a34bcb54ae6d558103b3052edf5433028ccd4c8654c0a147365354651ced47ce54e19d425ff1b3c53b7d4f5e08ecfd4fa19388418742541834ce1003d16511cd2e780e748947574a581cad2f528bd243d5ff4f14cf947c3c23d4953edd19d5a0b5595268452456cd63554310f426bf5c157a3427a41dd7d568b1048562b62d5ca83fc5ec9d9857c5cf9a02cf69961783d07c1ddb358f30ee9478f70566123a402dddcf5a128e363fa77756a74376f9e4deb5b240d8106bb7e56e9e3496825e075c278cc9b8b3855728f31b54a6e245d1ccc1071db8c976482ecc682e415e03cb554ec393d79c72bdc4e7e5e5edc0a986c439b17d0b28e5715e7b5fa609d9e77fa29801525e845be9960610919ddd7aa182e422e541beb7610d48586cebb1985771fdcdc2ed561aa8795b28bb9187cd1ccf8cbef3623886d1ccbfc0989e819bdcbff1162b7860cd9bfc818bc616a8130f3063278546f7e3cfd8d66138edbbf4e6388048045b7d798eca1072a04f6d63d903b8e1dbdf18ff00d53db9f8c641ac2f0eb0fe6d90d80a3308cfab644d4228802bee991820710a34fca6470015fc00ff6591ef03ed26efe964838096c9b7fe1921d00c90f8

/-- The segments of TANH. -/
def tanhTable : Nat :=
  0x1fffff8000000007ffffdc00000001fffff5c00000007ffffd100000001fffff2c00000007ffffc400000001ffffef000000007ffffb300000001ffffea400000007ffff9d00000001ffffe4000000007ffff8100000001ffffdc000000007ffff5d00000001ffffd1c00000007ffff2e00000001ffffc4800000017fffef300000005ffffb3c00000017fffea600000005ffff9e000000017fffe4400000005ffff82400000017fffdc600000005ffff5e800000017fffd2400000009ffff30c00000027fffc5400000009fffef5c00000027fffb490000000dfffeaa400000037fff9f30000000dfffe49000000047fff83b00000011fffdcc800000057fff60600000019fffd2c400000067fff3300000001dfffc5ec00000087ffef8c00000025fffb570000000b7ffeae000000031fffa040000000e7ffe4e00000003dfff8513ffc00117ffdd2cfff00051fff6227ffc00167ffd348fff00065fff3553ffc001d7ffc695fff00085ffefbbfffc00257ffb646fff000a9ffeb1d7ffc002f7ffa156ffe000d9ffe52efff8003d7ff8673ffe00115ffdd917ff8004e7ff63eeffd00161ffd3ca3ff400647ff379dffc001c9ffc73c3ff000817fefeb6ffb00249ffb71dffec00a57feb5a8ffa002edffa26c3fe400d47fe57dfff8003c1ff87db7fe001107fddf78ff6004d5ff65c0bfd4015e7fd44e9ff400631ff39f9bfc801c17fc7e86ff0007f1ff01c93fb802407fb7fe6fec00a31feb9ac3fa402e37fa3922fe600d15fe5d22bf8803b47f895dbfdf010c9fde6693f6804c07f67bfdfd501585fd4e1f7f4006177f3ca29fc901b95fc8ad7bf0807cf7f055bdfba0235dfb9085fec40a017ebe84ffa602d49fa4fcf7e6c0ccf7e63c8ff8e039f5f8b5293dfc10637defa64f6f04a21f6a7c4fd7014f27d5b226f4705eb1f40841bcc01abd7c9d6def16078c5f0af173be422137bab76eed8099c1ec6abfbad02b567a776aee8d0c34de6fda2798436f778f02bce300f751e01bd537ec457c7700bf5dc213801d768eab60c5776748fcb6d40187bdcc7620b3e06d80717f3a0cab1e8e9bec17f316c882d6dac330c0825d9dadb6c5aecca7f168efaa6b5e2e74198b3466c28cd01631fd72abb385dd7f0e1a69c8f71f5c12ec7a3443755602609e80d256c53a36259e34f6993b75f8e761563649b5dbe9e65bb0510af48284186dd3e40423a5867854dfd7356b05b3eb3150fc3b4a71f78a96162efc9d96d2314734cb77a0806e3f413655f38d13d6bc8e857ed782fdc207e01ff5603ffaab

/-- The segments of SIGM. -/
def sigmTable : Nat :=
  0x807fd58f800aa85edfb5e3a047bf26b7ce34d852870d25e820323817e40e765b4b9d71992d9c7de2ad3d3b53f6cfac9d5e07d6a19e1524051955f061b74837f7b98696ec11dea170628558d86c944858753da6189140f5fd495b058b93b57310dd513fb3ed58e3dc7c47da275514e177101e3cb4f63340439c051d288b9d00ce997444d29fc42e20ab4fe097670a492753a5220b424a79a0d547a3a0827d023081b6001d018c0b0061ef06713bf27d15dd816e06948f84e000512e2b205115f011fe8147403dd403fc85619f0dbdc0e1fa885cc30d303204bc14c0ad580b112a44a026700272a811070884c08a91243a81e3101ea1d20d006af406c52442e417ac017ef7d0a4053c80549bb42441288012b0760810418c0420b381c80e7d00e95ae0650333c03386e01680b5200b606104f028040282f6011808d7008def403e01f3c01f54880dc06e5006ea510300185c0186bac0ac056100563c10260130001308080840432004332e01e00ed000ed448068034500345bb01700b8c00b8dbc050028c0028ca801200900009003404001fc001fc6e00e0070400702f4030018c0018c0d00b00578005762c0280135001347f00800440004411002000f0000f04a00700350003504401800bb000bb280050029400294b0014009200091c5004002040020294010007200071880030019000190c800c0058000586c002001380013824008004500044de002000f4000f318008003600035a2001000bc000bd54004002a00029c6001000940009374004002100020880010007400072d800400190001956001000580005970004001400013bb0010004400045a8000000f0000f5e000000380003640000000c0000bf80000002c0002a40000000900009520000002000020e8000000700007420000001800019a0000000600005a70000001400013f400000040000467000000100000f8c0000003000036e0000000c0000c1c000000300002ac00000008000096c000000200002140000000800007580000002000019f0000000400005b800000010000143000000040000474000000100000fc000000040000378000000100000c40000000400002b40000001000009900000004000021c000000000000770000000000001a40000000000005d00000000000014800000000000048000000000000100000000000000380000000000000c80000000000002c00000000000009c000000000000220000000000000780000000000001b00000000000005c0000000000001500000000000004800000000000010

/-- The signed value of the low `w` bits. -/
def apxCoef (t lo w : Nat) : Int := signedOf w (t / 2 ^ lo)

/-- R121: a table at the reduced argument `u`, in units of 2^-27. -/
def apxEval (t e1 e2 u : Nat) : Nat :=
  let i := u / 2 ^ 25 % 128
  let seg := t / 2 ^ (58 * i)
  let d : Int := (u % 2 ^ 25 : Nat) - 2 ^ 24
  let c : Int := apxCoef seg 28 18 + apxCoef seg 46 12 * d / 2 ^ (24 + e2 - e1)
  let y : Int := (seg % 2 ^ 28 : Nat) + c * d / 2 ^ (e1 - 3)
  (max y 0).toNat

/-- The exponent of the leading bit of a finite nonzero value. -/
def leadExp (m : Nat) (e : Int) : Int := e + (bitLen m : Int) - 1

/-- The fraction below the leading bit, in units of 2^-k. -/
def leadFrac (m k : Nat) : Nat := (m - 2 ^ (bitLen m - 1)) * 2 ^ k / 2 ^ (bitLen m - 1)

/-- Whether the value is a power of two. -/
def isPow2 (m : Nat) : Bool := decide (m = 2 ^ (bitLen m - 1))

/-- A finite result outside the special cases: rounded once by RNE, with NX (06 R122). -/
def apxRound (f : FFmt) (v : FVal) : Nat × BitVec 5 := let r := roundF f 0 false v; (r.1, r.2 ||| fNX)

/-- An exact result of the special cases. -/
def apxExact (f : FFmt) (v : FVal) : Nat × BitVec 5 := roundF f 0 false v

/-- A number over 2^27 as a value. -/
def over27 (neg : Bool) (y : Nat) (e : Int) : FVal := .fin neg y (e - 27) false

/-- An exponent far outside every format stands for all beyond it. -/
def clampExp (n : Int) : Int := max (-4000) (min 4000 n)

/-- EXP2 of x = i / 2^k: the value before rounding, and whether x is an integer (06 R122). -/
def exp2Of (i : Int) (k : Nat) : FVal × Bool :=
  let n := i / 2 ^ k
  let r := (i % 2 ^ k).toNat
  if r = 0 then (.fin false 1 (clampExp n) false, true)
  else (over27 false (apxEval exp2Table 24 27 (r * 2 ^ 32 / 2 ^ k)) (clampExp n), false)

/-- A finite value as an integer over 2^k, with k at least `least`. -/
def overPow (neg : Bool) (m : Nat) (e : Int) (least : Nat) : Int × Nat :=
  let k := max least (-e).toNat
  (unitsOf neg m e (-(k : Int)), k)

/-- SINPI of x = i / 2^k, k at least 1 (06 R122); `nz` for an operand -0. -/
def sinpiOf (f : FFmt) (i : Int) (k : Nat) (nz : Bool) : Nat × BitVec 5 :=
  let w := (2 * i % (4 * 2 ^ k)).toNat
  let q := w / 2 ^ k
  let r := w % 2 ^ k
  if r = 0 then
    if q % 2 = 0 then apxExact f (.fin nz 0 0 false) else apxExact f (.fin (decide (q = 3)) 1 0 false)
  else
    let u := r * 2 ^ 32 / 2 ^ k
    let h := if q % 2 = 0 then apxEval sinpiTable 24 26 u
      else if u = 0 then 2 ^ 27 else apxEval sinpiTable 24 26 (2 ^ 32 - u)
    apxRound f (over27 (decide (2 ≤ q)) h 0)

/-- L of SIGM: rne(log2(e) × 2^32). -/
def log2e32 : Int := 6196328019

/-- RCP. -/
def apxRcp (f : FFmt) (a : Nat) : Nat × BitVec 5 :=
  match f.value a with
  | .nan => (f.qnan, 0)
  | .inf n => (f.zero n, 0)
  | .fin n m e _ =>
    if m = 0 then (f.inf n, fDZ)
    else
      let x := leadExp m e
      if isPow2 m then apxExact f (.fin n 1 (-x) false)
      else apxRound f (over27 n (apxEval rcpTable 24 26 (leadFrac m 32)) (-x - 1))

/-- RSQ. -/
def apxRsq (f : FFmt) (a : Nat) : Nat × BitVec 5 :=
  match f.value a with
  | .nan => (f.qnan, 0)
  | .inf n => if n then (f.qnan, fNV) else (f.zero false, 0)
  | .fin n m e _ =>
    if m = 0 then (f.inf n, fDZ)
    else if n then (f.qnan, fNV)
    else
      let x := leadExp m e
      let k := x / 2
      let p := (x % 2).toNat
      if p = 0 ∧ isPow2 m = true then apxExact f (.fin false 1 (-k) false)
      else apxRound f (over27 false (apxEval rsqTable 25 26 (p * 2 ^ 31 + leadFrac m 31)) (-k))

/-- EXP2. -/
def apxExp2 (f : FFmt) (a : Nat) : Nat × BitVec 5 :=
  match f.value a with
  | .nan => (f.qnan, 0)
  | .inf n => if n then (f.zero false, 0) else (f.inf false, 0)
  | .fin n m e _ =>
    let (i, k) := overPow n m e 0
    let r := exp2Of i k
    if r.2 then apxExact f r.1 else apxRound f r.1

/-- LOG2. -/
def apxLog2 (f : FFmt) (a : Nat) : Nat × BitVec 5 :=
  match f.value a with
  | .nan => (f.qnan, 0)
  | .inf n => if n then (f.qnan, fNV) else (f.inf false, 0)
  | .fin n m e _ =>
    if m = 0 then (f.inf true, fDZ)
    else if n then (f.qnan, fNV)
    else
      let x := leadExp m e
      if isPow2 m then apxExact f (.ofInt x)
      else
        let t : Int := x * 2 ^ 27 + (apxEval log2Table 24 27 (leadFrac m 32) : Int)
        apxRound f (over27 (decide (t < 0)) t.natAbs 0)

/-- SINPI. -/
def apxSinpi (f : FFmt) (a : Nat) : Nat × BitVec 5 :=
  match f.value a with
  | .nan => (f.qnan, 0)
  | .inf _ => (f.qnan, fNV)
  | .fin n m e _ => let (i, k) := overPow n m e 1; sinpiOf f i k (n && decide (m = 0))

/-- COSPI: SINPI of x + 1/2, the addition exact. -/
def apxCospi (f : FFmt) (a : Nat) : Nat × BitVec 5 :=
  match f.value a with
  | .nan => (f.qnan, 0)
  | .inf _ => (f.qnan, fNV)
  | .fin n m e _ => let (i, k) := overPow n m e 1; sinpiOf f (i + 2 ^ (k - 1)) k false

/-- TANH. -/
def apxTanh (f : FFmt) (a : Nat) : Nat × BitVec 5 :=
  match f.value a with
  | .nan => (f.qnan, 0)
  | .inf n => apxExact f (.fin n 1 0 false)
  | .fin n m e _ =>
    if m = 0 then (f.zero n, 0)
    else
      let (i, k) := overPow false m e 0
      if 8 * 2 ^ k ≤ i then apxRound f (.fin n 1 0 false)
      else apxRound f (over27 n (apxEval tanhTable 22 22 (i.toNat * 2 ^ 29 / 2 ^ k)) 0)

/-- SIGM. -/
def apxSigm (f : FFmt) (a : Nat) : Nat × BitVec 5 :=
  match f.value a with
  | .nan => (f.qnan, 0)
  | .inf n => if n then (f.zero false, 0) else apxExact f (.fin false 1 0 false)
  | .fin n m e _ =>
    if m = 0 then apxExact f (.fin false 1 (-1) false)
    else
      let (i, k) := overPow n m e 0
      if 16 * 2 ^ k ≤ i then apxRound f (.fin false 1 0 false)
      else if 0 < i then
        apxRound f (over27 false (2 ^ 27 - apxEval sigmTable 23 23 ((16 * 2 ^ k - i).toNat * 2 ^ 28 / 2 ^ k)) 0)
      else if -(16 * 2 ^ k) ≤ i then
        apxRound f (over27 false (apxEval sigmTable 23 23 ((i + 16 * 2 ^ k).toNat * 2 ^ 28 / 2 ^ k)) 0)
      else apxRound f (exp2Of (i * log2e32) (k + 32)).1

/-- The approximate functions by number (07 R148; 08 R173). -/
def apx (fn : Nat) (f : FFmt) (a : Nat) : Nat × BitVec 5 :=
  if fn = 0 then apxRcp f a else if fn = 1 then apxRsq f a else if fn = 2 then apxExp2 f a
  else if fn = 3 then apxLog2 f a else if fn = 4 then apxSinpi f a else if fn = 5 then apxCospi f a
  else if fn = 6 then apxTanh f a else apxSigm f a

/-- RCP (07 R148; 06 R120 to R122). -/
def execRcp (f : BitVec 3) (d a : Reg) (s : State) : Host.Outcome State Fault Refusal :=
  goes (s.run scalarGate 4 (fun s => s.writesF d (apxRcp (fffFmt f.toNat) (s.reg a).toNat)))

/-- RSQ (07 R148; 06 R120 to R122). -/
def execRsq (f : BitVec 3) (d a : Reg) (s : State) : Host.Outcome State Fault Refusal :=
  goes (s.run scalarGate 4 (fun s => s.writesF d (apxRsq (fffFmt f.toNat) (s.reg a).toNat)))

/-- EXP2 (07 R148; 06 R120 to R122). -/
def execExp2 (f : BitVec 3) (d a : Reg) (s : State) : Host.Outcome State Fault Refusal :=
  goes (s.run scalarGate 4 (fun s => s.writesF d (apxExp2 (fffFmt f.toNat) (s.reg a).toNat)))

/-- LOG2 (07 R148; 06 R120 to R122). -/
def execLog2 (f : BitVec 3) (d a : Reg) (s : State) : Host.Outcome State Fault Refusal :=
  goes (s.run scalarGate 4 (fun s => s.writesF d (apxLog2 (fffFmt f.toNat) (s.reg a).toNat)))

/-- SINPI (07 R148; 06 R120 to R122). -/
def execSinpi (f : BitVec 3) (d a : Reg) (s : State) : Host.Outcome State Fault Refusal :=
  goes (s.run scalarGate 4 (fun s => s.writesF d (apxSinpi (fffFmt f.toNat) (s.reg a).toNat)))

/-- COSPI (07 R148; 06 R120 to R122). -/
def execCospi (f : BitVec 3) (d a : Reg) (s : State) : Host.Outcome State Fault Refusal :=
  goes (s.run scalarGate 4 (fun s => s.writesF d (apxCospi (fffFmt f.toNat) (s.reg a).toNat)))

/-- TANH (07 R148; 06 R120 to R122). -/
def execTanh (f : BitVec 3) (d a : Reg) (s : State) : Host.Outcome State Fault Refusal :=
  goes (s.run scalarGate 4 (fun s => s.writesF d (apxTanh (fffFmt f.toNat) (s.reg a).toNat)))

/-- SIGM (07 R148; 06 R120 to R122). -/
def execSigm (f : BitVec 3) (d a : Reg) (s : State) : Host.Outcome State Fault Refusal :=
  goes (s.run scalarGate 4 (fun s => s.writesF d (apxSigm (fffFmt f.toNat) (s.reg a).toNat)))

end Sys2Proof.Machine
end

