-- ==== Sys2Proof/Machine/Engine.lean ====
section
/-! DEFINITION. Sys2Proof/Machine/Engine.lean: the pointers of engines and matrix units (12 R255, R256; 09 R189), the
arrivals they make at sync words (12 R264, R265), and stream detectors (03 R51). -/

namespace Sys2Proof.Machine

/-- Who queued an engine's work: the cluster it stands for, the partition, the mode, the launch whose footprint binds it
(matrix commands only), and whether an unqualified scratchpad pointer means that cluster (09 R189; 12 R255). -/
structure Eng where
  clu : Nat
  part : Nat
  sup : Bool
  launch : Option Nat := none
  own : Bool := false
  /-- For a matrix command, its core and its ticket: it translates through its unit's load pipes, and peers answer it there. The
  copy and halo engines use the service directly (16 R374). -/
  mx : Option (Nat × Nat) := none
deriving DecidableEq, Repr

/-- The unit that translates for an engine. -/
def Eng.unit (g : Eng) : Nat :=
  match g.mx with
  | some (k, _) => matUnit k
  | none => serviceUnit (dieOf g.clu)

/-- Why an engine's access fails: at R41 or the footprint, or in translation; poison is told apart by its cause. -/
structure EngErr where
  xlate : Bool
  cause : Cause
deriving DecidableEq, Repr

/-- An engine's access to `size` bytes: the segments, or why it fails. -/
def State.engSegs (s : State) (g : Eng) (ptr : Word) (size need : Nat) (wr : Bool) : Except EngErr (List (Nat × Nat)) :=
  let bad (c : Cause) : Except EngErr (List (Nat × Nat)) := .error ⟨false, c⟩
  if ptr.toNat / 2 ^ 52 = 1 then
    let q := bitsAt ptr 40 10
    let off := ptr.toNat % 2 ^ 40
    if bitsAt ptr 50 2 ≠ 0 then bad Cause.handleBounds
    else if q = 0 ∧ g.own = false then bad Cause.copyPacketInvalid
    else
      let k := if q = 0 then g.clu else q - 1
      if q ≠ 0 ∧ k ∉ (s.part g.part).clusters then bad Cause.partitionViolation
      else if !covers 0x7B need then bad Cause.handlePerm
      else if 65536 * (banksOf 1 (s.clu k).bankmode).length < off + size then bad Cause.handleBounds
      else .ok (s.scratchSegs k off size)
  else
    match s.resolve { clu := g.clu, part := g.part, sup := g.sup, thread := false } ptr size need with
    | .error e => bad e.code
    | .ok (.table e off) =>
      if e.space = 3 ∨ e.space = 5 then bad Cause.handlePerm
      else
        let foot := match g.launch with
          | none => []
          | some l => (s.launch l).foot
        if !footCovers foot (e.base + off) size wr then bad Cause.footprintViolation
        else
          match s.xlateRange g.unit g.part (decide (e.space = 2)) g.sup need (e.base + off) size with
          | .error k => .error ⟨true, k⟩
          | .ok segs => .ok segs
    | .ok _ => bad Cause.handlePerm

/-! ## Stopping a matrix unit (09 R196) -/

/-- The context bound to a core's matrix unit, or another that stands in for it. -/
def State.mxBound (s : State) (k other : Nat) : Nat :=
  (((List.range 16).map (16 * k + ·)).find? (fun t => (s.ctx t).slot.live && decide ((s.ctx t).sta.bind = 2))).getD other

/-- The unit stops: an event to its binding thread with the cause, the pointer, PROG, ROW and SUB (09 R196). DESIGN CHOICE: a row
above 127 (a k row of B, or a row of a gang's member) shows in ROW modulo 128 (log 61). -/
def State.unitStop (s : State) (k ctx prog : Nat) (cause sub : Cause) (ptr : Word) (row : Nat) : State :=
  let info := BitVec.ofNat 64 (prog % 2 ^ 20 * 2 ^ 16 + row % 2 ^ 7 * 2 ^ 6 + sub.toNat)
  (s.modMat k (fun m => { m with stop := true, cause := cause, stopAddr := ptr, stopInfo := info })).raiseAt (s.mxBound k ctx)
    { code := cause, addr := ptr, info := info }

/-! ## Sync words (12 R264, R265): CNT [31:0], TGT [63:32], GEN [95:64], ARM [96], OVR [97] -/

/-- CNT. -/
def swCnt (w : Nat) : Nat := w % 2 ^ 32
/-- TGT. -/
def swTgt (w : Nat) : Nat := w / 2 ^ 32 % 2 ^ 32
/-- GEN. -/
def swGen (w : Nat) : Nat := w / 2 ^ 64 % 2 ^ 32
/-- ARM. -/
def swArm (w : Nat) : Nat := w / 2 ^ 96 % 2
/-- OVR. -/
def swOvr (w : Nat) : Nat := w / 2 ^ 97 % 2

/-- A sync word from its fields; the reserved bits are kept from `old`. -/
def swMake (old cnt tgt gen arm ovr : Nat) : Nat :=
  cnt % 2 ^ 32 + tgt % 2 ^ 32 * 2 ^ 32 + gen % 2 ^ 32 * 2 ^ 64 + arm % 2 * 2 ^ 96 + ovr % 2 * 2 ^ 97
    + old / 2 ^ 98 % 2 ^ 30 * 2 ^ 98

/-- R265: an arrival of `n` bytes; whether the word was or became overrun. -/
def swArrive (w n : Nat) : Nat × Bool :=
  if swOvr w = 1 then (w, true)
  else
    let c := swCnt w + n
    if 2 ^ 32 ≤ c ∨ (swArm w = 1 ∧ swTgt w < c) then (swMake w (c % 2 ^ 32) (swTgt w) (swGen w) (swArm w) 1, true)
    else if swArm w = 1 ∧ c = swTgt w then (swMake w 0 (swTgt w) (swGen w + 1) 1 0, false)
    else (swMake w c (swTgt w) (swGen w) (swArm w) 0, false)

/-- An arrival at the sync word at a location: its waiters look again. -/
def State.arriveAt (s : State) (l n : Nat) : State × Bool :=
  let r := swArrive (s.peekN l 16) n
  (s.placeN {} l 16 r.1, r.2)

/-- Whether an arrival at a sync word must wait: its bank is changing mode (03 R45) or its line is locked (10 R226). -/
def State.arriveHeld (s : State) (l : Nat) : Bool :=
  s.lockedFor (lineOf l) noCtx

/-- What a held arrival asks for. -/
def State.askArrive (s : State) (l : Nat) : State := s.askWrites {} [lineOf l]

/-- The location of the sync word that an engine's pointer names: 16-byte aligned, in scratchpad. -/
def State.syncLoc (s : State) (g : Eng) (ptr : Word) : Option Nat :=
  if ptr.toNat / 2 ^ 52 = 1 ∧ ptr.toNat % 16 = 0 then
    match s.engSegs g ptr 16 needW true with
    | .ok ((l, _) :: _) => some l
    | _ => none
  else none

/-! ## Stream detectors (03 R51) -/

/-- The handle and virtual line that a pointer's access counts under, when its handle's POLICY is ALLOC and its SPACE DRAM
or GRID. -/
def State.streamKey (s : State) (w : Who) (ptr : Word) : Option (Nat × Nat) :=
  match s.resolve { w with sup := true } ptr 1 0 with
  | .ok (.table e off) =>
    if e.policy = 0 ∧ (e.space = 1 ∨ e.space = 3) then some (ptr.toNat / 2 ^ 52, (e.base + off) / 128) else none
  | _ => none

/-- An access at cycle `now` to a line: the detector's streams after it, and whether the access is no-allocate traffic. A
stream idle for 1,024 cycles has ended; a fifth run replaces the stream that advanced least recently. DESIGN CHOICE: an access
to the run's last line again neither advances nor ends it, one to an earlier line of the run does not continue it and ends it,
and one elsewhere is another run's (log 53). -/
def noteStream (l : List Stream) (now h line : Nat) : List Stream × Bool :=
  let l := l.filter (fun t => decide (now < t.last + 1024))
  match l.find? (fun t => decide (t.hidx = h ∧ (t.next = line ∨ t.next = line + 1))) with
  | some t =>
    if t.next = line then (l.erase t ++ [{ t with next := line + 1, run := t.run + 1, last := now }], decide (16 ≤ t.run))
    else (l, decide (16 < t.run))
  | none =>
    let l := l.filter (fun t => !decide (t.hidx = h ∧ t.next ≤ line + t.run ∧ line < t.next))
    ((if 4 ≤ l.length then l.drop 1 else l) ++ [{ hidx := h, next := line + 1, run := 1, last := now }], false)

/-- The arithmetic cycle that a detector counts: its cluster's partition's for a core or a matrix unit, the uncapped clock's for
a copy engine, which belongs to no partition. -/
def State.unitCycle (s : State) (unit : Nat) : Nat :=
  if unit < 4096 then (match s.partOf (unit % 2048 / 4) with | some p => s.acycle p | none => s.cycle) else s.cycle

/-- A core's detector sees an access of its running context: whether it is no-allocate traffic. -/
def State.coreStream (s : State) (ptr : Word) : Bool × State :=
  match s.streamKey (s.who s.cur) ptr with
  | none => (false, s)
  | some (h, line) =>
    let r := noteStream (s.core (coreOf s.cur)).detectors (s.acycle s.myPart) h line
    (r.2, s.modCore (coreOf s.cur) (fun k => { k with detectors := r.1 }))

/-- A matrix unit's detector sees its loads of some pointers (03 R51). -/
def State.matStream (s : State) (k : Nat) (g : Eng) (ps : List Word) : State :=
  ps.foldl (fun s p =>
    match s.streamKey { clu := g.clu, part := g.part, sup := true, thread := false } p with
    | none => s
    | some (h, line) => s.modMat k (fun m => { m with detectors := (noteStream m.detectors (s.acycle g.part) h line).1 })) s

end Sys2Proof.Machine
end

