-- ==== Sys2Proof/Machine/Trace.lean ====
section
/-! DEFINITION. Sys2Proof/Machine/Trace.lean: the trace ring, ordered operations under record and replay, and divergence
(17 R411 to R416). -/

namespace Sys2Proof.Machine

/-- A partition's supervisor as an accessor (17 R412). -/
def State.partEng (s : State) (p : Nat) : Eng := { clu := s.firstClu p, part := p, sup := true }

/-- The header of the trace ring and its L, if `TRACEPTR` names a ring that 17 R412 accepts. -/
def State.ringOf (s : State) (p : Nat) : Option (Nat × Nat) :=
  let ptr := (s.part p).traceptr
  let ok := match s.resolve { clu := s.firstClu p, part := p, sup := true, thread := false } ptr 64 needR with
    | .ok (.table e _) => decide (e.space = 1) && e.priv
    | _ => false
  if ok = false ∨ ptr.toNat % 64 ≠ 0 then none
  else
    match s.engSegs (s.partEng p) ptr 64 needR false with
    | .error _ => none
    | .ok segs =>
      let a := (segs.headD (0, 0)).1
      let l := s.peekN (a + 16) 1
      if 1 ≤ l ∧ l ≤ 24 then some (a, l) else none

/-- The location of record slot `i` of a ring. -/
def State.ringSlot (s : State) (p l i : Nat) : Option Nat :=
  match s.engSegs (s.partEng p) ((s.part p).traceptr + BitVec.ofNat 64 (64 + 32 * (i % 2 ^ l))) 32 needR false with
  | .error _ => none
  | .ok segs => some (segs.headD (0, 0)).1

/-- The oldest record of the partition that has been begun enters the ring, when the ring has room (17 R412). -/
def State.flushTrace (s : State) (p : Nat) : State :=
  match (s.part p).traceq, s.ringOf p with
  | r :: rest, some (a, l) =>
    let wr := s.peekN a 8
    let rd := s.peekN (a + 8) 8
    if wr - rd < 2 ^ l then
      match s.ringSlot p l wr with
      | none => s
      | some q =>
        let s1 := s.place {} ((span q 32).zip (leBytes 32 r.toNat))
        (s1.placeN {} a 8 ((wr + 1) % 2 ^ 64)).modPart p (fun x => { x with traceq := rest })
    else s
  | _, _ => s

/-- Raise REPLAY_DIVERGENCE with a ring index, set DIV, and let the launch go on with replay off (17 R416). -/
def State.diverge (s : State) (p : Nat) (l : Option Nat) (idx : Word) : State :=
  let s1 := (s.modPart p (fun x => { x with trace := x.trace ||| 0x80 })).raiseService p
    { code := Cause.replayDivergence, info := idx }
  match l with
  | none => s1
  | some k => s1.modLaunch k (fun x => { x with replay := 0 })

/-- The record at the read position, MARK and BRANCH records skipped: its index, and its 32 bytes (17 R415). -/
def State.readRecordFrom (s : State) (p a l : Nat) : Nat → Nat → Option (Nat × BitVec 256)
  | 0, _ => none
  | fuel + 1, i =>
    if s.peekN a 8 ≤ i then none
    else
      match s.ringSlot p l i with
      | none => none
      | some q =>
        let r : BitVec 256 := BitVec.ofNat 256 (s.peekN q 32)
        if bitsAt r 0 8 = 5 ∨ bitsAt r 0 8 = 6 then State.readRecordFrom s p a l fuel (i + 1) else some (i, r)

/-- The record that replay stands at. -/
def State.readRecord (s : State) (p : Nat) : Option (Nat × BitVec 256) :=
  match s.ringOf p with
  | none => none
  | some (a, l) => s.readRecordFrom p a l (2 ^ l) (s.peekN (a + 8) 8)

/-- Advance the read index past record `i`. -/
def State.passRecord (s : State) (p i : Nat) : State :=
  match s.ringOf p with
  | none => s
  | some (a, _) => s.placeN {} (a + 8) 8 ((i + 1) % 2 ^ 64)

/-- Begin a record of a launch's event. -/
def State.beginRecord (s : State) (p l kind b1 w4 w8 w16 : Nat) : State :=
  s.modPart p (fun x => { x with traceq := x.traceq ++ [traceRecord kind b1 (s.launch l).lcnt w4 w8 w16 s.refCycle] })

/-- An event that record logs and replay orders: `none` while it must wait, else the state with it logged or matched
(17 R414, R415). A match is in kind, launch and identity; for a RACE record the major must be equal too, or replay has
diverged (17 R416). -/
def State.logged (s : State) (p : Nat) (l : Option Nat) (kind b1 w4 w8 w16 : Nat) (same : BitVec 256 → Bool) : Option State :=
  match l with
  | none => some s
  | some k =>
    if s.replayIn k = 1 then
      if (s.part p).traceq.isEmpty then some ((s.beginRecord p k kind b1 w4 w8 w16).flushTrace p) else none
    else if s.replayIn k = 2 then
      match s.readRecord p with
      | none => none
      | some (i, r) =>
        if bitsAt r 0 8 = kind && decide (bitsAt r 16 16 = (s.launch k).lcnt % 2 ^ 16) && same r then
          if kind = 2 ∧ bitsAt r 8 8 ≠ b1 then some (s.diverge p (some k) (BitVec.ofNat 64 i)) else some (s.passRecord p i)
        else none
    else some s

/-- An ordered operation of a thread at a place (17 R413, R414): its major, its ordinal, its address, its identity. -/
def State.ordered (s : State) (c major loc : Nat) : Option State :=
  let x := s.ctx c
  if s.replayOf c = 0 then some s
  else
    (s.logged x.part x.launch 2 major x.raceNo (if isDram loc then loc % 2 ^ 40 else loc) x.identity (fun r =>
      decide (bitsAt r 32 32 = x.raceNo % 2 ^ 32) && decide (bitsAt r 128 64 = x.identity))).map
      (fun s => s.modCtx c (fun x => { x with raceNo := x.raceNo + 1 }))

/-- A word that a thread receives (17 R414): its receive ordinal, its identity and its sender's, as the word carries it. -/
def State.received (s : State) (c sender : Nat) : Option State :=
  let x := s.ctx c
  if s.replayOf c = 0 then some s
  else
    (s.logged x.part x.launch 3 0 x.recvNo x.identity sender (fun r =>
      decide (bitsAt r 32 32 = x.recvNo % 2 ^ 32) && decide (bitsAt r 64 64 = x.identity) &&
        decide (bitsAt r 128 64 = sender))).map
      (fun s => s.modCtx c (fun x => { x with recvNo := x.recvNo + 1 }))

end Sys2Proof.Machine
end

