-- ==== Sys2Proof/Machine/Egress.lean ====
section
/-! DEFINITION. Sys2Proof/Machine/Egress.lean: capabilities, the checks of the egress port, and a request on its way to
its target (16 R379, R385; 10 R233 to R235; 18 R420, R428, R431, R433). -/

namespace Sys2Proof.Machine

/-! ## Capabilities (16 R379) -/

/-- NODE. -/
def capNode (c : BitVec 128) : Nat := bitsAt c 117 11
/-- PART. -/
def capPart (c : BitVec 128) : Nat := bitsAt c 112 5
/-- HIDX. -/
def capHidx (c : BitVec 128) : Nat := bitsAt c 100 12
/-- PERM. -/
def capPerm (c : BitVec 128) : Nat := bitsAt c 92 8
/-- EPOCH. -/
def capEpoch (c : BitVec 128) : Nat := bitsAt c 84 8
/-- BASE. -/
def capBase (c : BitVec 128) : Nat := bitsAt c 44 40
/-- LEN. -/
def capLen (c : BitVec 128) : Nat := bitsAt c 4 40

/-- Whether epoch `e` is valid in a window (16 R383). -/
def epochValid (win : Word) (e : Nat) : Bool :=
  let cur := bitsAt win 0 8
  let floor := bitsAt win 8 8
  decide ((cur + 256 - e % 256) % 256 ≤ (cur + 256 - floor) % 256)

/-- The capability in a register pair. -/
def Ctx.pair (x : Ctx) (r : Reg) : BitVec 128 := x.reg (r + 1) ++ x.reg r

/-! ## What the egress knows (18 R418, R431) -/

/-- The coordinates of a node: A, B, C, D. -/
def nodeCoord (n : Nat) : List Nat := [n / 1024 % 2, n / 256 % 4, n / 16 % 16, n % 16]

/-- Whether a node lies within the fabric's sizes. A package that has no sizes is alone: its own node is within. -/
def State.inFabric (s : State) (n : Nat) : Bool :=
  decide (n = s.pkg.node) || ((nodeCoord n).zip s.pkg.sizes).all (fun p => decide (p.1 < p.2)) && decide (s.pkg.sizes.length = 4)

/-- The revision and masks of this package (18 R431). -/
def State.ownRev (s : State) : Rev := { rev := BitVec.ofNat 32 s.pkg.fwrev, ops := 0xFFFF, fmts := 0xFE0 }

/-- The revision entry of a node at the egress, if it holds one. -/
def State.revOf (s : State) (n : Nat) : Option Rev :=
  if n = s.pkg.node then some s.ownRev else (s.pkg.revs.find? (fun p => decide (p.1 = n))).map (·.2)

/-- Whether the copy of a target's window refuses an epoch (16 R385). -/
def State.windowRefuses (s : State) (node part e : Nat) : Bool :=
  match s.pkg.windows.find? (fun w => decide (w.1 = node) && decide (w.2.1 = part)) with
  | none => false
  | some w => let d := (bitsAt w.2.2 8 8 + 256 - e) % 256; decide (1 ≤ d ∧ d ≤ 127)

/-- The checks of 10 R234 at the egress, in order. `bits` are the OPMASK bits that the target needs; `fmt` the format of a
reduction. -/
def State.egress (s : State) (cap : BitVec 128) (tag : Bool) (o size perm : Nat) (bits : List Nat) (fmt : Option Nat) : Option Exc :=
  if !tag then some { code := Cause.capTag }
  else if capLen cap < o + size then some { code := Cause.capBounds }
  else if !covers (capPerm cap) perm then some { code := Cause.capPerm }
  else if !s.inFabric (capNode cap) then some { code := Cause.remoteUnreachable }
  else
    match s.revOf (capNode cap) with
    | none => some { code := Cause.remoteUnreachable }
    | some r =>
      if s.windowRefuses (capNode cap) (capPart cap) (capEpoch cap) then some { code := Cause.capRevoked }
      else if !bits.all (fun b => bitOf r.ops b) || fmt.any (fun f => !bitOf r.fmts f) then
        some { code := Cause.remoteOpUnsupported }
      else none

/-- The granule behind a PEER entry, read with supervisor rights: its capability, or none where it is untagged or in error. -/
def State.peerGranule (s : State) (u p : Nat) (e : HEntry) : Except Exc (Option (BitVec 128)) :=
  match s.xlate u p false true needR e.base with
  | .error k => .error { code := Cause.handleInvalid, info := k.setWidth 64 }
  | .ok l =>
    .ok (if !hasNat s.mtags (l / 16) || (s.errAt (span l 16)).isSome then none else some (BitVec.ofNat 128 (s.peekN l 16)))

/-- The capability behind PEER handle `h` (18 R433), or why it cannot be used: the one kept with the cluster's cached entry,
else the granule's. -/
def State.peerCap (s : State) (w : Who) (h : Nat) (e : HEntry) : Except Exc (BitVec 128) :=
  let kept : Except Exc (Option (BitVec 128)) :=
    match (s.clu w.clu).pcaps.find? (fun q => decide (q.1 = w.part ∧ q.2.1 = h)) with
    | some q => .ok q.2.2
    | none => s.peerGranule w.clu w.part e
  match kept with
  | .error x => .error x
  | .ok none => .error { code := Cause.capTag }
  | .ok (some cap) =>
    if capNode cap ≠ e.peern % 2 ^ 11 ∨ capPart cap ≠ e.peern / 2 ^ 11 ∨ capHidx cap ≠ e.peerh % 2 ^ 12 then
      .error { code := Cause.capTag }
    else .ok cap

/-! ## Requests (18 R423, R428) -/

/-- The OPC codes. -/
def opcRld : Nat := 0x01
/-- RST. -/
def opcRst : Nat := 0x02
/-- RAMO. -/
def opcRamo : Nat := 0x03
/-- WRITE. -/
def opcWrite : Nat := 0x04
/-- READ. -/
def opcRead : Nat := 0x05

/-- The pointer that a request names in its target partition. -/
def remPtr (q : FabPkt) : Word := BitVec.ofNat 64 (capHidx q.cap * 2 ^ 52 + (capBase q.cap + q.off.toNat) % 2 ^ 52)

/-- The OPMASK bits that a request needs (18 R431). RAMO codes above 8 are the model's own forms of `CAS`, `RED`,
`XSRD`, `LR` and `SC` through a PEER handle (log 30): no bit names them. -/
def opBits (opc mop : Nat) : List Nat :=
  if opc = opcRld then [if mop = 0 then 0 else 1]
  else if opc = opcRst then [if mop = 0 then 2 else 3]
  else if opc = opcRamo then (if mop ≤ 8 then [4 + mop] else [])
  else if opc = opcWrite ∨ opc = opcRead then [13]
  else if opc = 0x08 then [14] else if opc = 0x09 then [15] else []

/-- A request of this package. The OPND of a write counts its bytes (log 34). -/
def State.request (s : State) (part opc mop z : Nat) (cap : BitVec 128) (o : Word) (opnd : BitVec 128) (data : List Byte) : FabPkt :=
  { cls := 0, opc := opc, detour := false, vc := 0, tgtNode := capNode cap, tgtPart := capPart cap, srcNode := s.pkg.node,
    srcPart := part, eseq := 0, rev := ((s.revOf (capNode cap)).map (·.rev)).getD 0, cap := cap, off := o,
    opnd := if opc = opcWrite ∨ opc = 0x08 then BitVec.ofNat 128 data.length else opnd,
    mop := mop, sz := z, cause := 0, floor := 0, cur := 0, data := data }

/-- Send a request: the next sequence number of its target, or the number of the instruction that timed out and runs again
(10 R235). A source keeps at most 1,024 requests to one target unanswered. -/
def State.sendReq (s : State) (ctx pk : Option Nat) (reuse : Option Nat) (q : FabPkt) (d : Reg) (z : Nat) (acq : Bool)
    (halo : Option (Nat × Nat × Option Nat) := none) (mk : Outst → Outst := id) : Option (Nat × State) :=
  if 1024 ≤ (s.pkg.outst.filter (fun o => decide (o.pkt.tgtNode = q.tgtNode))).length then none
  else
    let next := SMap.at 0 s.pkg.eseqs q.tgtNode
    let n := reuse.getD next
    let q1 := { q with eseq := n }
    let seqs := if reuse.isSome then s.pkg.eseqs else SMap.put s.pkg.eseqs q.tgtNode ((next + 1) % 2 ^ 32)
    let o : Outst := mk { eseq := n, ctx := ctx, pk := pk, pkt := q1, reg := d, sz := z, acq := acq, halo := halo }
    some (n, s.modPkg (fun g => { g with eseqs := seqs, outbox := g.outbox ++ [q1], outst := g.outst ++ [o] }))

/-- Whether a request writes at its place: all but a `READ` and a plain `RLD`. -/
def reqWrites (opc mop : Nat) : Bool := !(decide (opc = opcRead) || (decide (opc = opcRld) && decide (mop = 0)))

/-- A thread's remote operation (10 R234): the egress checks, the release, the record of an ordered one of major `maj` (17
R414), the request, and the wait for the reply. One that writes leaves behind the release markers before it (11 R242). The
number of an operation that timed out serves that operation when it runs again, and no other (10 R235). -/
def State.remote (s : State) (cap : BitVec 128) (tag : Bool) (o : Word) (size perm opc mop z : Nat) (opnd : BitVec 128)
    (data : List Byte) (rel : Bool) (d : Reg) (acq : Bool) (maj : Option Nat := none) (mk : Outst → Outst := id) : Res :=
  match s.egress cap tag o.toNat size perm (opBits opc mop) none with
  | some e => .fault e
  | none =>
    let rl := if rel then s.release s.cur 3 else (s, !(reqWrites opc mop && hasMarker (s.ctx s.cur).buf))
    match rl with
    | (s1, false) => .wait s1 .marker
    | (s1, true) =>
      let x := s1.ctx s1.cur
      let reuse := match x.eseq with
        | none => none
        | some q => if q.1 = x.pc ∧ q.2.1 = capNode cap ∧ q.2.2.2 = x.ih then some q.2.2.1 else none
      if 1024 ≤ (s1.pkg.outst.filter (fun o => decide (o.pkt.tgtNode = capNode cap))).length then .wait s1 .reply
      else
        let told := reuse.isSome || x.traced.any (fun t => decide (t.1 = x.pc ∧ t.2 = x.ih))
        match (match maj with | some m => if told then some s1 else s1.ordered s1.cur m 0 | none => some s1) with
        | none => .wait s1 .trace
        | some s2 =>
          match s2.sendReq (some s2.cur) none reuse (s2.request x.part opc mop z cap o opnd data) d z acq (mk := mk) with
          | none => .wait s1 .reply
          | some (n, s3) =>
            .wait (s3.modCtx s3.cur (fun y => { y with
              eseq := if reuse.isSome ∨ x.eseq.any (fun q => decide (q.2.2.2 = x.ih)) then none else y.eseq,
              traced := if maj.isSome then some (x.pc, x.ih) else y.traced })) (.remote n)

/-- The machine once buffered bytes of some lines behind PEER handles are on their way to the egress; none while a release marker
stands before them. -/
def State.peerFirst (s : State) (c : Nat) (lines : List Nat) : Option State :=
  if (entriesOf (s.ctx c).buf).any (fun e => decide (e.line ∈ lines)) || (s.core (coreOf c)).shared.any (fun p => decide (p.2.line ∈ lines)) then
    s.flushLines c lines
  else some s

/-- An access through a PEER handle (18 R433): the capability's own checks, then the request, once the thread's own buffered
bytes of the line have been written and acknowledged (10 R216, R219). -/
def State.peerOp (s : State) (ptr : Word) (e : HEntry) (off size perm opc mop z : Nat) (opnd : BitVec 128) (data : List Byte)
    (rel : Bool) (d : Reg) (acq : Bool) (maj : Option Nat := none) (elem : Option Nat := none) : Res :=
  match s.peerCap (s.who s.cur) (ptr.toNat / 2 ^ 52) e with
  | .error x => .fault { x with addr := ptr }
  | .ok cap =>
    let ls := span (peerLoc s.myPart (ptr.toNat / 2 ^ 52) off) size
    match s.egress cap true off size perm (opBits opc mop) none, s.peerFirst s.cur (linesOf ls) with
    | some x, _ => .fault { x with addr := ptr }
    | none, none => .wait s (.place (ls.headD 0))
    | none, some s1 =>
      if (linesOf ls).any s1.peerLineOut then .wait s1 (.place (ls.headD 0))
      else s1.remote cap true (BitVec.ofNat 64 off) size perm opc mop z opnd data rel d acq maj
        (fun o => { o with elem := elem, via := some (ptr.toNat / 2 ^ 52) })

/-! ## Instructions of several accesses through a PEER handle (18 R433; log 35) -/

/-- What has been done of a context's instruction. -/
def State.vecPart (s : State) (c : Nat) : VPart :=
  match (s.ctx c).vpart with
  | some v => if v.pc = (s.ctx c).pc then v else { pc := (s.ctx c).pc }
  | none => { pc := (s.ctx c).pc }

/-- One more step of a context's instruction has been done. -/
def State.noteElem (s : State) (c k v : Nat) (bad : Bool) : State :=
  let p := s.vecPart c
  s.modCtx c (fun x => { x with vpart := some { p with got := p.got ++ [(k, v)], bad := p.bad || bad, fifo := none } })

/-- A READ or a WRITE of `n` bytes through a PEER handle, whose answer ends step `k` of the running context's instruction. -/
def State.stepSend (s : State) (ptr : Word) (h : HEntry) (off n k : Nat) (data : Option (List Byte)) : Res :=
  let z := if n = 1 then 1 else if n = 2 then 3 else if n = 4 then 5 else 6
  match data with
  | none => s.peerOp ptr h off n 1 opcRead 0 z 0 [] false 0 false none (some k)
  | some bs => s.peerOp ptr h off n 2 opcWrite 0 z 0 bs false 0 false none (some k)

/-- `n` bytes, in whole words, that the running context's instruction reads through a PEER handle: once every READ has been
answered, the bytes; until then, the next one. -/
def State.peerBytes (s : State) (ptr : Word) (h : HEntry) (off n : Nat) : Except Res (List Byte × State) :=
  let p := s.vecPart s.cur
  let got (i : Nat) : Option Nat := (p.got.find? (fun g => decide (g.1 = i))).map (·.2)
  match (List.range (n / 8)).find? (fun i => (got i).isNone) with
  | some i => .error (s.stepSend (ptr + BitVec.ofNat 64 (8 * i)) h (off + 8 * i) 8 i none)
  | none => .ok ((List.range (n / 8)).flatMap (fun i => leBytes 8 ((got i).getD 0)), s.modCtx s.cur (fun x => { x with vpart := none }))

/-- A store through a PEER handle that nothing waits for has failed: the thread gets the event of its cause, and a matrix unit
stops (log 60). -/
def State.storeLost (s : State) (tid : Nat) (x : Exc) : State :=
  if tid < matKey 0 then s.modThread tid (fun y => { y with held := insEvent x y.held })
  else
    let k := tid - matKey 0
    match (s.mat k).queue with
    | [] => s
    | c :: _ => s.unitStop k c.ctx c.prog Cause.matrixOperand x.code x.addr 0

/-- The oldest buffered store through a PEER handle whose line has none on its way is sent (18 R433). A capability that no
longer passes the egress's checks, or a handle that is gone, leaves the bytes unwritten and the thread with the event of
its cause: DESIGN CHOICE, the instruction has completed and the spec names no fault for it (log 60). -/
def State.pumpPeer (s : State) : State :=
  match s.pkg.peerq.find? (fun w => !s.pkg.outst.any (fun o => o.store.any (fun k => decide (k.2 = lineOf (peerLoc w.part w.hidx w.off))))) with
  | none => s
  | some w =>
    let who : Who := { clu := w.clu, part := w.part, sup := w.sup }
    let ptr := BitVec.ofNat 64 (w.hidx * 2 ^ 52 + w.off)
    let s1 := s.modPkg (fun g => { g with peerq := g.peerq.erase w })
    let lost (x : Exc) : State := s1.storeLost w.tid { x with addr := ptr }
    match s.resolve { who with sup := true } ptr w.data.length needW with
    | .ok (.table e _) =>
      (match s.peerCap who w.hidx e with
        | .error x => lost x
        | .ok cap =>
          match s.egress cap true w.off w.data.length 2 (opBits opcWrite 0) none with
          | some x => lost x
          | none =>
            match s1.sendReq none none none (s1.request w.part opcWrite 0 0 cap (BitVec.ofNat 64 w.off) 0 w.data) 0 0 false
              (mk := fun o => { o with store := some (w.tid, lineOf (peerLoc w.part w.hidx w.off)), via := some w.hidx }) with
            | none => s
            | some (_, s2) => s2)
    | .ok _ => lost { code := Cause.handlePerm }
    | .error x => lost x

end Sys2Proof.Machine
end

