-- ==== Sys2Proof/Machine/Routes.lean ====
section
/-! DEFINITION. Sys2Proof/Machine/Routes.lean: node numbers, the fabric's mesh-torus, routes and detours, and multicast trees
(18 R418 to R421, R434). -/

namespace Sys2Proof.Machine

/-- Serial order modulo 2^32: `a` lies ahead of `b`. -/
def serialAfter (a b : Nat) : Bool := let d := (a + 2 ^ 32 - b % 2 ^ 32) % 2 ^ 32; decide (1 ≤ d ∧ d < 2 ^ 31)

/-! ## Nodes and routes (18 R418 to R421) -/

/-- The size of a dimension: 0 A, 1 B, 2 C, 3 D. -/
def State.fsize (s : State) (i : Nat) : Nat := s.pkg.sizes.getD i 1

/-- A coordinate of a node. -/
def coordOf (n i : Nat) : Nat := (nodeCoord n).getD i 0

/-- The node with one coordinate replaced. -/
def withCoord (n i v : Nat) : Nat :=
  let c (j : Nat) : Nat := if j = i then v else coordOf n j
  c 0 * 1024 + c 1 * 256 + c 2 * 16 + c 3

/-- Whether a node's port has a peer. Ports: 0 A−, 1 A+, to 7 D+. -/
def State.hasPeer (s : State) (n port : Nat) : Bool :=
  let i := port / 2
  let sz := s.fsize i
  if i < 2 then (if port % 2 = 0 then decide (0 < coordOf n i) else decide (coordOf n i + 1 < sz)) else decide (i < 4 ∧ 1 < sz)

/-- The neighbour behind a port. -/
def State.neighbour (s : State) (n port : Nat) : Nat :=
  let i := port / 2
  let sz := s.fsize i
  let x := coordOf n i
  withCoord n i (if port % 2 = 1 then (x + 1) % (if i < 2 then 2 ^ 11 else max sz 1) else (x + max sz 1 - 1) % (max sz 1))

/-- The port of a node's next hop in dimension `i` towards a target, if it is not there yet. -/
def State.hopIn (s : State) (n t i : Nat) : Option Nat :=
  let a := coordOf n i
  let b := coordOf t i
  if a = b then none
  else if i < 2 then some (2 * i + (decide (a < b)).toNat)
  else
    let sz := max (s.fsize i) 1
    some (2 * i + (decide ((b + sz - a % sz) % sz ≤ (a + sz - b % sz) % sz)).toNat)

/-- The port of the next hop: in the order C, D, B, A. -/
def State.hop (s : State) (n t : Nat) : Option Nat :=
  ((s.hopIn n t 2).or (s.hopIn n t 3)).or ((s.hopIn n t 1).or (s.hopIn n t 0))

/-- Whether the link-state table has a link of a node as DOWN. -/
def State.tableDown (s : State) (n port : Nat) : Bool := decide ((n, port) ∈ s.pkg.linkDown)

/-- Whether every remaining C and D hop from a node to a target is intact in its plane. -/
def State.planeIntact (s : State) : Nat → Nat → Nat → Bool
  | 0, _, _ => false
  | fuel + 1, n, t =>
    match (s.hopIn n t 2).or (s.hopIn n t 3) with
    | none => true
    | some p => !s.tableDown n p && State.planeIntact s fuel (s.neighbour n p) t

/-- A port of this package. -/
def State.oport (s : State) (p : Nat) : OPort := SMap.at {} s.oports p
/-- Change a port. -/
def State.modOport (s : State) (p : Nat) (f : OPort → OPort) : State := { s with oports := SMap.put s.oports p (f (s.oport p)) }

/-- Whether a node's port is DOWN: this package's by its own knowledge, another's by the table. -/
def State.portDown (s : State) (n p : Nat) : Bool :=
  s.tableDown n p || (decide (n = s.pkg.node) && decide ((s.oport p).state = 0))

/-- Where a packet at a node goes next: a port and whether it has detoured; none where it cannot go on (18 R421). A DOWN hop
in B or A has no way round (log 37). -/
def State.wayFrom (s : State) (n t : Nat) (detour : Bool) : Option (Nat × Bool) :=
  match s.hop n t with
  | none => none
  | some p =>
    if !s.portDown n p then some (p, detour)
    else if detour || decide (p < 4) then none
    else
      ((List.range 4).find? (fun q => s.hasPeer n q && !s.portDown n q && s.planeIntact 40 (s.neighbour n q) t)).map (fun q => (q, true))

/-- Whether a packet from a node reaches a target. -/
def State.reaches (s : State) : Nat → Nat → Nat → Bool → Bool
  | 0, _, _, _ => false
  | fuel + 1, n, t, detour =>
    if n = t then true
    else
      match s.wayFrom n t detour with
      | none => false
      | some (p, d) => State.reaches s fuel (s.neighbour n p) t d

/-- The virtual channel of a packet that leaves by a port (18 R420): VC0 on entering a dimension, VC1 from the dateline on. -/
def State.vcOn (s : State) (n inPort port vc : Nat) : Nat :=
  let i := port / 2
  let x := coordOf n i
  let same := decide (inPort / 2 = i) && decide (inPort < 8)
  let line := decide (2 ≤ i) && ((port % 2 = 1 && decide (x + 1 = s.fsize i)) || (port % 2 = 0 && decide (x = 0)))
  if line then 1 else if same then vc else 0

/-! ## Multicast trees (18 R434) -/

/-- The nodes of a box, by the first eight bytes of a node box: low A, B, C, D, then high. -/
def boxNodes (b : List Byte) : List Nat :=
  let at_ (i : Nat) : Nat := (b.getD i 0).toNat
  let r (i : Nat) : List Nat := span (at_ i) (at_ (4 + i) + 1 - at_ i)
  (r 0).flatMap (fun a => (r 1).flatMap (fun b => (r 2).flatMap (fun c => (r 3).map (fun d => a * 1024 + b * 256 + c * 16 + d))))

/-- Whether a packet is a multicast packet that travels as a tree. -/
def isTree (q : FabPkt) : Bool := decide (q.cls = 2 ∧ q.opc = 0x08)

/-- The OPND of a multicast packet: its box and partition, and the bytes of its payload. DESIGN CHOICE: the header has no other
place for what every port of the tree must know (log 31). -/
def mcastOpnd (box : List Byte) (n : Nat) : BitVec 128 := BitVec.ofNat 128 (leNat (box.take 9) + n * 2 ^ 72)

/-- The members of a multicast packet. -/
def mcastMembers (q : FabPkt) : List Nat := boxNodes (leBytes 8 q.opnd.toNat)

/-- The port by which the route from `n` to `t` leaves node `x`, where it passes it. -/
def State.portAt (s : State) : Nat → Nat → Nat → Nat → Option Nat
  | 0, _, _, _ => none
  | fuel + 1, n, t, x =>
    match s.hop n t with
    | none => none
    | some p => if n = x then some p else State.portAt s fuel (s.neighbour n p) t x

/-- The ports by which this package sends a tree's packet on: those of the routes from the source to the members (18 R420). -/
def State.treePorts (s : State) (q : FabPkt) : List Nat :=
  (mcastMembers q).foldl (fun acc m => match s.portAt 40 q.srcNode m s.pkg.node with
    | some p => addNat acc p
    | none => acc) []

/-- The members whose routes leave this package by a port. -/
def State.membersBehind (s : State) (q : FabPkt) (p : Nat) : List Nat :=
  (mcastMembers q).filter (fun m => decide (s.portAt 40 q.srcNode m s.pkg.node = some p))

/-- Whether no link of the route from a node to a member is DOWN: a tree never detours. -/
def State.routeClear (s : State) : Nat → Nat → Nat → Bool
  | 0, _, _ => false
  | fuel + 1, n, t =>
    match s.hop n t with
    | none => true
    | some p => !s.portDown n p && State.routeClear s fuel (s.neighbour n p) t

end Sys2Proof.Machine
end

