-- ==== Sys2Proof/Machine/MatrixQueue.lean ====
section
/-! DEFINITION. Sys2Proof/Machine/MatrixQueue.lean: command records, their validation, submission, waiting and status
(05 R90; 09 R186 to R196, R203). -/

namespace Sys2Proof.Machine

/-! ## Records (05 R90) -/

/-- `n` bytes of a record at byte `o`. -/
def rb (r : BitVec 512) (o n : Nat) : Nat := bitsAt r (8 * o) (8 * n)
/-- A flag bit of byte 1: 0 ta, 1 tb, 2 acc, 3 atile, 4 btile, 5 sync. -/
def rflag (r : BitVec 512) (i : Nat) : Bool := bitOf r (8 + i)
/-- cmd. -/
def rcmd (r : BitVec 512) : Nat := rb r 0 1
/-- The completion scope. -/
def rscope (r : BitVec 512) : Nat := bitsAt r 14 2
/-- The first tile of the destination group. -/
def rfirst (r : BitVec 512) : Nat := bitsAt r 16 3
/-- Tiles of the destination group: 1, 2 or 4. -/
def rgroup (r : BitVec 512) : Nat := 2 ^ bitsAt r 19 2
/-- A tile. -/
def rta (r : BitVec 512) : Nat := bitsAt r 24 3
/-- B tile. -/
def rtb (r : BitVec 512) : Nat := bitsAt r 27 3
/-- m. -/
def rmm (r : BitVec 512) : Nat := rb r 4 2
/-- n. -/
def rn (r : BitVec 512) : Nat := rb r 6 2
/-- k. -/
def rk (r : BitVec 512) : Nat := rb r 8 4
/-- afmt. -/
def rafmt (r : BitVec 512) : Nat := rb r 12 1
/-- bfmt. -/
def rbfmt (r : BitVec 512) : Nat := rb r 13 1
/-- cfmt. -/
def rcfmt (r : BitVec 512) : Nat := rb r 14 1
/-- A 64-bit pointer field. -/
def rptr (r : BitVec 512) (o : Nat) : Word := BitVec.ofNat 64 (rb r o 8)
/-- A signed 32-bit stride as a 64-bit word. -/
def rstride (r : BitVec 512) (o : Nat) : Word := sextW 32 (BitVec.ofNat 64 (rb r o 4))
/-- The gang field. -/
def rgang (r : BitVec 512) : Nat := rb r 60 4

/-- A tile's default. -/
def Mat.tile (m : Mat) (t : Nat) : Tile := SMap.at {} m.tiles t

/-- Whether the kind is one of the multiply kinds. -/
def isMma (c : Nat) : Bool := decide (1 ≤ c ∧ c ≤ 3)

/-- Whether a kind uses a field, named by its first byte (09 R192). -/
def usesField (r : BitVec 512) (o : Nat) : Bool :=
  let c := rcmd r
  let mma := isMma c
  let move := decide (c = 4 ∨ c = 5)
  let red := decide (c = 8) && rflag r 2
  let join := decide (c = 8) && !rflag r 2
  if o = 2 then mma || move || decide (c = 6 ∨ c = 7) || red
  else if o = 3 then mma
  else if o = 4 ∨ o = 6 then mma || move || decide (c = 7) || red
  else if o = 8 ∨ o = 12 ∨ o = 13 then mma
  else if o = 14 then mma || move || decide (c = 7) || red
  else if o = 15 ∨ o = 40 then decide (c = 3)
  else if o = 16 then (mma && !rflag r 3) || move || decide (c = 9)
  else if o = 24 then (mma && !rflag r 3) || move
  else if o = 28 ∨ o = 32 then (mma && !rflag r 4) || red
  else if o = 44 then decide (c = 3) || join
  else if o = 48 then !mma || rflag r 5
  else if o = 56 then true
  else mma || join

/-- The flag bits that a kind uses. -/
def usesFlags (r : BitVec 512) : Nat :=
  let c := rcmd r
  if isMma c then 0xFF else if c = 4 ∨ c = 5 then 0xE1 else if c = 8 then 0xE4 else 0xE0

/-- The fields of a record: first byte and length. -/
def recordFields : List (Nat × Nat) :=
  [(2, 1), (3, 1), (4, 2), (6, 2), (8, 4), (12, 1), (13, 1), (14, 1), (15, 1), (16, 8), (24, 4), (28, 4), (32, 8), (40, 4),
   (44, 4), (48, 8), (56, 4), (60, 4)]

/-- Reserved bits (05 R90): the byte that holds a nonzero one. -/
def reservedByte (r : BitVec 512) : Option Nat :=
  if bitsAt r 21 3 ≠ 0 then some 2 else if bitsAt r 30 2 ≠ 0 then some 3
  else if bitsAt r 332 4 ≠ 0 then some 41 else if bitsAt r 336 8 ≠ 0 then some 42 else if bitsAt r 344 8 ≠ 0 then some 43
  else if rb r 62 1 ≠ 0 then some 62 else if rb r 63 1 ≠ 0 then some 63 else none

/-- A nonzero field that the kind does not use: its lowest byte. -/
def unusedByte (r : BitVec 512) : Option Nat :=
  if rb r 1 1 &&& (0xFF - usesFlags r) ≠ 0 then some 1
  else if isMma (rcmd r) && ((!rflag r 3 && decide (rta r ≠ 0)) || (!rflag r 4 && decide (rtb r ≠ 0))) then some 3
  else recordFields.findSome? (fun p => if usesField r p.1 ∨ rb r p.1 p.2 = 0 then none else some p.1)

/-- The formats a tile may have (09 R187). -/
def tileFmtOk (f : Nat) : Bool := decide ((1 ≤ f ∧ f ≤ 6) ∨ (9 ≤ f ∧ f ≤ 11) ∨ (13 ≤ f ∧ f ≤ 16))

/-- The first of some conditions that holds: its byte. -/
def firstOf : List (Bool × Nat) → Option Nat
  | [] => none
  | (b, o) :: r => if b then some o else firstOf r

/-- The limits of the kinds (09 R192), in the order of the table. DESIGN CHOICE: of a limit that the table states for two fields at
once (m and n, afmt and bfmt), the byte named is that of the field that breaks it (log 61). -/
def limitByte (r : BitVec 512) : Option Nat :=
  let c := rcmd r
  let af := rafmt r; let bf := rbfmt r; let cf := rcfmt r
  let sizes : List (Bool × Nat) := [(decide (128 < rmm r), 4), (decide (128 < rn r), 6), (decide (2 ^ 20 ≤ rk r), 8)]
  let gangs : List (Bool × Nat) := [(decide (rgang r ≠ 0) && (rflag r 3 || rflag r 4), 1)]
  if c = 1 then firstOf ([(decide (af ≠ bf) || !decide (af = 9 ∨ af = 10), 12), (decide (cf ≠ 11), 14)] ++ sizes ++ gangs)
  else if c = 2 then
    firstOf ([(!decide (af = 1 ∨ af = 2), 12), (!decide (bf = 1 ∨ bf = 2), 13), (decide (cf ≠ 5), 14)] ++ sizes ++ gangs)
  else if c = 3 then
    firstOf ([(!decide (af = 9 ∨ af = 10), 12), (!decide (bf = 13 ∨ bf = 14), 13), (decide (cf ≠ 11), 14)] ++ sizes ++
      [(decide (2 < rb r 15 1), 15), (decide (rb r 40 4 < 16), 40)] ++ gangs)
  else if c = 7 then
    firstOf [(!tileFmtOk cf, 14), (!decide (1 ≤ rmm r ∧ rmm r ≤ 64), 4), (!decide (1 ≤ rn r ∧ rn r ≤ 2048 / codeBits cf), 6)]
  else if c = 9 then firstOf [(decide (rb r 16 8 % 16 ≠ 0), 16)]
  else if c = 8 then
    if rflag r 2 then
      firstOf ([(!decide (cf = 5 ∨ cf = 11), 14)] ++ [(decide (128 < rmm r), 4), (decide (128 < rn r), 6)] ++
        [(decide (rb r 32 8 % 64 ≠ 0), 32), (decide (rb r 28 4 % 64 ≠ 0), 28)])
    else
      let g := rgang r
      let rows := g % 16; let cols := g / 16 % 16
      firstOf [(!decide (1 ≤ rows ∧ rows ≤ 8 ∧ 1 ≤ cols ∧ cols ≤ 8), 60),
        (!decide (g / 256 % 16 < rows ∧ g / 4096 % 16 < cols), 60), (decide (2048 < rb r 44 4 + rows * cols), 44)]
  else none

/-- The MATRIX_CMD_INVALID checks, which read the record alone (09 R192): the byte of the first that fails. -/
def invalidByte (r : BitVec 512) : Option Nat :=
  if rcmd r = 0 ∨ 9 < rcmd r then some 0
  else
    match reservedByte r with
    | some o => some o
    | none =>
      match unusedByte r with
      | some o => some o
      | none =>
        let f := rfirst r; let g := rgroup r
        let inGroup (t : Nat) : Bool := decide (f ≤ t) && decide (t < f + g)
        if usesField r 2 && decide (bitsAt r 19 2 = 3) then some 2
        else if (isMma (rcmd r)) && ((rflag r 3 && inGroup (rta r)) || (rflag r 4 && inGroup (rtb r))) then some 1
        else limitByte r

/-- Whether a record is a join. -/
def isJoin (r : BitVec 512) : Bool := decide (rcmd r = 8) && !rflag r 2

/-- Whether a unit has begun a join that waits for the other members (09 R203). -/
def MCmd.joining (c : MCmd) : Bool := isJoin c.record && c.started && !c.finished

/-- Whether a command waits for an open join of the unit: it is one, or one stands before it and it has executed, is a join too,
or is not yet among the three in execution (09 R190, R206). -/
def Mat.joinOpen (m : Mat) (c : MCmd) : Bool :=
  m.queue.any (fun e => e.joining && decide (e.ticket ≤ c.ticket)) &&
    (isJoin c.record || c.finished || (m.queue.take 3).all (fun e => decide (e.ticket ≠ c.ticket)))

/-- The gang as its record field (09 R194): 0 for none. -/
def Gang.word (g : Gang) : Nat := g.rows + g.cols * 16 + g.myRow * 256 + g.myCol * 4096

/-- The gang that a join leaves: rows = columns = 1 leaves the gang (09 R203). -/
def joinGang (r : BitVec 512) : Option Gang :=
  let g := rgang r
  if g % 16 = 1 ∧ g / 16 % 16 = 1 then none
  else some { rows := g % 16, cols := g / 16 % 16, myRow := g / 256 % 16, myCol := g / 4096 % 16, base := rb r 44 4 }

/-- A tile after TCFG (09 R202). -/
def cfgTile (r : BitVec 512) : Tile := { cols := rn r, rows := rmm r, fmt := rcfmt r }

/-- The tiles of the destination group. -/
def groupTiles (r : BitVec 512) : List Nat := (List.range (rgroup r)).map (rfirst r + ·)

/-- The projected state: configurations and gang after every accepted command (09 R191). -/
def Mat.project (m : Mat) : Mat :=
  m.queue.foldl (fun m c =>
    if c.finished then m
    else if rcmd c.record = 7 then
      { m with tiles := (groupTiles c.record).foldl (fun ts t => SMap.put ts t (cfgTile c.record)) m.tiles }
    else if rcmd c.record = 8 ∧ rflag c.record 2 = false then { m with gang := joinGang c.record }
    else m) m

/-- Logical rows of a group (09 R188). -/
def groupRows (m : Mat) (r : BitVec 512) : Nat := (if rgroup r = 1 then 1 else 2) * (m.tile (rfirst r)).rows
/-- Logical columns of a group. -/
def groupCols (m : Mat) (r : BitVec 512) : Nat := (if rgroup r = 4 then 2 else 1) * (m.tile (rfirst r)).cols

/-- The TILE_SHAPE checks against the projected state (09 R192): the byte of the first that fails. -/
def shapeByte (m : Mat) (r : BitVec 512) : Option Nat :=
  let c := rcmd r
  if !usesField r 2 then none
  else if rfirst r % rgroup r ≠ 0 ∨ 8 < rfirst r + rgroup r then some 2
  else if c = 7 then none
  else
    let t0 := m.tile (rfirst r)
    let same := (groupTiles r).all (fun t => decide ((m.tile t).cols = t0.cols) && decide ((m.tile t).rows = t0.rows)
      && decide ((m.tile t).fmt = t0.fmt))
    if !same then some 2
    else if c = 6 then none
    else
      let ta := m.tile (rta r); let tb := m.tile (rtb r)
      let useA := isMma c && rflag r 3
      let useB := isMma c && rflag r 4
      let aRows := if rflag r 0 then ta.cols else ta.rows
      let aCols := if rflag r 0 then ta.rows else ta.cols
      let bRows := if rflag r 1 then tb.cols else tb.rows
      let bCols := if rflag r 1 then tb.rows else tb.cols
      firstOf [(useA && decide (ta.fmt ≠ rafmt r), 12), (useB && decide (tb.fmt ≠ rbfmt r), 13), (decide (t0.fmt ≠ rcfmt r), 14),
        (decide (groupRows m r < rmm r) || (useA && decide (aRows < rmm r)), 4),
        (decide (groupCols m r < rn r) || (useB && decide (bCols < rn r)), 6),
        ((useA && decide (aCols < rk r)) || (useB && decide (bRows < rk r)), 8)]

/-- GANG_MISMATCH at submission (09 R192, R203). -/
def State.gangBad (s : State) (k : Nat) (m : Mat) (r : BitVec 512) : Bool :=
  if isMma (rcmd r) then
    decide (rgang r ≠ 0) && decide (rgang r ≠ (m.gang.map Gang.word).getD 0)
  else if rcmd r = 8 ∧ rflag r 2 = false then
    let g := rgang r
    let base := rb r 44 4
    decide (base + (g / 256 % 16) * (g / 16 % 16) + g / 4096 % 16 ≠ k) ||
      !((List.range ((g % 16) * (g / 16 % 16))).all (fun i =>
        decide ((base + i) / 4 ∈ (s.part (s.ctx s.cur).part).clusters)))
  else false

/-- R192: the fault of a record, with EINFO[5:0]. -/
def State.mxCheck (s : State) (k : Nat) (r : BitVec 512) : Option Exc :=
  match invalidByte r with
  | some o => some { code := Cause.matrixCmdInvalid, info := BitVec.ofNat 64 o }
  | none =>
    let m := (s.mat k).project
    match shapeByte m r with
    | some o => some { code := Cause.tileShape, info := BitVec.ofNat 64 o }
    | none => if s.gangBad k m r then some { code := Cause.gangMismatch, info := 60 } else none

/-- A command's own answers from peers are dropped. -/
def State.farDrop (s : State) (k ticket : Nat) : State :=
  if (s.mat k).far.isEmpty then s else s.modMat k (fun m => { m with far := m.far.filter (fun f => decide (f.ticket ≠ ticket)) })

/-- The effect of submission once the record is read (09 R191): checks, the release, the ticket, the queue. -/
def State.mxSubmit (s : State) (r : BitVec 512) (d : Reg) : Res :=
  let c := s.cur
  let k := coreOf c
  match s.mxCheck k r with
  | some e => .fault e
  | none =>
    if 4 ≤ (s.mat k).queue.length then .wait s .mxqueue
    else
      match s.release c 2 with
      | (s1, false) => .wait s1 .marker
      | (s1, true) =>
        let x := s1.ctx c
        let m := s1.mat k
        let cmd : MCmd := { record := r, ctx := c, ticket := m.accepted.toNat, part := x.part, launch := x.launch,
                            tag := s1.phaseOf c, sup := x.sta.sup }
        .done ((s1.modMat k (fun m => { m with accepted := m.accepted + 1, queue := m.queue ++ [cmd],
                                               scopes := m.scopes ++ [rscope r] })).setReg d m.accepted)

/-- A 64-bit store to byte `off` of the queue window (09 R190): staging bytes change; a store to bytes 0 to 7 submits. -/
def State.mxWindowStore (s : State) (off : Nat) (v : Word) : Res :=
  let k := coreOf s.cur
  let r := putBits (SMap.at 0 (s.mat k).staging (off / 64)) (8 * (off % 64)) 64 v.toNat
  let s1 := s.modMat k (fun m => { m with staging := SMap.put m.staging (off / 64) r })
  if off % 64 = 0 then
    match s.mxCheck k r with
    | some e => .fault e
    | none => s1.mxSubmit r 0
  else .done s1

/-- MXQ_WINDOW_SUBMIT (09 R190): the running context stores `v` to bytes 0 to 7 of staging record `sr`. -/
def execMxqWindowSubmit (sr : Nat) (v : Word) (s : State) : Host.Outcome State Fault Refusal :=
  goes (s.run { mat := true } 4 (fun s => s.mxWindowStore (64 * (sr % 32)) v))

/-- The widest completion scope of the commands before ticket `n`: those that a wait for them awaits (09 R193, R205). -/
def Mat.scopeOf (m : Mat) (n : Nat) : Nat := (m.scopes.take n).foldl max 0

/-- MXWAIT (09 R193). -/
def execMxwait (a : Reg) (s : State) : Host.Outcome State Fault Refusal :=
  goes (s.run { mat := true } 4 (fun s =>
    let m := s.mat (coreOf s.cur)
    let t := (s.reg a).toNat
    if m.accepted.toNat ≤ t then Res.bad Cause.reservedBits
    else if t < m.done.toNat then .done (s.acquire s.cur (m.scopeOf (t + 1)))
    else .wait s (.mxwait t)))

/-- MXWAIT.all (09 R193): ACCEPTED cannot move while the one binding thread waits. -/
def execMxwaitAll (s : State) : Host.Outcome State Fault Refusal :=
  goes (s.run { mat := true } 4 (fun s =>
    let m := s.mat (coreOf s.cur)
    if m.accepted.toNat ≤ m.done.toNat then .done (s.acquire s.cur (m.scopeOf m.accepted.toNat))
    else .wait s (.mxwait (m.accepted.toNat - 1))))

/-- The status word (09 R194). -/
def Mat.status (m : Mat) : Nat :=
  (if m.queue.isEmpty then 0 else 1) + m.stop.toNat * 2 + (if m.stop then m.cause.toNat * 4 else 0) + m.queue.length % 16 * 2 ^ 16

/-- MXPROG (09 R195). -/
def Mat.progWord (m : Mat) : Nat :=
  let hd := m.queue.head?
  (match hd with | none => 0 | some c => rb c.record 56 4 * 2 ^ 32 + c.prog % 2 ^ 20 * 2 ^ 12)
    + m.stop.toNat * 2 ^ 11 + (if m.stop then m.cause.toNat * 2 ^ 5 else 0)

/-- A tile's configuration word (09 R187). -/
def Tile.word (t : Tile) : Nat := t.fmt + t.rows * 2 ^ 6 + t.cols * 2 ^ 16

/-- MXSTAT's selectors (09 R194), or none for RESERVED_BITS. Configurations and the row mask are those that completed commands
have left. -/
def Mat.select (m : Mat) (k : Nat) : Option Nat :=
  if k = 0 then some m.status
  else if k = 1 then some m.accepted.toNat
  else if k = 2 then some m.done.toNat
  else if k = 3 then some m.progWord
  else if 8 ≤ k ∧ k ≤ 15 then some (SMap.at {} m.shown (k - 8)).word
  else if k = 16 then some (bitsAt m.shownMask 0 64)
  else if k = 17 then some (bitsAt m.shownMask 64 64)
  else if k = 18 then some (match m.project.gang with | none => 0 | some g => g.word + g.base * 2 ^ 16)
  else none

/-- MXSTAT (09 R194). -/
def execMxstat (d a : Reg) (s : State) : Host.Outcome State Fault Refusal :=
  goes (s.run { mat := true } 4 (fun s =>
    match (s.mat (coreOf s.cur)).select (s.reg a).toNat with
    | none => Res.bad Cause.reservedBits
    | some v => .done (s.setReg d (BitVec.ofNat 64 v))))

/-- MXSTAT.resume (09 R194). -/
def execMxstatResume (s : State) : Host.Outcome State Fault Refusal :=
  goes (s.run { mat := true } 4 (fun s =>
    .done (if (s.mat (coreOf s.cur)).stop then
      s.modMat (coreOf s.cur) (fun m => { m with stop := false, cause := 0, stopAddr := 0, stopInfo := 0 }) else s)))

/-- MXSTAT.drop (09 R194). -/
def execMxstatDrop (s : State) : Host.Outcome State Fault Refusal :=
  goes (s.run { mat := true } 4 (fun s =>
    if (s.mat (coreOf s.cur)).stop then
      .done (s.modMat (coreOf s.cur) (fun m =>
        { m with stop := false, cause := 0, stopAddr := 0, stopInfo := 0, queue := [], done := m.accepted, shown := m.tiles,
                 shownMask := m.mask }))
    else Res.bad Cause.reservedBits))

/-- MXSTAT.sdrop (09 R194, R200). -/
def execMxstatSdrop (s : State) : Host.Outcome State Fault Refusal :=
  goes (s.run { mat := true } 4 (fun s =>
    if (s.mat (coreOf s.cur)).queue.isEmpty then .done (s.modMat (coreOf s.cur) (fun m => { m with scale := [] }))
    else .wait s (.mxwait ((s.mat (coreOf s.cur)).accepted.toNat - 1))))

end Sys2Proof.Machine
end

