-- ==== Sys2Proof/Machine/Matrix.lean ====
section
/-! DEFINITION. Sys2Proof/Machine/Matrix.lean: the matrix unit's own steps: one chunk, one tile move, one tile command, a
gang's join and reduce, scale-cache fills and completions (09 R187 to R208). Three commands are in execution; one overlaps
those before it only where the result cannot differ (09 R190). -/

namespace Sys2Proof.Machine

/-! ## Elements in memory and in tiles (09 R187 to R189) -/

/-- One operand element in memory: its memory row, the pointer of its byte, and whether it is the high nibble. -/
structure Spot where
  row : Nat
  ptr : Word
  odd : Bool
deriving DecidableEq, Repr

/-- Element `i` of `bits` bits in memory row `row` of an operand at `p`. -/
def spotAt (p stride : Word) (bits row i : Nat) : Spot :=
  { row := row, ptr := p + BitVec.ofNat 64 row * stride + BitVec.ofNat 64 (i * bits / 8), odd := decide (bits = 4 ∧ i % 2 = 1) }

/-- What a command's next piece of work meets: a watermark channel or a bank that holds an access, an element behind a PEER
handle that must be asked for, a scale entry that the unit does not hold, or an error. -/
inductive Meet where
  | held (w : Why) (ptr : Word) (row : Nat)
  | peer (need n : Nat) (ptr : Word)
  | scale
  | err (cause sub : Cause) (ptr : Word) (row : Nat)
deriving DecidableEq, Repr

/-- The unit of core `k` as an accessor, for a command (09 R189). -/
def mxEng (k : Nat) (c : MCmd) : Eng := { clu := k / 4, part := c.part, sup := c.sup, launch := c.launch, own := true, mx := some (k, c.ticket) }

/-! ## Elements behind PEER handles (18 R433) -/

/-- The capability behind a pointer of a PEER handle and its offset, once R41 and the egress pass an access of `n` bytes: a READ, a
WRITE, or the addition to a cell; none for a pointer of another space. -/
def State.mxPeer (s : State) (g : Eng) (ptr : Word) (n need : Nat) : Option (Except Cause (BitVec 128 × Nat)) :=
  let w : Who := { clu := g.clu, part := g.part, sup := g.sup, thread := false }
  if ptr.toNat / 2 ^ 52 < 16 then none
  else
    match s.resolve w ptr n need with
    | .ok (.table e off) =>
      if e.space ≠ 5 then none
      else
        let op : Nat × List Nat := if need = needA then (4, opBits opcRamo 10) else if need = needW then (2, opBits opcWrite 0) else (1, opBits opcRead 0)
        some (match s.peerCap w (ptr.toNat / 2 ^ 52) e with
          | .error x => .error x.code
          | .ok cap =>
            match s.egress cap true off n op.1 op.2 none with
            | some x => .error x.code
            | none => .ok (cap, off))
    | _ => none

/-- What a peer has answered for an element of a command. -/
def State.farOf (s : State) (g : Eng) (ptr : Word) : Option FarAns :=
  match g.mx with
  | none => none
  | some (k, t) => (s.mat k).far.find? (fun f => decide (f.ticket = t ∧ f.ptr = ptr))

/-- Ask the peer for an element: a READ, or the addition of `v`, of a format, to its cell. -/
def State.farAsk (s : State) (k : Nat) (c : MCmd) (need n : Nat) (ptr : Word) (v : BitVec 128) : State :=
  match s.mxPeer (mxEng k c) ptr n need with
  | some (.ok (cap, off)) =>
    let z := if n = 1 then 1 else if n = 2 then 3 else if n = 4 then 5 else 6
    let q := if need = needA then s.request c.part opcRamo 10 z cap (BitVec.ofNat 64 off) v []
      else s.request c.part opcRead 0 z cap (BitVec.ofNat 64 off) 0 []
    (match s.sendReq none none none q 0 z false (mk := fun o => { o with mat := some (k, c.ticket, ptr), via := some (ptr.toNat / 2 ^ 52) }) with
      | none => s
      | some (_, s1) => s1)
  | _ => s

/-- The checks of one element's pointer: R41 and the footprint, and translation (09 R196). An element behind a PEER handle has the
locations of its handle's offset. DESIGN CHOICE: the table of 09 R196 names translation for operands and for tile moves; a row
mask or a gang's cell whose translation fails stops the unit with MATRIX_OPERAND too (log 61). -/
def State.spotSegs (s : State) (g : Eng) (tile : Bool) (bits need : Nat) (wr : Bool) (p : Spot) : Except Meet (List (Nat × Nat)) :=
  match s.mxPeer g p.ptr (max 1 (bits / 8)) need with
  | some (.error k) => .error (.err Cause.matrixOperand k p.ptr p.row)
  | some (.ok (_, off)) => .ok [(peerLoc g.part (p.ptr.toNat / 2 ^ 52) off, max 1 (bits / 8))]
  | none =>
    match s.engSegs g p.ptr (max 1 (bits / 8)) need wr with
    | .error e => .error (.err (if tile && e.xlate then Cause.tilePage else Cause.matrixOperand) e.cause p.ptr p.row)
    | .ok segs => .ok segs

/-- The checks of one element: its pointer, then what holds it, then data errors, which a store of whole bytes does not meet (09
R196); a nibble and a cell are read before they are written. A bank that is held for a save record of another launch is
saved first (17 R405). -/
def State.spotMeet (s : State) (g : Eng) (tile : Bool) (bits need : Nat) (wr : Bool) (p : Spot) : Option Meet :=
  match s.spotSegs g tile bits need wr p with
  | .error e => some e
  | .ok segs =>
    let ls := spanAll segs
    let whole := wr && decide (bits ≠ 4 ∧ bits ≠ 512)
    if ls.any isPeer then
      if whole then none
      else
        match s.farOf g p.ptr with
        | some f => if f.cause = 0 then none else some (.err Cause.matrixOperand f.cause p.ptr p.row)
        | none =>
          if s.pkg.outst.any (fun o => decide (o.mat = g.mx.map (fun m => (m.1, m.2, p.ptr)))) then some (.held .reply p.ptr p.row)
          else some (.peer need (max 1 (bits / 8)) p.ptr)
    else
      match s.waterHold g.part ls, ls.find? (s.keptFrom g.launch) with
      | some k, _ => some (.held k p.ptr p.row)
      | none, some l => some (.held (.bank l) p.ptr p.row)
      | none, none => if whole then none else (s.errAt ls).map (fun _ => .err Cause.poisonConsumed 0 p.ptr p.row)

/-- The bits of an element that passed its checks. -/
def State.spotBits (s : State) (g : Eng) (bits : Nat) (p : Spot) : Nat :=
  match s.spotSegs g false bits needR false p with
  | .error _ => 0
  | .ok segs =>
    let v := if (spanAll segs).any isPeer then leNat (((s.farOf g p.ptr).map (·.data)).getD []) else leNat (s.bytesAt (spanAll segs))
    if bits = 4 then (if p.odd then v / 16 % 16 else v % 16) else v

/-- Element (i, j) of a tile. -/
def Tile.get (t : Tile) (i j : Nat) : Nat := bitsAt (SMap.at 0 t.data i) (codeBits t.fmt * j) (codeBits t.fmt)

/-- A tile with element (i, j) replaced. -/
def Tile.set (t : Tile) (i j v : Nat) : Tile :=
  { t with data := SMap.put t.data i (putBits (SMap.at 0 t.data i) (codeBits t.fmt * j) (codeBits t.fmt) v) }

/-- The tile that holds logical element (i, j) of the destination group, and its place there (09 R188). -/
def Mat.place (m : Mat) (r : BitVec 512) (i j : Nat) : Nat × Nat × Nat :=
  let t := m.tile (rfirst r)
  let down := if rgroup r ≠ 1 ∧ t.rows ≤ i then 1 else 0
  let right := if rgroup r = 4 ∧ t.cols ≤ j then 1 else 0
  (rfirst r + (if rgroup r = 4 then 2 else 1) * down + right, i % t.rows, j % t.cols)

/-- Logical element (i, j) of the destination group. -/
def Mat.get (m : Mat) (r : BitVec 512) (i j : Nat) : Nat :=
  let p := m.place r i j
  (m.tile p.1).get p.2.1 p.2.2

/-- The unit with logical element (i, j) of the destination group replaced. -/
def Mat.set (m : Mat) (r : BitVec 512) (i j v : Nat) : Mat :=
  let p := m.place r i j
  { m with tiles := SMap.put m.tiles p.1 ((m.tile p.1).set p.2.1 p.2.2 v) }

/-! ## Stopping (09 R196) -/

/-- Change a command of the queue. -/
def State.modCmd (s : State) (k ticket : Nat) (f : MCmd → MCmd) : State :=
  s.modMat k (fun m => { m with queue := m.queue.map (fun c => if c.ticket = ticket then f c else c) })

/-- The unit stops for a command. What peers have answered to it is asked for again. -/
def State.mxStop (s : State) (k : Nat) (c : MCmd) (prog : Nat) (cause sub : Cause) (ptr : Word) (row : Nat) : State :=
  (s.farDrop k c.ticket).unitStop k c.ctx prog cause sub ptr row

/-! ## Chunks (09 R189, R197 to R200) -/

/-- The chunk length of a kind (09 R197). -/
def chunkLen (r : BitVec 512) : Nat := if rcmd r = 3 then 32 * 2 ^ rb r 15 1 else 32

/-- The first row and column of a member of a gang (09 R198). -/
def gangBase (r : BitVec 512) : Nat × Nat :=
  if rgang r = 0 then (0, 0) else (128 * (rgang r / 256 % 16), 128 * (rgang r / 4096 % 16))

/-- The live rows of a command: the row mask's bit is 1, and m < M. -/
def Mat.liveRows (m : Mat) (r : BitVec 512) : List Nat := (List.range (rmm r)).filter (fun i => bitOf m.mask i)

/-- Element (m, k) of A in memory. -/
def spotA (r : BitVec 512) (m k : Nat) : Spot :=
  let b := codeBits (rafmt r)
  let row := (gangBase r).1 + m
  if rflag r 0 then spotAt (rptr r 16) (rstride r 24) b k row else spotAt (rptr r 16) (rstride r 24) b row k

/-- Element (k, n) of B in memory. -/
def spotB (r : BitVec 512) (k n : Nat) : Spot :=
  let b := codeBits (rbfmt r)
  let col := (gangBase r).2 + n
  if rflag r 1 then spotAt (rptr r 32) (rstride r 28) b col k else spotAt (rptr r 32) (rstride r 28) b k col

/-- opA(m, k). -/
def State.opA (s : State) (g : Eng) (u : Mat) (r : BitVec 512) (m k : Nat) : Nat :=
  if rflag r 3 then (if rflag r 0 then (u.tile (rta r)).get k m else (u.tile (rta r)).get m k)
  else s.spotBits g (codeBits (rafmt r)) (spotA r m k)

/-- opB(k, n). -/
def State.opB (s : State) (g : Eng) (u : Mat) (r : BitVec 512) (k n : Nat) : Nat :=
  if rflag r 4 then (if rflag r 1 then (u.tile (rtb r)).get n k else (u.tile (rtb r)).get k n)
  else s.spotBits g (codeBits (rbfmt r)) (spotB r k n)

/-- The k positions of chunk `j`. -/
def chunkKs (r : BitVec 512) (j : Nat) : List Nat :=
  let lo := j * chunkLen r
  (List.range (min (rk r) (lo + chunkLen r) - lo)).map (lo + ·)

/-- The operand elements of chunk `j` that lie in memory, in the order of their checks: A, then B, each by ascending
memory row and then index (09 R196). -/
def Mat.chunkSpots (u : Mat) (r : BitVec 512) (j : Nat) : List (Nat × Spot) :=
  let ms := u.liveRows r
  let ns := if ms.isEmpty then [] else List.range (rn r)
  let ks := if ms.isEmpty ∨ rn r = 0 then [] else chunkKs r j
  let a := if rflag r 3 then []
    else if rflag r 0 then ks.flatMap (fun k => ms.map (fun m => spotA r m k)) else ms.flatMap (fun m => ks.map (fun k => spotA r m k))
  let b := if rflag r 4 then []
    else if rflag r 1 then ns.flatMap (fun n => ks.map (fun k => spotB r k n)) else ks.flatMap (fun k => ns.map (fun n => spotB r k n))
  a.map (fun p => (codeBits (rafmt r), p)) ++ b.map (fun p => (codeBits (rbfmt r), p))

/-- The first operand element of a chunk that cannot be fetched. -/
def State.chunkMeet (s : State) (g : Eng) (u : Mat) (r : BitVec 512) (j : Nat) : Option Meet :=
  (u.chunkSpots r j).findSome? (fun p => s.spotMeet g false p.1 needR false p.2)

/-- The sum of some exact values, formed exactly (06 R116): +0 when there is none. DESIGN CHOICE: a product of zero has the sign
of its factors, so that a sum of zeros that are all -0 is -0 (log 58). -/
def sumOf : List FVal → FVal
  | [] => .fin false 0 0 false
  | v :: r => r.foldl (fSum 0) v

/-- The product of a code's value and an operand's: a zero code is summed as +0 (06 R111). -/
def codeProd (q a : FVal) : FVal :=
  match q, fProd q a with
  | .fin _ 0 _ _, .fin _ _ _ _ => .fin false 0 0 false
  | _, p => p

/-- The block number of a column of this member in chunk `j` (09 R200). -/
def scaleBlk (r : BitVec 512) (n j : Nat) : Nat :=
  rb r 44 4 + ((gangBase r).2 + n) * ((rk r + chunkLen r - 1) / chunkLen r) + j

/-- The handle of the scale table. -/
def scaleHandle (r : BitVec 512) : Nat := bitsAt r 320 12

/-- The pointer of a scale entry. -/
def scalePtr (r : BitVec 512) (blk : Nat) : Word := BitVec.ofNat 64 (scaleHandle r * 2 ^ 52 + 4 * blk)

/-- A cached scale entry. -/
def Mat.scaleOf (u : Mat) (h blk : Nat) : Option Word :=
  (u.scale.find? (fun e => decide (e.1 = h) && decide (e.2.1 = blk))).map (·.2.2)

/-- The columns of chunk `j` whose scale entry the unit does not hold. -/
def Mat.scaleMisses (u : Mat) (r : BitVec 512) (j : Nat) : List Nat :=
  if rcmd r ≠ 3 ∨ (u.liveRows r).isEmpty ∨ rk r = 0 then []
  else (List.range (rn r)).filter (fun n => (u.scaleOf (scaleHandle r) (scaleBlk r n j)).isNone)

/-- The scale entry that a chunk uses: the cached one, or, as the unit may, the table's present value (09 R200; log 6). -/
def State.scaleUse (s : State) (g : Eng) (u : Mat) (r : BitVec 512) (n j : Nat) : Word :=
  let blk := scaleBlk r n j
  let old := (u.scaleOf (scaleHandle r) blk).getD 0
  if Config.freeBit (s.fresh + n) then
    match s.engSegs g (scalePtr r blk) 4 needR false with
    | .ok segs => BitVec.ofNat 64 (leNat (s.bytesAt (spanAll segs)))
    | .error _ => old
  else old

/-- The result of one chunk at (m, n) over the accumulator `v` (09 R198; 06 R116, R117). -/
def State.chunkCell (s : State) (g : Eng) (u : Mat) (r : BitVec 512) (j m n v : Nat) : Nat :=
  let ks := chunkKs r j
  let a (k : Nat) := s.opA g u r m k
  let b (k : Nat) := s.opB g u r k n
  if rcmd r = 2 then
    wrapTo 32 ((v : Int) + (ks.map (fun k => intValue (rafmt r) (a k) * intValue (rbfmt r) (b k))).sum)
  else if rcmd r = 1 then
    let e := sumOf (ks.map (fun k => fProd ((codeFmt (rafmt r)).value (a k)) ((codeFmt (rafmt r)).value (b k))))
    (roundF fF32 0 false (fSum 0 (fF32.value v) e)).1
  else
    let w := s.scaleUse g u r n j
    let e := sumOf (ks.map (fun k =>
      codeProd (qval (b k) (bitsAt w 16 8) (bitsAt w 0 16)) ((codeFmt (rafmt r)).value (a k))))
    (roundF fF32 0 false (fSum 0 (fF32.value v) e)).1

/-- The unit after chunk `j`, before PROG counts it. -/
def State.chunkMat (s : State) (g : Eng) (u : Mat) (r : BitVec 512) (j : Nat) : Mat :=
  (u.liveRows r).foldl (fun t m => (List.range (rn r)).foldl (fun t n =>
    t.set r m n (s.chunkCell g u r j m n (if j = 0 ∧ rflag r 2 = false then 0 else u.get r m n))) t) u

/-- The number of chunks of a command. -/
def chunkCount (r : BitVec 512) : Nat := (rk r + chunkLen r - 1) / chunkLen r

/-! ## Tile moves and tile commands (09 R201, R202) -/

/-- The logical elements of a move, by ascending memory row and then index, with their places in memory. -/
def moveSpots (r : BitVec 512) : List ((Nat × Nat) × Spot) :=
  let b := codeBits (rcfmt r)
  let at_ (i j : Nat) : (Nat × Nat) × Spot :=
    ((i, j), if rflag r 0 then spotAt (rptr r 16) (rstride r 24) b j i else spotAt (rptr r 16) (rstride r 24) b i j)
  if rflag r 0 then (List.range (rn r)).flatMap (fun j => (List.range (rmm r)).map (fun i => at_ i j))
  else (List.range (rmm r)).flatMap (fun i => (List.range (rn r)).map (fun j => at_ i j))

/-- The elements of a move that lie in tile `t` of the group. -/
def Mat.tileSpots (u : Mat) (r : BitVec 512) (t : Nat) : List ((Nat × Nat) × Spot) :=
  (moveSpots r).filter (fun p => decide ((u.place r p.1.1 p.1.2).1 = t))

/-- The two words of a row mask. -/
def maskSpots (r : BitVec 512) : List Spot := [⟨0, rptr r 16, false⟩, ⟨0, rptr r 16 + 8, false⟩]

/-- The cells of a reduce, in ascending (i, j) order, with their pointers (09 R204). -/
def reduceCells (r : BitVec 512) : List ((Nat × Nat) × Spot) :=
  (List.range (rmm r)).flatMap (fun i => (List.range (rn r)).map (fun j =>
    ((i, j), { row := i, ptr := rptr r 32 + BitVec.ofNat 64 i * rstride r 28 + BitVec.ofNat 64 (64 * j), odd := false })))

/-! ## Overlap (09 R190) -/

/-- A command's kind; 10 is a GANG reduce. -/
def cmdKind (r : BitVec 512) : Nat := if rcmd r = 8 ∧ rflag r 2 = true then 10 else rcmd r

/-- The tiles that a command uses. -/
def cmdTiles (r : BitVec 512) : List Nat :=
  (if usesField r 2 then groupTiles r else []) ++
    (if isMma (rcmd r) && rflag r 3 then [rta r] else []) ++ (if isMma (rcmd r) && rflag r 4 then [rtb r] else [])

/-- Whether a command writes memory. -/
def writesMem (r : BitVec 512) : Bool := decide (cmdKind r = 5 ∨ cmdKind r = 10)

/-- The locations of some elements whose pointers pass. -/
def State.spotLocs (s : State) (g : Eng) (bits need : Nat) (wr : Bool) (ps : List Spot) : List Nat :=
  ps.flatMap (fun p => match s.spotSegs g false bits need wr p with
    | .ok segs => spanAll segs
    | .error _ => [])

/-- The locations that a command has still to read, but for cells. -/
def State.cmdReads (s : State) (k : Nat) (c : MCmd) : List Nat :=
  let r := c.record
  let g := mxEng k c
  let u := s.mat k
  if isMma (rcmd r) then
    let js := (List.range (chunkCount r)).drop c.prog
    js.flatMap (fun j => (u.chunkSpots r j).flatMap (fun p => s.spotLocs g p.1 needR false [p.2]) ++
      (u.scaleMisses r j).flatMap (fun n => s.spotLocs g 32 needR false [⟨0, scalePtr r (scaleBlk r n j), false⟩]))
  else if rcmd r = 4 then s.spotLocs g (codeBits (rcfmt r)) needR false ((moveSpots r).map (·.2))
  else if rcmd r = 9 then s.spotLocs g 128 needR false [⟨0, rptr r 16, false⟩]
  else []

/-- The locations that a command has still to write. -/
def State.cmdWrites (s : State) (k : Nat) (c : MCmd) : List Nat :=
  let r := c.record
  let g := mxEng k c
  if cmdKind r = 5 then s.spotLocs g (codeBits (rcfmt r)) needW true ((moveSpots r).map (·.2))
  else if cmdKind r = 10 then s.spotLocs g 512 needA true ((reduceCells r).map (·.2))
  else []

/-- Whether command `c` may go before the earlier command `e`: they share no tile, no row mask and no gang state, `e` writes no
memory, and `c` writes none that `e` reads (09 R190). -/
def State.apart (s : State) (k : Nat) (e c : MCmd) : Bool :=
  let a := e.record
  let b := c.record
  (cmdTiles a).all (fun t => !hasNat (cmdTiles b) t) &&
    !((decide (rcmd a = 9) && (isMma (rcmd b) || decide (rcmd b = 9))) || (isMma (rcmd a) && decide (rcmd b = 9))) &&
    !(isJoin a && isJoin b) && !writesMem a &&
    (!writesMem b || (let rs := s.cmdReads k e; (s.cmdWrites k c).all (fun l => !hasNat rs l)))

/-- The first command that passes a test and may execute, of those after `before`: it is not finished, and every unfinished one
before it is apart from it. -/
def State.mxFirst (s : State) (k : Nat) (ok : MCmd → Bool) : List MCmd → List MCmd → Option MCmd
  | _, [] => none
  | before, c :: rest =>
    if !c.finished && ok c && before.all (fun e => e.finished || s.apart k e c) then some c
    else State.mxFirst s k ok (before ++ [c]) rest

/-- A command in execution that passes a test and may go on: the unit is not stopped and its engine is not held for a save
record (09 R190; 17 R398). -/
def State.mxPick (s : State) (k : Nat) (ok : MCmd → Bool) : Option MCmd :=
  if (s.mat k).stop || (s.core k).engHeld.any (fun e => decide (e.1 = 4)) then none
  else s.mxFirst k ok [] ((s.mat k).queue.take 3)

/-- What the next piece of a command's work meets, if anything: a chunk's operands and then its scale entries; every remaining
element pointer of a tile move and then the elements of its next tile; the row mask's 16 bytes; every cell pointer of a reduce
that has added nothing, and then its next cell (09 R196, R200 to R204). -/
def State.cmdMeet (s : State) (k : Nat) (c : MCmd) : Option Meet :=
  let r := c.record
  let g := mxEng k c
  let u := s.mat k
  if isMma (rcmd r) then
    if chunkCount r ≤ c.prog then none
    else (s.chunkMeet g u r c.prog).or (if (u.scaleMisses r c.prog).isEmpty then none else some .scale)
  else if rcmd r = 4 ∨ rcmd r = 5 then
    let b := codeBits (rcfmt r)
    let need := if rcmd r = 4 then needR else needW
    let wr := decide (rcmd r = 5)
    let left := (moveSpots r).filter (fun p => decide (rfirst r + c.tile ≤ (u.place r p.1.1 p.1.2).1))
    (left.findSome? (fun p => match s.spotSegs g true b need wr p.2 with
      | .error e => some e
      | .ok _ => none)).or
      ((u.tileSpots r (rfirst r + c.tile)).findSome? (fun p => s.spotMeet g true b need wr p.2))
  else if rcmd r = 9 then (maskSpots r).findSome? (fun p => s.spotMeet g false 64 needR false p)
  else if cmdKind r = 10 then
    (if c.prog = 0 then (reduceCells r).findSome? (fun p => match s.spotSegs g false 512 needA true p.2 with
      | .error e => some e
      | .ok _ => none) else none).or
      (((reduceCells r).drop c.prog).head?.bind (fun p => s.spotMeet g false 512 needA true p.2))
  else none

/-- The command of a kind whose next piece of work is taken now: one that nothing holds, and that meets an error only at the
head of the queue, where the unit stops for it (09 R190, R196). -/
def State.mxHead (s : State) (k kind : Nat) : Option MCmd :=
  s.mxPick k (fun c => decide (cmdKind c.record = kind) &&
    (match s.cmdMeet k c with
      | none => true
      | some (.peer ..) => true
      | some (.err ..) => decide ((s.mat k).queue.head? = some c)
      | some _ => false))

/-- The locations that a command's next piece of work reads. -/
def State.pieceReads (s : State) (k : Nat) (c : MCmd) : List Nat :=
  if s.ecc.isEmpty && s.soft.isEmpty then []
  else
    let r := c.record
    let g := mxEng k c
    let u := s.mat k
    if isMma (rcmd r) then (u.chunkSpots r c.prog).flatMap (fun p => s.spotLocs g p.1 needR false [p.2])
    else if rcmd r = 4 ∨ rcmd r = 5 ∧ codeBits (rcfmt r) = 4 then
      s.spotLocs g (codeBits (rcfmt r)) 0 false ((u.tileSpots r (rfirst r + c.tile)).map (·.2))
    else if rcmd r = 9 then s.spotLocs g 128 needR false [⟨0, rptr r 16, false⟩]
    else if cmdKind r = 10 then s.spotLocs g 512 needA true ((((reduceCells r).drop c.prog).take 1).map (·.2))
    else []

/-- What the next addition of a reduce brings to its cell: the value and its format (10 R228; 18 R433). -/
def State.cellOpnd (s : State) (k : Nat) (c : MCmd) : BitVec 128 :=
  match (reduceCells c.record).drop c.prog with
  | [] => 0
  | p :: _ => BitVec.ofNat 128 ((s.mat k).get c.record p.1.1 p.1.2 + rcfmt c.record * 2 ^ 64)

/-- Stop the unit for what a command meets, ask a peer for what it lacks, or go on. -/
def State.mxGo (s : State) (k : Nat) (c : MCmd) (go : State) : State :=
  match s.cmdMeet k c with
  | none => go.correct (s.pieceReads k c)
  | some (.err cause sub ptr row) => (s.errMet (s.pieceReads k c)).mxStop k c c.prog cause sub ptr row
  | some (.peer need n ptr) => s.farAsk k c need n ptr (s.cellOpnd k c)
  | some _ => s

/-- A step of the command of a kind that is taken now, if there is one. -/
def State.mxStep (s : State) (k kind : Nat) (go : MCmd → State) : Host.Outcome State Fault Refusal :=
  goes (match s.mxHead k kind with
    | none => s
    | some c => s.mxGo k c (go c))

/-- A command has executed. -/
def State.mxDone (s : State) (k : Nat) (c : MCmd) : State := s.modCmd k c.ticket (fun c => { c with finished := true })

/-! ## Chunks and scale entries -/

/-- One chunk of a command: the chunk's results and PROG (09 R198). -/
def State.mmaChunk (s : State) (k : Nat) (c : MCmd) : State :=
  let r := c.record
  let u := s.mat k
  let g := mxEng k c
  if chunkCount r ≤ c.prog then
    let u1 := if rk r = 0 ∧ rflag r 2 = false then
        (u.liveRows r).foldl (fun t m => (List.range (rn r)).foldl (fun t n => t.set r m n 0) t) u
      else u
    (s.modMat k (fun _ => u1)).mxDone k c
  else
    let u1 := s.chunkMat g u r c.prog
    let s1 : State := { s with fresh := s.fresh + 128 }
    (((s1.modMat k (fun _ => u1)).farDrop k c.ticket).matStream k g ((u.chunkSpots r c.prog).map (·.2.ptr))).modCmd k c.ticket
      (fun c => { c with prog := c.prog + 1, finished := decide (chunkCount r ≤ c.prog + 1) })

/-- MMA (09 R198): one chunk. -/
def execMma (core : Nat) (s : State) : Host.Outcome State Fault Refusal := s.mxStep core 1 (s.mmaChunk core)

/-- MMAI (09 R198): one chunk. -/
def execMmai (core : Nat) (s : State) : Host.Outcome State Fault Refusal := s.mxStep core 2 (s.mmaChunk core)

/-- MMAQ (09 R198): one chunk. -/
def execMmaq (core : Nat) (s : State) : Host.Outcome State Fault Refusal := s.mxStep core 3 (s.mmaChunk core)

/-- What the read of a command's first missing scale entry meets: a failure is SCALE_MISSING (09 R200). -/
def State.scaleMeet (s : State) (k : Nat) (c : MCmd) (n : Nat) : Except Meet (List (Nat × Nat)) :=
  let blk := scaleBlk c.record n c.prog
  let p := scalePtr c.record blk
  let g := mxEng k c
  let bad (e : Cause) : Except Meet (List (Nat × Nat)) := .error (.err Cause.scaleMissing e p 0)
  match s.mxPeer g p 4 needR with
  | some (.error e) => bad e
  | some (.ok (_, off)) =>
    (match s.farOf g p with
      | some f => if f.cause = 0 then .ok [(peerLoc g.part (p.toNat / 2 ^ 52) off, 4)] else bad f.cause
      | none =>
        if s.pkg.outst.any (fun o => decide (o.mat = some (k, c.ticket, p))) then .error (.held .reply p 0) else .error (.peer needR 4 p))
  | none =>
  match s.engSegs g p 4 needR false with
  | .error e => bad (if e.cause = Cause.handleBounds ∨ 2 ^ 52 ≤ 4 * blk then 0 else e.cause)
  | .ok segs =>
    match s.waterHold c.part (spanAll segs) with
    | some w => .error (.held w p 0)
    | none =>
      match s.errAt (spanAll segs) with
      | some e => bad e
      | none => .ok segs

/-- A scale-cache miss of a command's chunk is read: the first missing entry is cached, the oldest of 16,384 displaced; a
failure stops the unit with SCALE_MISSING, once the command is the head (09 R200). -/
def execScaleMissFill (core : Nat) (s : State) : Host.Outcome State Fault Refusal :=
  goes (match s.mxPick core (fun c => decide (s.cmdMeet core c = some .scale)) with
    | none => s
    | some c =>
      let r := c.record
      match (s.mat core).scaleMisses r c.prog with
      | [] => s
      | n :: _ =>
        match s.scaleMeet core c n with
        | .error (.err cause sub ptr row) =>
          if (s.mat core).queue.head? = some c then (s.errMet (s.spotLocs (mxEng core c) 32 needR false [⟨0, ptr, false⟩])).mxStop core c c.prog cause sub ptr row
          else s
        | .error (.peer need n ptr) => s.farAsk core c need n ptr 0
        | .error _ => s
        | .ok segs =>
          let w := BitVec.ofNat 64 (s.spotBits (mxEng core c) 32 ⟨0, scalePtr r (scaleBlk r n c.prog), false⟩)
          ((s.correct (spanAll segs)).modMat core (fun u => { u with scale :=
            (if u.scale.length < 16384 then u.scale else u.scale.drop 1) ++ [(scaleHandle r, scaleBlk r n c.prog, w)] })).matStream
              core (mxEng core c) [scalePtr r (scaleBlk r n c.prog)])

/-! ## Tile moves and tile commands -/

/-- A tile move has moved a tile. -/
def State.tileMoved (s : State) (k : Nat) (c : MCmd) : State :=
  (s.farDrop k c.ticket).modCmd k c.ticket (fun c => { c with tile := c.tile + 1, finished := decide (rgroup c.record ≤ c.tile + 1) })

/-- TLOAD (09 R201): the next tile of the group takes its elements as one snapshot. -/
def execTload (core : Nat) (s : State) : Host.Outcome State Fault Refusal :=
  s.mxStep core 4 (fun c =>
    let r := c.record
    let g := mxEng core c
    let b := codeBits (rcfmt r)
    let ps := (s.mat core).tileSpots r (rfirst r + c.tile)
    let u := ps.foldl (fun u p => u.set r p.1.1 p.1.2 (s.spotBits g b p.2)) (s.mat core)
    ((s.modMat core (fun _ => u)).matStream core g (ps.map (·.2.ptr))).tileMoved core c)

/-- The bytes that one tile of a store writes: each element at its place, a nibble beside the byte's other nibble. -/
def State.tileBytes (s : State) (g : Eng) (u : Mat) (r : BitVec 512) (t : Nat) : List (Nat × Byte) :=
  let b := codeBits (rcfmt r)
  let put (acc : Memory × List Nat) (p : (Nat × Nat) × Spot) : Memory × List Nat :=
    match s.spotSegs g false b needW true p.2 with
    | .error _ => acc
    | .ok segs =>
      let ls := spanAll segs
      let v := u.get r p.1.1 p.1.2
      let bs : List Byte :=
        if b = 4 then
          let l := ls.headD 0
          let o := if isPeer l && !hasNat acc.2 l then leNat (((s.farOf g p.2.ptr).map (·.data)).getD []) else (acc.1.read l).toNat
          [BitVec.ofNat 8 (if p.2.odd then o % 16 + 16 * v else o / 16 * 16 + v)]
        else leBytes (b / 8) v
      (acc.1.writes (ls.zip bs), acc.2 ++ ls)
  let r := (u.tileSpots r t).foldl put (s.mem, [])
  (r.2.foldl (fun (acc : List Nat) l => addNat acc l) []).map (fun l => (l, r.1.read l))

/-- Who a tile store is (11 R252): at core and cluster scope the issuing cluster's own copies are brought up to date, and at
wider scopes every sharer gets the invalidations. -/
def tileWriter (k scope : Nat) : Writer := { clu := if scope < 2 then some (k / 4) else none, key := some (matKey k) }

/-- TSTORE (09 R201; 11 R249 to R252): the next tile of the group is stored as one unit. A line that is locked, or whose
directory entry has overflowed, holds it. At device and system scope the tile's lines carry its mark. -/
def execTstore (core : Nat) (s : State) : Host.Outcome State Fault Refusal :=
  s.mxStep core 5 (fun c =>
    let r := c.record
    let wr := tileWriter core (rscope r)
    let all := s.tileBytes (mxEng core c) (s.mat core) r (rfirst r + c.tile)
    let bs := all.filter (fun b => !isPeer b.1)
    let lines := linesOf (bs.map (·.1))
    if lines.any (fun l => s.lockedFor l noCtx) then s.askWrites wr lines
    else
      let s0 := s.queuePeer (matKey core) c.sup (core / 4) (all.filter (fun b => isPeer b.1))
      let s1 := if bs.isEmpty then s0 else s0.place wr bs
      let s2 : State := if rscope r < 2 then s1 else { s1 with tiles := lines.foldl addNat s1.tiles }
      s2.tileMoved core c)

/-- TZERO (09 R202). -/
def execTzero (core : Nat) (s : State) : Host.Outcome State Fault Refusal :=
  s.mxStep core 6 (fun c =>
    (s.modMat core (fun u => { u with tiles := (groupTiles c.record).foldl (fun ts t =>
      SMap.put ts t { u.tile t with data := [] }) u.tiles })).mxDone core c)

/-- TCFG (09 R202). -/
def execTcfg (core : Nat) (s : State) : Host.Outcome State Fault Refusal :=
  s.mxStep core 7 (fun c =>
    (s.modMat core (fun u => { u with tiles := (groupTiles c.record).foldl (fun ts t =>
      SMap.put ts t (cfgTile c.record)) u.tiles })).mxDone core c)

/-- TROW (09 R202). -/
def execTrow (core : Nat) (s : State) : Host.Outcome State Fault Refusal :=
  s.mxStep core 9 (fun c =>
    let p := rptr c.record 16
    let w := (maskSpots c.record).map (s.spotBits (mxEng core c) 64)
    let m : BitVec 128 := BitVec.ofNat 128 (w.headD 0 + 2 ^ 64 * w.getD 1 0)
    (((s.farDrop core c.ticket).modMat core (fun u => { u with mask := m })).matStream core (mxEng core c) [p]).modCmd core c.ticket
      (fun c => { c with got := m, finished := true }))

/-! ## Gangs (09 R203, R204) -/

/-- The member cores that a join names. -/
def joinCores (r : BitVec 512) : List Nat := (List.range (rgang r % 16 * (rgang r / 16 % 16))).map (rb r 44 4 + ·)

/-- Whether two joins meet: the same block and seq. -/
def joinsMeet (a b : BitVec 512) : Bool := decide (rb a 44 4 = rb b 44 4) && decide (rb a 56 4 = rb b 56 4)

/-- A unit's open join, while the unit is not stopped or held. -/
def State.openJoin (s : State) (k : Nat) : Option MCmd := s.mxPick k (fun c => c.joining)

/-- GANG_JOIN: the unit executes a join. The cores whose joins have met it stop where they disagree on rows or columns: each of
them executes its join again when it is resumed (09 R203). -/
def execGangJoin (core : Nat) (s : State) : Host.Outcome State Fault Refusal :=
  goes (match s.mxPick core (fun c => isJoin c.record && !c.started) with
    | none => s
    | some c =>
      let s1 := s.modCmd core c.ticket (fun c => { c with started := true })
      let met := ((s1.mats.map (·.1)).filter (fun k => match s1.openJoin k with
        | none => false
        | some d => decide (d.part = c.part) && joinsMeet c.record d.record))
      let clash := met.any (fun k => match s1.openJoin k with
        | none => false
        | some d => decide (rgang d.record % 256 ≠ rgang c.record % 256))
      if clash then met.foldl (fun s k => match s.openJoin k with
        | none => s
        | some d => (s.modCmd k d.ticket (fun d => { d with started := false })).mxStop k d 0 Cause.gangMismatch 0 0 0) s1
      else s1)

/-- GANG_JOIN_COMPLETE: every member's join with the same rows, columns, block and seq has been executed; the gang state
of each changes (09 R203). -/
def execGangJoinComplete (core : Nat) (s : State) : Host.Outcome State Fault Refusal :=
  goes (match s.openJoin core with
    | none => s
    | some c =>
      let ok := (joinCores c.record).all (fun k => match s.openJoin k with
        | none => false
        | some d => decide (d.part = c.part) && joinsMeet c.record d.record && decide (rgang d.record % 256 = rgang c.record % 256))
      if ok then (joinCores c.record).foldl (fun s k => match s.openJoin k with
        | none => s
        | some d => (s.modMat k (fun u => { u with gang := joinGang d.record })).mxDone k d) s
      else s)

/-- GANG_REDUCE (09 R204): the next element is added into its cell at its place. A line that is locked, or whose directory entry
has overflowed, holds it. -/
def execGangReduce (core : Nat) (s : State) : Host.Outcome State Fault Refusal :=
  s.mxStep core 10 (fun c =>
    let r := c.record
    let wr : Writer := { key := some (matKey core) }
    match (reduceCells r).drop c.prog with
    | [] => s.mxDone core c
    | p :: rest =>
      let added (s : State) : State := s.modCmd core c.ticket (fun c => { c with prog := c.prog + 1, finished := rest.isEmpty })
      match s.spotSegs (mxEng core c) false 512 needA true p.2 with
      | .error _ => s
      | .ok segs =>
        let ls := spanAll segs
        if ls.any isPeer then added (s.farDrop core c.ticket)
        else if (linesOf ls).any (fun l => s.lockedFor l noCtx) then s.askWrites wr (linesOf ls)
        else
          match xsAdd (BitVec.ofNat 512 (leNat (s.bytesAt ls))) (elemValue (rcfmt r) ((s.mat core).get r p.1.1 p.1.2)) (rcfmt r) with
          | none => if (s.mat core).queue.head? = some c then s.mxStop core c c.prog Cause.xcellFormat 0 p.2.ptr p.2.row else s
          | some w =>
            added (s.place wr (ls.zip (leBytes 64 w.toNat))))

/-! ## Completion (09 R205) -/

/-- The bytes of a command's arrival. -/
def arrivalBytes (r : BitVec 512) : Nat :=
  if rcmd r = 4 ∨ rcmd r = 5 then (rmm r * rn r * codeBits (rcfmt r) + 7) / 8
  else if isMma (rcmd r) then 4 * rmm r * rn r else 64

/-- What `MXSTAT` shows once a command has completed (09 R194). -/
def Mat.show (u : Mat) (c : MCmd) : Mat :=
  if rcmd c.record = 7 then { u with shown := (groupTiles c.record).foldl (fun m t => SMap.put m t (cfgTile c.record)) u.shown }
  else if rcmd c.record = 9 then { u with shownMask := c.got }
  else u

/-- The sync word of a command, if it has one. -/
def State.cmdSync (s : State) (k : Nat) (c : MCmd) : Option Nat :=
  if rflag c.record 5 then s.syncLoc (mxEng k c) (rptr c.record 48) else none

/-- MATRIX_COMPLETION (09 R205): the head command has executed; its writes are at their places, which is the release;
it makes its arrival and DONE counts it. The waits of the core's threads on it look again. -/
def execMatrixCompletion (core : Nat) (s : State) : Host.Outcome State Fault Refusal :=
  goes (match (s.mat core).queue with
    | [] => s
    | c :: rest =>
      let sync := s.cmdSync core c
      if !c.finished || (s.mat core).stop || s.ackHeld (matKey core) || s.peerOut (matKey core) then s
      else if sync.any s.arriveHeld then (match sync with
        | none => s
        | some l => s.askWrites {} [lineOf l])
      else
        let s1 := s.modMat core (fun u => { (u.show c) with queue := rest, done := u.done + 1 })
        match sync with
        | none => s1
        | some l => (s1.arriveAt l (arrivalBytes c.record)).1)

/-- The accesses of a core's matrix unit that are held on a packet's watermark channel: the command, and what it meets when the
channel breaks (12 R260). -/
def State.mxHeldOn (s : State) (k pk : Nat) : Option (MCmd × Meet) :=
  ((s.mat k).queue.take 3).findSome? (fun c =>
    if c.finished || (s.mat k).stop then none
    else
      let meet := match s.cmdMeet k c with
        | some .scale => ((s.mat k).scaleMisses c.record c.prog).head?.bind (fun n => match s.scaleMeet k c n with
            | .error (.held w p i) => some (Meet.held w p i, true)
            | _ => none)
        | some m => some (m, false)
        | none => none
      match meet with
      | some (.held (.watermark id _) p i, sc) => if id = pk then
          some (c, .err (if sc then Cause.scaleMissing else Cause.matrixOperand) Cause.watermarkRange p i) else none
      | _ => none)

end Sys2Proof.Machine
end

