-- ==== Sys2Proof/Machine/Signals.lean ====
section
/-! DEFINITION. Sys2Proof/Machine/Signals.lean: a signal's value and state at its home, and the window that shows them
(14 R295, R299 to R301). -/

namespace Sys2Proof.Machine

/-- The value of a signal that was not emitted (14 R295). Combine codes: 0 NONE, 1 ADD, 2 OR, 3 AND, 4 MIN, 5 MAX. -/
def absentValue (comb : Nat) : Word :=
  if comb = 3 then BitVec.allOnes 64 else if comb = 4 then 0x7FFFFFFFFFFFFFFF else if comb = 5 then 0x8000000000000000 else 0

/-- The value of a present signal (14 R295). -/
def Signal.value (g : Signal) : Word :=
  if g.comb = 0 then 1 else if g.comb = 1 then BitVec.ofNat 64 (xsRead g.cell 7 0).1 else g.acc

/-- One emission combined at the home (14 R295, R300). -/
def Signal.emit (g : Signal) (v : Word) : Signal :=
  let first := decide (g.st = .unknown)
  let acc : Word :=
    if first then v
    else if g.comb = 2 then g.acc ||| v
    else if g.comb = 3 then g.acc &&& v
    else if g.comb = 4 then (if g.acc.toInt ≤ v.toInt then g.acc else v)
    else if g.comb = 5 then (if g.acc.toInt ≤ v.toInt then v else g.acc)
    else v
  let cell : BitVec 512 := if g.comb = 1 then (xsAdd (if first then 0 else g.cell) (.ofInt v.toInt) 7).getD g.cell else 0
  { g with st := if first then .present else g.st, acc := acc, cell := cell }

/-- Whether a signal is decided. -/
def SigState.decided : SigState → Bool
  | .final | .absent | .forced => true
  | .unknown | .present => false

/-- The signal of a domain. -/
def Domain.sig (d : Domain) (n : Nat) : Signal := SMap.at {} d.sigs n

/-- The value that a decided signal answers with: its own, or the absent value (14 R295, R300). -/
def Signal.answer (g : Signal) : Word := if g.st = .final ∨ g.st = .present then g.value else absentValue g.comb

/-- One byte of the signal window (14 R301). -/
def Domain.windowByte (d : Domain) (off : Nat) : Byte :=
  let bits (f : Signal → Bool) (o : Nat) : Nat :=
    ((List.range 8).map (fun i => if f (d.sig (8 * o + i)) then 2 ^ i else 0)).sum
  if off < 0x200 then BitVec.ofNat 8 (bits (fun g => decide (g.st = .present ∨ g.st = .final)) off)
  else if off < 0x400 then BitVec.ofNat 8 (bits (fun g => g.st.decided) (off - 0x200))
  else if off < 0x408 then BitVec.ofNat 8 (d.instant.toNat / 2 ^ (8 * (off - 0x400)))
  else if off < 0x1000 then 0
  else
    let g := d.sig ((off - 0x1000) / 8)
    if g.st.decided then BitVec.ofNat 8 (g.answer.toNat / 2 ^ (8 * ((off - 0x1000) % 8))) else 0

end Sys2Proof.Machine
end

