-- ==== Sys2Proof/Machine/Window.lean ====
section
/-! DEFINITION. Sys2Proof/Machine/Window.lean: the core local window: queue staging, channel status, bank modes, FIFO
ports, shape record and argument area (03 R43 to R46; 15 R347). -/

namespace Sys2Proof.Machine

/-! ## The cullet area and the images of held banks (17 R401, R405, R406) -/

/-- The pointer of an offset of the cullet area. -/
def culletPtr (off : Nat) : Word := BitVec.ofNat 64 (0x010 * 2 ^ 52 + off)

/-- Write bytes to the area, row by row. -/
def State.areaWrite (s : State) (p off : Nat) (bs : List Byte) : State :=
  match s.engSegs (s.partEng p) (culletPtr off) bs.length needW true with
  | .error _ => s
  | .ok segs => s.place {} ((spanAll segs).zip bs)

/-- Rows of bytes written one after another. -/
def State.areaRows (s : State) (p off : Nat) (rows : List (List Byte)) : State :=
  (rows.foldl (fun (a : State × Nat) r => (a.1.areaWrite p a.2 r, a.2 + r.length)) (s, off)).1

/-- The key of a region. -/
def regionKey (p off : Nat) : Nat := p * 2 ^ 52 + off

/-! ## FIFO banks (03 R46) -/

/-- The mode of a bank. -/
def Cluster.mode (k : Cluster) (b : Nat) : Nat := bitsAt k.bankmode (2 * b) 2

/-- Whether a bank is changing mode. -/
def Cluster.busyBank (k : Cluster) (b : Nat) : Bool := bitOf k.busy b

/-- The words of a FIFO bank. -/
def Cluster.words (k : Cluster) (b : Nat) : List Word := SMap.at [] k.fifo b

/-- The accesses that wait at a FIFO bank, in arrival order. -/
def Cluster.waiters (k : Cluster) (b : Nat) : List (Nat × Reg × Option Word) := SMap.at [] k.fifoWait b

/-- The pointer of a bank's port. -/
def fifoPtr (b : Nat) : Word := BitVec.ofNat 64 (0x002 * 2 ^ 52 + 0xD00 + 8 * b)

/-- An access that waited at a port has been served with a word: a step of a vector access goes on, any other completes. -/
def State.fifoReply (s : State) (c : Nat) (v : Word) (r : Reply) : State :=
  match (s.ctx c).vpart with
  | some p =>
    match p.fifo with
    | some k => if p.pc = (s.ctx c).pc then (s.noteElem c k v.toNat false).giveReply c { again := true } else s.giveReply c r
    | none => s.giveReply c r
  | none => s.giveReply c r

/-- Serve a bank's waiters in arrival order, while the oldest can proceed. -/
def State.serveFifo (clu b : Nat) : Nat → State → State
  | 0, s => s
  | fuel + 1, s =>
    let k := s.clu clu
    match k.waiters b with
    | [] => s
    | (c, _, some v) :: rest =>
      if (k.words b).length < 8192 then
        let s1 := s.modClu clu (fun k => { k with fifo := SMap.put k.fifo b (k.words b ++ [v]),
                                                  fifoWait := SMap.put k.fifoWait b rest })
        State.serveFifo clu b fuel (s1.fifoReply c v {})
      else s
    | (c, d, none) :: rest =>
      match k.words b with
      | [] => s
      | v :: r =>
        let s1 := s.modClu clu (fun k => { k with fifo := SMap.put k.fifo b r, fifoWait := SMap.put k.fifoWait b rest })
        State.serveFifo clu b fuel (s1.fifoReply c v { writes := [(d, v)] })

/-- Serve every waiter of a bank that can be served; a bank that is changing mode serves none (03 R45). -/
def State.serveBank (s : State) (clu b : Nat) : State :=
  if (s.clu clu).busyBank b then s else State.serveFifo clu b ((s.clu clu).waiters b).length s

/-- Whether a bank takes a word now: in FIFO mode, not changing mode, not full. -/
def Cluster.canPush (k : Cluster) (b : Nat) : Bool :=
  decide (k.mode b = 2) && !k.busyBank b && decide ((k.words b).length < 8192) && (k.waiters b).all (fun w => w.2.2.isNone)

/-- Append a word to a bank and serve its waiters. -/
def State.pushWord (s : State) (clu b : Nat) (v : Word) : State :=
  (s.modClu clu (fun k => { k with fifo := SMap.put k.fifo b (k.words b ++ [v]) })).serveBank clu b

/-- Whether a bank gives a word now. -/
def Cluster.canPop (k : Cluster) (b : Nat) : Bool :=
  decide (k.mode b = 2) && !k.busyBank b && !(k.words b).isEmpty && (k.waiters b).all (fun w => w.2.2.isSome)

/-- Remove the oldest word of a bank and serve its waiters. -/
def State.popWord (s : State) (clu b : Nat) : State :=
  (s.modClu clu (fun k => { k with fifo := SMap.put k.fifo b ((k.words b).drop 1) })).serveBank clu b

/-- FIFO_PUSH: a 64-bit store's word arrives at a bank of a cluster (03 R46). A bank that cannot take it keeps its state. -/
def execFifoPush (clu bank : Nat) (v : Word) (s : State) : Host.Outcome State Fault Refusal :=
  goes (if (s.clu clu).canPush bank then s.pushWord clu bank v else s)

/-- FIFO_POP: a 64-bit load removes the oldest word of a bank of a cluster (03 R46). -/
def execFifoPop (clu bank : Nat) (s : State) : Host.Outcome State Fault Refusal :=
  goes (if (s.clu clu).canPop bank then s.popWord clu bank else s)

/-! ## Bank modes (03 R44, R45) -/

/-- The offset of the `j`-th bank's image in a region. -/
def bankImage (reg j : Nat) : Nat := reg + 0x22000 + 0x11000 * j

/-- Bits as bytes, lowest first. -/
def packBits (n : Nat) (f : Nat → Bool) : List Byte :=
  (List.range (n / 8)).map (fun i => BitVec.ofNat 8 (((List.range 8).map (fun j => if f (8 * i + j) then 2 ^ j else 0)).sum))

/-- The part of an engine's image whose layout belongs to the device: its offset and its length (17 R406). -/
def opaquePart (e : Nat) : Nat × Nat := if e < 4 then (0x1110, 0x2000 - 0x1110) else (0x20800, 0x22000 - 0x20800)

/-- The device writes its own part of an image: bytes of which nothing is known, whose content `State.engImg` keeps (log 19). -/
def State.writeOpaque (s : State) (p off n : Nat) : State :=
  ({ s with fresh := s.fresh + n } : State).areaWrite p off ((List.range n).map (fun i => Config.freeByte (s.fresh + i)))

/-- A held bank is written to its region: 64 KiB of data, full-empty bits, tags; its FIFO words and its saved mark go with the part
that only the device reads (17 R405, R406). -/
def State.saveBank (s : State) (clu : Nat) (h : BankHold) : State :=
  let a := sramLoc clu h.bank 0
  let off := bankImage h.eng h.place
  let rows := ((List.range 256).map (fun i => s.peek (a + 256 * i) 256)) ++
    [packBits 8192 (fun w => !hasNat s.empties (a / 8 + w)), packBits 4096 (fun g => hasNat s.mtags (a / 16 + g))]
  let vec := s.spilled.any (fun q => decide (q.1 = regionKey h.part h.rec_ ∧ q.2.ctx.sta.bind = 1))
  let part := opaquePart (if vec then 0 else 4)
  let s1 := (s.areaRows h.part off rows).writeOpaque h.part (h.eng + part.1) part.2
  let s2 : State := { s1 with bankImg := SMap.put s1.bankImg (regionKey h.part off) ((s.clu clu).words h.bank) }
  s2.modClu clu (fun k => { k with bankHeld := k.bankHeld.erase h })

/-- The hold of a bank, if it has one. -/
def Cluster.holdOf (k : Cluster) (b : Nat) : Option BankHold := k.bankHeld.find? (fun h => decide (h.bank = b))

/-- The held bank of a location is saved, so that an access of another launch goes on (17 R405). -/
def State.saveHeldAt (s : State) (l : Nat) : State :=
  let k := (l - sramBase) / 2 ^ 21
  match (s.clu k).holdOf ((l - sramBase) / 2 ^ 16 % 32) with
  | some h => s.saveBank k h
  | none => s

/-- The held banks whose mode a store to `BANKMODE` changes: they are saved first (17 R405). -/
def State.heldMoved (s : State) (clu : Nat) (v : Word) : List BankHold :=
  (s.clu clu).bankHeld.filter (fun h => decide ((s.clu clu).mode h.bank ≠ bitsAt v (2 * h.bank) 2))

/-- A store of `v` to `BANKMODE`: none where a field holds 0b11. The banks it names start to change; `pend` keeps the mode
that a changing bank leaves. -/
def State.bankStore (s : State) (clu : Nat) (v : Word) : Option State :=
  if (List.range 32).any (fun b => decide (bitsAt v (2 * b) 2 = 3)) then none
  else
    let k := s.clu clu
    let moved := (List.range 32).filter (fun b => decide (k.mode b ≠ bitsAt v (2 * b) 2))
    let pend := moved.foldl (fun p b => if k.busyBank b then p else SMap.put p b (k.mode b)) k.pend
    let busy := moved.foldl (fun (m : BitVec 32) b => m ||| ((1#32) <<< b)) k.busy
    some (s.modClu clu (fun k => { k with bankmode := v, busy := busy, pend := pend }))

/-- BANKMODE_WRITE: a store of `v` to the `BANKMODE` of a cluster (03 R44). A store that holds 0b11 changes no bank. -/
def execBankmodeWrite (clu : Nat) (v : Word) (s : State) : Host.Outcome State Fault Refusal :=
  goes ((((s.heldMoved clu v).foldl (fun s h => s.saveBank clu h) s).bankStore clu v).getD s)

/-- The locations of a bank. -/
def bankLocs (clu b : Nat) : Nat × Nat := (sramLoc clu b 0, 65536)

/-- Bytes of memory with those of a range dropped. -/
def Memory.dropRange (m : Memory) (a n : Nat) : Memory := m.filter (fun p => !(decide (a ≤ p.1) && decide (p.1 < a + n)))

/-- A bank's SRAM becomes zero, every word full, tags and errors gone (03 R45; 16 R380). -/
def State.clearBank (s : State) (clu b : Nat) : State :=
  let r := bankLocs clu b
  let out (g : Nat) (k : Nat) : Bool := !(decide (r.1 / k ≤ g) && decide (g < (r.1 + r.2) / k))
  { s with mem := s.mem.dropRange r.1 r.2, empties := s.empties.filter (fun w => out w 8),
           mtags := s.mtags.filter (fun g => out g 16), poison := s.poison.filter (fun g => out g 16),
           ecc := s.ecc.filter (fun g => out g 16) }

/-- Tagged lines that no longer find a way: the holder's are written to their homes, another iteration restarts
(03 R45). DESIGN CHOICE: the spec does not say which tagged lines of an over-full set lose; the last in the order in which
they were last written do (log 50). -/
def State.squeezeTagged (s : State) (clu : Nat) : State :=
  let ways := (banksOf 0 (s.clu clu).bankmode).length
  let tagged := (s.clu clu).spec
  let beyond := tagged.filter (fun t =>
    decide (ways ≤ ((tagged.takeWhile (fun u => decide (u ≠ t))).filter (fun u => decide (setOf u.line = setOf t.line))).length))
  beyond.foldl (fun s t =>
    let out := s.modClu clu (fun k => { k with spec := k.spec.filter (fun u => decide (u ≠ t)) })
    match s.spilled.find? (fun p => decide (spillKey p.2.ctx.tid = t.ctx)) with
    | some p =>
      if p.2.ctx.spec.any (fun k => (s.clu clu).group.any (fun g => decide (k.iter = g.2))) then
        (out.place { clu := some clu } (maskedBytes t.line t.mask t.data)).hitReaders clu t.line
      else s.restartSpilled clu t.ctx
    | none => if s.holdsBaton t.ctx then out.place (writerOf t.ctx) (maskedBytes t.line t.mask t.data) else s.restart t.ctx) s

/-- A bank leaves CACHE: the write-throughs of the cluster are done, the bank's clean lines drop, and its tagged lines move to
other ways, where clean lines drop for them (03 R45). -/
def State.leaveCache (s : State) (clu bank : Nat) : State :=
  let s1 := (s.drainThroughs clu).modClu clu (fun k => { k with cache := k.cache.filter (fun p => decide (p.2.way ≠ bank)) })
  (((s1.clu clu).spec.map (·.line)).foldl (fun s l => s.makeRoom clu l) s1).squeezeTagged clu

/-- The full-empty requests that wait in a bank are served again. -/
def State.serveRetries (s : State) (clu b : Nat) : State :=
  s.serveWords (((s.clu clu).retry.map (·.loc)).filter (fun l => decide (sramLoc clu b 0 ≤ l ∧ l < sramLoc clu b 0 + 65536)))

/-- BANK_MODE_CHANGE_DONE: a bank ends its change of mode (03 R45). Threads blocked on the port of a bank that leaves FIFO
fault with HANDLE_BOUNDS; the accesses held at one that is in FIFO mode now are served in their order of arrival (03 R46). DESIGN
CHOICE: a second store to `BANKMODE` that returns a bank, while it changes, to the mode that it is leaving ends the
change, and the bank keeps its contents: the spec does not say whether they are lost (log 15). -/
def execBankModeChangeDone (clu bank : Nat) (s : State) : Host.Outcome State Fault Refusal :=
  goes (
    let k := s.clu clu
    let old := SMap.at (k.mode bank) k.pend bank
    let new := k.mode bank
    let out := k.throughs.map (·.line)
    if !k.busyBank bank then s
    else if old = 0 ∧ new ≠ 0 ∧ out.any (fun l => s.lockedFor l (s.throughCtx clu l)) then s.askWrites { clu := some clu } out
    else
      let s1 := s.modClu clu (fun k => { k with busy := k.busy &&& ~~~((1#32) <<< bank), pend := SMap.del k.pend bank })
      let s2 := if old = new then s1
        else ((if old = 0 then s1.leaveCache clu bank else s1).clearBank clu bank).modClu clu (fun k => { k with fifo := SMap.del k.fifo bank })
      if new = 2 then s2.serveBank clu bank
      else
        ((((s2.clu clu).waiters bank).foldl (fun s w =>
          s.giveReply w.1 { exc := some { code := Cause.handleBounds, addr := fifoPtr bank } }) s2).modClu clu
          (fun k => { k with fifoWait := SMap.del k.fifoWait bank })).serveRetries clu bank)

/-! ## Reads and writes of the window (03 R43) -/

/-- Whether a thread owns the channel of its slot: the one that stands there, or a spilled one that is pinned to it (15 R346; 17
R404). -/
def State.chanOwned (s : State) (c : Nat) : Bool :=
  (s.ctx c).owner || (decide ((s.ctx c).slot = .reserved) && s.spilled.any (fun p => decide (p.2.from_ = c) && p.2.ctx.owner))

/-- The status word of channel `c` of a core (15 R347). -/
def State.chanStatus (s : State) (core c : Nat) : Nat :=
  let h := SMap.at {} (s.core core).chans c
  let own := s.chanOwned (16 * core + c)
  h.words.length % 16 + h.wake.toNat * 2 ^ 7 + own.toNat * 2 ^ 8 +
    (match h.stream with | none => 0 | some x => 2 ^ 9 + x % 2 ^ 15 * 2 ^ 10)

/-- The wake cell of channel `c` of a core. -/
def State.wakeCell (s : State) (core c : Nat) : Word := (SMap.at {} (s.core core).chans c).cell

/-- The 64-bit word of the window that holds byte `off`, for the readable regions that are not FIFO ports. -/
def State.windowWord (s : State) (core off : Nat) : Nat :=
  let k := s.core core
  let w := off / 8 * 8
  if w < 0x800 then bitsAt (SMap.at 0 (s.mat core).staging (w / 64)) (8 * (w % 64)) 64
  else if w < 0x880 then s.chanStatus core ((w - 0x800) / 8)
  else if w < 0x900 then (s.wakeCell core ((w - 0x880) / 8)).toNat
  else if w = 0xC00 then (s.clu (core / 4)).bankmode.toNat
  else if w = 0xC08 then (s.clu (core / 4)).busy.toNat
  else if 0x1000 ≤ w ∧ w < 0x1100 then leNat ((List.range 8).map (fun i => k.shape.getD (w - 0x1000 + i) 0))
  else if 0x1100 ≤ w ∧ w < 0x1200 then leNat ((List.range 8).map (fun i => k.args.getD (w - 0x1100 + i) 0))
  else 0

/-- One byte of the window. -/
def State.windowByte (s : State) (core off : Nat) : Byte := BitVec.ofNat 8 (s.windowWord core off / 2 ^ (8 * (off % 8)))

/-- Whether a window offset is reserved. -/
def windowReserved (o : Nat) : Bool :=
  decide (0xC10 ≤ o ∧ o < 0xD00) || decide (0xE00 ≤ o ∧ o < 0x1000) || decide (0x1200 ≤ o)

/-- Whether a window offset can be written: the staging records, `BANKMODE` and the FIFO ports. -/
def windowWritable (o : Nat) : Bool := decide (o < 0x800) || decide (0xC00 ≤ o ∧ o < 0xC08) || decide (0xD00 ≤ o ∧ o < 0xE00)

/-- Whether a window offset admits aligned 64-bit accesses only. -/
def windowWide (o : Nat) : Bool := decide (o < 0x800) || decide (0xC00 ≤ o ∧ o < 0xC10) || decide (0xD00 ≤ o ∧ o < 0xE00)

/-- The fault of an access to the window, if it has one (03 R43): a reserved region fails with HANDLE_BOUNDS, a write to a
read-only one with HANDLE_PERM, the queue window without a binding to MAT with NO_BINDING (row 6 of 05 R82), a narrow or
unaligned access to a wide region with MISALIGNED, and a port whose bank is not in FIFO mode with HANDLE_BOUNDS. DESIGN
CHOICE: the spec gives no order among the others where an access breaks several of these rules; theirs is this one
(log 54). -/
def State.windowBad (s : State) (off n : Nat) (wr : Bool) : Option Cause :=
  let os := span off n
  if off < 0x800 ∧ (s.ctx s.cur).sta.bind ≠ 2 then some Cause.noBinding
  else if os.any windowReserved then some Cause.handleBounds
  else if wr && os.any (fun o => !windowWritable o) then some Cause.handlePerm
  else if os.any windowWide && (decide (n ≠ 8) || decide (off % 8 ≠ 0)) then some Cause.misaligned
  else if 0xD00 ≤ off ∧ off < 0xE00 ∧ (s.clu (cluOf s.cur)).mode ((off - 0xD00) / 8) ≠ 2 then some Cause.handleBounds
  else none

/-- A read of `n` bytes of the window that may be made: the value and the state, or none while a FIFO port has no word to give. The
argument area and the shape record of a callee are zero (15 R351). -/
def State.windowTake (s : State) (off n : Nat) : Option (Nat × State) :=
  if 0xD00 ≤ off ∧ off < 0xE00 then
    let b := (off - 0xD00) / 8
    let k := s.clu (cluOf s.cur)
    if k.canPop b then some (((k.words b).headD 0).toNat, s.popWord (cluOf s.cur) b) else none
  else if 0x1000 ≤ off ∧ (s.ctx s.cur).call.isSome then some (0, s)
  else some (leNat ((span off n).map (s.windowByte (coreOf s.cur))), s)

/-- A load of `n` bytes of the window into `d`. -/
def State.windowLoad (s : State) (ptr : Word) (off n z : Nat) (d : Reg) : Res :=
  match s.windowBad off n false, s.windowTake off n with
  | some c, _ => Res.bad c ptr
  | none, some (v, s1) => .done (s1.setReg d (extend z v))
  | none, none =>
    let b := (off - 0xD00) / 8
    .wait (s.modClu (cluOf s.cur) (fun k => { k with fifoWait := SMap.put k.fifoWait b ((k.waiters b) ++ [(s.cur, d, none)]) }))
      (.fifo b true)

/-- A store of `v` to `n` bytes of the window. It takes effect at issue (10 R209). -/
def State.windowStore (s : State) (ptr : Word) (off n : Nat) (v : Word) : Res :=
  match s.windowBad off n true with
  | some c => Res.bad c ptr
  | none =>
    if off < 0x800 then s.mxWindowStore off v
    else if off < 0xD00 then
      match s.bankStore (cluOf s.cur) v with
      | none => Res.bad Cause.reservedBits ptr
      | some s1 =>
        match s.heldMoved (cluOf s.cur) v with
        | h :: _ => .wait s (.bank (sramLoc (cluOf s.cur) h.bank 0))
        | [] => .done s1
    else
      let b := (off - 0xD00) / 8
      let k := s.clu (cluOf s.cur)
      if k.canPush b then .done (s.pushWord (cluOf s.cur) b v)
      else .wait (s.modClu (cluOf s.cur) (fun k => { k with fifoWait := SMap.put k.fifoWait b (k.waiters b ++ [(s.cur, 0, some v)]) }))
        (.fifo b false)

/-! ## Records, packets and images that a thread reads (09 R191; 12 R268; 16 R378) -/

/-- The `n` bytes of a record, a packet or an image that the running thread reads as its own loads (09 R191; 12 R268; 16 R378), in
the machine `v` as the access finds it (02 R34). A window is read as 03 R43 and 14 R295 lay it out (log 32). Through a PEER handle
they are READs, whose answers the instruction collects (18 R433). -/
def State.ownBytes (s : State) (ptr : Word) (n : Nat) (v : State) : Except Stop (List Byte × State) :=
  let bad (c : Cause) : Except Stop (List Byte × State) := .error (.exc { code := c, addr := ptr })
  let rd (segs : List (Nat × Nat)) (keep : Bool) : Except Stop (List Byte × State) :=
    let ls := spanAll segs
    if s.readsHeld (cluOf s.cur) (s.fetched s.cur ls) then .error (.hold (.place (ls.headD 0)))
    else
      let (na, s0) := s.coreStream ptr
      .ok (s0.loadBytes s.cur ls (keep && !na))
  match v.access s.cur ptr n needR n .plain false true with
  | .error e => .error e
  | .ok (.mem segs keep _) => rd segs keep
  | .ok (.grid e off) =>
    (match v.gridMem s.cur ptr e off n needR false true with
      | .error x => .error x
      | .ok (.mem segs keep _) => rd segs keep
      | .ok _ => bad Cause.handlePerm)
  | .ok (.window off) =>
    (match s.windowBad off n false with
      | some c => bad c
      | none => .ok (leBytes n ((s.windowTake off n).map (·.1) |>.getD 0), s))
  | .ok (.peer e off) =>
    (match s.peerBytes ptr e off n with
      | .error r => .error (.ends r)
      | .ok (bs, s1) => .ok (bs, s1))
  | .ok (.signals off) =>
    (match s.domainOf s.cur with
      | none => bad Cause.handleInvalid
      | some (_, d) => .ok ((span off n).map d.windowByte, s))

/-- A record or packet of 64 bytes. -/
def State.ownRead (s : State) (ptr : Word) (v : State) : Except Stop (BitVec 512 × State) :=
  match s.ownBytes ptr 64 v with
  | .error e => .error e
  | .ok (bs, s1) => .ok (BitVec.ofNat 512 (leNat bs), s1)

/-- MXQ (09 R191). -/
def execMxq (d a : Reg) (s : State) : Host.Outcome State Fault Refusal :=
  goes (s.run { mat := true } 4 (fun s =>
    match s.ownRead (s.reg a) s with
    | .error e => e.res s
    | .ok (r, s1) => s1.mxSubmit r d))

end Sys2Proof.Machine
end

