-- ==== Sys2Proof/Machine/Memory.lean ====
section
/-! DEFINITION. Sys2Proof/Machine/Memory.lean: loads, stores, fences, capability loads and stores, cache maintenance, and
the writes that reach their places by themselves (10 R209 to R222, R232; 16 R381; 03 R51; 15 R358). -/

namespace Sys2Proof.Machine

/-! ## Stream detectors (03 R51) -/

/-- STREAM_IDLE_END (03 R51): stream `k` of a detector ends after 1,024 cycles without an access. Detectors 0 to 2,047 are
the cores', 2,048 to 4,095 the matrix units', and 4,096 up the copy engines'. -/
def execStreamIdleEnd (unit k : Nat) (s : State) : Host.Outcome State Fault Refusal :=
  goes (
    let cut (l : List Stream) : List Stream :=
      match l[k]? with
      | none => l
      | some t => if t.last + 1024 ≤ s.unitCycle unit then l.erase t else l
    if unit < 2048 then s.modCore unit (fun c => { c with detectors := cut c.detectors })
    else if unit < 4096 then s.modMat (unit - 2048) (fun m => { m with detectors := cut m.detectors })
    else { s with engDet := SMap.put s.engDet (unit - 4096) (cut (SMap.at [] s.engDet (unit - 4096))) })

/-! ## Speculative accesses (15 R358) -/

/-- Whether a context runs speculatively: it does not hold the baton. -/
def State.speculating (s : State) (c : Nat) : Bool := (s.ctx c).spec.isSome && !s.holdsBaton c

/-- Whether lines can be tagged or tracked: each is, or its set has a way that is neither. -/
def State.specRoom (s : State) (clu : Nat) (lines : List Nat) : Bool :=
  let all := s.specLines clu
  let ways := (banksOf 0 (s.clu clu).bankmode).length
  lines.all (fun l => hasNat all l || decide ((all.filter (fun m => decide (setOf m = setOf l))).length < ways))

/-- Tag bytes of a line with a context's iteration; the line takes a way of its set. -/
def State.tagLine (s : State) (c line : Nat) (bs : List (Nat × Byte)) : State :=
  let old := ((s.clu (cluOf c)).spec.find? (fun t => decide (t.ctx = c ∧ t.line = line))).getD ⟨c, line, 0, 0⟩
  let put (t : SpecLine) (b : Nat × Byte) : SpecLine :=
    { t with mask := t.mask ||| ((1#128) <<< (b.1 % 128)), data := setLineByte t.data (b.1 % 128) b.2 }
  let new := bs.foldl put old
  (s.modClu (cluOf c) (fun k => { k with spec := k.spec.filter (fun t => !decide (t.ctx = c ∧ t.line = line)) ++ [new] })).makeRoom
    (cluOf c) line

/-! ## LD (10 R219, R220) -/

/-- Whether the running context's iteration has been restarted since `s`: its read set is gone (15 R359). -/
def State.restarted (s t : State) : Bool :=
  s.speculating s.cur && decide ((t.ctx s.cur).readSet ≠ (s.ctx s.cur).readSet)

/-- The value of a load of some locations, and the state with the line in the read set of a speculative thread. A load whose
own read restarts its iteration has no further effect. -/
def State.loadAt (s : State) (ptr : Word) (segs : List (Nat × Nat)) (keep : Bool) (fill : Word → State → State) : Res :=
  let ls := spanAll segs
  let lines := linesOf ls
  if s.speculating s.cur && !s.specRoom (cluOf s.cur) lines then .wait s .baton
  else if s.readsHeld (cluOf s.cur) (s.fetched s.cur ls) then .wait s (.place (ls.headD 0))
  else
    let (na, s0) := s.coreStream ptr
    let (bs, s1) := s0.loadBytes s.cur ls (keep && !na)
    if s.restarted s1 then .stay s1
    else
      let s2 := if s1.speculating s1.cur then
          s1.modCtx s1.cur (fun x => { x with readSet := lines.foldl (fun acc l => addNat acc l) x.readSet })
        else s1
      .done (fill (BitVec.ofNat 64 (leNat bs)) s2)

/-- An outcome followed by an acquire. -/
def Res.thenAcquire (r : Res) (scope : Nat) : Res :=
  match r with
  | .done s => .done (s.acquire s.cur scope)
  | r => r

/-- A load of size code `z` into `d`. -/
def State.load (s : State) (ptr : Word) (d : Reg) (z : Nat) (acq : Bool) (scope : Nat) : Res :=
  let n := szBytes z
  let s := if acq then s.acquire s.cur scope else s
  let fill (v : Word) (s : State) : State :=
    let t := s.setReg d (extend z v.toNat)
    if acq then t.acquire t.cur scope else t
  match s.access s.cur ptr n needR (if acq then n else 1) .plain false true with
  | .error e => e.res s
  | .ok (.mem segs keep _) => s.loadAt ptr segs keep fill
  | .ok (.window off) => if acq then (s.windowLoad ptr off n z d).thenAcquire scope else s.windowLoad ptr off n z d
  | .ok (.signals off) =>
    match s.domainOf s.cur with
    | none => Res.bad Cause.handleInvalid ptr
    | some (_, dom) => .done (fill (BitVec.ofNat 64 (leNat ((span off n).map dom.windowByte))) s)
  | .ok (.grid e off) =>
    (match s.gridMem s.cur ptr e off n needR false true with
      | .error r => r.res s
      | .ok (.mem segs keep _) => s.loadAt ptr segs keep fill
      | .ok _ => Res.bad Cause.handlePerm ptr)
  | .ok (.peer e off) => s.peerOp ptr e off n 1 opcRead 0 z 0 [] false d acq

/-- LD. -/
def execLd (scp o : BitVec 2) (z : BitVec 3) (d a : Reg) (p : Imm 8) (s : State) : Host.Outcome State Fault Refusal :=
  goes (s.run { specOk := decide (o = 0) } (immLen p) (fun s =>
    s.load (s.reg a + dispW (szBytes z.toNat) p) d z.toNat (decide (o = 1)) scp.toNat))

/-! ## ST (10 R209, R219, R221) -/

/-- Enter the bytes of a store into the thread's buffer: behind its own release marker for a release store. A speculative
thread tags lines instead. -/
def State.storeAt (s : State) (bs : List (Nat × Byte)) (ord : Nat) (scope : BitVec 2) (keep : Bool) : Res :=
  let c := s.cur
  let lines := linesOf (bs.map (·.1))
  if s.speculating c then
    if !s.specRoom (cluOf c) lines then .wait s .baton
    else .done (lines.foldl (fun s l => s.tagLine c l (bs.filter (fun b => decide (lineOf b.1 = l)))) s)
  else
    let s1 := if ord = 1 then s.pushMarker c scope else s
    let keep1 := keep && decide (ord ≠ 2)
    match s1.bufferBytes c bs (decide (ord = 2)) (decide (ord = 3)) keep1 (if ord = 1 then some scope else none) with
    | none => .wait (s.askHeld c 1 (oldestOut (s.ctx c).buf)) .buffer
    | some s2 => .done (s2.untagBytes c (bs.map (·.1)))

/-- A store through a PEER handle: the capability's checks, then the bytes enter the buffer and travel as WRITE requests when they
are written (18 R433). -/
def State.storePeer (s : State) (ptr : Word) (e : HEntry) (off : Nat) (bs : List Byte) (ord : Nat) (scope : BitVec 2) : Res :=
  match s.peerCap (s.who s.cur) (ptr.toNat / 2 ^ 52) e with
  | .error x => .fault { x with addr := ptr }
  | .ok cap =>
    match s.egress cap true off bs.length 2 (opBits opcWrite 0) none with
    | some x => .fault { x with addr := ptr }
    | none => s.storeAt ((span (peerLoc s.myPart (ptr.toNat / 2 ^ 52) off) bs.length).zip bs) ord scope false

/-- A store of the low bytes of `v`, of size code `z`. The queue window without a binding to MAT fails before its operands are
looked at (02 R29; 05 R82, row 6). -/
def State.store (s : State) (ptr : Word) (v : Word) (z ord : Nat) (scope : BitVec 2) : Res :=
  let n := szBytes z
  if ptr.toNat / 2 ^ 52 = 2 ∧ ptr.toNat % 2 ^ 52 < 0x800 ∧ (s.ctx s.cur).sta.bind ≠ 2 then Res.bad Cause.noBinding ptr
  else
  match s.access s.cur ptr n needW (if ord = 1 then n else 1) .plain true false with
  | .error e => e.res s
  | .ok (.mem segs keep _) =>
    let (na, s1) := s.coreStream ptr
    s1.storeAt ((spanAll segs).zip (leBytes n v.toNat)) ord scope (keep && !na)
  | .ok (.window off) =>
    if s.speculating s.cur then .wait s .baton
    else if ord = 1 then
      match s.release s.cur scope.toNat with
      | (s1, false) => .wait s1 .marker
      | (s1, true) => s1.windowStore ptr off n v
    else s.windowStore ptr off n v
  | .ok (.peer e off) =>
    if s.speculating s.cur then .wait s .baton
    else s.storePeer ptr e off (leBytes n v.toNat) ord scope
  | .ok _ => Res.bad Cause.handlePerm ptr

/-- ST. -/
def execSt (scp o : BitVec 2) (z : BitVec 3) (d a : Reg) (p : Imm 8) (s : State) : Host.Outcome State Fault Refusal :=
  goes (s.run { specOk := decide (o = 0) } (immLen p) (fun s =>
    s.store (s.reg a + dispW (szBytes z.toNat) p) (s.reg d) z.toNat o.toNat scp))

/-! ## FENCE (10 R222) -/

/-- FENCE: 1 acquire, 2 release, 3 both, the release first. -/
def execFence (scp k : BitVec 2) (s : State) : Host.Outcome State Fault Refusal :=
  goes (s.run {} 4 (fun s =>
    let s1 := if k = 2 ∨ k = 3 then s.pushMarker s.cur scp else s
    .done (if k = 1 ∨ k = 3 then s1.acquire s1.cur scp.toNat else s1)))

/-! ## LDC and STC (16 R381) -/

/-- The capability load's effect: the pair and its tag. -/
def State.setPair (s : State) (d : Reg) (v : BitVec 128) (t : Bool) : State :=
  s.modCtx s.cur (fun x => ((x.setReg d (v.setWidth 64)).setReg (d + 1) ((v >>> 64).setWidth 64)).setTag d t)

/-- LDC. -/
def execLdc (scp o : BitVec 2) (d a : Reg) (p : Imm 8) (s : State) : Host.Outcome State Fault Refusal :=
  goes (s.run {} (immLen p) (fun s =>
    let ptr := s.reg a + dispW 16 p
    match s.access s.cur ptr 16 (needR + needL) 16 .cap false true with
    | .error e => e.res s
    | .ok (.mem segs _ _) =>
      let ls := spanAll segs
      let l := ls.headD 0
      match s.flushLines s.cur [lineOf l] with
      | none => .wait (s.askFlush s.cur [lineOf l]) (.place l)
      | some s1 =>
        let s1 := (s1.coreStream ptr).2.placeReply (cluOf s.cur) (lineOf l) ls
        let s1 := if o = 1 then s1.acquire s1.cur scp.toNat else s1
        let t := hasNat s1.mtags (l / 16) && !hasNat s1.poison (l / 16)
        let s2 := s1.setPair d (BitVec.ofNat 128 (leNat (s1.bytesAt ls))) t
        .done (if o = 1 then s2.acquire s2.cur scp.toNat else s2)
    | .ok _ => Res.bad Cause.atomicUnsupported ptr))

/-- Set the granule tag of the newest buffered entry of a line. -/
def State.tagEntry (s : State) (c l : Nat) (t : Bool) : State :=
  let mark (e : BufEntry) : BufEntry :=
    { e with tags := if t then e.tags ||| ((1#8) <<< (l % 128 / 16)) else e.tags &&& ~~~((1#8) <<< (l % 128 / 16)) }
  let rec go : List BufItem → List BufItem
    | [] => []
    | .entry e :: r => if e.line = lineOf l then .entry (mark e) :: r else .entry e :: go r
    | i :: r => i :: go r
  s.modCtx c (fun x => { x with buf := (go x.buf.reverse).reverse })

/-- STC. -/
def execStc (scp o : BitVec 2) (d a : Reg) (p : Imm 8) (s : State) : Host.Outcome State Fault Refusal :=
  goes (s.run {} (immLen p) (fun s =>
    let ptr := s.reg a + dispW 16 p
    match s.access s.cur ptr 16 (needW + needS) 16 .cap true false with
    | .error e => e.res s
    | .ok (.mem segs keep _) =>
      let ls := spanAll segs
      let x := s.ctx s.cur
      let (na, s1) := s.coreStream ptr
      match s1.storeAt (ls.zip (leBytes 16 (x.pair d).toNat)) o.toNat scp (keep && !na) with
      | .done s1 => .done (s1.tagEntry s1.cur (ls.headD 0) (x.tagOf d))
      | r => r
    | .ok _ => Res.bad Cause.atomicUnsupported ptr))

/-! ## Cache maintenance (10 R232) -/

/-- The checks of a maintenance access, through a GRID handle too. -/
def State.reachLine (s : State) (ptr : Word) (need : Nat) (wr rd : Bool) : Except Stop Tgt :=
  match s.access s.cur ptr 1 need 1 .plain wr rd with
  | .ok (.grid e off) => s.gridMem s.cur ptr e off 1 need wr rd
  | r => r

/-- PREF: a failing check makes it a NOP. -/
def execPref (scp : BitVec 2) (a : Reg) (p : Imm 4) (s : State) : Host.Outcome State Fault Refusal :=
  goes (s.run { specOk := true } (immLen p) (fun s =>
    match s.reachLine (s.reg a + dispW 1 p) needR false true with
    | .ok (.mem segs keep _) =>
      let line := lineOf (segs.headD (0, 0)).1
      let (na, s1) := s.coreStream (s.reg a + dispW 1 p)
      .done (if scp.toNat < 2 ∧ s.readsHeld (cluOf s.cur) [line] = false then s1.fillLine (cluOf s.cur) line (keep && !na) else s1)
    | _ => .done s))

/-- CLEAN: the thread's buffered bytes of the line go to the level of its scope. At core scope it has no effect. -/
def execClean (scp : BitVec 2) (a : Reg) (p : Imm 4) (s : State) : Host.Outcome State Fault Refusal :=
  goes (s.run {} (immLen p) (fun s =>
    match s.reachLine (s.reg a + dispW 1 p) needW true false with
    | .error e => e.res s
    | .ok (.mem segs _ _) =>
      let l := (segs.headD (0, 0)).1
      let b := (s.ctx s.cur).buf
      let mine := (entriesAhead b).filter (fun e => decide (e.line = lineOf l))
      if scp = 0 then .done s
      else if scp = 1 then
        if (entriesOf (b.dropWhile (fun i => match i with | .marker _ => false | _ => true))).any (fun e => decide (e.line = lineOf l)) then
          .wait s (.place l)
        else if s.heldBack s.cur 1 mine then .wait (s.askHeld s.cur 1 mine) (.place l)
        else
          .done (mine.foldl (fun s e => s.clusterWrite s.cur e) ((s.modCtx s.cur (fun x =>
            { x with buf := x.buf.filter (fun i => match i with | .entry e => decide (e.line ≠ lineOf l) | _ => true) })).cumulate s.cur 1))
      else
        match s.flushLines s.cur [lineOf l] with
        | none => .wait (s.askFlush s.cur [lineOf l]) (.place l)
        | some s1 => .done s1
    | .ok _ => .done s))

/-- INVAL with D = x0: the cluster's copy is dropped; a write-through outstanding on it is done first. -/
def execInval (_scp : BitVec 2) (a : Reg) (p : Imm 4) (s : State) : Host.Outcome State Fault Refusal :=
  goes (s.run {} (immLen p) (fun s =>
    match s.reachLine (s.reg a + dispW 1 p) needR false false with
    | .error e => e.res s
    | .ok (.mem segs _ _) =>
      let l := (segs.headD (0, 0)).1
      let k := cluOf s.cur
      if !(s.clu k).throughs.any (fun e => decide (e.line = lineOf l)) then
        .done (s.modClu k (fun u => { u with cache := SMap.del u.cache (lineOf l) }))
      else if s.throughHeld k (lineOf l) then .wait (s.askWrites { clu := some k } ((s.clu k).throughs.map (·.line))) (.place l)
      else .done ((s.throughsHome k (fun m => s.sameHome m (lineOf l))).modClu k (fun u => { u with cache := SMap.del u.cache (lineOf l) }))
    | .ok _ => .done s))

/-- INVAL of another cluster: supervisor only. -/
def execInvalCluster (_scp : BitVec 2) (d a : Reg) (p : Imm 4) (s : State) : Host.Outcome State Fault Refusal :=
  goes (s.run { priv := true } (immLen p) (fun s =>
    match s.reachLine (s.reg a + dispW 1 p) needR false false with
    | .error e => e.res s
    | .ok t =>
      let k := (s.reg d).toNat % 512
      if k ∉ (s.part s.myPart).clusters then Res.bad Cause.partitionViolation (s.reg a + dispW 1 p)
      else
        match t with
        | .mem segs _ _ => .done (s.invalidate k (lineOf (segs.headD (0, 0)).1))
        | _ => .done s))

/-! ## Writes that reach their places by themselves (10 R209, R210, R216) -/

/-- The buffer entry that is written next: the oldest that no marker holds back, or a write-combining one before it, which
may go in any order (10 R221; log 6). -/
def State.nextOut (s : State) (c : Nat) : Option BufEntry :=
  let es := entriesAhead (s.ctx c).buf
  match es.reverse.find? (·.wc) with
  | none => es.head?
  | some e => if Config.freeBit s.fresh then some e else es.head?

/-- HOME_WRITE: a write arrives at its place. A line that is held back keeps it; the write-throughs of a cluster to one home
slice arrive in the order in which they were issued (03 R53). -/
def execHomeWrite (src : WriteSrc) (s : State) : Host.Outcome State Fault Refusal :=
  goes (match src with
    | .buffer c =>
      (match s.nextOut c with
        | none => s
        | some e =>
          let out : List BufEntry := [{ e with keep := false }]
          if s.heldBack c 1 out then s.askHeld c 1 out
          else
            let s0 : State := { s with fresh := s.fresh + 1 }
            ((s0.modCtx c (fun x => { x with buf := x.buf.erase (.entry e) })).drainShared (coreOf c)).writeEntry c e)
    | .through clu k =>
      (match (s.clu clu).throughs[k]? with
        | none => s
        | some e =>
          if s.lockedFor e.line (s.throughCtx clu e.line) then s.askWrite { clu := some clu } e.line
          else if ((s.clu clu).throughs.take k).any (fun t => decide (s.placeClu (t.line * 128) = s.placeClu (e.line * 128))) then s
          else
            let more := ((s.clu clu).throughs.eraseIdx k).any (fun t => decide (t.line = e.line))
            let calm (p : Nat × CLine) : Nat × CLine := if p.1 = e.line ∧ more = false then (p.1, { p.2 with through := false }) else p
            let s1 := s.place { clu := some clu } e.bytes
            s1.modClu clu (fun u => { u with throughs := u.throughs.eraseIdx k, cache := u.cache.map calm })))

/-- RELEASE_MARKER_COMPLETE: the first marker of a context's buffer completes (10 R210, R211). -/
def execReleaseMarkerComplete (c : Nat) (s : State) : Host.Outcome State Fault Refusal := goes (s.markerDone c)

end Sys2Proof.Machine
end

