-- ==== Sys2Proof/Machine/Atomic.lean ====
section
/-! DEFINITION. Sys2Proof/Machine/Atomic.lean: operations that execute at a place: atomics, load-reserved pairs, waits on a
line, exact sum cells, full-empty words, and remote operations (10 R215 to R218, R223 to R231, R233 to R235). -/

namespace Sys2Proof.Machine

/-- A pointer's access that executes at a place, once its checks have passed: `atMem` for memory of this package, given
the locations; `atPeer` through a PEER handle (10 R215 to R217). A release first waits for its marker (10 R210); then the
thread's own bytes of the line are written, and its detector sees the access (03 R51); a line locked for another context
holds a write back (10 R226). -/
def State.atPlace (s : State) (ptr : Word) (size need al : Nat) (r : Reach) (wr rd : Bool) (rel : Option Nat)
    (atMem : State → List Nat → Res) (atPeer : State → HEntry → Nat → Res) : Res :=
  match s.access s.cur ptr size need al r wr rd with
  | .error e => e.res s
  | .ok (.peer e off) => atPeer s e off
  | .ok (.mem segs _ _) =>
    let ls := spanAll segs
    let l := ls.headD 0
    match (match rel with | none => (s, true) | some k => s.release s.cur k) with
    | (s1, false) => .wait s1 .marker
    | (s1, true) =>
      if wr && hasMarker (s1.ctx s1.cur).buf then .wait s1 .marker
      else
        match s1.flushLines s1.cur (linesOf ls) with
        | none => .wait (s1.askFlush s1.cur (linesOf ls)) (.place l)
        | some s2 =>
          let s2 := (s2.coreStream ptr).2.placeReply (cluOf s.cur) (lineOf l) ls
          if wr && s2.lockedFor (lineOf l) s2.cur then .wait (s1.askWrite (writerOf s1.cur) (lineOf l)) (.place l) else atMem s2 ls
  | .ok _ => Res.bad Cause.atomicUnsupported ptr

/-- The value at some locations. -/
def State.valueAt (s : State) (ls : List Nat) : Nat := leNat (s.bytesAt ls)

/-- A write at its place by the running context. -/
def State.writeAt (s : State) (ls : List Nat) (v : Nat) : State := s.place (writerOf s.cur) (ls.zip (leBytes ls.length v))

/-- The issuing cluster's copy of a line is dropped by the reply of a read (10 R216). -/
def State.dropCopy (s : State) (l : Nat) : State := s.evictLine (cluOf s.cur) (lineOf l)

/-- An acquire when `ord` asks for one. -/
def State.acqIf (s : State) (p : Bool) (scope : Nat) : State := if p then s.acquire s.cur scope else s

/-- An ordered operation of the running context (17 R414): it waits while the ring has no room, or while replay stands at
another record. -/
def State.inOrder (s : State) (major : Nat) (ls : List Nat) (go : State → Res) : Res :=
  match s.ordered s.cur major (ls.headD 0) with
  | none => .wait s .trace
  | some s1 => go s1

/-! ## AMO and CAS (10 R223, R224) -/

/-- The new value of an `AMO` of width `w` (10 R223). -/
def amoValue (op w old b : Nat) : Nat :=
  let so := signedOf w old
  let sb := signedOf w b
  if op = 0 then (old + b) % 2 ^ w
  else if op = 1 then old &&& b
  else if op = 2 then old ||| b
  else if op = 3 then old ^^^ b
  else if op = 4 then b
  else if op = 5 then (if so ≤ sb then old else b)
  else if op = 6 then (if so ≤ sb then b else old)
  else if op = 7 then (if old ≤ b then old else b)
  else (if old ≤ b then b else old)

/-- Release before, for ORD 2 and 3. -/
def ordRel (o : BitVec 2) (scope : BitVec 2) : Option Nat := if 2 ≤ o.toNat then some scope.toNat else none
/-- Acquire after, for ORD 1 and 3. -/
def ordAcq (o : BitVec 2) : Bool := decide (o.toNat % 2 = 1)

/-- An `AMO`. `SWAP`, and every other one whose D is not x0, is an ordered operation (17 R414). -/
def State.amo (s : State) (op : Nat) (scp o : BitVec 2) (z : BitVec 3) (d a : Reg) (p : Imm 4) : Res :=
  let n := szBytes z.toNat
  let ptr := s.reg a + dispW n p
  let b := (s.reg d).toNat % 2 ^ (8 * n)
  s.atPlace ptr n needA n .atomic true true (ordRel o scp)
    (fun s ls =>
      let act (s : State) : Res :=
        let old := s.valueAt ls
        .done (((s.writeAt ls (amoValue op (8 * n) old b)).setReg d (extend z.toNat old)).acqIf (ordAcq o) scp.toNat)
      if op = 4 ∨ d ≠ 0 then s.inOrder 0x25 ls act else act s)
    (fun s e off => s.peerOp ptr e off n 4 opcRamo op z.toNat (BitVec.ofNat 128 b) [] (decide (2 ≤ o.toNat)) d (ordAcq o)
      (if op = 4 ∨ d ≠ 0 then some 0x25 else none))

/-- AMO.ADD. -/
def execAmoAdd (scp o : BitVec 2) (z : BitVec 3) (d a : Reg) (p : Imm 4) (s : State) : Host.Outcome State Fault Refusal :=
  goes (s.run {} (immLen p) (fun s => s.amo 0 scp o z d a p))
/-- AMO.AND. -/
def execAmoAnd (scp o : BitVec 2) (z : BitVec 3) (d a : Reg) (p : Imm 4) (s : State) : Host.Outcome State Fault Refusal :=
  goes (s.run {} (immLen p) (fun s => s.amo 1 scp o z d a p))
/-- AMO.OR. -/
def execAmoOr (scp o : BitVec 2) (z : BitVec 3) (d a : Reg) (p : Imm 4) (s : State) : Host.Outcome State Fault Refusal :=
  goes (s.run {} (immLen p) (fun s => s.amo 2 scp o z d a p))
/-- AMO.XOR. -/
def execAmoXor (scp o : BitVec 2) (z : BitVec 3) (d a : Reg) (p : Imm 4) (s : State) : Host.Outcome State Fault Refusal :=
  goes (s.run {} (immLen p) (fun s => s.amo 3 scp o z d a p))
/-- AMO.SWAP. -/
def execAmoSwap (scp o : BitVec 2) (z : BitVec 3) (d a : Reg) (p : Imm 4) (s : State) : Host.Outcome State Fault Refusal :=
  goes (s.run {} (immLen p) (fun s => s.amo 4 scp o z d a p))
/-- AMO.MIN. -/
def execAmoMin (scp o : BitVec 2) (z : BitVec 3) (d a : Reg) (p : Imm 4) (s : State) : Host.Outcome State Fault Refusal :=
  goes (s.run {} (immLen p) (fun s => s.amo 5 scp o z d a p))
/-- AMO.MAX. -/
def execAmoMax (scp o : BitVec 2) (z : BitVec 3) (d a : Reg) (p : Imm 4) (s : State) : Host.Outcome State Fault Refusal :=
  goes (s.run {} (immLen p) (fun s => s.amo 6 scp o z d a p))
/-- AMO.MINN. -/
def execAmoMinn (scp o : BitVec 2) (z : BitVec 3) (d a : Reg) (p : Imm 4) (s : State) : Host.Outcome State Fault Refusal :=
  goes (s.run {} (immLen p) (fun s => s.amo 7 scp o z d a p))
/-- AMO.MAXN. -/
def execAmoMaxn (scp o : BitVec 2) (z : BitVec 3) (d a : Reg) (p : Imm 4) (s : State) : Host.Outcome State Fault Refusal :=
  goes (s.run {} (immLen p) (fun s => s.amo 8 scp o z d a p))

/-- The effect of `CAS`. -/
def State.cas (s : State) (z : BitVec 3) (scp o : BitVec 2) (d a b : Reg) (p : Imm 32) : Res :=
  let n := szBytes z.toNat
  let ptr := s.reg a + dispW 1 p
  let cmp := (s.reg b).toNat % 2 ^ (8 * n)
  let new := (s.reg d).toNat % 2 ^ (8 * n)
  s.atPlace ptr n needA n .atomic true true (ordRel o scp)
    (fun s ls => s.inOrder 0x26 ls (fun s =>
      let old := s.valueAt ls
      .done (((if old = cmp then s.writeAt ls new else s.dropCopy (ls.headD 0)).setReg d (extend z.toNat old)).acqIf (ordAcq o) scp.toNat)))
    (fun s e off => s.peerOp ptr e off n 4 opcRamo 9 z.toNat (BitVec.ofNat 128 (new + cmp * 2 ^ 64)) [] (decide (2 ≤ o.toNat)) d (ordAcq o)
      (some 0x26))

/-- CAS (10 R224). -/
def execCas (z : BitVec 3) (scp o : BitVec 2) (d a b : Reg) (p : Imm 32) (s : State) : Host.Outcome State Fault Refusal :=
  goes (s.run {} (immLenX p) (fun s => s.cas z scp o d a b p))

/-! ## LR and SC (10 R225, R226) -/

/-- The turn of an `LR` that follows a failed `SC` of its line: it queues at the place and, at the head, locks the line;
whether it may proceed, and the state. -/
def State.lrTurn (s : State) (c line : Nat) : Bool × State :=
  if !hasNat (s.ctx c).scFailed line ∨ (s.dirAt line).lock = some c then (true, s)
  else
    let s1 := s.modDir line (fun d => { d with lrq := if c ∈ d.lrq then d.lrq else d.lrq ++ [c] })
    let d := s1.dirAt line
    if d.lrq.head? = some c ∧ d.lock = none then
      (true, (s1.modDir line (fun d => { d with lrq := d.lrq.drop 1, lock := some c })).modCtx c (fun x => { x with scFailed := delNat x.scFailed line }))
    else (false, s1)

/-- The line of a reservation that stands at a peer's place (10 R215): no line of this package. -/
def peerLine : Nat := 2 ^ 60

/-- The effect of `LR`. Through a PEER handle the reservation stands at the peer's place (log 30). -/
def State.lr (s : State) (scp o : BitVec 2) (z : BitVec 3) (d a : Reg) (p : Imm 8) : Res :=
  let n := szBytes z.toNat
  let ptr := s.reg a + dispW n p
  let s := if o = 1 then s.acquire s.cur scp.toNat else s
  s.atPlace ptr n needA n .atomic false true none
    (fun s ls =>
      let line := lineOf (ls.headD 0)
      match s.lrTurn s.cur line with
      | (false, s1) => .wait s1 (.place (ls.headD 0))
      | (true, s1) => s1.inOrder 0x23 ls (fun s =>
        let s2 := (s.dropCopy (ls.headD 0)).modCtx s.cur (fun x => { x with resv := some ⟨line, ptr, n⟩ })
        .done ((s2.setReg d (extend z.toNat (s.valueAt ls))).acqIf (decide (o = 1)) scp.toNat)))
    (fun s e off =>
      match s.peerOp ptr e off n 4 opcRamo 13 z.toNat (BitVec.ofNat 128 (s.cur * 2 ^ 64)) [] false d (decide (o = 1)) (some 0x23) with
      | .wait s1 (.remote m) => .wait (s1.modCtx s1.cur (fun x => { x with resv := some ⟨peerLine, ptr, n⟩ })) (.remote m)
      | r => r)

/-- LR (10 R225). -/
def execLr (scp o : BitVec 2) (z : BitVec 3) (d a : Reg) (p : Imm 8) (s : State) : Host.Outcome State Fault Refusal :=
  goes (s.run {} (immLen p) (fun s => s.lr scp o z d a p))

/-- The lock of a line ends: waiters of its words that it held back are served (10 R226, R231). -/
def State.unlock (s : State) (line : Nat) : State :=
  (s.modDir line (fun d => { d with lock := none })).serveWords (span (line * 128) 128)

/-- The effect of `SC`. -/
def State.sc (s : State) (scp o : BitVec 2) (z : BitVec 3) (d a : Reg) (p : Imm 8) : Res :=
  let n := szBytes z.toNat
  let ptr := s.reg a + dispW n p
  s.atPlace ptr n needA n .atomic true false (if o = 1 then some scp.toNat else none)
    (fun s ls => s.inOrder 0x24 ls (fun s =>
      let line := lineOf (ls.headD 0)
      let ok := decide ((s.ctx s.cur).resv = some ⟨line, ptr, n⟩)
      let s1 := if ok then s.writeAt ls (s.reg d).toNat else s.dropCopy (ls.headD 0)
      let s2 := if (s.dirAt line).lock = some s.cur then s1.unlock line else s1
      let turn (l : List Nat) : List Nat := if ok then delNat l line else addNat l line
      .done ((s2.modCtx s.cur (fun x => { x with resv := none, scFailed := turn x.scFailed })).setReg d (boolW (!ok)))))
    (fun s e off =>
      let who := s.cur + (if (s.ctx s.cur).resv = some ⟨peerLine, ptr, n⟩ then 2 ^ 16 else 0)
      let data := (s.reg d).toNat % 2 ^ (8 * n)
      match s.peerOp ptr e off n 4 opcRamo 14 z.toNat (BitVec.ofNat 128 (data + who * 2 ^ 64)) [] (decide (o = 1)) d false (some 0x24) with
      | .wait s1 (.remote m) => .wait (s1.modCtx s1.cur (fun x => { x with resv := none })) (.remote m)
      | r => r)

/-- SC (10 R225). -/
def execSc (scp o : BitVec 2) (z : BitVec 3) (d a : Reg) (p : Imm 8) (s : State) : Host.Outcome State Fault Refusal :=
  goes (s.run {} (immLen p) (fun s => s.sc scp o z d a p))

/-- LR_LOCK_EXPIRY (10 R226): the lock of a line ends. A context of another package that stands at the head and has not come again
loses its turn. -/
def execLrLockExpiry (line : Nat) (s : State) : Host.Outcome State Fault Refusal :=
  goes (if (s.dirAt line).lock.isSome then s.unlock line
    else if (s.dirAt line).lrq.head?.any (fun q => decide (noCtx < q)) then s.modDir line (fun d => { d with lrq := d.lrq.drop 1 })
    else s)

/-! ## WAITRS (10 R227) -/

/-- The watches of `WAITRS` at a place. -/
def State.watchCount (s : State) (l : Nat) : Nat :=
  ((s.dir.filter (fun p => decide (s.placeClu (p.1 * 128) = s.placeClu l ∧ isSram (p.1 * 128) = isSram l))).map
    (fun p => (p.2.watches.filter (fun w => !w.sync)).length)).sum

/-- The mode of the RLD request that a `WAITRS` through a PEER handle becomes: DESIGN CHOICE, 18 R433 gives it a mode and no code
(log 30). -/
def watchMode : Nat := 3

/-- The effect of `WAITRS`. Through a PEER handle the watch stands at the peer's place. -/
def State.waitrs (s : State) (scp o : BitVec 2) (z : BitVec 3) (d a : Reg) (p : Imm 8) : Res :=
  let n := szBytes z.toNat
  let ptr := s.reg a + dispW n p
  s.atPlace ptr n needR n .fe false true none
    (fun s ls =>
      let v := s.valueAt ls
      let l := ls.headD 0
      if v ≠ (s.reg d).toNat % 2 ^ (8 * n) ∨ 64 ≤ s.watchCount l then
        .done (((s.dropCopy l).setReg d (extend z.toNat v)).acqIf (decide (o = 1)) scp.toNat)
      else
        .wait (s.modDir (lineOf l) (fun e => { e with watches := e.watches ++ [{ ctx := s.cur, loc := l, z := z.toNat, d := d }] }))
          (.watch l))
    (fun s e off => s.peerOp ptr e off n 9 opcRld watchMode z.toNat (BitVec.ofNat 128 ((s.reg d).toNat % 2 ^ (8 * n))) [] false d
      (decide (o = 1)))

/-- WAITRS. -/
def execWaitrs (scp o : BitVec 2) (z : BitVec 3) (d a : Reg) (p : Imm 8) (s : State) : Host.Outcome State Fault Refusal :=
  goes (s.run {} (immLen p) (fun s => s.waitrs scp o z d a p))

/-! ## Exact sum cells (10 R228, R229) -/

/-- The effect of `RED`. -/
def State.red (s : State) (f : BitVec 5) (scp o : BitVec 2) (a b : Reg) (p : Imm 32) : Res :=
  let ptr := s.reg a + dispW 1 p
  s.atPlace ptr 64 needA 64 .cell true true (if o = 1 then some scp.toNat else none)
    (fun s ls =>
      match xsAdd (BitVec.ofNat 512 (s.valueAt ls)) (elemValue f.toNat (s.reg b).toNat) f.toNat with
      | none => Res.bad Cause.xcellFormat ptr
      | some w => .done (s.writeAt ls w.toNat))
    (fun s e off => s.peerOp ptr e off 64 4 opcRamo 10 6
      (BitVec.ofNat 128 ((s.reg b).toNat + f.toNat * 2 ^ 64)) [] (decide (o = 1)) 0 false)

/-- RED (10 R228). -/
def execRed (f : BitVec 5) (scp o : BitVec 2) (a b : Reg) (p : Imm 32) (s : State) : Host.Outcome State Fault Refusal :=
  goes (s.run {} (immLenX p) (fun s => s.red f scp o a b p))

/-- A value read in a format, placed in a register: integers extended, floats zero-extended (07 R125; 10 R219). -/
def placeCode (f v : Nat) : Word :=
  if isFloatCode f || !isSigned f then BitVec.ofNat 64 (v % 2 ^ codeBits f) else sextW (codeBits f) (BitVec.ofNat 64 v)

/-- The effect of `XSRD`. -/
def State.xsrd (s : State) (k : BitVec 1) (f : BitVec 5) (scp o : BitVec 2) (d a : Reg) (p : Imm 32) : Res :=
  let ptr := s.reg a + dispW 1 p
  let need := if k = 1 then needR + needW else needR
  let s := if o = 1 then s.acquire s.cur scp.toNat else s
  s.atPlace ptr 64 need 64 .cell (decide (k = 1)) true none
    (fun s ls =>
      let r := xsRead (BitVec.ofNat 512 (s.valueAt ls)) f.toNat (s.ctx s.cur).sta.rm.toNat
      let s1 := if k = 1 then s.writeAt ls 0 else s.dropCopy (ls.headD 0)
      let s2 := (s1.setReg d (placeCode f.toNat r.1)).modCtx s.cur (·.raise r.2)
      .done (s2.acqIf (decide (o = 1)) scp.toNat))
    (fun s e off => s.peerOp ptr e off 64 (if k = 1 then 3 else 1) opcRamo (if k = 1 then 12 else 11) 6
      (BitVec.ofNat 128 (f.toNat + (s.ctx s.cur).sta.rm.toNat * 2 ^ 8)) [] false d (decide (o = 1)))

/-- XSRD (10 R229). -/
def execXsrd (k : BitVec 1) (f : BitVec 5) (scp o : BitVec 2) (d a : Reg) (p : Imm 32) (s : State) :
    Host.Outcome State Fault Refusal := goes (s.run {} (immLenX p) (fun s => s.xsrd k f scp o d a p))

/-! ## Full-empty words (10 R230, R231) -/

/-- The `MODE` code of a full-empty mode in a remote request (10 R233): `RLD` 1 READ, 2 TAKE; `RST` 1 PUT, 2 FILL,
3 CLEAR. -/
def FeMode.code : FeMode → Nat
  | .read => 1
  | .take => 2
  | .put => 1
  | .fill => 2
  | .clear => 3

/-- Whether a mode returns the word. -/
def FeMode.loads : FeMode → Bool
  | .read | .take => true
  | .put | .fill | .clear => false

/-- The major opcode of a mode: `LDFE` or `STFE`. -/
def FeMode.major (m : FeMode) : Nat := if m.loads then 0x2A else 0x2B

/-- A request that reaches its place: performed, with the word's other waiters served; or entered in the retry list, when
it is not full; or returned not-yet. -/
def State.feArrive (s : State) (r : FeReq) (wr : Writer) (perform : Word → State → State) : Option State :=
  if s.feCan r then
    let (v, s1) := s.fePerform wr r.loc r.mode r.data
    some (perform v (s1.serveWords [r.loc]))
  else
    let k := s.placeClu r.loc
    let s := if r.mode.ready (s.isFull r.loc) && r.mode.writes then s.askWrites wr [lineOf r.loc] else s
    if (s.clu k).retry.length < 256 then some (s.modClu k (fun u => { u with retry := u.retry ++ [r] })) else none

/-- The effect of `LDFE` and `STFE`. It is an event of the trace when it is performed (17 R414). -/
def State.fe (s : State) (m : FeMode) (scp : BitVec 2) (d a : Reg) (p : Imm 4) : Res :=
  let ptr := s.reg a + dispW 8 p
  let major := m.major
  let data := s.reg d
  s.atPlace ptr 8 needF 8 .fe (decide (m ≠ .read)) m.loads (if m.loads then none else some scp.toNat)
    (fun s ls =>
      let l := ls.headD 0
      if m.ready (s.isFull l) then
        s.inOrder major ls (fun s =>
          let (v, s1) := s.fePerform (writerOf s.cur) l m data
          let s2 := if m.loads then ((s1.serveWords [l]).dropCopy l).setReg d v else s1.serveWords [l]
          .done (s2.acqIf m.loads scp.toNat))
      else
        let r : FeReq := { ctx := s.cur, loc := l, mode := m, data := data, reg := if m.loads then d else 0, tag := s.phaseOf s.cur }
        .wait ((s.feArrive r {} (fun _ s => s)).getD s) (.retry l))
    (fun s e off => s.peerOp ptr e off 8 ((if m.loads then 1 else 2) + 8) (if m.loads then opcRld else opcRst) m.code 6
      (BitVec.ofNat 128 data.toNat) [] (!m.loads) (if m.loads then d else 0) m.loads (some major))

/-- LDFE.READ (10 R230). -/
def execLdfeRead (scp : BitVec 2) (d a : Reg) (p : Imm 4) (s : State) : Host.Outcome State Fault Refusal :=
  goes (s.run {} (immLen p) (fun s => s.fe .read scp d a p))
/-- LDFE.TAKE (10 R230). -/
def execLdfeTake (scp : BitVec 2) (d a : Reg) (p : Imm 4) (s : State) : Host.Outcome State Fault Refusal :=
  goes (s.run {} (immLen p) (fun s => s.fe .take scp d a p))
/-- STFE.PUT (10 R230). -/
def execStfePut (scp : BitVec 2) (d a : Reg) (p : Imm 4) (s : State) : Host.Outcome State Fault Refusal :=
  goes (s.run {} (immLen p) (fun s => s.fe .put scp d a p))
/-- STFE.FILL (10 R230). -/
def execStfeFill (scp : BitVec 2) (d a : Reg) (p : Imm 4) (s : State) : Host.Outcome State Fault Refusal :=
  goes (s.run {} (immLen p) (fun s => s.fe .fill scp d a p))
/-- STFE.CLEAR (10 R230). -/
def execStfeClear (scp : BitVec 2) (a : Reg) (p : Imm 4) (s : State) : Host.Outcome State Fault Refusal :=
  goes (s.run {} (immLen p) (fun s => s.fe .clear scp 0 a p))

/-- The full-empty instruction of a mode: mode, scope, data register, base and displacement. -/
def feOf : Instr → Option (FeMode × BitVec 2 × Reg × Reg × Imm 4)
  | .ldfeRead scp d a p => some (.read, scp, d, a, p)
  | .ldfeTake scp d a p => some (.take, scp, d, a, p)
  | .stfePut scp d a p => some (.put, scp, d, a, p)
  | .stfeFill scp d a p => some (.fill, scp, d, a, p)
  | .stfeClear scp a p => some (.clear, scp, 0, a, p)
  | _ => none

/-- The full-empty request of a context that waits with it. -/
def State.feWaiting (s : State) (c : Nat) : Option (FeMode × BitVec 2 × Reg × Reg × Imm 4 × Nat) :=
  match (s.ctx c).slot, (s.ctx c).wait with
  | .blocked, some { why := .retry l, reply := none, .. } =>
    (match s.nextInstr c with
      | .ok i => (feOf i).map (fun f => (f.1, f.2.1, f.2.2.1, f.2.2.2.1, f.2.2.2.2, l))
      | .error _ => none)
  | _, _ => none

/-- Whether a context's request stands in its retry list. -/
def State.inRetry (s : State) (c l : Nat) : Bool :=
  (s.clu (s.placeClu l)).retry.any (fun r => decide (r.ctx = c) && r.remote.isNone)

/-- A full-empty request about to be performed is logged, or waits for its record (17 R414, R415). -/
def State.feLogged (s : State) (r : FeReq) : Option State := if s.mustLog r then s.ordered r.ctx r.mode.major r.loc else some s

/-- A request of the retry list that is an event of a trace is performed by itself: in record the oldest that can be, in replay the
one whose record it is; then the word's other waiters (10 R231; 17 R415). -/
def State.feListed (s : State) (c l : Nat) : State :=
  match (s.clu (s.placeClu l)).retry.find? (fun r => decide (r.ctx = c) && r.remote.isNone) with
  | none => s
  | some r =>
    if s.mustLog r && s.feCan r && (decide (s.replayOf c = 2) || decide (s.nextWaiter l = some r)) then
      match s.feLogged r with
      | none => s
      | some s1 => (s1.serveOne r).serveWords [l]
    else s

/-- FE_RESEND (10 R231): a request that found the list full arrives again. -/
def execFeResend (c : Nat) (s : State) : Host.Outcome State Fault Refusal :=
  goes (match s.feWaiting c with
    | none => s
    | some (m, _, d, _, _, l) =>
      if s.inRetry c l then s.feListed c l
      else
        let r : FeReq := { ctx := c, loc := l, mode := m, data := (s.ctx c).reg d, reg := if m.loads then d else 0, tag := s.phaseOf c }
        match (if s.feCan r then s.feLogged r else some s) with
        | none => s
        | some s1 =>
          (s1.feArrive r (writerOf c) (fun v s => (s.placeReply (cluOf c) (lineOf l) [l]).giveReply c
            { writes := if m.loads then [(d, v)] else [], acq := m.loads })).getD s)

/-- The limit of a peer's request expires: it is removed and refused. -/
def State.peerLimit (s : State) (key : Nat) : State :=
  let is (r : FeReq) : Bool := decide (r.ctx = key) && r.remote.isSome
  match (s.clus.flatMap (fun k => k.2.retry)).find? is with
  | some { remote := some p, .. } =>
    ({ s with clus := s.clus.map (fun k => (k.1, { k.2 with retry := k.2.retry.filter (fun r => !is r) })) } : State).modPkg (fun g =>
      { g with outbox := g.outbox ++ [answerPkt p Cause.feLimit (s.part p.tgtPart).epoch []] })
  | _ => s

/-- FE_LIMIT (10 R231): a waiting request's limit expires: it is removed, and the instruction faults with no effect. A number
above every context's names a peer's request. -/
def execFeLimit (c : Nat) (s : State) : Host.Outcome State Fault Refusal :=
  goes (match s.feWaiting c with
    | none => s.peerLimit c
    | some (_, _, _, a, p, l) =>
      (s.modClu (s.placeClu l) (fun u => { u with retry := u.retry.filter (fun r => !(decide (r.ctx = c) && r.remote.isNone)) })).giveReply c
        { exc := some { code := Cause.feLimit, addr := (s.ctx c).reg a + dispW 8 p } })

/-! ## A request that waited for its place (10 R216, R226) -/

/-- The effect of an instruction that executes at a place, and its length. -/
def placeBody : Instr → Option (Nat × (State → Res))
  | .amoAdd scp o z d a p => some (immLen p, fun s => s.amo 0 scp o z d a p)
  | .amoAnd scp o z d a p => some (immLen p, fun s => s.amo 1 scp o z d a p)
  | .amoOr scp o z d a p => some (immLen p, fun s => s.amo 2 scp o z d a p)
  | .amoXor scp o z d a p => some (immLen p, fun s => s.amo 3 scp o z d a p)
  | .amoSwap scp o z d a p => some (immLen p, fun s => s.amo 4 scp o z d a p)
  | .amoMin scp o z d a p => some (immLen p, fun s => s.amo 5 scp o z d a p)
  | .amoMax scp o z d a p => some (immLen p, fun s => s.amo 6 scp o z d a p)
  | .amoMinn scp o z d a p => some (immLen p, fun s => s.amo 7 scp o z d a p)
  | .amoMaxn scp o z d a p => some (immLen p, fun s => s.amo 8 scp o z d a p)
  | .cas z scp o d a b p => some (immLenX p, fun s => s.cas z scp o d a b p)
  | .lr scp o z d a p => some (immLen p, fun s => s.lr scp o z d a p)
  | .sc scp o z d a p => some (immLen p, fun s => s.sc scp o z d a p)
  | .waitrs scp o z d a p => some (immLen p, fun s => s.waitrs scp o z d a p)
  | .red f scp o a b p => some (immLenX p, fun s => s.red f scp o a b p)
  | .xsrd k f scp o d a p => some (immLenX p, fun s => s.xsrd k f scp o d a p)
  | .ldfeRead scp d a p => some (immLen p, fun s => s.fe .read scp d a p)
  | .ldfeTake scp d a p => some (immLen p, fun s => s.fe .take scp d a p)
  | .stfePut scp d a p => some (immLen p, fun s => s.fe .put scp d a p)
  | .stfeFill scp d a p => some (immLen p, fun s => s.fe .fill scp d a p)
  | .stfeClear scp a p => some (immLen p, fun s => s.fe .clear scp 0 a p)
  | _ => none

/-- ATOMIC_AT_PLACE (10 R216): the request of a context that waits for its place is performed there, once the line and the
markers before its bytes allow, and its reply completes the instruction. -/
def execAtomicAtPlace (c : Nat) (s : State) : Host.Outcome State Fault Refusal :=
  goes (match (s.ctx c).slot, (s.ctx c).wait with
    | .blocked, some { why := .place _, reply := none, .. } =>
      (match s.nextInstr c with
        | .error _ => s
        | .ok i =>
          match placeBody i with
          | none => s
          | some (len, body) =>
            let s0 : State := { s with cur := c }
            (s0.modCtx c (fun x => { x with slot := .ready, wait := none })).run {} len body)
    | _, _ => s)

/-! ## Remote operations (10 R233 to R235) -/

/-- RLD. -/
def execRld (m : BitVec 4) (o : BitVec 2) (z : BitVec 3) (d a b : Reg) (p : Imm 32) (s : State) : Host.Outcome State Fault Refusal :=
  goes (s.run {} (immLenX p) (fun s =>
    let x := s.ctx s.cur
    s.remote (x.pair a) (x.tagOf a) (s.reg b + dispW 1 p) (szBytes z.toNat) (if m = 0 then 1 else 9) opcRld m.toNat z.toNat 0 []
      false d (decide (o = 1))))

/-- RST. -/
def execRst (m : BitVec 4) (o : BitVec 2) (z : BitVec 3) (d a b : Reg) (p : Imm 32) (s : State) : Host.Outcome State Fault Refusal :=
  goes (s.run {} (immLenX p) (fun s =>
    let x := s.ctx s.cur
    s.remote (x.pair a) (x.tagOf a) (s.reg b + dispW 1 p) (szBytes z.toNat) (if m = 0 then 2 else 10) opcRst m.toNat z.toNat
      (BitVec.ofNat 128 ((s.reg d).toNat % 2 ^ (8 * szBytes z.toNat))) [] (decide (o = 1)) 0 false))

/-- RAMO. One whose D is not x0 is an ordered operation (17 R414). -/
def execRamo (o : BitVec 2) (z : BitVec 3) (k : BitVec 4) (d a b : Reg) (p : Imm 32) (s : State) : Host.Outcome State Fault Refusal :=
  goes (s.run {} (immLenX p) (fun s =>
    let x := s.ctx s.cur
    s.remote (x.pair a) (x.tagOf a) (s.reg b + dispW 1 p) (szBytes z.toNat) 4 opcRamo k.toNat z.toNat
      (BitVec.ofNat 128 ((s.reg d).toNat % 2 ^ (8 * szBytes z.toNat))) [] (decide (2 ≤ o.toNat)) d (ordAcq o)
      (if d = 0 then none else some 0x3E)))

end Sys2Proof.Machine
end

