-- ==== Sys2Proof/Machine/Holds.lean ====
section
/-! DEFINITION. Sys2Proof/Machine/Holds.lean: who holds an engine, when it has drained, the cullet area, and the lazy
saving of held engines and banks (02 R28, R29; 17 R401, R404 to R406). -/

namespace Sys2Proof.Machine

/-! ## Engines: 0 to 3 a vector port, 4 the matrix unit -/

/-- The engine of a binding code: 1 to 4 a port, 5 the matrix unit (15 R340). -/
def engineOf (code : Nat) : Option Nat := if 1 ≤ code ∧ code ≤ 5 then some (code - 1) else none

/-- BIND of a binding code (02 R28). -/
def bindField (code : Nat) : BitVec 3 := if code = 0 then 0 else if code ≤ 4 then 1 else if code = 5 then 2 else 3

/-- Port of a binding code. -/
def portField (code : Nat) : BitVec 2 := if 1 ≤ code ∧ code ≤ 4 then BitVec.ofNat 2 (code - 1) else 0

/-- The binding code of a status. -/
def Sta.bindCode (t : Sta) : Nat := if t.bind = 1 then 1 + t.port.toNat else if t.bind = 2 then 5 else if t.bind = 3 then 6 else 0

/-- The contexts of a core. -/
def ctxsAt (core : Nat) : List Nat := (List.range 16).map (16 * core + ·)

/-- Whether an engine has done everything that was queued to it (02 R29). -/
def State.drained (s : State) (core e : Nat) : Bool :=
  if e < 4 then (s.port core e).queue.isEmpty && (s.port core e).rep.isNone
  else (s.mat core).queue.isEmpty && !s.pkg.outst.any (fun o => o.mat.any (fun m => decide (m.1 = core)))

/-- The context of a core that holds engine `e`: a live one bound to it, or one that a fault without a handler has ended, until
what it has queued has been done (02 R29; 08 R162; 17 R395). -/
def State.engineUser (s : State) (core e : Nat) : Option Nat :=
  (ctxsAt core).find? (fun c => decide (engineOf (s.ctx c).sta.bindCode = some e) &&
    ((s.ctx c).slot.live || (decide ((s.ctx c).slot = .exited ∧ (s.ctx c).ending < 2) && !s.drained core e)))

/-- An engine is taken fresh (08 R156; 09 R186). -/
def State.freshEngine (s : State) (core e : Nat) : State :=
  if e < 4 then s.modPort core e (fun _ => {}) else s.modMat core (fun _ => {})

/-! ## The cullet area (17 R401) -/

/-- The entry of handle 0x010, when it meets 17 R401. -/
def State.cullet (s : State) (p : Nat) : Option HEntry :=
  if (s.part p).htlen.toNat ≤ 0x10 then none
  else
    match s.handleRaw (s.firstClu p) p 0x10 with
    | .error _ => none
    | .ok raw =>
      let e := HEntry.ofNat raw.toNat
      if e.valid && e.priv && decide (e.space = 1) && covers e.perm 3 && decide (0x10000 ≤ e.len) then some e else none

/-- Bytes of the area. -/
def State.areaRead (s : State) (p off n : Nat) : List Byte :=
  match s.engSegs (s.partEng p) (culletPtr off) n needR false with
  | .error _ => []
  | .ok segs => s.bytesAt (spanAll segs)

/-- A number of the area. -/
def State.areaN (s : State) (p off n : Nat) : Nat := leNat (s.areaRead p off n)

/-- The default `HVEC` word: 0 where the area does not meet 17 R401 (17 R393). -/
def State.defaultHvec (s : State) (p : Nat) : Word :=
  if (s.cullet p).isSome then BitVec.ofNat 64 (s.areaN p 0x40 8) else 0

/-! ## Lazy saving (17 R405, R406) -/

/-- The rows of a port's image. -/
def Port.rows (q : Port) : List (List Byte) :=
  ((List.range 32).map (fun i => leBytes 128 (SMap.at 0 q.v i).toNat)) ++
    ((List.range 8).map (fun i => leBytes 32 (SMap.at 0 q.q i).toNat)) ++
    [leBytes 8 q.cfg.toNat, leBytes 8 (q.vpoison.toNat + q.qpoison.toNat * 2 ^ 32)]

/-- The rows of a matrix unit's image. -/
def Mat.rows (m : Mat) : List (List Byte) :=
  ((List.range 8).flatMap (fun t => (List.range 64).map (fun i => leBytes 256 (SMap.at 0 (m.tile t).data i).toNat))) ++
    ((List.range 32).map (fun i => leBytes 64 (SMap.at 0 m.staging i).toNat))

/-- A held engine's state is written to its region and the engine is freed. -/
def State.saveEngine (s : State) (core e : Nat) : State :=
  match (s.core core).engHeld.find? (fun h => decide (h.1 = e)) with
  | none => s
  | some (_, p, _, reg) =>
    let img : EngImage := if e < 4 then { port := s.port core e } else { mat := s.mat core }
    let s0 := s.areaRows p reg (if e < 4 then (s.port core e).rows else (s.mat core).rows)
    let s1 := s0.writeOpaque p (reg + (opaquePart e).1) (opaquePart e).2
    let s2 : State := { s1 with engImg := SMap.put s1.engImg (regionKey p reg) img }
    s2.modCore core (fun k => { k with engHeld := k.engHeld.filter (fun h => decide (h.1 ≠ e)) })

/-- A context binds to an engine (15 R344; 17 R405): a held engine is saved first, and the engine is taken fresh. -/
def State.takeEngine (s : State) (core e : Nat) : State := (s.saveEngine core e).freshEngine core e

end Sys2Proof.Machine
end

