-- ==== Sys2Proof/Machine/Slots.lean ====
section
/-! DEFINITION. Sys2Proof/Machine/Slots.lean: context slots: which may take a thread, the arrival queue, callees of remote
calls, and what a slot becomes when its thread leaves (02 R25, R26, R34; 15 R346, R351, R352, R354). -/

namespace Sys2Proof.Machine

/-- Whether a slot may take a thread: FREE, and no arrival waits for it (15 R354). -/
def State.slotFree (s : State) (c : Nat) : Bool :=
  decide ((s.ctx c).slot = .free) && !isDsc c && (s.core (coreOf c)).arrivals.isEmpty && !(s.clu (cluOf c)).retired

/-- The highest-numbered FREE slot of a core that is not RESERVED; a retired cluster's cores have none (19 R447). -/
def State.topFree (s : State) (core : Nat) : Option Nat :=
  if (s.clu (core / 4)).retired then none
  else (ctxsAt core).reverse.find? (fun c => decide ((s.ctx c).slot = .free) && !isDsc c)

/-- The words on their way to a channel. -/
def State.inFlight (s : State) (dst : Nat) : Nat :=
  let word (m : Msg) : Bool := decide (m.dst = dst) && (match m.body with | .word _ _ => true | _ => false)
  (s.net.filter word).length +
    ((s.ctxs.map (fun p => (p.2.buf.filter (fun i => match i with | .msg m => word m | _ => false)).length)).sum)

/-- Whether a message that waits for a channel can be admitted: room for a word and no stream of another sender, or no
stream at all for an opening (15 R348). -/
def State.canAdmit (s : State) (m : Msg) : Bool :=
  let h := s.chan m.dst
  match m.body with
  | .word _ _ => decide (h.words.length + s.inFlight m.dst < 8) && (match h.stream with | none => true | some x => decide (x = m.src))
  | .openS _ _ => h.stream.isNone
  | _ => true

/-- Remove a callee's own barriers. -/
def State.dropSolo (s : State) (c : Nat) : State :=
  { s with soloBars := s.soloBars.filter (fun p => decide (p.1 / 16 ≠ c)) }

/-- Answer a call (15 R351, R353): to a caller on this package by a message, to another by a packet. -/
def State.replyCall (s : State) (src : Nat) (k : CallInfo) (part : Nat) (args : List Word) (cause : Option Cause) : State :=
  match k.remote with
  | none =>
    let m := s.newMsg src k.caller (.rreply k.token args cause)
    { s with nextMsg := s.nextMsg + 1, net := s.net ++ [m] }
  | some p =>
    let a := answerPkt p (cause.getD 0) (s.part part).epoch (args.flatMap (fun v => leBytes 8 v.toNat))
    let a1 := if cause.isSome then { a with opc := 0x12 } else a
    s.modPkg (fun g => { g with outbox := g.outbox ++ [a1], kept := g.kept ++ [a1] })

/-- Start a callee in slot `c` (15 R351): the entry is checked with need X; a failure is answered at once. -/
def State.startCallee (s : State) (c part : Nat) (entry : Word) (args : List Word) (k : CallInfo) : State :=
  let regs := (List.range 6).map (fun i => (BitVec.ofNat 4 (i + 1), args.getD i 0)) ++ [((7 : Reg), BitVec.ofNat 64 k.token)]
  let x : Ctx := { slot := .ready, part := part, pc := entry, call := some k, hvec := s.defaultHvec part, tid := s.nextTid,
                   lastIssue := (s.ctx c).lastIssue }
  let s1 := (({ s with nextTid := s.nextTid + 1 } : State).setCtx c (x.setRegs regs) |>.emptyChan c).dropSolo c
  match s1.fetchWord c false entry with
  | .ok _ => s1.applyInbox (cluOf c)
  | .error e => ((s1.setCtx c { (s.ctx c).vacant c with part := part }).emptyChan c).replyCall c k part [] (some e)

/-- The cluster of a member that comes to it is one of its launch's (10 R213). -/
def State.noteClu (s : State) (c : Nat) : State :=
  match (s.ctx c).launch with
  | none => s
  | some l => s.modLaunch l (fun x => { x with clus := addNat x.clus (cluOf c) })

/-- A message of the arrival queue takes slot `c`. -/
def State.seat (s : State) (c : Nat) (m : Msg) : State :=
  match m.body with
  | .migrate =>
    let x := SMap.at {} s.moving m.id
    let s1 : State := { s with moving := SMap.del s.moving m.id }
    ((((s1.setCtx c { x with slot := .ready, wait := none, lastIssue := (s.ctx c).lastIssue }).emptyChan c).dropSolo c).applyInbox (cluOf c)).noteClu c
  | .rcall _ part entry args token scope remote => s.startCallee c part entry args ⟨token, m.src, scope, remote⟩
  | _ => s

/-- The arrival queue's oldest entry takes a free slot, if there is one (15 R354). -/
def State.admitNext (s : State) (core : Nat) : State :=
  match (s.core core).arrivals, s.topFree core with
  | m :: r, some c => (s.modCore core (fun k => { k with arrivals := r })).seat c m
  | _, _ => s

/-- A slot's thread is gone: the slot is FREE, or RESERVED without a thread for the directory service context's; its
channel is emptied, and the oldest arrival is admitted (15 R346, R354). -/
def State.freeSlot (s : State) (c : Nat) : State :=
  (((s.setCtx c ((s.ctx c).vacant c)).emptyChan c).dropSolo c).admitNext (coreOf c)

/-- A message that comes to a core of a retired cluster (19 R447). DESIGN CHOICE: a call is answered as by a callee that ended without
a reply, and a context is refused (log 64). -/
def State.arriveRetired (s : State) (core : Nat) (m : Msg) : Option State :=
  match m.body with
  | .rcall _ part _ _ token scope remote => some (s.replyCall (16 * core) ⟨token, m.src, scope, remote⟩ part [] (some 0))
  | _ => none

/-- A migrating context or a call arrives at a core: a slot, a place in the queue of eight, or refused (15 R354). -/
def State.arrive (s : State) (core : Nat) (m : Msg) : Option State :=
  if (s.clu (core / 4)).retired then s.arriveRetired core m else
  let queue : Option State :=
    if (s.core core).arrivals.length < 8 then some (s.modCore core (fun k => { k with arrivals := k.arrivals ++ [m] })) else none
  if (s.core core).arrivals.isEmpty then
    match s.topFree core with
    | some c => some (s.seat c m)
    | none => queue
  else queue

/-- Remove a message from the network. -/
def State.takeMsg (s : State) (m : Msg) : State := { s with net := s.net.erase m }

/-- The message of a number, when it is the next of its sender to its receiver (02 R53). -/
def State.msgAt (s : State) (n : Nat) : Option Msg :=
  match s.net.find? (fun m => decide (m.id = n)) with
  | none => none
  | some m =>
    if (s.net.takeWhile (fun k => decide (k ≠ m))).any (fun k => decide (k.src = m.src ∧ k.dst = m.dst)) then none else some m

end Sys2Proof.Machine
end

