-- ==== Sys2Proof/Machine/Threads.lean ====
section
/-! DEFINITION. Sys2Proof/Machine/Threads.lean: starting, ending and reaping threads, binding and semaphores (02 R25 to R29;
07 R154; 15 R341 to R345). -/

namespace Sys2Proof.Machine

/-! ## Blocks and their records (15 R343) -/

/-- Whether a context stands in slot 0 of a core that runs its block. -/
def State.isManager (s : State) (c : Nat) : Bool :=
  let k := s.core (coreOf c)
  let x := s.ctx c
  decide (slotOf c = 0) && k.running && x.launch.isSome && decide (k.launch = x.launch) && decide (k.block = x.block)

/-- The core that runs a block of a launch. -/
def State.blockCore (s : State) (l b : Nat) : Option Nat :=
  (s.cores.find? (fun p => p.2.running && decide (p.2.launch = some l) && decide (p.2.block = b))).map (·.1)

/-- The reap record of a start slot. -/
def CoreSt.reapOf (k : CoreSt) (i : Nat) : ReapRec := SMap.at .absent k.reaps i

/-- Change a reap record. -/
def State.setReap (s : State) (core i : Nat) (r : ReapRec) : State :=
  s.modCore core (fun k => { k with reaps := SMap.put k.reaps i r })

/-! ## Signal messages of a member (14 R297 to R299) -/

/-- The home of signal `n` of a launch: the domain cluster of rank `n mod C`. As a destination of messages, rank `r` is
number `2^15 + r`, above every context number (14 R295). -/
def State.sigHome (s : State) (l n : Nat) : Nat :=
  let c := ((s.launch l).dom.getD {}).clucnt
  2 ^ 15 + n % (if c = 0 then 1 else c)

/-- The signals that a member declares. -/
def Ctx.declared (x : Ctx) : List Nat :=
  x.dslots.foldl (fun acc d => (List.range 64).foldl (fun acc i => if bitOf d.2 i then addNat acc (d.1 + i) else acc) acc) []

/-- A member sends the release of a signal to its home, unless it has released it in this instant. -/
def State.releaseSig (s : State) (c n : Nat) : State :=
  match (s.ctx c).launch with
  | none => s
  | some l =>
    if hasNat (s.ctx c).released n then s
    else (s.post c (s.sigHome l n) (.release l n (s.ctx c).tid)).modCtx c (fun x => { x with released := addNat x.released n })

/-- A member releases every signal that it declares. -/
def State.releaseAll (s : State) (c : Nat) : State := (s.ctx c).declared.foldl (fun s n => s.releaseSig c n) s

/-- Whether a member's signal messages are still on their way. -/
def State.sigPending (s : State) (c : Nat) : Bool :=
  let sig (m : Msg) : Bool := decide (m.src = c) && (match m.body with | .emit _ _ _ => true | .release _ _ _ => true | _ => false)
  s.net.any sig || (s.ctx c).buf.any (fun i => match i with | .msg m => sig m | _ => false)

/-! ## The end of a thread (07 R154; 15 R343, R348, R351) -/

/-- The streams that a thread holds. -/
def State.streamsOf (s : State) (c : Nat) : List (Nat × Nat) :=
  ((s.core (coreOf c)).streams.filter (fun p => decide (p.2.1 = c))).map (fun p => (p.1, p.2.2))

/-- Close a stream: the marker follows the stream's words, and the stream is free (15 R348). -/
def State.closeStream (s : State) (c n dst : Nat) : State :=
  (s.post c dst .close).modCore (coreOf c) (fun k => { k with streams := SMap.del k.streams n })

/-- A thread ends with a code: its streams close, its declared signals are released, and a callee that has not replied
answers with a failure of cause 0. -/
def State.closeThread (s : State) (c : Nat) : State :=
  let s1 := (s.streamsOf c).foldl (fun s p => s.closeStream c p.1 p.2) s
  let s2 := if (s1.ctx c).role = .member then s1.releaseAll c else s1
  let s3 := match (s2.ctx c).call with
    | none => s2
    | some k => s2.replyCall c k (s2.ctx c).part [] (some 0)
  (s3.dropSpec c).modCtx c (fun x => { x with ending := 1, settled := true, call := none, wait := none, resv := none, owner := false })

/-- `EXIT` takes the thread out (07 R154). -/
def State.exitThread (s : State) (c : Nat) (code : BitVec 8) : State :=
  (s.modCtx c (fun x => { x with slot := .exited, code := code })).closeThread c

/-- Whether an exited thread's writes can be published now: its engine has done what it had queued, and no line is held back
(10 R214, R226; 08 R162). -/
def State.canPublish (s : State) (c : Nat) : Bool :=
  (engineOf (s.ctx c).sta.bindCode).all (fun e => s.drained (coreOf c) e) && !s.heldBack c 2 (entriesOf (s.ctx c).buf) &&
    decide ((s.ctx c).acks = 0)

/-- The writes of an exited thread are written and released at device scope on its behalf; its record then becomes
EXITED. One that stands away from its block's core leaves its slot at once and sends an exit notice (15 R343). -/
def State.settleExit (s : State) (c : Nat) : State :=
  let s0 := s.publish c
  let x := s0.ctx c
  let s1 := s0.modCtx c (fun x => { x with ending := 2 })
  match x.launch with
  | none => if isDsc c then s1 else s1.freeSlot c
  | some l =>
    match s1.blockCore l x.block with
    | none => s1.freeSlot c
    | some k =>
      if k = coreOf c ∧ (x.startSlot ≠ 0 ∨ slotOf c = 0) then
        if x.startSlot = 0 then s1 else s1.setReap k x.startSlot (.exited x.code)
      else
        let m := s1.newMsg c (16 * k) (.exitNotice k x.startSlot (some l) x.block x.code)
        ({ s1 with nextMsg := s1.nextMsg + 1, net := s1.net ++ [m] } : State).freeSlot c

/-- EXIT (07 R154): an engine-bound thread waits until its engine has drained (02 R29). -/
def execExit (code : BitVec 8) (s : State) : Host.Outcome State Fault Refusal :=
  goes (s.run { specOk := true } 4 (fun s =>
    let t := (s.ctx s.cur).sta
    if t.spec then Res.bad Cause.specLimit
    else
      match engineOf t.bindCode with
      | none => .stay (s.exitThread s.cur code)
      | some e => if s.drained (coreOf s.cur) e then .stay (s.exitThread s.cur code) else .wait s .drain))

/-- EXIT_NOTICE (15 R343): an exit notice arrives at the core of the thread's block. -/
def execExitNotice (m : Nat) (s : State) : Host.Outcome State Fault Refusal :=
  goes (match s.msgAt m with
    | none => s
    | some g =>
      match g.body with
      | .exitNotice k slot l b code =>
        let s1 := s.takeMsg g
        if (s1.core k).running ∧ (s1.core k).launch = l ∧ (s1.core k).block = b then s1.setReap k slot (.exited code) else s1
      | _ => s)

/-- Whether a core's block has ended: context 0 has exited and every record is ABSENT or EXITED (02 R26; 15 R343). -/
def State.blockOver (s : State) (core : Nat) : Bool :=
  let k := s.core core
  let x := s.ctx (16 * core)
  k.running && decide (x.slot = .exited) && decide (x.ending = 2) && decide (x.launch = k.launch) && decide (x.block = k.block)
    && k.reaps.all (fun p => match p.2 with | .live => false | _ => true)

/-- The slot of a core that holds the exited thread of start slot `i` of its block. -/
def State.reapSlot (s : State) (core i : Nat) : Option Nat :=
  (ctxsAt core).find? (fun c =>
    let x := s.ctx c
    decide (x.slot = .exited ∧ x.startSlot = i ∧ x.launch = (s.core core).launch ∧ x.block = (s.core core).block))

/-- A block ends (15 R342): its EXITED records are cleared and their slots freed. -/
def State.endBlock (s : State) (core : Nat) : State :=
  let l := (s.core core).launch
  let gone := (List.range 16).filterMap (fun i => s.reapSlot core i)
  let s1 := gone.foldl (fun s c => s.freeSlot c) s
  let s2 := s1.modCore core (fun k => { k with running := false, launch := none, block := 0, reaps := [], spawns := 0 })
  match l with
  | none => s2
  | some n => s2.modLaunch n (fun x => { x with ended := x.ended + 1 })

/-! ## SPAWN and REAP (15 R341, R342) -/

/-- The effect of `SPAWN`. DESIGN CHOICE: a member that the gaffer spawns while its domain is frozen is not stopped and runs in the
frozen instant; the spec does not say (14 R307; log 24). -/
def State.spawn (s : State) (code : Nat) (i : Nat) (entry arg : Word) : Res :=
  let c := s.cur
  let core := coreOf c
  let t := 16 * core + i
  let used := match engineOf code with
    | none => false
    | some e => (s.engineUser core e).isSome
  if !s.isManager c || decide (i = 0) || !s.slotFree t || decide ((s.core core).reapOf i ≠ .absent) || used then
    Res.bad Cause.spawnInvalid
  else if entry.toNat % 4 ≠ 0 then Res.bad Cause.misaligned entry
  else
    match s.release c 0 with
    | (s1, false) => .wait s1 .marker
    | (s1, true) =>
      let p := s1.ctx c
      let dom := p.launch.bind (fun l => (s1.launch l).dom)
      let n := (s1.core core).spawns + 1
      let x : Ctx := { slot := .ready, part := p.part, pc := entry,
                       sta := { bind := bindField code, port := portField code, rm := p.sta.rm },
                       hvec := p.hvec, wid := p.wid, launch := p.launch, block := p.block, startSlot := i, spawnNo := n, tid := s1.nextTid,
                       role := if dom.isSome then .member else .outside, settled := dom.any (·.settled),
                       lastIssue := (s1.ctx t).lastIssue }
      let s2 := match engineOf code with
        | none => s1
        | some e => s1.takeEngine core e
      let s2 : State := { s2 with nextTid := s2.nextTid + 1 }
      .done (((s2.setCtx t (x.setReg 1 arg)).emptyChan t).modCore core (fun k =>
        { k with spawns := n, reaps := SMap.put k.reaps i .live }))

/-- SPAWN. -/
def execSpawn (k : BitVec 3) (c a b : Reg) (s : State) : Host.Outcome State Fault Refusal :=
  goes (s.run {} 4 (fun s => s.spawn k.toNat c.toNat (s.reg a) (s.reg b)))

/-- Take the EXITED record of start slot `i`: its slot is freed, and the taker acquires at device scope. -/
def State.takeReap (s : State) (i : Nat) : State :=
  let core := coreOf s.cur
  let s1 := match s.reapSlot core i with
    | none => s
    | some c => s.freeSlot c
  (s1.setReap core i .absent).acquire s1.cur 2

/-- The effect of `REAP`. -/
def State.reap (s : State) (d : Reg) (i : Nat) : Res :=
  if !s.isManager s.cur || decide (i = 0 ∨ 15 < i) then Res.bad Cause.spawnInvalid
  else
    match (s.core (coreOf s.cur)).reapOf i with
    | .absent => Res.bad Cause.spawnInvalid
    | .live => .wait s (.reap i)
    | .exited code => .done ((s.takeReap i).setReg d (code.setWidth 64))

/-- REAP. -/
def execReap (d a : Reg) (s : State) : Host.Outcome State Fault Refusal :=
  goes (s.run {} 4 (fun s => s.reap d (s.reg a).toNat))

/-- The start slots of a core's block whose record satisfies a test. -/
def CoreSt.reapsWith (k : CoreSt) (f : ReapRec → Bool) : List Nat := (List.range 16).filter (fun i => decide (1 ≤ i) && f (k.reapOf i))

/-- The effect of `REAP.any`. -/
def State.reapAny (s : State) (d : Reg) : Res :=
  if !s.isManager s.cur then Res.bad Cause.spawnInvalid
  else
    let k := s.core (coreOf s.cur)
    match k.reapsWith (fun r => match r with | .exited _ => true | _ => false) with
    | i :: _ =>
      (match k.reapOf i with
        | .exited code => .done ((s.takeReap i).setReg d (BitVec.ofNat 64 (i * 256 + code.toNat)))
        | _ => .done s)
    | [] =>
      if (k.reapsWith (fun r => match r with | .live => true | _ => false)).isEmpty then .done (s.setReg d (BitVec.allOnes 64))
      else .wait s (.reap 0)

/-- REAP.any. -/
def execReapAny (d : Reg) (s : State) : Host.Outcome State Fault Refusal := goes (s.run {} 4 (fun s => s.reapAny d))

/-! ## BIND (15 R344) -/

/-- The effect of `BIND` with a binding code. -/
def State.bindTo (s : State) (code : Nat) : Res :=
  let c := s.cur
  let core := coreOf c
  let x := s.ctx c
  let put (s : State) (k : Nat) : State :=
    s.modCtx c (fun x => { x with sta := { x.sta with bind := bindField k, port := portField k } })
  if code = x.sta.bindCode then .done s
  else if code = 6 ∧ ((slotOf c = 0 ∧ s.isManager c) ∨ x.declared ≠ [] ∨ x.regions ≠ [] ∨ x.sta.spec) then
    Res.bad Cause.migrationRefused
  else if (engineOf x.sta.bindCode).any (fun e => !s.drained core e) then .wait s .drain
  else
    let s1 := if (engineOf x.sta.bindCode).isSome then put s 0 else s
    match engineOf code with
    | none => .done (put s1 code)
    | some e =>
      let queue := (s1.core core).engWait.filter (fun p => decide (p.1 = e))
      if (s1.engineUser core e).isNone ∧ (queue.head?.all (fun p => decide (p.2 = c))) then
        let s2 := s1.modCore core (fun k => { k with engWait := k.engWait.filter (fun p => decide (p ≠ (e, c))) })
        .done (put (s2.takeEngine core e) code)
      else
        .wait (if (e, c) ∈ queue then s1 else s1.modCore core (fun k => { k with engWait := k.engWait ++ [(e, c)] })) (.engine e)

/-- BIND. -/
def execBind (k : BitVec 3) (s : State) : Host.Outcome State Fault Refusal := goes (s.run {} 4 (fun s => s.bindTo k.toNat))

/-! ## Semaphores (15 R345) -/

/-- A semaphore's count. -/
def State.semCount (s : State) (n : Nat) : Nat := SMap.at 0 (s.core (coreOf s.cur)).sems n

/-- Set a semaphore's count. -/
def State.setSem (s : State) (n v : Nat) : State := s.modCore (coreOf s.cur) (fun k => { k with sems := SMap.put k.sems n v })

/-- The threads that wait at a semaphore, oldest first. -/
def State.semQueue (s : State) (n : Nat) : List Nat := SMap.at [] (s.core (coreOf s.cur)).semWait n

/-- Change the threads that wait at a semaphore. -/
def State.setSemQueue (s : State) (n : Nat) (l : List Nat) : State :=
  s.modCore (coreOf s.cur) (fun k => { k with semWait := SMap.put k.semWait n l })

/-- The effect of `SEM.P`. -/
def State.semP (s : State) (v : Word) : Res :=
  if 16 ≤ v.toNat then Res.bad Cause.semaphoreRange
  else
    let n := v.toNat
    if 0 < s.semCount n then .done ((s.setSem n (s.semCount n - 1)).acquire s.cur 0)
    else .wait (s.setSemQueue n (s.semQueue n ++ [s.cur])) (.sem n)

/-- SEM.P. -/
def execSemP (a : Reg) (s : State) : Host.Outcome State Fault Refusal := goes (s.run {} 4 (fun s => s.semP (s.reg a)))

/-- The effect of `SEM.V`. -/
def State.semV (s : State) (v : Word) : Res :=
  if 16 ≤ v.toNat then Res.bad Cause.semaphoreRange
  else
    let n := v.toNat
    if (s.semQueue n).isEmpty ∧ s.semCount n = 2 ^ 32 - 1 then Res.bad Cause.semaphoreRange
    else
      match s.release s.cur 0 with
      | (s1, false) => .wait s1 .marker
      | (s1, true) =>
        match s1.semQueue n with
        | c :: r => .done ((s1.setSemQueue n r).giveReply c {})
        | [] => .done (s1.setSem n (s1.semCount n + 1))

/-- SEM.V. -/
def execSemV (a : Reg) (s : State) : Host.Outcome State Fault Refusal := goes (s.run {} 4 (fun s => s.semV (s.reg a)))

/-- The effect of `SEM.TRY`. -/
def State.semTry (s : State) (d : Reg) (v : Word) : Res :=
  if 16 ≤ v.toNat then Res.bad Cause.semaphoreRange
  else if 0 < s.semCount v.toNat then .done (((s.setSem v.toNat (s.semCount v.toNat - 1)).setReg d 1).acquire s.cur 0)
  else .done (s.setReg d 0)

/-- SEM.TRY. -/
def execSemTry (d a : Reg) (s : State) : Host.Outcome State Fault Refusal :=
  goes (s.run {} 4 (fun s => s.semTry d (s.reg a)))

end Sys2Proof.Machine
end

