-- ==== Sys2Proof/Machine/Channels.lean ====
section
/-! DEFINITION. Sys2Proof/Machine/Channels.lean: receive channels, streams, barriers, remote calls, migration, work lists
and speculation (02 R34, R35; 15 R346 to R359). -/

namespace Sys2Proof.Machine

/-! ## Sending (15 R346, R348) -/

/-- The checks of a target context number. -/
def State.targetBad (s : State) (v : Word) : Option Cause :=
  if 32767 < v.toNat then some Cause.reservedBits
  else if cluOf v.toNat ∈ (s.part s.myPart).clusters then none else some Cause.partitionViolation

/-- Serve the messages that wait for a channel, in the order of their first arrival. -/
def State.serveChan (dst : Nat) : Nat → State → State
  | 0, s => s
  | fuel + 1, s =>
    match (s.chan dst).waiting.find? (fun m => s.canAdmit m) with
    | none => s
    | some m => State.serveChan dst fuel ((s.modChan dst (fun h => { h with waiting := h.waiting.erase m })).admitMsg m)

/-- Serve every message that waits for a channel. -/
def State.serveWaiting (s : State) (dst : Nat) : State := State.serveChan dst (s.chan dst).waiting.length s

/-- A word for a channel: sent now, or the sender waits its turn. -/
def State.sendWord (s : State) (dst : Nat) (v : Word) (stream : Bool) : Res :=
  let c := s.cur
  let m := s.newMsg c dst (.word v stream)
  let s1 : State := { s with nextMsg := s.nextMsg + 1 }
  let free := decide ((s.ctx dst).slot = .free) && !isDsc dst
  let ahead := (s.chan dst).waiting.any (fun w => match w.body with | .word _ _ => decide ((s.chan dst).stream ≠ some c) | _ => false)
  if free || (s.canAdmit m && !ahead) then .done (s1.sendMsg c m)
  else .wait (s1.modChan dst (fun h => { h with waiting := h.waiting ++ [m] })) (.send dst)

/-- The effect of `SEND`. -/
def State.send (s : State) (a v : Word) : Res :=
  match s.targetBad a with
  | some k => Res.bad k
  | none => s.sendWord a.toNat v false

/-- SEND. -/
def execSend (a b : Reg) (s : State) : Host.Outcome State Fault Refusal :=
  goes (s.run {} 4 (fun s => s.send (s.reg a) (s.reg b)))

/-- The target of a stream that the running thread has open. -/
def State.ownStream (s : State) (v : Word) : Option Nat :=
  (((s.core (coreOf s.cur)).streams.find? (fun p => decide (p.1 = v.toNat))).filter (fun p => decide (p.2.1 = s.cur))).map (·.2.2)

/-- SEND.s. -/
def execSendS (a b : Reg) (s : State) : Host.Outcome State Fault Refusal :=
  goes (s.run {} 4 (fun s =>
    match s.ownStream (s.reg a) with
    | none => Res.bad Cause.reservedBits
    | some dst => s.sendWord dst (s.reg b) true))

/-- The effect of `OPEN`: the lowest free outbound stream, then the route. -/
def State.openStream (s : State) (d : Reg) (a : Word) : Res :=
  match s.targetBad a with
  | some k => Res.bad k
  | none =>
    let k := s.core (coreOf s.cur)
    if hasMarker (s.ctx s.cur).buf then .wait s .marker
    else
    match (List.range 4).find? (fun n => !k.streams.any (fun p => decide (p.1 = n))) with
    | none => .wait s (.openS a.toNat)
    | some n =>
      let s1 := s.modCore (coreOf s.cur) (fun k => { k with streams := SMap.put k.streams n (s.cur, a.toNat) })
      let m := s1.newMsg s.cur a.toNat (.openS n d)
      let ahead := (s1.chan a.toNat).waiting.any (fun w => match w.body with | .openS _ _ => true | _ => false)
      if s1.canAdmit m && !ahead then
        .done ((s1.modChan a.toNat (fun h => { h with stream := some s.cur })).setReg d (BitVec.ofNat 64 n))
      else
        .wait (({ s1 with nextMsg := s1.nextMsg + 1 } : State).modChan a.toNat (fun h => { h with waiting := h.waiting ++ [m] }))
          (.openS a.toNat)

/-- OPEN. -/
def execOpenS (d a : Reg) (s : State) : Host.Outcome State Fault Refusal :=
  goes (s.run {} 4 (fun s => s.openStream d (s.reg a)))

/-- CLOSE. -/
def execClose (a : Reg) (s : State) : Host.Outcome State Fault Refusal :=
  goes (s.run {} 4 (fun s =>
    match s.ownStream (s.reg a) with
    | none => Res.bad Cause.reservedBits
    | some dst => .done (s.closeStream s.cur (s.reg a).toNat dst)))

/-- WAKE. -/
def execWake (a b : Reg) (s : State) : Host.Outcome State Fault Refusal :=
  goes (s.run {} 4 (fun s =>
    match s.targetBad (s.reg a) with
    | some k => Res.bad k
    | none => .done (s.post s.cur (s.reg a).toNat (.wake (s.reg b)))))

/-- CHANNEL_WORD_ARRIVAL (15 R346): a word, a wake or a closing marker arrives at its channel. What arrives for a FREE slot is
discarded. -/
def execChannelWordArrival (n : Nat) (s : State) : Host.Outcome State Fault Refusal :=
  goes (match s.msgAt n with
    | none => s
    | some m =>
      let gone := decide ((s.ctx m.dst).slot = .free)
      match m.body with
      | .word v _ =>
        if gone then (s.takeMsg m).serveWaiting m.dst
        else (s.takeMsg m).modChan m.dst (fun h => { h with words := h.words ++ [(v, m.ident)] })
      | .wake v => if gone then s.takeMsg m else (s.takeMsg m).modChan m.dst (fun h => { h with cell := h.cell ||| v, wake := true })
      | .close =>
        ((s.takeMsg m).modChan m.dst (fun h => { h with stream := if h.stream = some m.src then none else h.stream })).serveWaiting m.dst
      | _ => s)

/-! ## Receiving (15 R349) -/

/-- The running thread owns the channel of its slot (15 R346). -/
def State.ownChan (s : State) : State := s.modCtx s.cur (fun x => { x with owner := true })

/-- Take what is present: a wake first, else the oldest word; `none` where nothing is there. A received word is an ordered
event (17 R414); under replay the word that the record names is received, and the thread waits until it is there (17 R415). -/
def State.takeWord (s : State) (d b : Reg) : Option Res :=
  let h := s.chan s.cur
  let put (s : State) (v k : Word) : Res := .done ((s.setReg d v).setReg b k)
  if h.wake then some (put (s.modChan s.cur (fun h => { h with wake := false, cell := 0 })) h.cell 2)
  else
    match h.words with
    | [] => none
    | w :: r =>
      match (if s.replayOf s.cur = 2 then w :: r else [w]).findSome? (fun w => (s.received s.cur w.2).map (fun s1 => (w, s1))) with
      | none => some (.wait s .trace)
      | some (w, s1) => some (put ((s1.modChan s.cur (fun h => { h with words := h.words.erase w })).serveWaiting s.cur) w.1 1)

/-- RECV. -/
def execRecv (d b : Reg) (s : State) : Host.Outcome State Fault Refusal :=
  goes (s.run {} 4 (fun s => (s.ownChan.takeWord d b).getD (.wait s.ownChan .recv)))

/-- TRYRECV. -/
def execTryrecv (d b : Reg) (s : State) : Host.Outcome State Fault Refusal :=
  goes (s.run {} 4 (fun s => (s.ownChan.takeWord d b).getD (.done ((s.ownChan.setReg d 0).setReg b 0))))

/-! ## Barriers (15 R350, R352) -/

/-- A barrier: of a launch, or of a thread that no launch started. -/
def State.barrier (s : State) (l : Option Nat) (c n : Nat) : Barrier :=
  match l with
  | some l => SMap.at {} (s.launch l).bars n
  | none => SMap.at {} s.soloBars (16 * c + n)

/-- Replace a barrier. -/
def State.setBarrier (s : State) (l : Option Nat) (c n : Nat) (b : Barrier) : State :=
  match l with
  | some l => s.modLaunch l (fun x => { x with bars := SMap.put x.bars n b })
  | none => { s with soloBars := SMap.put s.soloBars (16 * c + n) b }

/-- The context that stands for a barrier's home: the first of the cluster of block 0. -/
def State.barHome (s : State) (c : Nat) : Nat :=
  match (s.ctx c).launch with
  | none => c
  | some l => 16 * (s.launch l).cores.headD 0

/-- BARA: release at device scope, then the arrival. -/
def execBara (d : Reg) (bar : BitVec 4) (n : BitVec 16) (s : State) : Host.Outcome State Fault Refusal :=
  goes (s.run {} 12 (fun s =>
    match s.release s.cur 2 with
    | (s1, false) => .wait s1 .marker
    | (s1, true) => .wait (s1.post s1.cur (s1.barHome s1.cur) (.barrier (s1.ctx s1.cur).launch bar.toNat n.toNat d)) .barArr))

/-- BARRIER_ARRIVAL (15 R350): the count is fixed by the first arrival; the phase turns when the arrivals reach it. -/
def execBarrierArrival (n : Nat) (s : State) : Host.Outcome State Fault Refusal :=
  goes (match s.msgAt n with
    | none => s
    | some m =>
      match m.body with
      | .barrier l bar count d =>
        let s1 := s.takeMsg m
        let b := s1.barrier l m.src bar
        if count = 0 ∨ (b.count ≠ 0 ∧ b.count ≠ count) then s1.giveReply m.src { exc := some { code := Cause.reservedBits } }
        else
          let full := decide (b.arrived + 1 = count)
          let b1 : Barrier := { count := count, arrived := if full then 0 else b.arrived + 1, phase := b.phase != full }
          (s1.setBarrier l m.src bar b1).giveReply m.src { writes := [(d, boolW b.phase)] }
      | _ => s)

/-- BARW. -/
def execBarw (a : Reg) (bar : BitVec 4) (s : State) : Host.Outcome State Fault Refusal :=
  goes (s.run {} 12 (fun s =>
    let p := bitOf (s.reg a) 0
    if (s.barrier (s.ctx s.cur).launch s.cur bar.toNat).phase ≠ p then .done (s.acquire s.cur 2)
    else .wait s (.barrier bar.toNat p)))

/-! ## Remote calls (15 R351 to R353) -/

/-- The core whose home channel holds a pointer's line: DRAM only; otherwise the fault. -/
def State.homeOfPtr (s : State) (ptr : Word) (other : Cause) (bar : Bool := false) : Except Exc Nat :=
  let w := s.who s.cur
  match s.resolve w ptr 1 needR with
  | .error e => .error e
  | .ok (.table e off) =>
    if bar || decide (e.space ≠ 1) then .error { code := other, addr := ptr }
    else
      match s.xlate w.clu w.part false w.sup needR (e.base + off) with
      | .error k => .error { code := k, addr := ptr }
      | .ok l => .ok (homeCore (s.part w.part) (l % 2 ^ 40))
  | .ok _ => .error { code := other, addr := ptr }

/-- x1 to x6 of a context. -/
def Ctx.args (x : Ctx) : List Word := (List.range 6).map (fun i => x.reg (BitVec.ofNat 4 (i + 1)))

/-- The effect of `RCALL` with C = 0. -/
def State.rcallLocal (s : State) (ptr entry : Word) : Res :=
  match s.homeOfPtr ptr Cause.rpcTarget with
  | .error e => .fault e
  | .ok core =>
    match s.release s.cur 2 with
    | (s1, false) => .wait s1 .marker
    | (s1, true) =>
      let t := s1.pkg.nextToken
      let x := s1.ctx s1.cur
      let s2 := (s1.modPkg (fun g => { g with nextToken := t + 1 })).post s1.cur (16 * core) (.rcall core x.part entry x.args t 2 none)
      .wait s2 (.rcall t)

/-- RCALL. -/
def execRcall (a b : Reg) (k : BitVec 1) (p : BitVec 32) (s : State) : Host.Outcome State Fault Refusal :=
  goes (s.run {} 12 (fun s =>
    if k = 0 then s.rcallLocal (s.reg a + p.signExtend 64) (s.reg b)
    else
      let x := s.ctx s.cur
      s.remote (x.pair a) (x.tagOf a) (p.signExtend 64) 1 1 0x06 0 0 0
        ((x.args ++ [s.reg b]).flatMap (fun v => leBytes 8 v.toNat)) true 0 true))

/-- RREPLY. -/
def execRreply (a : Reg) (s : State) : Host.Outcome State Fault Refusal :=
  goes (s.run {} 12 (fun s =>
    match (s.ctx s.cur).call with
    | none => Res.bad Cause.rpcTarget
    | some k =>
      if (s.reg a).toNat ≠ k.token then Res.bad Cause.rpcTarget
      else
        match s.release s.cur k.scope with
        | (s1, false) => .wait s1 .marker
        | (s1, true) =>
          let x := s1.ctx s1.cur
          let s2 := (s1.replyCall s1.cur k x.part x.args none).modCtx s1.cur (fun x => { x with call := none })
          .stay ((s2.closeThread s2.cur).freeSlot s2.cur)))

/-- The caller that waits with a token gets its reply, in whatever slot it stands, or spilled with its wait (15 R361). -/
def State.answerCall (s : State) (token : Nat) (r : Reply) : State :=
  let put (x : Ctx) : Ctx := if x.wait.any (fun w => decide (w.why = .rcall token)) then
      { x with wait := x.wait.map (fun w => { w with reply := some r }) } else x
  { s with ctxs := s.ctxs.map (fun p => (p.1, put p.2)), spilled := s.spilled.map (fun p => (p.1, { p.2 with ctx := put p.2.ctx })) }

/-- The reply that a call's answer makes: x1 to x6 and an acquire, or RPC_TARGET with the target's cause. -/
def callReply (args : List Word) (cause : Option Cause) : Reply :=
  match cause with
  | none => { writes := (List.range 6).map (fun i => (BitVec.ofNat 4 (i + 1), args.getD i 0)), acq := true }
  | some e => { exc := some { code := Cause.rpcTarget, info := e.setWidth 64 } }

/-- RCALL_ARRIVAL (15 R351, R353, R354): a call arrives at its core, and starts, waits in the arrival queue or is refused
and sent again; or a call's answer arrives at its caller. -/
def execRcallArrival (n : Nat) (s : State) : Host.Outcome State Fault Refusal :=
  goes (match s.msgAt n with
    | none => s
    | some m =>
      match m.body with
      | .rcall core _ _ _ _ _ _ => ((s.takeMsg m).arrive core m).getD s
      | .rreply t args cause => (s.takeMsg m).answerCall t (callReply args cause)
      | _ => s)

/-! ## Migration (02 R34; 15 R354, R355) -/

/-- A migrating context arrives: none of the messages it has sent is still on its way. -/
def State.migrateIn (s : State) (n : Nat) : State :=
  match s.net.find? (fun m => decide (m.id = n)) with
  | none => s
  | some m =>
    match m.body with
    | .migrate => ((s.takeMsg m).arrive (coreOf m.dst) m).getD s
    | _ => s

/-- MIGRATION_ARRIVAL. -/
def execMigrationArrival (n : Nat) (s : State) : Host.Outcome State Fault Refusal := goes (s.migrateIn n)

/-- MIGRATION_RESEND: a context that a full queue refused is sent again (15 R354). -/
def execMigrationResend (n : Nat) (s : State) : Host.Outcome State Fault Refusal := goes (s.migrateIn n)

/-- MIGRATE. DESIGN CHOICE: towards a core of a retired cluster it has no effect (19 R447; log 64). -/
def execMigrate (a : Reg) (s : State) : Host.Outcome State Fault Refusal :=
  goes (s.run {} 4 (fun s =>
    let x := s.ctx s.cur
    let bar := decide (x.sta.bind ≠ 3 ∨ x.owner ∨ s.streamsOf s.cur ≠ [] ∨ x.declared ≠ [] ∨ x.regions ≠ [] ∨ x.sta.spec)
    match s.homeOfPtr (s.reg a) Cause.migrationRefused bar with
    | .error e => .fault e
    | .ok core => if core = coreOf s.cur ∨ (s.clu (core / 4)).retired then .done s else .move core))

/-! ## Load levelling (02 R35; 15 R356) -/

/-- LLPUSH. -/
def execLlpush (d a : Reg) (s : State) : Host.Outcome State Fault Refusal :=
  goes (s.run {} 4 (fun s =>
    let k := s.core (coreOf s.cur)
    if k.list.length + k.promised < 256 then
      .done ((s.modCore (coreOf s.cur) (fun k => { k with list := s.reg a :: k.list })).setReg d 1)
    else .done (s.setReg d 0)))

/-- LLPOP. -/
def execLlpop (d b : Reg) (s : State) : Host.Outcome State Fault Refusal :=
  goes (s.run {} 4 (fun s =>
    match (s.core (coreOf s.cur)).list with
    | [] => .done (s.setReg b 0)
    | v :: r => .done (((s.modCore (coreOf s.cur) (fun k => { k with list := r })).setReg d v).setReg b 1)))

/-- A cluster's place in the package mesh (01 R9): X and Y. -/
def meshXY (clu : Nat) : Nat × Nat :=
  let d := dieOf clu
  (clu % 8 + 8 * (d % 2), clu % 128 / 8 + 16 * (d / 2))

/-- Whether two clusters are mesh neighbours. -/
def meshNear (a b : Nat) : Bool :=
  let p := meshXY a
  let q := meshXY b
  decide ((p.1 = q.1 ∧ (p.2 = q.2 + 1 ∨ q.2 = p.2 + 1)) ∨ (p.2 = q.2 ∧ (p.1 = q.1 + 1 ∨ q.1 = p.1 + 1)))

/-- The least-loaded of some cores; ties go to the lowest number (01 R9). -/
def leastOf (f : Nat → Nat) (l : List Nat) : Option Nat :=
  l.foldl (fun (o : Option Nat) k => match o with
    | none => some k
    | some j => if f k < f j ∨ (f k = f j ∧ k < j) then some k else some j) none

/-- The cores of a partition. -/
def Part.cores (p : Part) : List Nat := p.clusters.flatMap (fun k => (List.range 4).map (fun i => 4 * k + i))

/-- What a core ships in the interval that begins now: to its least-loaded neighbour in service (19 R447), half the difference, never its last
entry, and at most a quarter of the room that the neighbour has (02 R35; 15 R356). -/
def State.llPlan (s : State) (q : Part) (core : Nat) : Option (Nat × Nat) :=
  let occ (k : Nat) : Nat := (s.core k).list.length
  match leastOf occ ((q.clusters.filter (fun k => meshNear (core / 4) k && !(s.clu k).retired)).map (fun k => 4 * k + core % 4)) with
  | none => none
  | some t =>
    let n := min (min ((occ core - occ t) / 2) ((256 - (occ t + (s.core t).promised)) / 4)) (occ core - 1)
    if n = 0 then none else some (t, n)

/-- What an interval has not shipped is given up, and the room for it (15 R356). -/
def State.dropPlan (s : State) (p : Nat) : State :=
  ((s.part p).llTodo.foldl (fun s e => s.modCore e.2.1 (fun k => { k with promised := k.promised - e.2.2 })) s).modPart p
    (fun x => { x with llTodo := [] })

/-- A balancing interval of a partition begins (02 R35; 15 R356): what each core ships is fixed by the occupancies of its first
cycle, and the room for it is held at the recipients. What the interval before has not shipped is given up. -/
def State.beginInterval (s : State) (p : Nat) : State :=
  let s0 := s.dropPlan p
  let q := s0.part p
  let todo := q.cores.filterMap (fun k => (s0.llPlan q k).map (fun e => (k, e)))
  let s1 := todo.foldl (fun s e => s.modCore e.2.1 (fun k => { k with promised := k.promised + e.2.2 })) s0
  s1.modPart p (fun x => { x with llAt := s.refCycle, llTodo := todo })

/-- LOAD_LEVELLING_INTERVAL: a core ships what its interval's first cycle fixed, fewer if its list has become shorter: the
bottom entries, never the last one (02 R35; 15 R356). A core that has nothing left to ship begins the next interval, once this one has run its length (02 R35).
DESIGN CHOICE: no thread sends the entries; they carry the phase tag of the domain of the core's context 0 (log 55). -/
def execLoadLevellingInterval (core : Nat) (s : State) : Host.Outcome State Fault Refusal :=
  goes (match s.partOf (core / 4) with
    | none => s
    | some p =>
      let mine (s : State) : Option (Nat × Nat × Nat) := (s.part p).llTodo.find? (fun e => decide (e.1 = core))
      let s1 := if (mine s).isSome ∨ s.refCycle < (s.part p).llAt + (s.part p).interval then s else s.beginInterval p
      match mine s1 with
      | none => s1
      | some (_, t, k) =>
        let s2 := s1.modPart p (fun x => { x with llTodo := x.llTodo.filter (fun e => decide (e.1 ≠ core)) })
        let l := (s2.core core).list
        let n := min k (l.length - 1)
        let s3 := (s2.modCore t (fun r => { r with promised := r.promised - (k - n) })).modCore core
          (fun r => { r with list := r.list.take (l.length - n) })
        if n = 0 then s3
        else
          let m := s3.newMsg (16 * core) (16 * t) (.entries t (l.drop (l.length - n)))
          { s3 with nextMsg := s3.nextMsg + 1, net := s3.net ++ [m] })

/-- LL_ENTRIES_ARRIVE: shipped entries arrive at the recipient's bottom, in their order. -/
def execLlEntriesArrive (n : Nat) (s : State) : Host.Outcome State Fault Refusal :=
  goes (match s.msgAt n with
    | none => s
    | some m =>
      match m.body with
      | .entries core l =>
        (s.takeMsg m).modCore core (fun k => { k with list := k.list ++ l, promised := k.promised - l.length })
      | _ => s)

/-! ## Speculation (15 R357, R359) -/

/-- The iterations that threads of a cluster hold, those of spilled threads among them (15 R357, R361). -/
def State.iterations (s : State) (k : Nat) : List Nat :=
  (s.ctxsOf k).filterMap (fun t => (s.ctx t).spec.map (·.iter)) ++
    s.spilled.filterMap (fun p => if cluOf p.2.from_ = k then p.2.ctx.spec.map (·.iter) else none)

/-- The effect of `SPECB`. -/
def State.specBegin (s : State) (n b : Nat) : Res :=
  let c := s.cur
  let k := cluOf c
  let x := s.ctx c
  let other := !(s.iterations k).isEmpty
  if x.sta.spec || decide (x.sta.bind ≠ 0) || !(s.clu k).hasCache then Res.bad Cause.specLimit
  else
    let g := (s.clu k).group
    if g.any (fun g => decide (g.1 ≠ b)) && other then Res.bad Cause.specLimit
    else
      let baton := match g with
        | some g => if g.1 = b then g.2 else b
        | none => b
      if n < baton ∨ baton + 64 ≤ n ∨ n ∈ s.iterations k then
        Res.bad Cause.specLimit
      else
        match s.release c 1 with
        | (s1, false) => .wait s1 .marker
        | (s1, true) =>
          let s2 := s1.modClu k (fun u => { u with group := some (b, baton) })
          let mark (x : Ctx) : Ctx :=
            { x with spec := some { x := x.x, tags := x.tags, sta := x.sta, pc := x.pc + 4, iter := n, base := b },
                     sta := { x.sta with spec := true }, readSet := [] }
          .done (s2.modCtx c mark)

/-- SPECB. -/
def execSpecb (a b : Reg) (s : State) : Host.Outcome State Fault Refusal :=
  goes (s.run {} 4 (fun s => s.specBegin (s.reg a).toNat (s.reg b).toNat))

/-- The effect of `SPECC` for the holder of the baton: its tagged lines are written to their homes as one release at device
scope, and the baton moves. -/
def State.specCommit (s : State) : Res :=
  let c := s.cur
  let k := cluOf c
  match (s.ctx c).spec with
  | none => Res.bad Cause.specLimit
  | some q =>
    let mine := (s.clu k).spec.filter (fun t => decide (t.ctx = c))
    if mine.any (fun t => s.lockedFor t.line c) then
      .wait (s.askWrites (writerOf c) (mine.map (·.line)))
        (.place (((mine.find? (fun t => s.lockedFor t.line c)).map (·.line)).getD 0 * 128))
    else
      match s.release c 2 with
      | (s1, false) => .wait s1 .marker
      | (s1, true) =>
        let s2 := mine.foldl (fun s t => s.place (writerOf c) (maskedBytes t.line t.mask t.data))
          (s1.modClu k (fun u => { u with spec := u.spec.filter (fun t => decide (t.ctx ≠ c)) }))
        let s3 := s2.modCtx c (fun x => { x with spec := none, readSet := [], sta := { x.sta with spec := false } })
        .done (s3.modClu k (fun u => { u with group := some (q.base, q.iter + 1) }))

/-- SPECC. -/
def execSpecc (s : State) : Host.Outcome State Fault Refusal := goes (s.run {} 4 (fun s => s.specCommit))

end Sys2Proof.Machine
end

