-- ==== Sys2Proof/Machine/Queues.lean ====
section
/-! DEFINITION. Sys2Proof/Machine/Queues.lean: user-mode queues and job cards: registration, taking a slot, footprints, the
order of cards, and tickets (05 R92; 11 R248; 12 R254, R261, R263, R268, R269; 15 R331, R332). -/

namespace Sys2Proof.Machine

/-! ## Queue headers (05 R92; 12 R254) -/

/-- The locations of the 64 bytes of a queue's header or slot, which may lie in two pages. -/
def State.headerLoc (s : State) (p : Nat) (hdr : Word) : Option (List Nat) :=
  match s.engSegs (s.partEng p) hdr 64 needR false with
  | .ok segs => some (spanAll segs)
  | _ => none

/-- A little-endian number of `n` bytes at byte `o` of some locations. -/
def State.numIn (s : State) (h : List Nat) (o n : Nat) : Nat := leNat (s.bytesAt ((h.drop o).take n))

/-- A queue's L. -/
def State.queueLog (s : State) (h : List Nat) : Nat := s.numIn h 16 1
/-- A queue's kind mask. -/
def State.queueKinds (s : State) (h : List Nat) : Nat := s.numIn h 17 1
/-- A queue's affinity. -/
def State.queueAff (s : State) (h : List Nat) : Nat := s.numIn h 18 1
/-- A queue's read index. -/
def State.queueRd (s : State) (h : List Nat) : Nat := s.numIn h 8 8
/-- A queue's write index. -/
def State.queueWr (s : State) (h : List Nat) : Nat := s.numIn h 0 8

/-- The pointer of slot `i`. -/
def slotPtrOf (hdr : Word) (lg i : Nat) : Word := hdr + BitVec.ofNat 64 (64 + 64 * (i % 2 ^ lg))

/-- The location of a slot. -/
def State.slotLoc (s : State) (p : Nat) (hdr : Word) (lg i : Nat) : Option (List Nat) := s.headerLoc p (slotPtrOf hdr lg i)

/-- The dies on which a partition has clusters, ascending. -/
def Part.dies (p : Part) : List Nat := (List.range 4).filter (fun d => p.clusters.any (fun k => decide (dieOf k = d)))

/-- Whether an affinity is allowed to a partition (12 R254). -/
def affinityOk (p : Part) (a : Nat) : Bool :=
  (decide (a ≤ 0x2F) && decide (a / 12 ∈ p.dies)) || (decide (0x80 ≤ a ∧ a ≤ 0x83) && decide (a - 0x80 ∈ p.dies)) || decide (a = 0xFF)

/-- Whether an engine may serve a queue of an affinity. -/
def affinityTakes (p : Part) (a eng : Nat) : Bool :=
  decide (eng < 48) && (if a ≤ 0x2F then decide (eng = a) else if a ≤ 0x83 then decide (eng / 12 = a - 0x80) else decide (eng / 12 ∈ p.dies))

/-- Whether a kind mask admits a kind: bit j admits kinds 2j + 1 and 2j + 2. -/
def kindAdmitted (mask kind : Nat) : Bool := decide (1 ≤ kind ∧ kind ≤ 10) && decide (mask / 2 ^ ((kind - 1) / 2) % 2 = 1)

/-- The effect of registering a queue (15 R331): none where it is refused. -/
def State.qreg (s : State) (c : Nat) (hdr : Word) : Option State :=
  let p := (s.ctx c).part
  let w := { s.who c with sup := true }
  match s.resolve w hdr 64 3, s.headerLoc p hdr with
  | .ok (.table _ _), some h =>
    let lg := s.queueLog h
    let big := match s.resolve w hdr (64 + 64 * 2 ^ lg) 3 with
      | .ok _ => true
      | .error _ => false
    let qs := (s.part p).queues
    if lg < 1 ∨ 20 < lg ∨ big = false ∨ affinityOk (s.part p) (s.queueAff h) = false ∨ 32 ≤ s.queueKinds h
        ∨ qs.any (fun q => decide (q.hdr = hdr)) ∨ 64 ≤ qs.length then none
    else some (s.modPart p (fun x => { x with queues := x.queues ++ [⟨hdr, c⟩] }))
  | _, _ => none

/-- The effect of unregistering a queue: none where it is not registered. What was abandoned in it is forgotten with it. -/
def State.qunreg (s : State) (c : Nat) (hdr : Word) : Option State :=
  let p := (s.ctx c).part
  if (s.part p).queues.any (fun q => decide (q.hdr = hdr)) then
    let dead (part q : Nat) (f : Option Cause) : Bool := decide (part = p ∧ q = hdr.toNat) && f.isSome
    let s1 : State := { s with packets := s.packets.filter (fun k => !dead k.2.part k.2.queue k.2.fate),
                               launches := s.launches.filter (fun k => !dead k.2.part k.2.queue k.2.fate) }
    some (s1.modPart p (fun x => { x with queues := x.queues.filter (fun q => decide (q.hdr ≠ hdr)) }))
  else none

/-- Zero a slot's KIND byte, and advance the read index by `n` with a device-scope release (12 R254; 15 R325). -/
def State.consume (s : State) (h : List Nat) (slots : List (List Nat)) (n : Nat) : State :=
  let s1 := slots.foldl (fun s l => s.place {} [(l.headD 0, 0)]) s
  s1.place {} (((h.drop 8).take 8).zip (leBytes 8 ((s.queueRd h + n) % 2 ^ 64)))

/-- Whether a consumer's writes of a queue must wait: a line is locked, or its overflow bit is set (10 R226, R236). -/
def State.queueHeld (s : State) (h : List Nat) (slots : List (List Nat)) : Bool :=
  (linesOf (h ++ slots.flatten)).any (fun l => s.lockedFor l noCtx)

/-- What held writes of a queue ask for. -/
def State.askQueue (s : State) (h : List Nat) (slots : List (List Nat)) : State := s.askWrites {} (linesOf (h ++ slots.flatten))

/-! ## Threads by name -/

/-- A ticket is no longer outstanding; an abandoned one keeps its cause (12 R268, R269). -/
def State.endTicket (s : State) (issuer : Option (Nat × Nat)) (cause : Option Cause) (info : Option Word := none) : State :=
  match issuer with
  | none => s
  | some (tid, t) =>
    let note (x : Ctx) : List (Nat × Cause × Option Word) := match cause with
      | none => x.abandoned
      | some k => x.abandoned ++ [(t, k, info)]
    s.modThread tid (fun x => { x with tickets := x.tickets.filter (fun n => decide (n ≠ t)), abandoned := note x })

/-! ## Cards (11 R248; 15 R332) -/

/-- Two ranges conflict: they share a byte and one of them is written. -/
def FootRange.clash (a b : FootRange) : Bool :=
  decide (a.space = b.space) && decide (a.va < b.va + b.len) && decide (b.va < a.va + a.len) && (a.wr || b.wr)

/-- A card: its queue, its number, whether it declares every byte, its footprint and its fate. -/
structure Card where
  id : Nat
  every : Bool
  foot : List FootRange
  fate : Option Cause
deriving DecidableEq, Repr

/-- Whether a later card has an edge from an earlier one. -/
def Card.edge (early late : Card) : Bool :=
  early.every || late.every || early.foot.any (fun a => late.foot.any (fun b => a.clash b))

/-- The cards of a queue that have not completed: running, waiting or abandoned. -/
def State.cardsOf (s : State) (p q : Nat) : List Card :=
  ((s.packets.filter (fun k => decide (k.2.part = p ∧ k.2.queue = q))).map (fun k => ⟨k.1, false, k.2.foot, k.2.fate⟩)) ++
    ((s.launches.filter (fun k => decide (k.2.part = p ∧ k.2.queue = q ∧ k.2.st ≠ .complete))).map
      (fun k => ⟨k.1, decide (bitsAt k.2.pkt 384 32 = 0), k.2.foot, k.2.fate⟩))

/-- Whether a card may start, by the earlier cards of its queue: abandoned with an earlier card's cause; held by an edge or
by FENCE; or free. -/
def State.cardTurn (s : State) (p q : Nat) (me : Card) (fence : Bool) : Except Cause Bool :=
  let early := (s.cardsOf p q).filter (fun k => decide (k.id < me.id))
  match early.find? (fun k => k.fate.isSome && k.edge me) with
  | some k => .error (k.fate.getD 0)
  | none => .ok (early.all (fun k => k.fate.isSome || (!fence && !k.edge me)))

/-! ## The pointer of a waiting access -/

/-- The pointer that an instruction's access uses (10 R217; 13 R282). -/
def accessPtr (x : Ctx) : Instr → Word
  | .ld _ _ z _ a p => x.reg a + dispW (szBytes z.toNat) p
  | .st _ _ z _ a p => x.reg a + dispW (szBytes z.toNat) p
  | .lr _ _ z _ a p => x.reg a + dispW (szBytes z.toNat) p
  | .sc _ _ z _ a p => x.reg a + dispW (szBytes z.toNat) p
  | .waitrs _ _ z _ a p => x.reg a + dispW (szBytes z.toNat) p
  | .amoAdd _ _ z _ a p => x.reg a + dispW (szBytes z.toNat) p
  | .amoAnd _ _ z _ a p => x.reg a + dispW (szBytes z.toNat) p
  | .amoOr _ _ z _ a p => x.reg a + dispW (szBytes z.toNat) p
  | .amoXor _ _ z _ a p => x.reg a + dispW (szBytes z.toNat) p
  | .amoSwap _ _ z _ a p => x.reg a + dispW (szBytes z.toNat) p
  | .amoMin _ _ z _ a p => x.reg a + dispW (szBytes z.toNat) p
  | .amoMax _ _ z _ a p => x.reg a + dispW (szBytes z.toNat) p
  | .amoMinn _ _ z _ a p => x.reg a + dispW (szBytes z.toNat) p
  | .amoMaxn _ _ z _ a p => x.reg a + dispW (szBytes z.toNat) p
  | .cas _ _ _ _ a _ p => x.reg a + dispW 1 p
  | .red _ _ _ a _ p => x.reg a + dispW 1 p
  | .xsrd _ _ _ _ _ a p => x.reg a + dispW 1 p
  | .ldfeRead _ _ a p => x.reg a + dispW 8 p
  | .ldfeTake _ _ a p => x.reg a + dispW 8 p
  | .stfePut _ _ a p => x.reg a + dispW 8 p
  | .stfeFill _ _ a p => x.reg a + dispW 8 p
  | .stfeClear _ a p => x.reg a + dispW 8 p
  | .ldc _ _ _ a p => x.reg a + dispW 16 p
  | .stc _ _ _ a p => x.reg a + dispW 16 p
  | .pref _ a p => x.reg a + dispW 1 p
  | .clean _ a p => x.reg a + dispW 1 p
  | .inval _ a p => x.reg a + dispW 1 p
  | .invalCluster _ _ a p => x.reg a + dispW 1 p
  | .mxq _ a => x.reg a
  | .cpq _ _ b => x.reg b
  | .syncw a _ => x.reg a
  | .syncwReset a _ => x.reg a
  | .syncwait _ a _ => x.reg a
  | .mbox _ a => x.reg a
  | .mboxTry _ a => x.reg a
  | .lehrw _ _ _ a => x.reg a
  | .gld _ a _ _ => x.reg a
  | .gst _ a _ _ => x.reg a
  | .gstep a _ => x.reg a
  | .gwait a _ => x.reg a
  | .gwaitOut a _ => x.reg a
  | _ => 0

/-- The pointer of the access that a context waits in. -/
def State.waitPtr (s : State) (c : Nat) : Word :=
  match s.nextInstr c with
  | .ok i => accessPtr (s.ctx c) i
  | .error _ => 0

end Sys2Proof.Machine
end

