-- ==== Sys2Proof/Machine/Copy.lean ====
section
/-! DEFINITION. Sys2Proof/Machine/Copy.lean: copy packets: their fields, what engines do with them, watermarks, mailboxes,
completion and abandonment (05 R91; 12 R254 to R263; 18 R434, R435). -/

namespace Sys2Proof.Machine

/-! ## Packet fields (05 R91) -/

/-- KIND. -/
def pkKind (r : BitVec 512) : Nat := rb r 0 1
/-- CLIP. -/
def pkClip (r : BitVec 512) : Bool := bitOf r 8
/-- STREAM. -/
def pkStream (r : BitVec 512) : Bool := bitOf r 9
/-- The completion scope. -/
def pkScope (r : BitVec 512) : Nat := bitsAt r 11 2
/-- FENCE. -/
def pkFence (r : BitVec 512) : Bool := bitOf r 13
/-- dims. -/
def pkDims (r : BitVec 512) : Nat := rb r 2 1
/-- The element size in bytes. -/
def pkSize (r : BitVec 512) : Nat := 2 ^ rb r 3 1
/-- aux. -/
def pkAux (r : BitVec 512) : Nat := rb r 4 4
/-- srcptr. -/
def pkSrcPtr (r : BitVec 512) : Word := rptr r 8
/-- dstptr. -/
def pkDstPtr (r : BitVec 512) : Word := rptr r 16
/-- syncptr. -/
def pkSync (r : BitVec 512) : Word := rptr r 24
/-- The extent of dimension `j`. -/
def pkExt (r : BitVec 512) (j : Nat) : Nat := rb r (32 + 2 * j) 2
/-- The extents of the used dimensions. -/
def pkExts (r : BitVec 512) : List Nat := (List.range (pkDims r)).map (pkExt r)
/-- The source stride of dimension `j`. -/
def pkSs (r : BitVec 512) (j : Nat) : Word := if j = 0 then BitVec.ofNat 64 (pkSize r) else rstride r (40 + 4 * (j - 1))
/-- The destination stride of dimension `j`. -/
def pkDs (r : BitVec 512) (j : Nat) : Word := if j = 0 then BitVec.ofNat 64 (pkSize r) else rstride r (52 + 4 * (j - 1))

/-- The coordinates of element `k` of a box, dimension 0 first. -/
def boxIndex : List Nat → Nat → List Nat
  | [], _ => []
  | e :: r, k => k % (if e = 0 then 1 else e) :: boxIndex r (k / (if e = 0 then 1 else e))

/-- The elements of a box. -/
def boxCount (l : List Nat) : Nat := l.foldl (· * ·) 1

/-- A pointer moved by coordinates and strides. -/
def boxPtr (p : Word) (stride : Nat → Word) (idx : List Nat) : Word :=
  (idx.zipIdx).foldl (fun q i => q + BitVec.ofNat 64 i.1 * stride i.2) p

/-! ## CLIP (12 R258, R259) -/

/-- The mailbox core of a CLIP packet. -/
def clipCore (r : BitVec 512) : Nat := bitsAt r 48 11

/-- EXT_j of the tensor that a CLIP packet names. -/
def State.clipExt (s : State) (r : BitVec 512) (j : Nat) : Nat :=
  recN (s.core (clipCore r)).shape (16 + 40 * (pkAux r % 8) + 10 * j) 4

/-- The rank of the tensor. -/
def State.clipRank (s : State) (r : BitVec 512) : Nat := recN (s.core (clipCore r)).shape (1 + pkAux r % 8) 1

/-- The requested origin o_j, signed. -/
def clipO (r : BitVec 512) (j : Nat) : Int := signedOf 16 (rb r (40 + 2 * j) 2)

/-- lo_j and hi_j of the moved box. -/
def State.clipBox (s : State) (r : BitVec 512) (j : Nat) : Nat × Nat :=
  let e : Int := s.clipExt r j
  let lo := min (max (clipO r j) 0) e
  let hi := max (min (clipO r j + pkExt r j) e) lo
  (lo.toNat, hi.toNat)

/-- The source stride of dimension `j` of a CLIP packet. -/
def State.clipStride (s : State) (r : BitVec 512) (j : Nat) : Word :=
  BitVec.ofNat 64 (pkSize r * boxCount ((List.range j).map (s.clipExt r)))

/-- The message of a CLIP packet. -/
def State.clipMessage (s : State) (r : BitVec 512) : BitVec 256 :=
  let half (l : List Nat) : Nat := leNat (l.flatMap (fun v => leBytes 2 v))
  let d := List.range 4
  let used (f : Nat → Nat) : List Nat := d.map (fun j => if j < pkDims r then f j else 0)
  BitVec.ofNat 256 (half (d.map (fun j => rb r (40 + 2 * j) 2)) + half (d.map (pkExt r)) * 2 ^ 64
    + half (used (fun j => (s.clipBox r j).1)) * 2 ^ 128 + half (used (fun j => (s.clipBox r j).2 - (s.clipBox r j).1)) * 2 ^ 192)

/-! ## Elements (12 R256, R257) -/

/-- The elements that a packet moves. -/
def State.pkCount (s : State) (r : BitVec 512) : Nat :=
  if pkKind r = 0x0A then 1
  else if pkClip r then boxCount ((List.range (pkDims r)).map (fun j => (s.clipBox r j).2 - (s.clipBox r j).1))
  else boxCount (pkExts r)

/-- The coordinates of moved element `k`. -/
def State.pkIndex (s : State) (r : BitVec 512) (k : Nat) : List Nat :=
  if pkClip r then
    ((boxIndex ((List.range (pkDims r)).map (fun j => (s.clipBox r j).2 - (s.clipBox r j).1)) k).zipIdx).map
      (fun i => i.1 + (s.clipBox r i.2).1)
  else boxIndex (pkExts r) k

/-- The pointer of row `i`'s index of a GATHER or SCATTER. -/
def idxPtr (r : BitVec 512) (i : Nat) : Word := rptr r (if pkKind r = 2 then 44 else 56) + BitVec.ofNat 64 (4 * i)

/-- The source pointer of element `k`, given its row's index. -/
def State.pkSrc (s : State) (r : BitVec 512) (k idx : Nat) : Word :=
  let c := s.pkIndex r k
  if pkKind r = 2 then pkSrcPtr r + BitVec.ofNat 64 idx * rstride r 40 + BitVec.ofNat 64 (c.getD 0 0 * pkSize r)
  else boxPtr (pkSrcPtr r) (if pkClip r then s.clipStride r else pkSs r) c

/-- The destination pointer of element `k`, given its row's index. -/
def State.pkDst (s : State) (r : BitVec 512) (k idx : Nat) : Word :=
  let c := s.pkIndex r k
  if pkKind r = 0x0A then pkDstPtr r
  else if pkKind r = 3 then pkDstPtr r + BitVec.ofNat 64 idx * rstride r 52 + BitVec.ofNat 64 (c.getD 0 0 * pkSize r)
  else if pkKind r = 5 then boxPtr (pkDstPtr r) (fun j => if j = 0 then 64 else pkDs r j) c
  else if pkClip r then
    boxPtr (pkDstPtr r) (pkDs r) ((c.zipIdx).map (fun i => ((i.1 : Int) - clipO r i.2).toNat))
  else boxPtr (pkDstPtr r) (pkDs r) c

/-- Bytes at a destination element. -/
def pkDstSize (r : BitVec 512) : Nat := if pkKind r = 0x0A then 8 else if pkKind r = 5 then 64 else pkSize r

/-- The need of a destination element. -/
def pkDstNeed (r : BitVec 512) : Nat := if pkKind r = 5 then needA else needW

/-! ## Rules of fields (12 R256 to R262) -/

/-- Whether an extent, stride or other field that a packet's kind does not use is nonzero: its byte. -/
def pkUnused (r : BitVec 512) : List (Bool × Nat) :=
  let k := pkKind r
  let d := pkDims r
  ((List.range 4).map (fun j => (decide (d ≤ j ∧ pkExt r j ≠ 0), 32 + 2 * j))) ++
  (if pkClip r then [(decide (rb r 48 4 ≠ 0), 48)]
   else if k = 2 then []
   else if k = 3 then [(decide (rb r 44 4 ≠ 0), 44), (decide (rb r 48 4 ≠ 0), 48)]
   else (List.range 3).map (fun j => (decide ((d ≤ j + 1 ∨ k = 4) ∧ rb r (40 + 4 * j) 4 ≠ 0), 40 + 4 * j))) ++
  (if k = 2 then [(decide (rb r 56 4 ≠ 0), 56), (decide (rb r 60 4 ≠ 0), 60)]
   else if k = 3 then []
   else if k = 9 then [(decide (d ≤ 1 ∧ rb r 52 4 ≠ 0), 52)]
   else (List.range 3).map (fun j => (decide ((d ≤ j + 1 ∧ rb r (52 + 4 * j) 4 ≠ 0) ∨ (k = 5 ∧ rb r (52 + 4 * j) 4 % 64 ≠ 0)), 52 + 4 * j)))

/-- The first byte of a packet that breaks a rule of its kind (12 R256 to R260; 13 R289), but for pointers. -/
def State.pkField (s : State) (part : Nat) (r : BitVec 512) : Option Nat :=
  let k := pkKind r
  let aux := pkAux r
  let f := aux % 256
  let none_ := decide (k = 0x06 ∨ k = 0x0A)
  firstOf ([
    (decide (k = 0 ∨ k = 7 ∨ k = 8 ∨ 10 < k), 0),
    (bitOf r 14 || bitOf r 15 || (pkClip r && (decide (k ≠ 1) || pkStream r)) || (pkStream r && decide (k ≠ 1 ∧ k ≠ 2 ∧ k ≠ 4))
      || (bitOf r 10 && decide (k = 6)), 1),
    (if none_ then decide (pkDims r ≠ 0) else if k = 2 ∨ k = 3 then decide (pkDims r ≠ 2)
      else if k = 9 then decide (pkDims r < 1 ∨ 2 < pkDims r)
      else if pkClip r then decide (pkDims r < 1 ∨ 4 < pkDims r ∨ pkDims r ≠ s.clipRank r) else decide (pkDims r < 1 ∨ 4 < pkDims r), 2),
    (if none_ then decide (rb r 3 1 ≠ 0) else decide (3 < rb r 3 1) || (decide (k = 5) && decide (5 ≤ f ∧ f ≤ 11)
      && decide (8 * pkSize r ≠ codeBits f)), 3),
    (if k = 5 then decide (256 ≤ aux ∨ f < 5 ∨ 11 < f)
      else if k = 6 then decide (aux = 0xFFFFFFFF)
      else if pkClip r then decide (aux / 2 ^ 27 ≠ 0 ∨ aux / 8 % 2 ^ 13 ≠ 0 ∨ clipCore r / 4 ∉ (s.part part).clusters
        ∨ recN (s.core (clipCore r)).shape 0 1 ≤ aux % 8)
      else if pkStream r then decide (16 ≤ aux) else decide (aux ≠ 0), 4),
    (decide (k = 6 ∧ pkDstPtr r ≠ 0) || (decide (k = 5) && decide (rb r 16 8 % 64 ≠ 0)) || (decide (k = 0x0A) && decide (rb r 16 8 % 8 ≠ 0)), 16)]
    ++ pkUnused r)

/-- Whether a pointer with handle 0x001 names a cluster of the partition (12 R255). -/
def State.qualified (s : State) (part : Nat) (p : Word) : Bool :=
  decide (p.toNat / 2 ^ 52 ≠ 1) ||
    (decide (bitsAt p 40 10 ≠ 0) && decide (bitsAt p 40 10 - 1 ∈ (s.part part).clusters) && decide (bitsAt p 50 2 = 0))

/-- The pointer fields of a kind (12 R255): their bytes. -/
def pkPtrs (k : Nat) : List Nat :=
  if k = 2 then [8, 16, 44] else if k = 3 then [8, 16, 56] else if k = 4 ∨ k = 0x0A then [16] else if k = 6 then [8] else [8, 16]

/-! ## Footprints (12 R261) -/

/-- The range of `n` bytes from a pointer, for the order of cards: translated spaces by virtual address, scratchpad by
cluster and offset. A pointer that names nothing has no range. -/
def State.footRange (s : State) (part : Nat) (p : Word) (n : Nat) (rd wr : Bool) : List FootRange :=
  let h := p.toNat / 2 ^ 52
  if h = 1 then [⟨0, (bitsAt p 40 10 - 1) * 2 ^ 40 + p.toNat % 2 ^ 40, n, rd, wr⟩]
  else if h < 16 ∨ (s.part part).htlen.toNat ≤ h then []
  else
    match s.handleRaw (s.firstClu part) part h with
    | .error _ => []
    | .ok raw => [⟨1, (HEntry.ofNat raw.toNat).base + p.toNat % 2 ^ 52, n, rd, wr⟩]

/-- The bounding range of some pointers of elements of `n` bytes. -/
def State.bounding (s : State) (part : Nat) (ps : List Word) (n : Nat) (rd wr : Bool) : List FootRange :=
  match ps with
  | [] => []
  | p :: r =>
    let lo := r.foldl (fun m q => if q.toNat < m.toNat then q else m) p
    let hi := r.foldl (fun m q => if m.toNat < q.toNat then q else m) p
    s.footRange part lo (hi.toNat - lo.toNat + n) rd wr

/-- The whole object of a pointer's handle. -/
def State.wholeObject (s : State) (part : Nat) (p : Word) (rd wr : Bool) : List FootRange :=
  let h := p.toNat / 2 ^ 52
  if h = 1 then [⟨0, (bitsAt p 40 10 - 1) * 2 ^ 40, 2 ^ 40, rd, wr⟩]
  else if h < 16 ∨ (s.part part).htlen.toNat ≤ h then []
  else
    match s.handleRaw (s.firstClu part) part h with
    | .error _ => []
    | .ok raw => [⟨1, (HEntry.ofNat raw.toNat).base, (HEntry.ofNat raw.toNat).len, rd, wr⟩]

/-- The corners of a box: every coordinate at its first or last value. -/
def corners : List Nat → List (List Nat)
  | [] => [[]]
  | e :: r => (corners r).flatMap (fun c => [0 :: c, (e - 1) :: c])

/-- Bytes of the object that a capability names at a partition of a node, as a range of the partition's own addresses where it is
this one, and else of the peer's object (12 R261). -/
def State.capRange (s : State) (part : Nat) (cap : BitVec 128) (node tpart lo len : Nat) : List FootRange :=
  if node = s.pkg.node ∧ tpart = part then s.footRange part (BitVec.ofNat 64 (capHidx cap * 2 ^ 52 + lo % 2 ^ 52)) len false true
  else [⟨2 + node * 2 ^ 17 + tpart * 2 ^ 12 + capHidx cap, lo, len, false, true⟩]

/-- Whether a capability makes an RCOPY a multicast (18 R434). -/
def capMulti (cap : BitVec 128) : Bool := covers (capPerm cap) (2 + 64)

/-- The destination of an RCOPY: the bounding range of its rows in the capability's object, at every member of a multicast (12 R257,
R261; 18 R434). None where no capability can be read. -/
def State.rcopyFoot (s : State) (part : Nat) (r : BitVec 512) : List FootRange :=
  let bytes (n : Nat) : Option (List Byte) :=
    match s.engSegs { clu := s.firstClu part, part := part, sup := true } (pkDstPtr r) n 0 false with
    | .error _ => none
    | .ok segs => some (s.bytesAt (spanAll segs))
  match bytes 16 with
  | none => []
  | some bs =>
    let cap : BitVec 128 := BitVec.ofNat 128 (leNat bs)
    let rows := if pkDims r = 2 then pkExt r 1 else 1
    let at_ (i : Nat) : Word := BitVec.ofNat 64 (capBase cap) + rptr r 56 + BitVec.ofNat 64 i * rstride r 52
    let a := (at_ 0).toNat
    let b := (at_ (rows - 1)).toNat
    let lo := if b < a then b else a
    let len := (if b < a then a - b else b - a) + pkExt r 0 * pkSize r
    if capMulti cap then
      match bytes 32 with
      | none => []
      | some b => (boxNodes (b.drop 16)).flatMap (fun n => s.capRange part cap n (b.getD 24 0).toNat lo len)
    else s.capRange part cap (capNode cap) (capPart cap) lo len

/-- The handle entry of a REDUCE packet's destination, when it is a PEER handle (18 R435). -/
def State.peerEntry (s : State) (part : Nat) (r : BitVec 512) : Option HEntry :=
  let h := (pkDstPtr r).toNat / 2 ^ 52
  if pkKind r ≠ 5 ∨ h < 16 ∨ (s.part part).htlen.toNat ≤ h then none
  else
    match s.handleRaw (s.firstClu part) part h with
    | .error _ => none
    | .ok raw => if (HEntry.ofNat raw.toNat).space = 5 then some (HEntry.ofNat raw.toNat) else none

/-- The cells of a contribution through a PEER handle, as bytes of the peer's object (12 R261; 18 R435). -/
def State.reduceFoot (s : State) (part : Nat) (r : BitVec 512) (e : HEntry) (dst : List Word) : List FootRange :=
  match s.peerCap { clu := s.firstClu part, part := part, sup := true, thread := false } ((pkDstPtr r).toNat / 2 ^ 52) e with
  | .error _ => []
  | .ok cap =>
    let os := dst.map (fun p => p.toNat % 2 ^ 52)
    let lo := os.tail.foldl min (os.headD 0)
    let hi := os.foldl max 0
    s.capRange part cap (capNode cap) (capPart cap) (capBase cap + lo) (hi + 64 - lo)

/-- A packet's footprint, derived from its fields. A box with a zero extent has none, and a CLIP that moves nothing reads nothing. -/
def State.pkFoot (s : State) (part : Nat) (r : BitVec 512) : List FootRange :=
  let k := pkKind r
  let es := pkExts r
  if k = 0x0A then s.footRange part (pkDstPtr r) 8 false true
  else if es.any (fun e => decide (e = 0)) then []
  else
    let src := (corners es).map (boxPtr (pkSrcPtr r) (pkSs r))
    let dst := (corners es).map (boxPtr (pkDstPtr r) (if k = 5 then fun j => if j = 0 then 64 else pkDs r j else pkDs r))
    let rd := if k = 4 then []
      else if k = 2 then s.wholeObject part (pkSrcPtr r) true false ++ s.footRange part (idxPtr r 0) (4 * pkExt r 1) true false
      else if pkClip r then if s.pkCount r = 0 then [] else s.bounding part [s.pkSrc r 0 0, s.pkSrc r (s.pkCount r - 1) 0] (pkSize r) true false
      else if k = 3 then s.bounding part [pkSrcPtr r, pkSrcPtr r + BitVec.ofNat 64 (pkExt r 1 - 1) * rstride r 40]
        (pkExt r 0 * pkSize r) true false ++ s.footRange part (idxPtr r 0) (4 * pkExt r 1) true false
      else s.bounding part src (pkSize r) true false
    let wr := if k = 3 then s.wholeObject part (pkDstPtr r) false true
      else if k = 9 then s.rcopyFoot part r
      else if k = 2 then s.bounding part [pkDstPtr r, pkDstPtr r + BitVec.ofNat 64 (pkExt r 1 - 1) * rstride r 52]
        (pkExt r 0 * pkSize r) false true
      else
        match s.peerEntry part r with
        | some e => s.reduceFoot part r e dst
        | none => s.bounding part dst (pkDstSize r) false true
    rd ++ wr

/-- Whether a COPY's source and destination ranges overlap (12 R257). -/
def overlapping (f : List FootRange) : Bool :=
  (f.filter (·.rd)).any (fun a => (f.filter (·.wr)).any (fun b => a.clash b))

/-! ## An engine's accesses -/

/-- The accessor that a packet is: the queueing thread's mode, or user mode. -/
def pkEng (s : State) (c : CopyPk) : Eng := { clu := (c.clu).getD (s.firstClu c.part), part := c.part, sup := c.sup }

/-- What an element's access meets. -/
inductive Mv where
  | ok (s : State)
  /-- Held by another packet's watermark, a changing bank, or the lines given, which must be asked for. -/
  | held (lines : List Nat)
  /-- PAGE_ABSENT or PAGE_PERM: the packet is held (12 R263). -/
  | page (cause : Cause) (ptr : Word)
  /-- A cause that abandons the packet, and the locations of the data in error that it met (17 R409). -/
  | dead (cause : Cause) (met : List Nat)

/-- The locations of an element, or what stops it. -/
def State.engAt (s : State) (g : Eng) (id : Nat) (ptr : Word) (size need : Nat) (wr rd : Bool) : Except Mv (List Nat) :=
  match s.engSegs g ptr size need wr with
  | .error e => .error (if e.xlate && decide (e.cause = Cause.pageAbsent ∨ e.cause = Cause.pagePerm) then .page e.cause ptr else .dead e.cause [])
  | .ok segs =>
    let ls := spanAll segs
    let others : State := { s with waters := s.waters.filter (fun w => decide (w.pk ≠ id)) }
    if (others.waterHold g.part ls).isSome then .error (.held [])
    else if wr && (linesOf ls).any (fun l => s.lockedFor l noCtx) then .error (.held (linesOf ls))
    else
      match (if rd then s.errAt ls else none) with
      | some k => .error (.dead k ls)
      | none => .ok ls

/-- The engine's detector sees an access (03 R51). -/
def State.engStream (s : State) (eng : Nat) (g : Eng) (ptr : Word) : State :=
  match s.streamKey { clu := g.clu, part := g.part, sup := true, thread := false } ptr with
  | none => s
  | some (h, line) =>
    { s with engDet := SMap.put s.engDet eng (noteStream (SMap.at [] s.engDet eng) s.cycle h line).1 }

/-- The engine's detector sees the lines of some rows of `n` bytes. -/
def State.engStreams (s : State) (eng : Nat) (g : Eng) (ps : List Word) (n : Nat) : State :=
  ps.foldl (fun s p => (List.range ((p.toNat % 128 + n + 127) / 128)).foldl (fun s i => s.engStream eng g (p + BitVec.ofNat 64 (128 * i))) s) s

/-- One element moves (12 R257). -/
def State.moveOne (s : State) (id : Nat) (c : CopyPk) (k : Nat) : Mv :=
  let r := c.pkt
  let g := pkEng s c
  let kind := pkKind r
  let row := (s.pkIndex r k).getD 1 0
  let idx : Except Mv (List Nat) :=
    if kind = 2 ∨ kind = 3 then s.engAt g id (idxPtr r row) 4 needR false true else .ok []
  match idx with
  | .error m => m
  | .ok il =>
    let i := leNat (s.bytesAt il)
    let src : Except Mv (List Nat × List Byte) :=
      if kind = 4 then .ok ([], leBytes (pkSize r) (pkSrcPtr r).toNat)
      else if kind = 0x0A then .ok ([], leBytes 8 (pkSrcPtr r).toNat)
      else
        match s.engAt g id (s.pkSrc r k i) (pkSize r) needR false true with
        | .error m => .error m
        | .ok ls => .ok (ls, s.bytesAt ls)
    match src with
    | .error m => m
    | .ok (sl, v) =>
      match s.engAt g id (s.pkDst r k i) (pkDstSize r) (pkDstNeed r) true (decide (kind = 5)) with
      | .error m => m
      | .ok ls =>
        let s := s.correct (il ++ sl ++ (if kind = 5 then ls else []))
        let s0 := if kind = 2 ∨ kind = 3 then s.engStream c.eng g (idxPtr r row) else s
        let s0 := if kind = 4 ∨ kind = 0x0A then s0 else s0.engStream c.eng g (s.pkSrc r k i)
        let s1 := s0.engStream c.eng g (s.pkDst r k i)
        if kind = 5 then
          match xsAdd (BitVec.ofNat 512 (leNat (s.bytesAt ls))) (elemValue (pkAux r % 256) (leNat v)) (pkAux r % 256) with
          | none => .dead Cause.xcellFormat []
          | some w => .ok (s1.place { key := some (pkKey id) } (ls.zip (leBytes 64 w.toNat)))
        else .ok (s1.place { key := some (pkKey id) } (ls.zip v))

/-- Change a packet. -/
def State.modPk (s : State) (id : Nat) (f : CopyPk → CopyPk) : State :=
  { s with packets := SMap.put s.packets id (f (SMap.at {} s.packets id)) }

/-- A packet. -/
def State.pk (s : State) (id : Nat) : CopyPk := SMap.at {} s.packets id

/-! ## The end of a packet (12 R260, R262, R263) -/

/-- The locations of the next accesses of a packet that has not moved everything (12 R257): its next element with its row's
index; every row of an RCOPY, and every source of a contribution to a peer. -/
def State.pkNext (s : State) (id : Nat) : List Nat :=
  let c := s.pk id
  let r := c.pkt
  let g := pkEng s c
  let at_ (p : Word) (n need : Nat) (wr : Bool) : List Nat := match s.engSegs g p n need wr with
    | .ok segs => spanAll segs
    | .error _ => []
  let k := c.written
  let ix := if pkKind r = 2 ∨ pkKind r = 3 then at_ (idxPtr r ((s.pkIndex r k).getD 1 0)) 4 needR false else []
  let i := leNat (s.bytesAt ix)
  if pkKind r = 9 then
    at_ (pkDstPtr r) 16 needL false ++ (List.range (if pkDims r = 2 then pkExt r 1 else 1)).flatMap (fun j =>
      at_ (pkSrcPtr r + BitVec.ofNat 64 j * pkSs r 1) (pkExt r 0 * pkSize r) needR false)
  else if pkKind r = 5 ∧ c.started = false then (List.range (s.pkCount r)).flatMap (fun j => at_ (s.pkSrc r j 0) (pkSize r) needR false)
  else ix ++ (if pkKind r = 4 ∨ pkKind r = 0x0A then [] else at_ (s.pkSrc r k i) (pkSize r) needR false) ++
    at_ (s.pkDst r k i) (pkDstSize r) (pkDstNeed r) true

/-- Whether a packet is under way and a watermark channel holds its next access. -/
def State.pkHeldOn (s : State) (id : Nat) (w : Water) : Bool :=
  let c := s.pk id
  decide (w.pk ≠ id ∧ c.part = w.part) && c.fate.isNone && !c.moved && decide (pkKind c.pkt ≠ 6) &&
    (c.started || match s.cardTurn c.part c.queue ⟨id, false, c.foot, none⟩ (pkFence c.pkt) with
      | .ok b => b
      | .error _ => false) && s.waterStops w (s.pkNext id)

/-- The accesses of threads and of matrix units that are held on a packet's channel fault with WATERMARK_RANGE, and the channel
unbinds (12 R260). An access that the watermark has passed is held no longer, though it has not been performed yet. DESIGN CHOICE: a vector access
that has left its thread for the port's queue is dropped there, and its thread gets the cause as an event (log 35). -/
def State.breakWater (s : State) (id : Nat) : State :=
  let mine := s.waters.filter (fun w => decide (w.pk = id))
  let waits (x : Ctx) : Bool := x.wait.any (fun w => w.reply.isNone && (match w.why with
    | .watermark _ ls => mine.any (fun u => decide (u.part = x.part) && s.waterStops u ls)
    | _ => false))
  let s1 := s.ctxs.foldl (fun s p =>
    if waits p.2 then s.giveReply p.1 { exc := some { code := Cause.watermarkRange, addr := s.waitPtr p.1 } } else s) s
  let s2 := s.mats.foldl (fun (t : State) p =>
    match s.mxHeldOn p.1 id with
    | some (c, .err cause sub ptr row) => t.mxStop p.1 c c.prog cause sub ptr row
    | _ => t) s1
  let s3 := s.ports.foldl (fun (t : State) p =>
    match p.2.queue, s.engineUser (p.1 / 4) (p.1 % 4) with
    | e :: _, some c =>
      if e.isMem && mine.any (fun u => decide (u.part = (s.ctx c).part) && s.waterStops u (e.segs.flatMap (·.2))) then
        (t.modPort (p.1 / 4) (p.1 % 4) (fun q => { q with queue := q.queue.drop 1 })).raiseAt c
          { code := Cause.watermarkRange, addr := e.xs.getD 0 0 }
      else t
    | _, _ => t) s2
  { s3 with waters := s3.waters.filter (fun w => decide (w.pk ≠ id)) }

/-- A packet is abandoned: its owner and its issuer are told, the accesses held on its channel fault, and the packets among them
are abandoned in turn. Its footprint stands for the later packets of its queue (12 R260, R263). -/
def State.abandonWith (fuel : Nat) (s : State) (id : Nat) (cause : Cause) (info : Option Word) : State :=
  match fuel with
  | 0 => s
  | fuel + 1 =>
    let c := s.pk id
    if c.fate.isSome then s
    else
      let held := (s.waters.filter (fun w => decide (w.pk = id))).flatMap (fun w =>
        (s.packets.map (·.1)).filter (fun q => s.pkHeldOn q w))
      let s1 := s.modPk id (fun c => { c with fate := some cause, info := info, hold := none, remote := [] })
      let s2 := ((s1.raiseAt c.owner { code := cause, addr := c.slotPtr }).endTicket c.issuer (some cause) info).breakWater id
      held.foldl (fun s q => s.abandonWith fuel q Cause.watermarkRange none) s2

/-- A packet is abandoned with a cause. -/
def State.abandonPk (s : State) (id : Nat) (cause : Cause) (info : Option Word := none) : State :=
  s.abandonWith (s.packets.length + 1) id cause info

/-- A packet completes: its arrival is made, its ticket ends, its channel unbinds. An arrival that overruns, or that meets
a stuck word, abandons it (12 R262, R263). DESIGN CHOICE: where the syncptr names no sync word any more, because its bank has left
SCRATCH since the packet's check, the packet completes with no arrival (log 11). -/
def State.finishPk (s : State) (id : Nat) : State :=
  let c := s.pk id
  let close (s : State) : State :=
    let s1 := s.endTicket c.issuer none
    { s1 with waters := s1.waters.filter (fun w => decide (w.pk ≠ id)), packets := SMap.del s1.packets id }
  if pkSync c.pkt = 0 then close s
  else
    match s.syncLoc (pkEng s c) (pkSync c.pkt) with
    | none => close s
    | some l =>
      let (s1, ovr) := s.arriveAt l c.bytes
      if ovr then s1.abandonPk id Cause.syncwordOverrun else close s1

/-! ## Running a packet -/

/-- A page holds the packet: the owner is told once per hold (12 R263). -/
def State.holdPk (s : State) (id : Nat) (cause : Cause) (ptr : Word) : State :=
  if (s.pk id).hold = some (cause, ptr) then s
  else
    (s.modPk id (fun c => { c with hold := some (cause, ptr) })).raiseAt (s.pk id).owner
      { code := cause, addr := ptr, info := (s.pk id).slotPtr }

/-- A packet's next element moves; whether it did. A STREAM packet's watermark follows (12 R260). -/
def State.advancePk (s : State) (id : Nat) : State × Bool :=
  let c := s.pk id
  if s.pkCount c.pkt ≤ c.written then (s.modPk id (fun c => { c with moved := true }), false)
  else
    match s.moveOne id c c.written with
    | .held lines => (s.askWrites { key := some (pkKey id) } lines, false)
    | .page k p => (s.holdPk id k p, false)
    | .dead k met => ((s.errMet met).abandonPk id k, false)
    | .ok s1 =>
      let n := c.written + 1
      let up (w : Water) : Water := if w.pk = id then { w with w := n * pkSize c.pkt } else w
      let s2 := s1.modPk id (fun c => { c with written := n, hold := none, moved := decide (s.pkCount c.pkt ≤ n) })
      ({ s2 with waters := s2.waters.map up }, true)

/-- A packet's remaining elements move, one after another. -/
def State.runElems (id : Nat) : Nat → State → State
  | 0, s => s
  | fuel + 1, s =>
    match s.advancePk id with
    | (s1, true) => State.runElems id fuel s1
    | (s1, false) => s1

/-- The destination range of a STREAM packet, when it is one ascending contiguous range (12 R260). -/
def streamLen (r : BitVec 512) : Option Nat :=
  let ok := (List.range (pkDims r)).all (fun j =>
    decide (pkDs r j = BitVec.ofNat 64 (pkSize r * boxCount ((List.range j).map (pkExt r)))))
  let n := boxCount (pkExts r) * pkSize r
  if ok && decide (1 ≤ n) then some n else none

/-- Whether two channels bind virtual addresses in common, mapped or not. -/
def sameRange (u w : Water) : Bool :=
  match u.virt, w.virt with
  | some (h, a), some (k, b) => decide (h = k ∧ a < b + w.len ∧ b < a + u.len)
  | _, _ => false

/-- Bind a STREAM packet's channel: none while the channel is bound to another packet. -/
def State.bindWater (s : State) (id : Nat) : Option State :=
  let c := s.pk id
  let ch := pkAux c.pkt % 16
  match streamLen c.pkt with
  | none => some (if s.pkCount c.pkt = 0 then s else s.abandonPk id Cause.watermarkRange)
  | some n =>
    if s.waters.any (fun w => decide (w.eng = c.eng ∧ w.chan = ch)) then none
    else
      let g := pkEng s c
      let bind (segs : List (Nat × Nat)) (virt : Option (Bool × Nat)) : Option State :=
        let w : Water := ⟨c.eng, ch, c.part, segs, n, 0, id, g.unit, virt⟩
        let ls := s.waterLocs w
        if s.waters.any (fun u => decide (u.part = c.part) && (sameRange u w || (s.waterLocs u).any (fun l => decide (l ∈ ls)))) then
          some (s.abandonPk id Cause.watermarkRange)
        else some { s with waters := s.waters ++ [w] }
      match s.engSegs g (pkDstPtr c.pkt) n needW true with
      | .ok segs => if (pkDstPtr c.pkt).toNat / 2 ^ 52 = 1 then bind segs none else
        (match s.resolve { clu := g.clu, part := g.part, sup := g.sup, thread := false } (pkDstPtr c.pkt) n needW with
          | .ok (.table e off) => bind segs (some (decide (e.space = 2), e.base + off))
          | _ => bind segs none)
      | .error e =>
        if !e.xlate then some (s.abandonPk id e.cause)
        else
          match s.resolve { clu := g.clu, part := g.part, sup := g.sup, thread := false } (pkDstPtr c.pkt) n needW with
          | .ok (.table h off) => bind [] (some (decide (h.space = 2), h.base + off))
          | _ => some (s.abandonPk id e.cause)

/-! ### Packets that leave the package (12 R257; 18 R434, R435) -/

/-- The rows of an RCOPY: their offset in the capability, and their bytes. -/
def State.rcopyRows (s : State) (g : Eng) (id : Nat) (r : BitVec 512) : Except Mv (List (Word × List Byte)) :=
  let rows := if pkDims r = 2 then pkExt r 1 else 1
  (List.range rows).foldr (fun i (acc : Except Mv (List (Word × List Byte))) =>
    match acc with
    | .error m => .error m
    | .ok l =>
      let n := pkExt r 0 * pkSize r
      if n = 0 then .ok l
      else
        match s.engAt g id (pkSrcPtr r + BitVec.ofNat 64 i * pkSs r 1) n needR false true with
        | .error m => .error m
        | .ok ls => .ok ((rptr r 56 + BitVec.ofNat 64 i * rstride r 52, s.bytesAt ls) :: l)) (.ok [])

/-- Bytes cut into payloads of at most 512 (18 R423). -/
def payloads : Nat → Word → List Byte → List (Word × List Byte)
  | 0, _, _ => []
  | fuel + 1, o, l => if l.isEmpty then [] else (o, l.take 512) :: payloads fuel (o + 512) (l.drop 512)

/-- The nodes of a node box, or none where 18 R434 finds it invalid. -/
def State.nodeBox (s : State) (b : List Byte) : Option (List Nat × Nat) :=
  let at_ (i : Nat) : Nat := (b.getD i 0).toNat
  let sz (i : Nat) : Nat := if s.pkg.sizes.length = 4 then s.pkg.sizes.getD i 1 else (nodeCoord s.pkg.node).getD i 0 + 1
  if (List.range 4).any (fun i => decide (at_ (4 + i) < at_ i ∨ sz i ≤ at_ (4 + i))) ∨ 16 ≤ at_ 8 ∨ (b.drop 9).any (fun v => decide (v ≠ 0)) then none
  else some (boxNodes b, at_ 8)

/-- A capability as the egress checks it for a member of a multicast: its handle index at the box's partition of the member. -/
def capFor (cap : BitVec 128) (node part : Nat) : BitVec 128 := putBits (putBits cap 117 11 node) 112 5 part

/-- An RCOPY starts: the capability's checks, then its write requests; with MCAST and W, multicast packets, once the egress has
checked every member. -/
def State.startRcopy (s : State) (id : Nat) : State :=
  let c := s.pk id
  let r := c.pkt
  let g := pkEng s c
  match s.engAt g id (pkDstPtr r) 16 needL false true with
  | .error (.held _) => s
  | .error (.page k p) => s.holdPk id k p
  | .error (.dead k met) => (s.errMet met).abandonPk id k
  | .error (.ok t) => t
  | .ok ls =>
    let cap : BitVec 128 := BitVec.ofNat 128 (leNat (s.bytesAt ls))
    let tag := hasNat s.mtags (ls.headD 0 / 16) && decide (ls.headD 0 % 16 = 0)
    match s.rcopyRows g id r with
    | .error (.held _) => s
    | .error (.page k p) => s.holdPk id k p
    | .error (.dead k met) => (s.errMet met).abandonPk id k
    | .error (.ok t) => t
    | .ok rows =>
      let bad (k : BitVec 128) (bit : Nat) : Option Exc := rows.findSome? (fun p => s.egress k tag p.1.toNat p.2.length 2 [bit] none)
      let parts := rows.flatMap (fun p => payloads (p.2.length / 512 + 1) p.1 p.2)
      let go (reqs : List FabPkt) : State :=
          ((s.correct (s.pkNext id)).engStreams c.eng g ((List.range (if pkDims r = 2 then pkExt r 1 else 1)).map (fun i => pkSrcPtr r + BitVec.ofNat 64 i * pkSs r 1))
            (pkExt r 0 * pkSize r)).modPk id (fun c =>
              { c with started := true, moved := true, hold := none, remote := reqs, written := s.pkCount r, bytes := s.pkCount r * pkSize r })
      if tag && capMulti cap then
          match s.engAt g id (pkDstPtr r) 32 needL false true with
          | .error (.held _) => s
          | .error (.page k p) => s.holdPk id k p
          | .error (.dead k met) => (s.errMet met).abandonPk id k
          | .error (.ok t) => t
          | .ok bs =>
            let box := (s.bytesAt bs).drop 16
            match s.nodeBox box with
            | none => s.abandonPk id Cause.copyPacketInvalid
            | some (nodes, pt) =>
              match nodes.findSome? (fun n => bad (capFor cap n pt) 14) with
              | some e => s.abandonPk id e.code
              | none =>
                go (parts.map (fun p => { s.request c.part 0x08 0 0 (capFor cap (nodes.headD 0) pt) p.1 0 p.2 with
                  cls := 2, cap := cap, opnd := mcastOpnd box p.2.length }))
      else
        match bad cap 13 with
        | some e => s.abandonPk id e.code
        | none => go (parts.map (fun p => s.request c.part opcWrite 0 0 cap p.1 0 p.2))

/-- The cells of a contribution: one per destination cell from the first to the last, each formed with xs_add; none on a
format clash. -/
def State.contribute (s : State) (g : Eng) (id : Nat) (r : BitVec 512) : Except Mv (Nat × SMap (BitVec 512)) :=
  let f := pkAux r % 256
  let n := s.pkCount r
  let cell (k : Nat) : Nat := ((s.pkDst r k 0).toNat % 2 ^ 52) / 64
  let first := (List.range n).foldl (fun m k => min m (cell k)) (cell 0)
  (List.range n).foldl (fun (acc : Except Mv (Nat × SMap (BitVec 512))) k =>
    match acc with
    | .error m => .error m
    | .ok (b, l) =>
      match s.engAt g id (s.pkSrc r k 0) (pkSize r) needR false true with
      | .error m => .error m
      | .ok ls =>
        match xsAdd (SMap.at 0 l (cell k - first)) (elemValue f (leNat (s.bytesAt ls))) f with
        | none => .error (.dead Cause.xcellFormat [])
        | some w => .ok (b, SMap.put l (cell k - first) w)) (.ok (first, []))

/-- The requests of a contribution: eight cells in each, because a payload has at most 512 bytes (18 R423). OPND tells the root
which requests make the share: their number, the place of this one, and the card's number (log 31). -/
def State.shareReqs (s : State) (part id : Nat) (cap : BitVec 128) (first : Nat) (cells : List (BitVec 512)) : List FabPkt :=
  let n := (cells.length + 7) / 8
  (List.range n).map (fun i =>
    { s.request part 0x09 0 0 cap (BitVec.ofNat 64 (64 * (first + 8 * i)))
        (BitVec.ofNat 128 (n + i * 2 ^ 16 + id % 2 ^ 64 * 2 ^ 64))
        (((cells.drop (8 * i)).take 8).flatMap (fun w => leBytes 64 w.toNat)) with cls := 2 })

/-- A REDUCE packet of a fabric reduction starts: its contribution leaves (18 R435). -/
def State.startReduce (s : State) (id : Nat) (e : HEntry) : State :=
  let c := s.pk id
  let r := c.pkt
  let g := pkEng s c
  match s.peerCap { clu := g.clu, part := g.part, sup := g.sup, thread := false } ((pkDstPtr r).toNat / 2 ^ 52) e with
  | .error x => s.abandonPk id x.code
  | .ok cap =>
    match s.contribute g id r with
    | .error (.held _) => s
    | .error (.page k p) => s.holdPk id k p
    | .error (.dead k met) => (s.errMet met).abandonPk id k
    | .error (.ok t) => t
    | .ok (first, cells) =>
      let last := cells.foldl (fun m p => max m p.1) 0
      match s.egress cap true (64 * first) (64 * (last + 1)) 128 [15] (some (pkAux r % 256)) with
      | some x => s.abandonPk id x.code
      | none =>
        let qs := s.shareReqs c.part id cap first ((List.range (last + 1)).map (fun j => SMap.at 0 cells j))
        ((s.correct (s.pkNext id)).engStreams c.eng g ((List.range (s.pkCount r)).map (fun k => s.pkSrc r k 0)) (pkSize r)).modPk id (fun c =>
          { c with started := true, moved := true, hold := none, remote := qs, written := s.pkCount r, bytes := s.pkCount r * pkSize r })

/-- The unicast copy of a multicast packet for a member (18 R434): a write of RCOPY. -/
def State.copyFor (s : State) (q : FabPkt) (n : Nat) : FabPkt :=
  { q with cls := 0, opc := opcWrite, tgtNode := n, rev := ((s.revOf n).map (·.rev)).getD 0, opnd := BitVec.ofNat 128 q.data.length }

/-- Send a multicast packet to some members, when every one has room. DESIGN CHOICE: a header has one end-to-end number, so the
tree takes the highest of the next numbers of the nodes of its box, and each one's counter goes on from there (18 R428, R434; log
31). -/
def State.sendTree (s : State) (id : Nat) (q : FabPkt) (nodes : List Nat) : Option State :=
  let next (n : Nat) : Nat := SMap.at 0 s.pkg.eseqs n
  if nodes.any (fun n => decide (1024 ≤ (s.pkg.outst.filter (fun o => decide (o.pkt.tgtNode = n))).length)) then none
  else
    let all := mcastMembers q
    let e := all.foldl (fun m n => if serialAfter (next n) m then next n else m) (next (all.headD 0))
    let q1 := { q with eseq := e }
    some (s.modPkg (fun g => { g with
      eseqs := all.foldl (fun l n => SMap.put l n ((e + 1) % 2 ^ 32)) g.eseqs, outbox := g.outbox ++ [q1],
      outst := g.outst ++ nodes.map (fun n => { eseq := e, ctx := none, pk := some id, pkt := { q1 with tgtNode := n } }) }))

/-- Send a packet's next request, when the target has room (18 R428). Of a multicast packet, the members behind a DOWN link are
split off, each with a unicast copy; and so is every member where their revisions differ, because a header names one (18 R431,
R434; log 31). -/
def State.pumpPk (s : State) (id : Nat) : State :=
  match (s.pk id).remote with
  | [] => s
  | q :: rest =>
    if isTree q then
      let same := (mcastMembers q).all (fun n => (s.revOf n).any (fun r => decide (r.rev = q.rev)))
      let near := if same then (mcastMembers q).filter (fun n => s.routeClear 40 s.pkg.node n) else []
      let far := (mcastMembers q).filter (fun n => decide (n ∉ near))
      match (if near.isEmpty then some s else s.sendTree id q near) with
      | none => s
      | some s1 => s1.modPk id (fun c => { c with remote := far.map (s.copyFor q) ++ rest })
    else
    match s.sendReq none (some id) none q 0 0 false
        (mk := fun o => { o with via := if q.opc = 0x09 then some ((pkDstPtr (s.pk id).pkt).toNat / 2 ^ 52) else none }) with
    | none => s
    | some (_, s1) => s1.modPk id (fun c => { c with remote := rest })

/-! ### Starting -/

/-- The checks of a packet before anything moves (12 R255, R257, R262, R263): the cause of the first failure. -/
def State.pkCheck (s : State) (c : CopyPk) : Option Cause :=
  let r := c.pkt
  let g := pkEng s c
  let k := pkKind r
  let r41 (p : Word) (n need : Nat) (wr : Bool) : Option Cause :=
    match s.engSegs g p n need wr with
    | .error e => if e.xlate then none else some e.cause
    | .ok _ => none
  let n := s.pkCount r
  if (s.pkField c.part r).isSome then some Cause.copyPacketInvalid
  else if (pkPtrs k).any (fun o => !s.qualified c.part (rptr r o)) then some Cause.copyPacketInvalid
  else if pkSync r = 0 ∧ c.issuer.isNone ∧ pkScope r < 2 then some Cause.copyPacketInvalid
  else if pkSync r ≠ 0 ∧ (s.syncLoc g (pkSync r)).isNone then some Cause.copyPacketInvalid
  else if (k = 1 ∨ k = 9) ∧ overlapping c.foot then some Cause.copyPacketInvalid
  else if n = 0 ∨ k = 6 then none
  else
    let rowIdx (i : Nat) : Option Nat := match s.engSegs g (idxPtr r ((s.pkIndex r i).getD 1 0)) 4 needR false with
      | .error _ => none
      | .ok segs => if (s.errAt (spanAll segs)).isSome then none else some (leNat (s.bytesAt (spanAll segs)))
    let src := if k = 4 ∨ k = 0x0A then none
      else if k = 2 then (List.range n).findSome? (fun i => (rowIdx i).bind (fun x => r41 (s.pkSrc r i x) (pkSize r) needR false))
      else (List.range n).findSome? (fun i => r41 (s.pkSrc r i 0) (pkSize r) needR false)
    let idx := if k = 2 ∨ k = 3 then (List.range (pkExt r 1)).findSome? (fun i => r41 (idxPtr r i) 4 needR false) else none
    let dst := if k = 3 then (List.range n).findSome? (fun i => (rowIdx i).bind (fun x => r41 (s.pkDst r i x) (pkSize r) needW true))
      else if k = 9 then r41 (pkDstPtr r) 16 needL false
      else if (s.peerEntry c.part r).isSome then
        (List.range n).findSome? (fun i =>
          match s.resolve { clu := g.clu, part := g.part, sup := g.sup, thread := false } (s.pkDst r i 0) 64 needA with
          | .error e => some e.code
          | .ok _ => none)
      else (List.range n).findSome? (fun i => r41 (s.pkDst r i 0) (pkDstSize r) (pkDstNeed r) true)
    (idx.or src).or dst

/-- A taken packet starts, when the cards before it allow, and runs as far as it can (12 R257 to R261). HALOX is the halo
engine's (13 R289). -/
def State.startPk (s : State) (id : Nat) : State :=
  let c := s.pk id
  if c.fate.isSome ∨ c.started ∨ pkKind c.pkt = 6 then s
  else
    match s.cardTurn c.part c.queue ⟨id, false, c.foot, none⟩ (pkFence c.pkt) with
    | .error k => s.abandonPk id k
    | .ok false => s
    | .ok true =>
      match s.pkCheck c with
      | some k => s.abandonPk id k
      | none =>
        if s.pkCount c.pkt = 0 then s.modPk id (fun c => { c with started := true, moved := true })
        else if pkKind c.pkt = 9 then s.startRcopy id
        else
          match s.peerEntry c.part c.pkt with
          | some e => s.startReduce id e
          | none =>
            let go (s : State) : State :=
              s.modPk id (fun c => { c with started := true, bytes := if pkKind c.pkt = 0x0A then 8 else s.pkCount c.pkt * pkSize c.pkt })
            if pkStream c.pkt then
              match s.bindWater id with
              | none => s
              | some s1 => if (s1.pk id).fate.isSome ∨ (s1.pk id).hold.isSome then s1 else go s1
            else State.runElems id (s.pkCount c.pkt + 1) (go s)

/-- A packet that a watermark, a bank or a channel kept goes on; one that a page holds, only when its translation has been
invalidated, `again` (12 R263). -/
def State.resumePk (s : State) (id : Nat) (again : Bool := false) : State :=
  let c := s.pk id
  if c.fate.isSome ∨ c.moved ∨ (c.hold.isSome ∧ again = false) then s
  else if !c.started then s.startPk id
  else if pkStream c.pkt then (if again then (s.advancePk id).1 else s)
  else State.runElems id (s.pkCount c.pkt + 1) s

/-! ## Taking a packet (12 R254) -/

/-- Take the slot at a queue's read index when its KIND passes a test, for an engine of the queue's affinity: the card, if
one was taken. A kind that the mask does not admit makes the packet invalid. -/
def State.takePk (s : State) (eng part q : Nat) (is : Nat → Bool) : State × Option Nat :=
  match (s.part part).queues[q]? with
  | none => (s, none)
  | some reg =>
    match s.headerLoc part reg.hdr with
    | none => (s, none)
    | some h =>
      let i := s.queueRd h
      match s.slotLoc part reg.hdr (s.queueLog h) i with
      | none => (s, none)
      | some l =>
        let kind := s.numIn l 0 1
        let launches := bitOf (BitVec.ofNat 8 (s.queueKinds h)) 3
        if kind = 0 ∨ is kind = false ∨ affinityTakes (s.part part) (s.queueAff h) eng = false ∨ (launches ∧ kind = 7) then (s, none)
        else if s.queueHeld h [l] then (s.askQueue h [l], none)
        else
          let r : BitVec 512 := BitVec.ofNat 512 (s.numIn l 0 64)
          let claim := s.claims.find? (fun k => decide (k.part = part ∧ k.queue = reg.hdr.toNat ∧ k.idx = i))
          let id := s.nextCard
          let c : CopyPk := {
            part := part, queue := reg.hdr.toNat, slotPtr := slotPtrOf reg.hdr (s.queueLog h) i, owner := reg.owner, eng := eng,
            pkt := r, issuer := claim.map (fun k => (k.tid, k.ticket)), clu := claim.map (·.clu), sup := claim.any (·.sup),
            launch := claim.bind (·.launch), tag := claim.any (·.tag), foot := s.pkFoot part r }
          let s1 := s.consume h [l] 1
          let s2 : State := { s1 with nextCard := id + 1, packets := SMap.put s1.packets id c,
                                      claims := s1.claims.filter (fun k => decide (some k ≠ claim)) }
          if kindAdmitted (s.queueKinds h) kind ∧ kind ≠ 7 ∧ kind ≠ 8 then (s2, some id)
          else (s2.abandonPk id Cause.copyPacketInvalid, none)

/-- Take a packet and start it. -/
def State.takeAndStart (s : State) (eng part q : Nat) (is : Nat → Bool) : State :=
  match s.takePk eng part q is with
  | (s1, none) => s1
  | (s1, some id) => s1.startPk id

/-- COPY (12 R257): an engine takes a COPY packet, or a packet of no kind that a queue can carry, which it abandons. -/
def execCopy (eng part q : Nat) (s : State) : Host.Outcome State Fault Refusal :=
  goes (s.takeAndStart eng part q (fun k => decide (k = 1 ∨ k = 7 ∨ k = 8 ∨ 10 < k)))
/-- GATHER. -/
def execGather (eng part q : Nat) (s : State) : Host.Outcome State Fault Refusal :=
  goes (s.takeAndStart eng part q (fun k => decide (k = 2)))
/-- SCATTER. -/
def execScatter (eng part q : Nat) (s : State) : Host.Outcome State Fault Refusal :=
  goes (s.takeAndStart eng part q (fun k => decide (k = 3)))
/-- FILL. -/
def execFill (eng part q : Nat) (s : State) : Host.Outcome State Fault Refusal :=
  goes (s.takeAndStart eng part q (fun k => decide (k = 4)))
/-- REDUCE. -/
def execReduce (eng part q : Nat) (s : State) : Host.Outcome State Fault Refusal :=
  goes (s.takeAndStart eng part q (fun k => decide (k = 5)))
/-- RCOPY. -/
def execRcopy (eng part q : Nat) (s : State) : Host.Outcome State Fault Refusal :=
  goes (s.takeAndStart eng part q (fun k => decide (k = 9)))
/-- NOTIFY. -/
def execNotify (eng part q : Nat) (s : State) : Host.Outcome State Fault Refusal :=
  goes (s.takeAndStart eng part q (fun k => decide (k = 10)))

/-- Whether a packet's requests are all answered. -/
def State.pkQuiet (s : State) (id : Nat) : Bool :=
  (s.pk id).remote.isEmpty && !s.pkg.outst.any (fun o => decide (o.pk = some id))

/-- Whether a packet has nothing left to do but its arrival: its moves are done, its writes acknowledged, its requests answered,
its message posted. -/
def State.pkIdle (s : State) (id : Nat) : Bool :=
  let c := s.pk id
  c.fate.isNone && c.started && c.moved && c.fill.isNone && s.pkQuiet id && (!pkClip c.pkt || c.posted) && !s.ackHeld (pkKey id) &&
    s.packets.any (fun p => decide (p.1 = id))

/-- The sync word that keeps a packet's arrival waiting. -/
def State.pkSyncHeld (s : State) (id : Nat) : Option Nat :=
  let c := s.pk id
  if pkSync c.pkt = 0 then none else (s.syncLoc (pkEng s c) (pkSync c.pkt)).filter s.arriveHeld

/-- Whether a packet can complete: nothing is left, and its arrival need not wait. -/
def State.pkDone (s : State) (id : Nat) : Bool := s.pkIdle id && (s.pkSyncHeld id).isNone

/-- WATERMARK_ADVANCE (12 R260): a STREAM packet writes its next element and raises its watermark. -/
def execWatermarkAdvance (id : Nat) (s : State) : Host.Outcome State Fault Refusal :=
  goes (if (s.pk id).started ∧ pkStream (s.pk id).pkt ∧ (s.pk id).fate.isNone ∧ (s.pk id).moved = false ∧ (s.pk id).hold.isNone then (s.advancePk id).1 else s)

/-- MAILBOX_POST (12 R259): a CLIP packet that has moved its box posts its message, when the mailbox has room. -/
def execMailboxPost (id : Nat) (s : State) : Host.Outcome State Fault Refusal :=
  goes (
    let c := s.pk id
    let k := clipCore c.pkt
    if c.fate.isNone && c.moved && pkClip c.pkt && !c.posted && decide ((s.core k).mbox.length < 16) then
      (s.modCore k (fun u => { u with mbox := u.mbox ++ [s.clipMessage c.pkt] })).modPk id (fun c => { c with posted := true })
    else s)

/-- MAILBOX_TIMEOUT (12 R259): the wait limit expires at a full mailbox: the message is discarded, OVF is set, and the packet
completes. -/
def execMailboxTimeout (id : Nat) (s : State) : Host.Outcome State Fault Refusal :=
  goes (
    let c := s.pk id
    let k := clipCore c.pkt
    if c.fate.isNone && c.moved && pkClip c.pkt && !c.posted && decide (16 ≤ (s.core k).mbox.length) then
      ((s.modCore k (fun u => { u with ovf := true })).raiseAt (16 * k) { code := Cause.mailboxOverflow }).modPk id
        (fun c => { c with posted := true })
    else s)

end Sys2Proof.Machine
end

