-- ==== Sys2Proof/Machine/CopyWait.lean ====
section
/-! DEFINITION. Sys2Proof/Machine/CopyWait.lean: queueing a packet and waiting for tickets, sync words, and the mailbox
(12 R264 to R271). -/

namespace Sys2Proof.Machine

/-! ## CPQ (12 R268) -/

/-- A packet with its unqualified scratchpad pointers qualified to a cluster (12 R255): srcptr, where it is a pointer, dstptr and
syncptr. In a FILL and a NOTIFY srcptr holds a value (12 R257). -/
def qualifyPk (clu : Nat) (r : BitVec 512) : BitVec 512 :=
  (if pkKind r = 4 ∨ pkKind r = 0x0A then [16, 24] else [8, 16, 24]).foldl (fun r o =>
    if bitsAt (rptr r o) 52 12 = 1 ∧ bitsAt (rptr r o) 40 10 = 0 then putBits r (8 * o + 40) 10 (clu + 1) else r) r

/-- The first bad byte of a packet that a thread queues (12 R268): a kind that it may not queue or the mask does not admit,
or a field rule of its kind. -/
def State.cpqBad (s : State) (part mask : Nat) (r : BitVec 512) : Option Nat :=
  if pkKind r = 7 ∨ pkKind r = 8 ∨ kindAdmitted mask (pkKind r) = false then some 0 else s.pkField part r

/-- The queue that a thread's header pointer names: the header's location, L and kind mask; or the fault. A header whose L is
not 1 to 20 names no queue (log 33). `v` is the machine as the access finds it (02 R34). -/
def State.cpqHeader (s v : State) (hdr : Word) : Except Stop (List Nat × Nat × Nat) :=
  let bad (c : Cause) (i : Word) : Except Stop (List Nat × Nat × Nat) := .error (.exc { code := c, addr := hdr, info := i })
  match v.access s.cur hdr 64 (needR + needW) 64 .plain true true with
  | .error e => .error e
  | .ok (.mem segs _ _) =>
    let h := spanAll segs
    let lg := s.queueLog h
    if lg < 1 ∨ 20 < lg then bad Cause.copyPacketInvalid 0
    else
      match s.resolve (s.who s.cur) hdr (64 + 64 * 2 ^ lg) (needR + needW) with
      | .error e => .error (.exc e)
      | .ok _ => .ok (h, lg, s.queueKinds h)
  | .ok _ => bad Cause.handlePerm 0

/-- How many of an instruction's accesses the running context has moved for (02 R34). -/
def State.hopsOf (s : State) : Nat :=
  match (s.ctx s.cur).hops with
  | some (pc, n) => if pc = (s.ctx s.cur).pc then n else 0
  | none => 0

/-- The machine as access `k` of an instruction finds it: one for which the thread has moved executes where the thread is now
(02 R34). -/
def State.inTurn (s : State) (k : Nat) : State := if k < s.hopsOf then s.modCtx s.cur (fun x => { x with owner := true }) else s

/-- The thread moves for access `k` of an instruction, which executes first at the target (02 R34; 15 R354). DEDUCED: each of
an instruction's accesses executes at its own home, one after another (log 52). -/
def State.hopTo (s : State) (k core : Nat) : Res :=
  .stay ((s.modCtx s.cur (fun x => { x with hops := some (x.pc, k + 1) })).depart s.cur core)

/-- The claim and the slot's bytes: after every check (12 R268). -/
def State.cpqClaim (s : State) (d : Reg) (hdr : Word) (h : List Nat) (lg : Nat) (r : BitVec 512) : Res :=
  let c := s.cur
  let wr := s.queueWr h
  if 2 ^ lg ≤ wr - s.queueRd h then .wait s .cpqueue
  else
    match (s.inTurn 2).access c (slotPtrOf hdr lg wr) 64 needW 64 .plain true false with
    | .error (.move k) => s.hopTo 2 k
    | .error e => e.res s
    | .ok (.mem segs _ _) =>
      if s.queueHeld h [spanAll segs] then .wait (s.askQueue h [spanAll segs]) (.place (h.headD 0)) else
      let x := s.ctx c
      let t := x.ticket
      let k : Claim := { part := x.part, queue := hdr.toNat, idx := wr, tid := x.tid, ticket := t.toNat, clu := cluOf c,
                         sup := x.sta.sup, launch := x.launch, tag := (s.domainOf c).any (fun p => bitOf p.2.instant 0) }
      let s1 := s.place (writerOf c) ((h.take 8).zip (leBytes 8 ((wr + 1) % 2 ^ 64)))
      let s2 := s1.place (writerOf c) ((spanAll segs).zip (leBytes 64 r.toNat))
      let s3 : State := { s2 with claims := s2.claims ++ [k] }
      .done ((s3.modCtx c (fun x => { x with ticket := t + 1, tickets := x.tickets ++ [t.toNat], hops := none })).setReg d t)
    | .ok _ => Res.bad Cause.handlePerm hdr

/-- The effect of `CPQ`. -/
def State.cpq (s : State) (d : Reg) (hdr pk : Word) : Res :=
  if pk.toNat % 64 ≠ 0 then Res.bad Cause.misaligned pk
  else if hdr.toNat % 64 ≠ 0 then Res.bad Cause.misaligned hdr
  else
    match s.ownRead pk (s.inTurn 0) with
    | .error (.move k) => s.hopTo 0 k
    | .error e => e.res s
    | .ok (r0, s0) =>
      match s0.cpqHeader (s0.inTurn 1) hdr with
      | .error (.move k) => s.hopTo 1 k
      | .error e => e.res s
      | .ok (h, lg, mask) =>
        let x := s0.ctx s0.cur
        match s0.cpqBad x.part mask r0 with
        | some o => Res.bad Cause.copyPacketInvalid pk (BitVec.ofNat 64 o)
        | none =>
          if 32 ≤ x.tickets.length then .wait s0 .cpqueue
          else
            match s0.release s0.cur 2 with
            | (s1, false) => .wait s1 .marker
            | (s1, true) =>
              s1.cpqClaim d hdr h lg (qualifyPk (cluOf s1.cur) r0)

/-- CPQ. -/
def execCpq (d a b : Reg) (s : State) : Host.Outcome State Fault Refusal :=
  goes (s.run {} 4 (fun s => s.cpq d (s.reg a) (s.reg b)))

/-! ## CPWAIT (12 R269) -/

/-- The end of a wait for tickets: an abandoned one faults with its cause and then counts as complete. A failed
reduction says more than its ticket (18 R437). -/
def State.ticketsOver (s : State) (is : Nat → Bool) : Res :=
  match (s.ctx s.cur).abandoned.find? (fun p => is p.1) with
  | none => .done (s.acquire s.cur 3)
  | some (t, k, info) =>
    let drop (x : Ctx) : Ctx := { x with abandoned := x.abandoned.filter (fun p => decide (p.1 ≠ t)) }
    .stay ((s.modCtx s.cur drop).takeFault s.cur { code := k, info := info.getD (BitVec.ofNat 64 t) })

/-- CPWAIT. -/
def execCpwait (a : Reg) (s : State) : Host.Outcome State Fault Refusal :=
  goes (s.run {} 4 (fun s =>
    let x := s.ctx s.cur
    let t := (s.reg a).toNat
    if x.ticket.toNat ≤ t then Res.bad Cause.reservedBits
    else if t ∈ x.tickets then .wait s (.cpwait t)
    else s.ticketsOver (fun n => decide (n = t))))

/-- CPWAIT.all: no ticket is issued while the thread waits. -/
def execCpwaitAll (s : State) : Host.Outcome State Fault Refusal :=
  goes (s.run {} 4 (fun s =>
    match (s.ctx s.cur).tickets with
    | t :: _ => .wait s (.cpwait t)
    | [] => s.ticketsOver (fun _ => true)))

/-! ## Sync words (12 R266, R267) -/

/-- `SYNCW`'s new word, or none for SYNCWORD_OVERRUN. -/
def swSet (w t : Nat) : Option Nat :=
  if t = 0 then some (swMake w (swCnt w) (swTgt w) (swGen w) 0 (swOvr w))
  else if swOvr w = 1 ∨ t < swCnt w then none
  else if swCnt w = t then some (swMake w 0 t (swGen w + 1) 1 (swOvr w))
  else some (swMake w (swCnt w) t (swGen w) 1 (swOvr w))

/-- `SYNCW.reset`'s new word. -/
def swReset (w t : Nat) : Nat := swMake w 0 t (swGen w) (if t = 0 then 0 else 1) 0

/-- An operation on a sync word at its place: the new word or a fault that leaves it. -/
def State.syncSet (s : State) (ptr t : Word) (new : Nat → Nat → Option Nat) : Res :=
  s.atPlace ptr 16 needW 16 .sync true true none
    (fun s ls =>
      if 2 ^ 32 ≤ t.toNat then Res.bad Cause.reservedBits
      else
        match new (s.valueAt ls) t.toNat with
        | none => Res.bad Cause.syncwordOverrun ptr
        | some w => .done (s.writeAt ls w))
    (fun _ _ _ => Res.bad Cause.atomicUnsupported ptr)

/-- SYNCW. -/
def execSyncw (a b : Reg) (s : State) : Host.Outcome State Fault Refusal :=
  goes (s.run {} 4 (fun s => s.syncSet (s.reg a) (s.reg b) swSet))

/-- SYNCW.reset. -/
def execSyncwReset (a b : Reg) (s : State) : Host.Outcome State Fault Refusal :=
  goes (s.run {} 4 (fun s => s.syncSet (s.reg a) (s.reg b) (fun w t => some (swReset w t))))

/-- SYNCWAIT (12 R267). -/
def execSyncwait (d a b : Reg) (s : State) : Host.Outcome State Fault Refusal :=
  goes (s.run {} 4 (fun s =>
    s.atPlace (s.reg a) 16 needR 16 .sync false true none
      (fun s ls =>
        let w := s.valueAt ls
        let l := ls.headD 0
        if swOvr w = 1 then Res.bad Cause.syncwordOverrun (s.reg a)
        else if swGen w ≠ (s.reg b).toNat % 2 ^ 32 then .done ((s.setReg d (BitVec.ofNat 64 (swGen w))).acquire s.cur 3)
        else
          .wait (s.modDir (lineOf l) (fun e => { e with watches := e.watches ++ [{ ctx := s.cur, loc := l, sync := true }] }))
            (.syncword l))
      (fun _ _ _ => Res.bad Cause.atomicUnsupported (s.reg a))))

/-! ## The mailbox (12 R270) -/

/-- The oldest message goes to memory as plain stores of the thread, which acquires at device scope; `none` where the mailbox
is empty. -/
def State.takeMail (s : State) (d : Reg) (ptr : Word) : Option Res :=
  let k := coreOf s.cur
  let take (m : BitVec 256) (rest : List (BitVec 256)) (put : State → List Byte → Res) : Res :=
    let out (s : State) : State :=
      ((s.modCore k (fun u => { u with mbox := rest })).setReg d (BitVec.ofNat 64 rest.length)).acquire s.cur 2
    match put s (leBytes 32 m.toNat) with
    | .done s1 => .done (out s1)
    | r => r
  match (s.core k).mbox with
  | [] => none
  | m :: rest =>
    match s.access s.cur ptr 32 needW 32 .plain true false with
    | .error e => some (e.res s)
    | .ok (.mem segs keep _) => some (take m rest (fun s bs => s.storeAt ((spanAll segs).zip bs) 0 0 keep))
    | .ok (.window _) => some (Res.bad Cause.misaligned ptr)
    | .ok (.peer e off) =>
      some (take m rest (fun s bs => s.storePeer ptr e off bs 0 0))
    | .ok _ => some (Res.bad Cause.handlePerm ptr)

/-- The checks of `MBOX`'s pointer, which come before any message is removed. -/
def State.mailBad (s : State) (ptr : Word) : Option Res :=
  match s.access s.cur ptr 32 needW 32 .plain true false with
  | .error e => some (e.res s)
  | .ok (.mem _ _ _) => none
  | .ok (.peer e off) =>
    (match s.peerCap (s.who s.cur) (ptr.toNat / 2 ^ 52) e with
      | .error x => some (.fault { x with addr := ptr })
      | .ok cap => (s.egress cap true off 32 2 (opBits opcWrite 0) none).map (fun x => .fault { x with addr := ptr }))
  | .ok (.window _) => some (Res.bad Cause.misaligned ptr)
  | .ok _ => some (Res.bad Cause.handlePerm ptr)

/-- MBOX. -/
def execMbox (d a : Reg) (s : State) : Host.Outcome State Fault Refusal :=
  goes (s.run {} 4 (fun s =>
    match s.mailBad (s.reg a) with
    | some r => r
    | none => (s.takeMail d (s.reg a)).getD (.wait s .mbox)))

/-- MBOX.try. -/
def execMboxTry (d a : Reg) (s : State) : Host.Outcome State Fault Refusal :=
  goes (s.run {} 4 (fun s =>
    match s.mailBad (s.reg a) with
    | some r => r
    | none => (s.takeMail d (s.reg a)).getD (.done (s.setReg d (BitVec.allOnes 64)))))

/-- MBOX.st: messages held, and OVF, which reading clears. -/
def execMboxSt (d : Reg) (s : State) : Host.Outcome State Fault Refusal :=
  goes (s.run {} 4 (fun s =>
    let k := coreOf s.cur
    let u := s.core k
    .done ((s.modCore k (fun u => { u with ovf := false })).setReg d
      (BitVec.ofNat 64 (u.mbox.length % 32 + (if u.ovf then 256 else 0))))))

end Sys2Proof.Machine
end

