-- ==== Sys2Proof/Machine/GridMap.lean ====
section
/-! DEFINITION. Sys2Proof/Machine/GridMap.lean: grid descriptors, where cells lie, which band a ghost cell belongs to, where
its value comes from, and the checked copy (13 R272 to R280). -/

namespace Sys2Proof.Machine

/-! ## The descriptor (13 R273) -/

/-- `n` bytes of a descriptor at byte `o`. -/
def dN (d : List Byte) (o n : Nat) : Nat := leNat ((d.drop o).take n)
/-- DIMS. -/
def dDims (d : List Byte) : Nat := dN d 0 1
/-- fmt. -/
def dFmt (d : List Byte) : Nat := dN d 1 1
/-- Bytes of an element. -/
def dSize (d : List Byte) : Nat := codeBits (dFmt d) / 8
/-- L. -/
def dLevels (d : List Byte) : Nat := dN d 2 1
/-- D. -/
def dDepth (d : List Byte) : Nat := dN d 3 1
/-- r_j. -/
def dRad (d : List Byte) (j : Nat) : Nat := dN d (4 + j) 1
/-- EXT_j. -/
def dExt (d : List Byte) (j : Nat) : Nat := dN d (8 + 4 * j) 4
/-- PC_j, 1 for an unused dimension. -/
def dPc (d : List Byte) (j : Nat) : Nat := if j < dDims d then dN d (20 + 2 * j) 2 else 1
/-- The rule of a face: 1 PERIODIC, 2 REFLECT, 3 CONST, 4 COPY_EDGE. -/
def dRule (d : List Byte) (f : Nat) : Nat := dN d (26 + f) 1
/-- The const value of a face. -/
def dConst (d : List Byte) (f : Nat) : Nat := dN d (32 + 8 * f) 8
/-- base. -/
def dBase (d : List Byte) : Word := BitVec.ofNat 64 (dN d 80 8)
/-- owners. -/
def dOwners (d : List Byte) : Word := BitVec.ofNat 64 (dN d 88 8)
/-- STEP0. -/
def dStep0 (d : List Byte) : Nat := dN d 96 4
/-- The ghost width g_j. -/
def dGhost (d : List Byte) (j : Nat) : Nat := dDepth d * dRad d j

/-! ## Parts (13 R275) -/

/-- NP. -/
def dParts (d : List Byte) : Nat := dPc d 0 * dPc d 1 * dPc d 2
/-- bs_j. -/
def dBlock (d : List Byte) (j : Nat) : Nat :=
  if j < dDims d then (dExt d j + dPc d j - 1) / (if dPc d j = 0 then 1 else dPc d j) else 1
/-- The index of part `p` in dimension `j`. -/
def partIdx (d : List Byte) (p j : Nat) : Nat :=
  if j = 0 then p % dPc d 0 else if j = 1 then p / dPc d 0 % dPc d 1 else p / dPc d 0 / dPc d 1
/-- lo_j of part index `i`. -/
def loAt (d : List Byte) (j i : Nat) : Nat := if j < dDims d then min (i * dBlock d j) (dExt d j) else 0
/-- n_j of part index `i`. -/
def nAt (d : List Byte) (j i : Nat) : Nat :=
  if j < dDims d then min (loAt d j i + dBlock d j) (dExt d j) - loAt d j i else 1
/-- W_j. -/
def dWidth (d : List Byte) (j : Nat) : Nat := if j < dDims d then dBlock d j + 2 * dGhost d j else 1
/-- PSTRIDE. -/
def dStride (d : List Byte) : Nat := 128 * ((dWidth d 0 * dWidth d 1 * dWidth d 2 * dSize d + 127) / 128)

/-- Local coordinates of a part. -/
abbrev Coord := List Int

/-- Coordinate `j`. -/
def Coord.at (c : Coord) (j : Nat) : Int := c.getD j 0

/-- Local coordinate `j` of a cell index. -/
def cellCoord (d : List Byte) (c j : Nat) : Int :=
  let q := if j = 0 then c else if j = 1 then c / dWidth d 0 else c / dWidth d 0 / dWidth d 1
  (if j = 2 then (q : Int) else ((q % dWidth d j : Nat) : Int)) - dGhost d j

/-- The local coordinates that a cell index decodes to, when they lie within the part (13 R277). -/
def cellAt (d : List Byte) (p : Nat) (c : Int) : Option Coord :=
  if c < 0 then none
  else
    let l : Coord := [cellCoord d c.toNat 0, cellCoord d c.toNat 1, cellCoord d c.toNat 2]
    if (List.range 3).all (fun j => decide (-(dGhost d j : Int) ≤ l.at j ∧ l.at j < nAt d j (partIdx d p j) + dGhost d j)) then some l else none

/-- The cell index of local coordinates. -/
def cellIdx (d : List Byte) (l : Coord) : Nat :=
  let u (j : Nat) : Nat := (l.at j + dGhost d j).toNat
  u 0 + dWidth d 0 * (u 1 + dWidth d 1 * u 2)

/-- The storage offset of a cell of a part at a level. -/
def cellOff (d : List Byte) (p lv c : Nat) : Nat := (lv * dParts d + p) * dStride d + c * dSize d

/-- Every local coordinate of a part. -/
def allCells (d : List Byte) (p : Nat) : List Coord :=
  let r (j : Nat) : List Int := (List.range (nAt d j (partIdx d p j) + 2 * dGhost d j)).map (fun (i : Nat) => (i : Int) - dGhost d j)
  (r 2).flatMap (fun z => (r 1).flatMap (fun y => (r 0).map (fun x => [x, y, z])))

/-! ## Bands (13 R279) -/

/-- A band of a part: dimension, side (0 low, 1 high) and number. -/
structure BandId where
  dim : Nat
  side : Nat
  num : Nat
deriving DecidableEq, Repr

/-- The band of a local coordinate; none for the interior. -/
def bandOf (d : List Byte) (p : Nat) (l : Coord) : Option BandId :=
  (List.range 3).findSome? (fun j =>
    let n : Int := nAt d j (partIdx d p j)
    let r := if dRad d j = 0 then 1 else dRad d j
    if l.at j < 0 then some ⟨j, 0, ((-(l.at j)).toNat + r - 1) / r⟩
    else if n ≤ l.at j then some ⟨j, 1, ((l.at j - n + 1).toNat + r - 1) / r⟩
    else none)

/-- Whether a band is a rule band: it lies on a global face whose rule is not PERIODIC. -/
def isRuleBand (d : List Byte) (p : Nat) (b : BandId) : Bool :=
  let i := partIdx d p b.dim
  let edge := if b.side = 0 then decide (loAt d b.dim i = 0) else decide (loAt d b.dim i + nAt d b.dim i = dExt d b.dim)
  edge && decide (2 ≤ dRule d (2 * b.dim + b.side))

/-- The bands of a part. -/
def bandsOf (d : List Byte) : List BandId :=
  (List.range (dDims d)).flatMap (fun j => [0, 1].flatMap (fun sd => (List.range (dDepth d)).map (fun k => ⟨j, sd, k + 1⟩)))

/-- The cells of a band. -/
def bandCells (d : List Byte) (p : Nat) (b : BandId) : List Coord := (allCells d p).filter (fun l => decide (bandOf d p l = some b))

/-- The key of a band of a part at a level. -/
def bandKey (p : Nat) (b : BandId) (lv : Nat) : Nat := p * 128 + ((b.dim * 2 + b.side) * 8 + (b.num - 1)) * 2 + lv

/-! ## Where a ghost cell's value comes from (13 R278) -/

/-- A ghost cell's value: a face's const, or a cell of a part's interior. -/
inductive Origin where
  | const (face : Nat)
  | cell (p : Nat) (l : Coord)
deriving DecidableEq, Repr

/-- The global coordinates of a cell mapped dimension by dimension: those done, or the face whose const it takes. -/
def mapDims (d : List Byte) : List (Nat × Int) → Except Nat (List Int)
  | [] => .ok []
  | (j, g) :: r =>
    let e : Int := dExt d j
    let lowf := dRule d (2 * j)
    let high := dRule d (2 * j + 1)
    let out : Except Nat Int :=
      if dDims d ≤ j then .ok 0
      else if g < 0 then
        (if lowf = 1 then .ok (g + e) else if lowf = 2 then .ok (-1 - g) else if lowf = 3 then .error (2 * j) else .ok 0)
      else if e ≤ g then
        (if high = 1 then .ok (g - e) else if high = 2 then .ok (2 * e - 1 - g) else if high = 3 then .error (2 * j + 1) else .ok (e - 1))
      else .ok g
    match out with
    | .error f => .error f
    | .ok v =>
      match mapDims d r with
      | .error f => .error f
      | .ok l => .ok (v :: l)

/-- The origin of a cell of a part. -/
def originOf (d : List Byte) (p : Nat) (l : Coord) : Origin :=
  match mapDims d ((List.range 3).map (fun j => (j, (loAt d j (partIdx d p j) : Int) + l.at j))) with
  | .error f => .const f
  | .ok g =>
    let i (j : Nat) : Nat := if j < dDims d then (g.getD j 0).toNat / (if dBlock d j = 0 then 1 else dBlock d j) else 0
    .cell (i 0 + dPc d 0 * (i 1 + dPc d 1 * i 2)) ((List.range 3).map (fun j => g.getD j 0 - (if j < dDims d then loAt d j (i j) else 0)))

/-- The parts that some cells of a part come from. -/
def sourcesIn (d : List Byte) (p : Nat) (cells : List Coord) : List Nat :=
  cells.foldl (fun acc l => match originOf d p l with
    | .const _ => acc
    | .cell q _ => addNat acc q) []

/-- The cells that a fill of a kind writes: exchanged bands, or rule bands. -/
def fillCells (d : List Byte) (p kind : Nat) : List Coord :=
  (allCells d p).filter (fun l => match bandOf d p l with
    | none => false
    | some b => decide (isRuleBand d p b = decide (kind = 1)))

/-- Whether part `q` is a source of a fill of part `p`. -/
def feeds (d : List Byte) (q p kind : Nat) : Bool := decide (q ∈ sourcesIn d p (fillCells d p kind))

/-- The parts that a part sources or is a source of, other than itself. -/
def neighbours (d : List Byte) (p : Nat) : List Nat :=
  (List.range (dParts d)).filter (fun q => decide (q ≠ p) && (feeds d q p 0 || feeds d q p 1 || feeds d p q 0 || feeds d p q 1))

/-! ## The check of a descriptor (13 R274) -/

/-- The first failing field of a descriptor up to its pointers that its own bytes decide: its byte offset. DESIGN CHOICE: a rule
over several fields names one of them: NP above 4,096 the part counts at byte 20, a part's extent below its ghost width EXT_d, an
element of an array its own first byte; and what differs from the copy first checked names the base at 80 (log 62). -/
def descBad (d : List Byte) : Option Nat :=
  let used (j : Nat) : Bool := decide (j < dDims d)
  let ok := decide (1 ≤ dDims d ∧ dDims d ≤ 3)
  let js := List.range 3
  firstOf ([(!ok, 0), (decide (dFmt d < 1 ∨ 12 < dFmt d), 1), (decide (dLevels d < 1 ∨ 2 < dLevels d), 2),
      (decide (dDepth d < 1 ∨ 8 < dDepth d), 3)]
    ++ js.map (fun j => (if used j then decide (dRad d j < 1 ∨ 15 < dRad d j) else decide (dRad d j ≠ 0), 4 + j))
    ++ [(decide (dN d 7 1 ≠ 0), 7)]
    ++ js.map (fun j => (if used j then decide (dExt d j = 0) ||
        (List.range (dPc d j)).any (fun i => decide (nAt d j i < dGhost d j)) else decide (dExt d j ≠ 0), 8 + 4 * j))
    ++ js.map (fun j => (if used j then decide (dPc d j = 0) else decide (dN d (20 + 2 * j) 2 ≠ 0), 20 + 2 * j))
    ++ [(decide (4096 < dParts d), 20)]
    ++ (List.range 6).map (fun f => (if used (f / 2) then decide (dRule d f < 1 ∨ 4 < dRule d f)
        || (decide (dRule d f = 1) && decide (dRule d (2 * (f / 2) + 1 - f % 2) ≠ 1)) else decide (dRule d f ≠ 0), 26 + f))
    ++ (List.range 6).map (fun f => (if used (f / 2) then decide (2 ^ (8 * dSize d) ≤ dConst d f) else decide (dConst d f ≠ 0), 32 + 8 * f))
    ++ [(decide (dN d 80 8 % 128 ≠ 0), 80)])

/-- The first failing field behind the pointers of a descriptor. -/
def descTail (d : List Byte) : Option Nat :=
  firstOf [(decide (dStep0 d % (if dDepth d = 0 then 1 else dDepth d) ≠ 0 ∨ dStep0 d = 0xFFFFFFFF), 96), (decide (dN d 100 28 ≠ 0), 100)]

/-- An owner table entry (13 R276); none where it is invalid. -/
def State.ownerOf (s : State) (p : Nat) (v : Nat) (tag : Bool) : Option GOwner :=
  if tag then some (.peer (BitVec.ofNat 128 v))
  else if v / 2 ^ 16 = 1 then (if v % 2 ^ 16 / 4 ∈ (s.part p).clusters then some (.core (v % 2 ^ 16)) else none)
  else if v = 2 * 2 ^ 16 then some .claim
  else none

/-- Why the check of a descriptor fails: a field, by its byte offset, or the cause of a read of the owner table that passes R41
and fails in translation or on bad data. -/
inductive GridBad where
  | field (o : Nat)
  | cause (k : Cause) (met : List Nat)
deriving DecidableEq, Repr

/-- Read the owner table of a descriptor, with its tags (13 R274, R276). -/
def State.ownerRead (s : State) (ptr : Word) (n : Nat) : Except GridBad (List Byte × List Bool) :=
  let w := s.who s.cur
  let take (segs : List (Nat × Nat)) : Except GridBad (List Byte × List Bool) :=
    let ls := spanAll segs
    match s.errAt ls with
    | some k => .error (.cause k ls)
    | none => .ok (s.bytesAt ls, (List.range (n / 16)).map (fun i =>
        hasNat s.mtags (ls.getD (16 * i) 0 / 16) && decide (ls.getD (16 * i) 0 % 16 = 0)))
  match s.resolve w ptr n (needR + needL) with
  | .ok (.scratch off) => take (s.scratchSegs w.clu off n)
  | .ok (.table e off) =>
    if e.space = 3 ∨ e.space = 5 then .error (.field 88)
    else
      match s.xlateRange w.clu w.part (decide (e.space = 2)) w.sup needR (e.base + off) n with
      | .ok segs => take segs
      | .error k => .error (.cause k [])
  | _ => .error (.field 88)

/-- The virtual address that a pointer of a table handle names. -/
def State.vaOf (s : State) (p : Nat) (ptr : Word) : Nat :=
  match s.handleRaw (s.firstClu p) p (ptr.toNat / 2 ^ 52) with
  | .ok raw => (HEntry.ofNat raw.toNat).base + ptr.toNat % 2 ^ 52
  | .error _ => 0

/-- The check of a descriptor (13 R274), field by field: the checked grid, or what fails first. -/
def State.gridCheck (s : State) (base : Nat) (d : List Byte) : Except GridBad State :=
  let c := s.cur
  let p := s.myPart
  let bytes := dLevels d * dParts d * dStride d
  match descBad d with
  | some o => .error (.field o)
  | none =>
    match s.resolve (s.who c) (dBase d) bytes (needR + needW) with
    | .ok (.table e _) =>
      if e.space ≠ 1 then .error (.field 80)
      else
        match s.ownerRead (dOwners d) (16 * dParts d) with
        | .error x => .error x
        | .ok (bs, tags) =>
          let os := (List.range (dParts d)).map (fun i => s.ownerOf p (dN bs (16 * i) 16) (tags.getD i false))
          if os.any (·.isNone) then .error (.field 88)
          else
            match descTail d with
            | some o => .error (.field o)
            | none =>
              let store := s.vaOf p (dBase d)
              match s.grids.find? (fun g => decide (g.2.part = p ∧ g.2.launch = (s.ctx c).launch ∧ g.2.store = store)) with
              | some (k, g) =>
                if g.desc = d then .ok { s with grids := SMap.put s.grids k { g with bases := base :: g.bases } } else .error (.field 80)
              | none =>
                let g : GridSt := { part := p, launch := (s.ctx c).launch, bases := [base], store := store, desc := d,
                                    owners := os.map (fun o => o.getD .claim) }
                .ok { s with grids := SMap.put s.grids s.nextGrid g, nextGrid := s.nextGrid + 1 }
    | _ => .error (.field 80)

/-! ## The checked copy -/

/-- A grid. -/
def State.grid (s : State) (g : Nat) : GridSt := SMap.at {} s.grids g
/-- Change a grid. -/
def State.modGrid (s : State) (g : Nat) (f : GridSt → GridSt) : State := { s with grids := SMap.put s.grids g (f (s.grid g)) }
/-- A fill. -/
def State.hfill (s : State) (k : Nat) : HFill := SMap.at {} s.fills k
/-- Change a fill. -/
def State.modFill (s : State) (k : Nat) (f : HFill → HFill) : State := { s with fills := SMap.put s.fills k (f (s.hfill k)) }
/-- A band. -/
def GridSt.band (g : GridSt) (p : Nat) (b : BandId) (lv : Nat) : Band := SMap.at {} g.bands (bandKey p b lv)
/-- The owner of a part. -/
def GridSt.owner (g : GridSt) (p : Nat) : GOwner := g.owners.getD p .claim
/-- Whether a peer owns a part. -/
def GridSt.peers (g : GridSt) (p : Nat) : Bool := match g.owner p with
  | .peer _ => true
  | .core _ => false
  | .claim => false
/-- σ of a part; none when UNBOUND. -/
def GridSt.step (g : GridSt) (p : Nat) : Option Nat := (g.sigma.find? (fun q => decide (q.1 = p))).map (·.2)
/-- σ of a part as the neighbouring engines know it. -/
def GridSt.stepKnown (g : GridSt) (p : Nat) : Option Nat := (g.known.find? (fun q => decide (q.1 = p))).map (·.2)
/-- A step's level. -/
def GridSt.level (g : GridSt) (t : Nat) : Nat := t % (if dLevels g.desc = 0 then 1 else dLevels g.desc)
/-- Whether a step is a multiple of the depth. -/
def GridSt.full (g : GridSt) (t : Nat) : Bool := decide (t % (if dDepth g.desc = 0 then 1 else dDepth g.desc) = 0)

/-- The owner check (13 R276): the core of a thread may name a part. -/
def GridSt.mayName (g : GridSt) (p core : Nat) : Bool :=
  match g.owner p with
  | .core k => decide (k = core)
  | .claim => (g.claimed.find? (fun q => decide (q.1 = p))).all (fun q => decide (q.2 = core))
  | .peer _ => false

/-- The pointer of a storage offset. -/
def GridSt.ptr (g : GridSt) (off : Nat) : Word := dBase g.desc + BitVec.ofNat 64 off

/-- A fault of a grid instruction whose descriptor check stands. -/
def State.faultIn (s : State) (c : Cause) (addr : Word) (info : Word := 0) : Res :=
  .stay (s.takeFault s.cur { code := c, addr := addr, info := info })

/-- The GRID handle of a cell pointer: its entry, by the checks of R41 up to the permission (13 R272, R282). -/
def State.gridEntry (s : State) (w : Who) (ptr : Word) (need : Nat) : Except Exc HEntry :=
  match s.resolve w (BitVec.ofNat 64 (ptr.toNat / 2 ^ 52 * 2 ^ 52)) 0 need with
  | .error e => .error { e with addr := ptr }
  | .ok (.table e _) =>
    if e.space ≠ 3 then .error { code := Cause.handlePerm, addr := ptr }
    else if e.base % 128 ≠ 0 ∨ e.len ≠ 128 then .error { code := Cause.handleInvalid, addr := ptr }
    else .ok e
  | .ok _ => .error { code := Cause.handlePerm, addr := ptr }

/-- The checked grid of a descriptor for a launch. DESIGN CHOICE: another handle with the same BASE names the same descriptor, which
is read and checked once (log 62). -/
def State.gridOf (s : State) (p : Nat) (l : Option Nat) (base : Nat) : Option Nat :=
  (s.grids.find? (fun g => decide (g.2.part = p ∧ g.2.launch = l ∧ base ∈ g.2.bases))).map (·.1)

/-- The first rows of a grid instruction (13 R282, rows 1 to 3 of its order): the grid, the part, the cell index and the local
coordinates; or its outcome. -/
def State.gridOpen (s : State) (ptr : Word) (need : Nat) (disp : Int) (go : State → Nat → Nat → Coord → Res) : Res :=
  let c := s.cur
  match s.gridEntry (s.who c) ptr need with
  | .error e => .fault e
  | .ok e =>
    let found : Except Res (Nat × State) :=
      match s.gridOf s.myPart (s.ctx c).launch e.base with
      | some g => .ok (g, s)
      | none =>
        match s.xlateRange (cluOf c) s.myPart false (s.ctx c).sta.sup needR e.base 128 with
        | .error k => .error (Res.bad k ptr)
        | .ok segs =>
          let s := s.correct (spanAll segs)
          match s.errAt (spanAll segs) with
          | some k => .error ((s.errMet (spanAll segs)).faultIn k ptr)
          | none =>
            match s.gridCheck e.base (s.bytesAt (spanAll segs)) with
            | .error (.field o) => .error (Res.bad Cause.gridDescriptor ptr (BitVec.ofNat 64 o))
            | .error (.cause k met) => .error ((s.errMet met).faultIn k ptr)
            | .ok s1 => .ok ((s1.gridOf s1.myPart (s1.ctx c).launch e.base).getD 0, s1)
    match found with
    | .error r => r
    | .ok (k, s1) =>
      let g := s1.grid k
      let p := bitsAt ptr 40 12
      match cellAt g.desc p ((ptr.toNat % 2 ^ 40 : Nat) + disp) with
      | none => s1.faultIn Cause.handleBounds ptr
      | some l =>
        if dParts g.desc ≤ p then s1.faultIn Cause.handleBounds ptr
        else if !g.mayName p (coreOf c) then s1.faultIn Cause.handlePerm ptr
        else go s1 k p l

end Sys2Proof.Machine
end

