-- ==== Sys2Proof/Machine/Grids.lean ====
section
/-! DEFINITION. Sys2Proof/Machine/Grids.lean: halo fills, published steps, and the grid instructions (13 R281 to R292; 18
R423). What a HALO packet carries is the model's own (log 34). -/

namespace Sys2Proof.Machine

/-! ## Fills (13 R281) -/

/-- A tag is ahead of a step. -/
def tagAhead (tag : Option Nat) (t : Nat) : Bool := tag.any (fun n => decide (t < n))

/-- The bands that a fill writes. -/
def GridSt.fillBands (g : GridSt) (f : HFill) : List BandId :=
  (bandsOf g.desc).filter (fun b =>
    decide (isRuleBand g.desc f.dst b = decide (f.kind = 1)) && !(bandCells g.desc f.dst b).isEmpty &&
      (decide (f.kind ≠ 2) || !tagAhead (g.band f.dst b (g.level f.step)).tag f.step))

/-- The cells that a fill writes. -/
def GridSt.cellsOf (g : GridSt) (f : HFill) : List Coord :=
  (allCells g.desc f.dst).filter (fun l => match bandOf g.desc f.dst l with
    | none => false
    | some b => decide (b ∈ g.fillBands f))

/-- σ of a part as the engine of part `p` knows it. -/
def GridSt.stepFor (g : GridSt) (p q : Nat) : Option Nat := if p = q then g.step q else g.stepKnown q

/-- Whether two fills write a common band: the same part, the same class, the same level. -/
def GridSt.meets (g : GridSt) (a b : HFill) : Bool :=
  decide (a.grid = b.grid ∧ a.dst = b.dst ∧ (a.kind = 1 ↔ b.kind = 1) ∧ g.level a.step = g.level b.step)

/-- Whether a fill's start conditions hold. The engine of a source pushes into a peer's part by what it knows of its own
parts and of the target. -/
def State.fillReady (s : State) (k : Nat) : Bool :=
  let f := s.hfill k
  let g := s.grid f.grid
  let there := s.fills.any (fun q => decide (q.1 = k))
  let own (q : Nat) : Bool := !g.peers f.dst || !g.peers q
  let sources := (sourcesIn g.desc f.dst (g.cellsOf f)).filter own
  there && !f.started && f.lost.isNone &&
    sources.all (fun q => (if g.peers f.dst then g.step q else g.stepFor f.dst q).any (fun n => decide (f.step ≤ n))) &&
    (if g.peers f.dst then g.stepKnown f.dst else g.step f.dst).any (fun n => decide (f.step + 1 ≤ n + dLevels g.desc)) &&
    !s.fills.any (fun q => decide (q.1 ≠ k) && g.meets f q.2 && q.2.lost.isNone &&
      (q.2.started || (decide (q.1 < k) && q.2.pk.isSome && f.pk.isSome)))

/-- A HALO request to the peer that owns a part: operation 0 a published step, 1 a push, 2 the wish for a push (log 34). -/
def State.haloReq (s : State) (g : GridSt) (peer mop p t : Nat) (data : List Byte) : Option FabPkt :=
  match g.owner peer with
  | .peer cap => some (s.request g.part 0x07 mop 0 cap 0 (BitVec.ofNat 128 (p + t * 2 ^ 16 + data.length / 16 * 2 ^ 48)) data)
  | _ => none

/-- Whether a cell's value comes from a peer's part. -/
def GridSt.fromPeer (g : GridSt) (p : Nat) (l : Coord) : Bool :=
  match originOf g.desc p l with
  | .const _ => false
  | .cell q _ => g.peers q

/-- The number of a fill's packet, or one that no packet has. -/
def HFill.card (f : HFill) : Nat := f.pk.getD (2 ^ 64)

/-- The name of a fill's writes (10 R236). -/
def fillKey (k : Nat) : Nat := 2 ^ 51 + k

/-- The locations of a cell that the halo engine reads or writes, or what stops the access (12 R260, R263). -/
def State.cellLocs (s : State) (g : GridSt) (f : HFill) (p lv c : Nat) (wr : Bool) : Except Mv (List Nat) :=
  s.engAt (s.partEng g.part) f.card (g.ptr (cellOff g.desc p lv c)) (dSize g.desc) (if wr then needW else needR) wr (!wr)

/-- The value that a fill gives a cell from a const or from a part of this package, or what stops its read. -/
def State.fillValue (s : State) (g : GridSt) (f : HFill) (l : Coord) : Except Mv Nat :=
  match originOf g.desc f.dst l with
  | .const c => .ok (dConst g.desc c)
  | .cell q m =>
    match s.cellLocs g f q (g.level f.step) (cellIdx g.desc m) false with
    | .error x => .error x
    | .ok ls => .ok (leNat (s.bytesAt ls))

/-- Write a cell of a fill at its home, or what stops the write. -/
def State.putCell (s : State) (k : Nat) (g : GridSt) (f : HFill) (c v : Nat) : Except Mv State :=
  match s.cellLocs g f f.dst (g.level f.step) c true with
  | .error x => .error x
  | .ok ls => .ok (s.place { key := some (fillKey k) } (ls.zip (leBytes (dSize g.desc) v)))

/-- Write cells one after another, each with its value. -/
def State.putFill (s : State) (k : Nat) (g : GridSt) (f : HFill) (l : List (Nat × Nat)) : Except Mv State :=
  l.foldl (fun (o : Except Mv State) c => match o with
    | .error x => .error x
    | .ok s => s.putCell k g f c.1 c.2) (.ok s)

/-- The cells of this package's parts and consts that a fill writes, each with its value, or what stops a read. -/
def State.nearCells (s : State) (g : GridSt) (f : HFill) : Except Mv (List (Nat × Nat)) :=
  ((g.cellsOf f).filter (fun l => !g.fromPeer f.dst l)).foldr (fun l (o : Except Mv (List (Nat × Nat))) =>
    match o, s.fillValue g f l with
    | .error x, _ => .error x
    | _, .error x => .error x
    | .ok r, .ok v => .ok ((cellIdx g.desc l, v) :: r)) (.ok [])

/-- The watermark channel that holds a cell of a fill, if one does. -/
def State.fillWater (s : State) (g : GridSt) (f : HFill) : Option Nat :=
  let on (p : Nat) (l : Coord) (wr : Bool) : Option Nat :=
    match s.engSegs (s.partEng g.part) (g.ptr (cellOff g.desc p (g.level f.step) (cellIdx g.desc l))) (dSize g.desc)
        (if wr then needW else needR) wr with
    | .error _ => none
    | .ok segs => match ({ s with waters := s.waters.filter (fun w => decide (w.pk ≠ f.card)) } : State).waterHold g.part (spanAll segs) with
      | some (.watermark id _) => some id
      | _ => none
  (g.cellsOf f).findSome? (fun l => (if g.peers f.dst then none else on f.dst l true).or (match originOf g.desc f.dst l with
    | .const _ => none
    | .cell q m => if g.peers q then none else on q m false))

/-- The locations of this package's cells that a fill reads. -/
def State.fillReads (s : State) (g : GridSt) (f : HFill) : List Nat :=
  (g.cellsOf f).flatMap (fun l => match originOf g.desc f.dst l with
    | .const _ => []
    | .cell q m => if g.peers q then [] else match s.cellLocs g f q (g.level f.step) (cellIdx g.desc m) false with
      | .error _ => []
      | .ok ls => ls)

/-- The errors that a fill's reads meet and the device can correct (17 R408). -/
def State.fillCorrect (s : State) (g : GridSt) (f : HFill) : State := if s.soft.isEmpty then s else s.correct (s.fillReads g f)

/-- The pushes of a fill into a peer's part: 32 cells in a packet, each as its index and its value. -/
def State.pushes (s : State) (g : GridSt) (f : HFill) : List FabPkt :=
  let mine := (g.cellsOf f).filter (fun l => match originOf g.desc f.dst l with
    | .const _ => false
    | .cell q _ => !g.peers q)
  let cells := mine.map (fun l => leBytes 8 (cellIdx g.desc l) ++ leBytes 8 (match s.fillValue g f l with
    | .ok v => v
    | .error _ => 0))
  let rec cut : Nat → List (List Byte) → List (List Byte)
    | 0, _ => []
    | n + 1, l => if l.isEmpty then [] else (l.take 32).flatten :: cut n (l.drop 32)
  (cut cells.length cells).filterMap (fun d => s.haloReq g f.dst 1 f.dst f.step d)

/-- Whether a HALOX packet's turn among the cards of its queue has come. -/
def State.haloxTurn (s : State) (f : HFill) : Except Cause Bool :=
  match f.pk with
  | none => .ok true
  | some id => s.cardTurn (s.pk id).part (s.pk id).queue ⟨id, false, (s.pk id).foot, none⟩ (pkFence (s.pk id).pkt)

/-- The steps between the fills of a record: every step for a rule fill, every multiple of D for an exchange (13 R281). -/
def HFill.stride (f : HFill) (g : GridSt) : Nat := if f.kind = 1 then 1 else dDepth g.desc

/-- A fill's record moves to its next step that no abandoned fill keeps from its level, or goes with its packet. -/
def State.nextStep (s : State) (k : Nat) : State :=
  let f := s.hfill k
  let g := s.grid f.grid
  match f.pk with
  | some id =>
    let n := (g.cellsOf f).length * dSize g.desc
    ({ s with fills := SMap.del s.fills k } : State).modPk id (fun c => { c with started := true, moved := true, bytes := n, fill := none })
  | none =>
    if f.kind = 2 then { s with fills := SMap.del s.fills k }
    else
      let next := f.step + f.stride g
      s.modFill k (fun f => { f with step := next, started := false, left := 0,
                                     lost := (f.gone.find? (fun u => decide (g.level u.1 = g.level next))).map (·.2) })

/-- SIGMA_UPDATE: a part's published step arrives at the engines of its neighbours. -/
def execSigmaUpdate (n : Nat) (s : State) : Host.Outcome State Fault Refusal :=
  goes (match s.msgAt n with
    | none => s
    | some m =>
      match m.body with
      | .sigma p g t =>
        (s.takeMsg m).modGrid g (fun g => { g with known := SMap.put g.known p (max t (SMap.at 0 g.known p)) })
      | _ => s)

/-- A fill is abandoned (13 R290). No later fill into the same level of its bands can start (13 R281); the record goes on with its
next step where that lies at another level. -/
def State.abandonFill (s : State) (k : Nat) (cause : Cause) : State :=
  let f := s.hfill k
  if f.lost.isSome ∨ s.fills.any (fun q => decide (q.1 = k)) = false then s
  else
    let g := s.grid f.grid
    let next := f.step + f.stride g
    let gone := f.gone ++ [(f.step, cause)]
    let on := decide (f.kind ≠ 2) && gone.all (fun u => decide (g.level u.1 ≠ g.level next))
    let s1 := s.modFill k (fun f =>
      if on then { f with gone := gone, remote := [], started := false, left := 0, step := next }
      else { f with gone := gone, lost := some cause, remote := [] })
    match f.pk with
    | none => s1
    | some id => s1.abandonPk id Cause.haloPeerLost

/-- What stops a fill's accesses: held lines are asked for; a page, an error or a broken watermark channel acts on a HALOX packet
as on any packet, and a fill of no packet goes on waiting, but for a broken channel, which abandons it (12 R260, R263; log 34). -/
def State.fillStop (s : State) (k : Nat) : Mv → State
  | .ok _ => s
  | .held lines =>
    (s.modFill k (fun f => { f with heldOn := s.fillWater (s.grid f.grid) f })).askWrites { key := some (fillKey k) } lines
  | .page c ptr => match (s.hfill k).pk with
    | some id => s.holdPk id c ptr
    | none => s
  | .dead c met => match (s.hfill k).pk with
    | some id => ({ s.errMet met with fills := SMap.del s.fills k } : State).abandonPk id c
    | none => s.errMet met

/-- The watermark channel that held a fill's access has broken: the access faults with WATERMARK_RANGE (12 R260). -/
def State.fillBroken (s : State) (k : Nat) : Option State :=
  if (s.hfill k).heldOn.any (fun id => (s.pk id).fate.isSome) then
    some (match (s.hfill k).pk with
      | some _ => s.fillStop k (.dead Cause.watermarkRange [])
      | none => s.abandonFill k Cause.watermarkRange)
  else none

/-- A fill starts (13 R281): a push into a peer's part takes its cells' values as its requests. -/
def State.startFill (s : State) (k : Nat) : State :=
  let f := s.hfill k
  let g := s.grid f.grid
  if g.peers f.dst then
    match ((g.cellsOf f).filter (fun l => !g.fromPeer f.dst l)).findSome? (fun l => match s.fillValue g f l with
      | .error x => some x
      | .ok _ => none) with
    | some x => s.fillStop k x
    | none => (s.fillCorrect g f).modFill k (fun f => { f with started := true, remote := s.pushes g f })
  else
    let far := (g.cellsOf f).filter (g.fromPeer f.dst)
    let asks := if f.kind = 2 then
        ((sourcesIn g.desc f.dst far).filter g.peers).filterMap (fun q => (s.haloReq g q 2 f.dst f.step []).map (fun r => (q, r)))
      else []
    (s.modFill k (fun f => { f with started := true, left := far.length })).modGrid f.grid (fun g => { g with outq := g.outq ++ asks })

/-- HALO_FILL_START. -/
def execHaloFillStart (k : Nat) (s : State) : Host.Outcome State Fault Refusal :=
  goes (
    match s.haloxTurn (s.hfill k) with
    | .error e => ({ s with fills := SMap.del s.fills k } : State).abandonPk ((s.hfill k).pk.getD 0) e
    | .ok turn => if turn && s.fillReady k then (s.fillBroken k).getD (s.startFill k) else s)

/-- A fill writes its cells, when nothing stops it, and the bands that it wrote take its step: its lines have accepted their
invalidations, so its writes are published (13 R281, R288). A page holds a HALOX fill until its translation is invalidated,
`again` (12 R263). -/
def State.finishFill (s : State) (k : Nat) (again : Bool) : State :=
  let f := s.hfill k
  let g := s.grid f.grid
  if f.pk.any (fun id => (s.pk id).hold.isSome) && !again then s
  else
    match s.nearCells g f with
    | .error x => s.fillStop k x
    | .ok cells =>
      match (s.fillCorrect g f).putFill k g f cells with
      | .error x => s.fillStop k x
      | .ok s1 =>
        let lv := g.level f.step
        let mark (m : SMap Band) (b : BandId) : SMap Band :=
          SMap.put m (bandKey f.dst b lv) { tag := some f.step, fstep := some f.step, fill := (bandCells g.desc f.dst b).length }
        let bands := (g.fillBands f).foldl mark g.bands
        (s1.nextStep k).modGrid f.grid (fun g => { g with bands := bands })

/-- HALO_FILL_COMPLETE: every cell is at its home; the bands that the fill wrote take its step. A push completes when every
peer write has been acknowledged. -/
def execHaloFillComplete (k : Nat) (s : State) : Host.Outcome State Fault Refusal :=
  goes (
    let f := s.hfill k
    let g := s.grid f.grid
    if !f.started || f.lost.isSome || decide (f.left ≠ 0) then s
    else if g.peers f.dst then
      (if f.remote.isEmpty && !s.pkg.outst.any (fun o => decide (o.halo = some (f.grid, f.dst, some k))) then s.nextStep k else s)
    else (s.fillBroken k).getD (s.finishFill k false))

/-- HALO_FILL_ABANDON: the peer of a fill is lost. -/
def execHaloFillAbandon (k : Nat) (cause : BitVec 6) (s : State) : Host.Outcome State Fault Refusal :=
  goes (s.abandonFill k cause)

/-- A request to a peer of a grid has failed: every fill of the grid that the part takes part in is abandoned. DESIGN CHOICE: that
one failure, a refusal with REMOTE_OP_UNSUPPORTED too, stands for the peer's being lost to all of them (log 62). -/
def State.peerLost (s : State) (gid peer : Nat) (cause : Cause) : State :=
  let g := s.grid gid
  (s.fills.filter (fun q => decide (q.2.grid = gid) &&
      (decide (q.2.dst = peer) || decide (peer ∈ sourcesIn g.desc q.2.dst (g.cellsOf q.2))))).foldl
    (fun s q => s.abandonFill q.1 cause) s

/-- A grid's or a fill's next request leaves, after the egress checks of 10 R234. -/
def State.sendHalo (s : State) (gid peer : Nat) (k : Option Nat) (q : FabPkt) (drop : State → State) : State :=
  match s.egress q.cap true 0 0 3 [] none with
  | some e => (drop s).peerLost gid peer e.code
  | none =>
    match s.sendReq none none none q 0 0 false (some (gid, peer, k)) with
    | none => s
    | some (_, s1) => drop s1

/-- The next request of a grid's queue of messages. -/
def State.pumpGrid (s : State) (gid : Nat) : State :=
  match (s.grid gid).outq with
  | [] => s
  | (peer, q) :: rest => s.sendHalo gid peer none q (fun s => s.modGrid gid (fun g => { g with outq := rest }))

/-- The next push of a fill. -/
def State.pumpFill (s : State) (k : Nat) : State :=
  match (s.hfill k).remote with
  | [] => s
  | q :: rest => s.sendHalo (s.hfill k).grid (s.hfill k).dst (some k) q (fun s => s.modFill k (fun f => { f with remote := rest }))

/-- What a HALO request meets at its target. -/
inductive Halo where
  | ok (s : State)
  /-- It cannot be taken yet: the machine as it is then. -/
  | later (s : State)
  | bad (cause : Cause)

/-- A HALO request arrives at this package (log 34). Its handle must be a GRID handle with R and W (13 R276). A push writes the
cells of bands that are not tagged ahead, of the fill whose cells they are (13 R281, R289). -/
def State.haloArrive (s : State) (q : FabPkt) : Halo :=
  let p := q.opnd.toNat % 2 ^ 16
  let t := q.opnd.toNat / 2 ^ 16 % 2 ^ 32
  let w : Who := { clu := s.firstClu q.tgtPart, part := q.tgtPart, sup := false, thread := false }
  match s.gridEntry w (BitVec.ofNat 64 (capHidx q.cap * 2 ^ 52)) (needR + needW) with
  | .error x => .bad x.code
  | .ok e =>
    match s.grids.find? (fun g => decide (g.2.part = q.tgtPart ∧ e.base ∈ g.2.bases)) with
    | none => .later s
    | some (gid, g) =>
      if q.mop = 0 then .ok (s.modGrid gid (fun g => { g with known := SMap.put g.known p (max t (SMap.at 0 g.known p)) }))
      else if q.mop = 1 then
        let sent := (List.range (q.opnd.toNat / 2 ^ 48)).map (fun i => (dN q.data (16 * i) 8, dN q.data (16 * i + 8) 8))
        let far (f : HFill) : List Nat := ((g.cellsOf f).filter (g.fromPeer p)).map (cellIdx g.desc)
        match s.fills.find? (fun f => decide (f.2.grid = gid ∧ f.2.dst = p ∧ f.2.step = t ∧ f.2.left ≠ 0) && f.2.started &&
            sent.any (fun c => decide (c.1 ∈ far f.2))) with
        | none => .later s
        | some (k, f) =>
          let cells := sent.filter (fun c => decide (c.1 ∈ far f))
          match s.putFill k g f cells with
          | .error x => .later (s.fillStop k x)
          | .ok s1 => .ok (s1.modFill k (fun f => { f with left := f.left - cells.length }))
      else if s.fills.any (fun f => decide (f.2.grid = gid ∧ f.2.dst = p ∧ f.2.kind = 2 ∧ f.2.step = t)) then .ok s
      else
        .ok ({ s with fills := SMap.put s.fills s.nextFill { grid := gid, dst := p, kind := 2, step := t }, nextFill := s.nextFill + 1 } : State)

/-! ## Decisions (13 R283 to R287) -/

/-- What a read of a band at a step meets. -/
inductive BandDec where
  | read
  | wait
  | stale (tag : Nat)
  | lost (cause : Cause)
deriving DecidableEq, Repr

/-- A tag or a step as 32 bits. -/
def stepBits (o : Option Nat) : Nat := o.getD 0xFFFFFFFF

/-- The cause that keeps a fill into a band's class of a part at a step: its own abandonment, or, for the fills of the GSTEP cycle,
that of an earlier one into the same level; a HALOX concerns its own step alone (13 R289, R290). -/
def State.lostInto (s : State) (gid p : Nat) (rule : Bool) (t : Nat) : Option Cause :=
  let g := s.grid gid
  s.fills.findSome? (fun q =>
    if q.2.grid = gid ∧ q.2.dst = p ∧ decide (q.2.kind = 1) = rule then
      (q.2.gone.find? (fun u => if q.2.kind = 2 then decide (u.1 = t) else decide (u.1 ≤ t ∧ g.level u.1 = g.level t))).map (·.2)
    else none)

/-- The decision of R283 for a ghost cell's band. -/
def State.bandDecide (s : State) (gid p : Nat) (b : BandId) (t : Nat) : BandDec :=
  let g := s.grid gid
  let tag := (g.band p b (g.level t)).tag
  let rule := isRuleBand g.desc p b
  let asked := s.fills.any (fun q => decide (q.2.grid = gid ∧ q.2.dst = p ∧ q.2.kind = 2 ∧ q.2.step = t))
  if tag = some t then .read
  else if !tagAhead tag t && (g.step p).any (fun n => decide (t ≤ n)) && (rule || g.full t || asked) then
    match s.lostInto gid p rule t with
    | some c => .lost c
    | none => .wait
  else .stale (stepBits tag)

/-- Whether a source of a band is owned by a peer. -/
def GridSt.bandPeer (g : GridSt) (p : Nat) (b : BandId) : Bool := (sourcesIn g.desc p (bandCells g.desc p b)).any g.peers

/-- The scope of an acquire that follows a fill. -/
def acqScope (peer : Bool) : Nat := if peer then 3 else 2

/-- EINFO of GRID_STALE. -/
def staleInfo (t v : Nat) : Word := BitVec.ofNat 64 (t + v * 2 ^ 32)

/-- A step operand, or RESERVED_BITS. -/
def stepOf (v : Word) (go : Nat → Res) : Res := if 0xFFFFFFFF ≤ v.toNat then Res.bad Cause.reservedBits else go v.toNat

/-- Read a cell into `d`. -/
def State.gridRead (s : State) (gid p : Nat) (l : Coord) (t : Nat) (d : Reg) : Res :=
  let g := s.grid gid
  let ptr := g.ptr (cellOff g.desc p (g.level t) (cellIdx g.desc l))
  match s.access s.cur ptr (dSize g.desc) needR 1 .plain false true with
  | .error (.exc e) => s.faultIn e.code e.addr e.info
  | .error e => e.res s
  | .ok (.mem segs keep _) => s.loadAt ptr segs keep (fun v s => s.setReg d (placeCode (dFmt g.desc) v.toNat))
  | .ok _ => s.faultIn Cause.handlePerm ptr

/-- GLD (13 R283). -/
def execGld (d a b : Reg) (p : BitVec 32) (s : State) : Host.Outcome State Fault Refusal :=
  goes (s.run {} 12 (fun s =>
    let ptr := s.reg a
    stepOf (s.reg b) (fun t => s.gridOpen ptr needR p.toInt (fun s gid p l =>
      let g := s.grid gid
      match bandOf g.desc p l with
      | none => if g.step p = some t then s.gridRead gid p l t d else s.faultIn Cause.gridStale ptr (staleInfo t (stepBits (g.step p)))
      | some bd =>
        match s.bandDecide gid p bd t with
        | .read => (s.acquire s.cur (acqScope (g.bandPeer p bd))).gridRead gid p l t d
        | .wait => .wait s (.grid gid)
        | .stale v => s.faultIn Cause.gridStale ptr (staleInfo t v)
        | .lost c => s.faultIn Cause.haloPeerLost ptr (c.setWidth 64)))))

/-- The fills into a band's class of a part that are due, running or abandoned at a level (13 R284): a record's own step, or the
next, which a published step may have made due before the record has come to it. -/
def State.fillsInto (s : State) (gid p : Nat) (rule : Bool) (lv : Nat) : List HFill :=
  let g := s.grid gid
  let due (u : Nat) : Bool := (g.step p).any (fun n => decide (u ≤ n))
  let here (f : HFill) : Bool :=
    (decide (g.level f.step = lv) && (f.started || f.lost.isSome || f.pk.isSome || due f.step)) ||
      f.gone.any (fun u => decide (g.level u.1 = lv)) ||
      (decide (f.kind ≠ 2 ∧ g.level (f.step + f.stride g) = lv) && due (f.step + f.stride g))
  (s.fills.filter (fun q => decide (q.2.grid = gid ∧ q.2.dst = p) && decide (decide (q.2.kind = 1) = rule) && here q.2)).map (·.2)

/-- A band after one more of its cells has been written at a step. -/
def Band.count (b : Band) (t cells : Nat) : Band :=
  let n := (if b.fstep = some t then b.fill else 0) + 1
  { tag := if n = cells then some t else b.tag, fstep := some t, fill := n }

/-- Bytes of one line reach the level of a core (10 R211): the store of `ST.rel.core` whose release has completed. -/
def State.coreWrite (s : State) (c line : Nat) (bs : List (Nat × Byte)) (keep : Bool) : State :=
  let inst := match s.domainOf c with
    | none => 0
    | some (_, d) => d.instant
  (s.levelWrite c 0 (bs.foldl (fun e b => e.put b.1 b.2) { line := line, mask := 0, data := 0, instant := inst, keep := keep })).untagBytes
    c (bs.map (·.1))

/-- GST (13 R284). The element is at the level of its core before its band's state counts it. -/
def execGst (d a b : Reg) (p : BitVec 32) (s : State) : Host.Outcome State Fault Refusal :=
  goes (s.run {} 12 (fun s =>
    let ptr := s.reg a
    let v := s.reg d
    stepOf (s.reg b) (fun t => s.gridOpen ptr needW p.toInt (fun s gid p l =>
      let g := s.grid gid
      let bd := bandOf g.desc p l
      let lv := g.level t
      let into := match bd with
        | none => []
        | some b => s.fillsInto gid p (isRuleBand g.desc p b) lv
      let have_ := match bd with
        | none => g.step p
        | some b => (g.band p b lv).tag
      if (g.step p).all (fun n => decide (t ≠ n + 1)) then s.faultIn Cause.gridStale ptr (staleInfo t (stepBits have_))
      else if bd.any (fun b => isRuleBand g.desc p b || g.full t) then s.faultIn Cause.handlePerm ptr
      else
        match into.findSome? (fun f => (f.gone.find? (fun u => decide (g.level u.1 = lv))).map (·.2)) with
        | some c => s.faultIn Cause.haloPeerLost ptr (c.setWidth 64)
        | none =>
          if !into.isEmpty then .wait s (.grid gid)
          else
            let sp := g.ptr (cellOff g.desc p lv (cellIdx g.desc l))
            let (na, s) := s.coreStream sp
            match s.access s.cur sp (dSize g.desc) needW 1 .plain true false with
            | .error (.exc e) => s.faultIn e.code e.addr e.info
            | .error e => e.res s
            | .ok (.mem segs keep _) =>
              (match s.release s.cur 0 with
                | (s1, false) => .wait s1 .marker
                | (s1, true) =>
                  let bs := (spanAll segs).zip (leBytes (dSize g.desc) v.toNat)
                  let s2 := s1.coreWrite s1.cur (lineOf ((spanAll segs).headD 0)) bs (keep && !na)
                  .done (match bd with
                    | none => s2
                    | some b => s2.modGrid gid (fun g => { g with
                      bands := SMap.put g.bands (bandKey p b lv) ((g.band p b lv).count t (bandCells g.desc p b).length) })))
            | .ok _ => s.faultIn Cause.handlePerm sp))))

/-- The fills sourced from a part at a step of at most `t` that have not completed: the part and class each writes, and its
record, if it has one. -/
def State.outList (s : State) (gid p : Nat) (t : Int) : List (Nat × Nat × Option HFill) :=
  let g := s.grid gid
  let at_ (r kind : Nat) : Option HFill :=
    (s.fills.find? (fun q => decide (q.2.grid = gid ∧ q.2.dst = r ∧ q.2.kind = kind))).map (·.2)
  let open_ (r kind : Nat) : Bool := feeds g.desc p r kind && decide ((((at_ r kind).map (·.step)).getD (dStep0 g.desc) : Int) ≤ t)
  let late := (List.range (dParts g.desc)).flatMap (fun r => ([0, 1].filter (fun k => open_ r k)).map (fun k => (r, k, at_ r k)))
  let asked := ((s.fills.filter (fun q => decide (q.2.grid = gid ∧ q.2.kind = 2 ∧ (q.2.step : Int) ≤ t) && feeds g.desc p q.2.dst 0)).map
    (fun q => (q.2.dst, 0, some q.2)))
  late ++ asked

/-- Whether every fill sourced from a part at a step of at most `t` has completed; or the cause that abandoned one. -/
def State.outFills (s : State) (gid p : Nat) (t : Int) : Except Cause Bool :=
  let l := s.outList gid p t
  let lost (f : HFill) : Option Cause := (f.gone.find? (fun u => decide ((u.1 : Int) ≤ t))).map (·.2)
  match (s.fills.findSome? (fun q => if q.2.grid = gid ∧ feeds (s.grid gid).desc p q.2.dst (q.2.kind % 2) then lost q.2 else none)) with
  | some c => .error c
  | none => .ok l.isEmpty

/-- Whether a part's neighbours include one that a peer owns. -/
def GridSt.peerNear (g : GridSt) (p : Nat) : Bool := (neighbours g.desc p).any g.peers

/-- A part publishes a step: its engine and, by messages, those of its neighbours. -/
def State.publishStep (s : State) (gid p t : Nat) : State :=
  let g := s.grid gid
  let peers := ((neighbours g.desc p).filter g.peers).filterMap (fun q => (s.haloReq g q 0 p t []).map (fun r => (q, r)))
  (s.modGrid gid (fun g => { g with sigma := SMap.put g.sigma p t, outq := g.outq ++ peers })).post s.cur (64 * cluOf s.cur) (.sigma p gid t)

/-- The records of the fills that a newly bound part receives, and of the pushes from it into peers' parts. -/
def State.bindFills (s : State) (gid p : Nat) : State :=
  let g := s.grid gid
  let want := [(p, 0), (p, 1)].filter (fun q => !(fillCells g.desc q.1 q.2).isEmpty) ++
    (List.range (dParts g.desc)).flatMap (fun r => if g.peers r then ([0, 1].filter (fun k => feeds g.desc p r k)).map (fun k => (r, k)) else [])
  want.foldl (fun s q =>
    if s.fills.any (fun f => decide (f.2.grid = gid ∧ f.2.dst = q.1 ∧ f.2.kind = q.2)) then s
    else { s with fills := SMap.put s.fills s.nextFill { grid := gid, dst := q.1, kind := q.2, step := dStep0 g.desc },
                  nextFill := s.nextFill + 1 }) s

/-- The wait of GSTEP for the fills that still read the level it frees. -/
def State.gstepWait (s : State) (gid p t : Nat) (ptr : Word) : Res :=
  match s.outFills gid p ((t : Int) + 1 - dLevels (s.grid gid).desc) with
  | .error c => s.faultIn Cause.haloPeerLost ptr (c.setWidth 64)
  | .ok true => .done s
  | .ok false => .wait s (.grid gid)

/-- GSTEP (13 R286). -/
def execGstep (a b : Reg) (s : State) : Host.Outcome State Fault Refusal :=
  goes (s.run {} 12 (fun s =>
    let ptr := s.reg a
    stepOf (s.reg b) (fun t => s.gridOpen ptr needR 0 (fun s gid p _ =>
      let g := s.grid gid
      let stale := s.faultIn Cause.gridStale ptr (staleInfo t (stepBits (g.step p)))
      let go (bind : Bool) : Res :=
        match s.release s.cur (acqScope (g.peerNear p)) with
        | (s1, false) => .wait s1 .marker
        | (s1, true) =>
          let s2 := if bind then (s1.modGrid gid (fun g => { g with claimed := SMap.put g.claimed p (coreOf s1.cur) })).bindFills gid p else s1
          (s2.publishStep gid p t).gstepWait gid p t ptr
      match g.step p with
      | none => if t = dStep0 g.desc then go true else stale
      | some n => if t = n then s.gstepWait gid p t ptr else if t = n + 1 then go false else stale))))

/-- GWAIT (13 R287): the bands of a step's fills. DESIGN CHOICE: where several bands decide STALE or have lost their fills, the first
of them by dimension, side and number says which fault it is and what EINFO holds (log 62). -/
def execGwait (a b : Reg) (s : State) : Host.Outcome State Fault Refusal :=
  goes (s.run {} 12 (fun s =>
    let ptr := s.reg a
    stepOf (s.reg b) (fun t => s.gridOpen ptr needR 0 (fun s gid p _ =>
      let g := s.grid gid
      let bands := (bandsOf g.desc).filter (fun b => (g.full t || isRuleBand g.desc p b) && !(bandCells g.desc p b).isEmpty)
      let ds := bands.map (fun b => s.bandDecide gid p b t)
      match ds.find? (fun d => match d with | .stale _ => true | .lost _ => true | _ => false) with
      | some (.stale v) => s.faultIn Cause.gridStale ptr (staleInfo t v)
      | some (.lost c) => s.faultIn Cause.haloPeerLost ptr (c.setWidth 64)
      | _ =>
        if ds.any (fun d => decide (d = .wait)) then .wait s (.grid gid)
        else .done (s.acquire s.cur (acqScope (bands.any (g.bandPeer p))))))))

/-- GWAIT.out. -/
def execGwaitOut (a b : Reg) (s : State) : Host.Outcome State Fault Refusal :=
  goes (s.run {} 12 (fun s =>
    let ptr := s.reg a
    stepOf (s.reg b) (fun t => s.gridOpen ptr needR 0 (fun s gid p _ =>
      match s.outFills gid p t with
      | .error c => s.faultIn Cause.haloPeerLost ptr (c.setWidth 64)
      | .ok true => .done s
      | .ok false => .wait s (.grid gid)))))

/-! ## HALOX (13 R289) -/

/-- The storage ranges of a fill: its sources read, its part written. DESIGN CHOICE: of each part's storage, the level of the step
alone, which is all that the fill touches (log 62). -/
def State.haloFoot (s : State) (g : GridSt) (p t : Nat) : List FootRange :=
  let range (q : Nat) (rd wr : Bool) : FootRange := ⟨1, s.vaOf g.part (g.ptr (cellOff g.desc q (g.level t) 0)), dStride g.desc, rd, wr⟩
  range p false true :: ((sourcesIn g.desc p (fillCells g.desc p 0)).filter (fun q => !g.peers q)).map (fun q => range q true false)

/-- The grid and part that a HALOX packet names, when its grid is checked and the part bound on this package. -/
def State.haloxSpot (s : State) (c : CopyPk) : Option (Nat × Nat) :=
  let ptr := pkSrcPtr c.pkt
  let g := pkEng s c
  match s.gridEntry { clu := g.clu, part := g.part, sup := g.sup, thread := false } ptr needR with
  | .error _ => none
  | .ok e =>
    let p := bitsAt ptr 40 12
    match s.grids.find? (fun q => decide (q.2.part = c.part ∧ e.base ∈ q.2.bases) && (q.2.step p).isSome) with
    | none => none
    | some (gid, _) => if ptr.toNat % 2 ^ 40 = 0 then some (gid, p) else none

/-- HALOX: an engine takes the packet and asks the halo engine for its fill. -/
def execHalox (eng part q : Nat) (s : State) : Host.Outcome State Fault Refusal :=
  goes (match s.takePk eng part q (fun k => decide (k = 6)) with
    | (s1, none) => s1
    | (s1, some id) =>
      match s1.pkCheck (s1.pk id), s1.haloxSpot (s1.pk id) with
      | none, some (gid, p) =>
        let t := pkAux (s1.pk id).pkt
        let f : HFill := { grid := gid, dst := p, kind := 2, step := t, pk := some id }
        let foot := s1.haloFoot (s1.grid gid) p t
        ({ s1 with fills := SMap.put s1.fills s1.nextFill f, nextFill := s1.nextFill + 1 } : State).modPk id
          (fun c => { c with fill := some s1.nextFill, foot := foot })
      | some k, _ => s1.abandonPk id k
      | none, none => s1.abandonPk id Cause.copyPacketInvalid)

/-- Grid work that a launch leaves: its fills are started or can start, or its messages are on their way (13 R291). -/
def State.gridBusy (s : State) (l : Option Nat) : Bool :=
  s.grids.any (fun g => decide (g.2.launch = l) &&
    (!g.2.outq.isEmpty || s.fills.any (fun f => decide (f.2.grid = g.1) && f.2.lost.isNone && (f.2.started || s.fillReady f.1)) ||
      s.net.any (fun m => match m.body with | .sigma _ k _ => decide (k = g.1) | _ => false)))

/-- The grids of a launch are forgotten at its end (13 R274). -/
def State.dropGrids (s : State) (l : Option Nat) : State :=
  let gone := (s.grids.filter (fun g => decide (g.2.launch = l))).map (·.1)
  { s with grids := s.grids.filter (fun g => decide (g.1 ∉ gone)), fills := s.fills.filter (fun f => decide (f.2.grid ∉ gone)) }

end Sys2Proof.Machine
end

