-- ==== Sys2Proof/Machine/Vector.lean ====
section
/-! DEFINITION. Sys2Proof/Machine/Vector.lean: what a vector port computes (06 R119, R122; 08 R156 to R179, R183, R184). -/

namespace Sys2Proof.Machine

/-! ## Formats and lanes (08 R157 to R160) -/

/-- Class A: integers. -/
def fmtA (f : Nat) : Bool := decide (1 ≤ f ∧ f ≤ 8)
/-- Class F: f16, bf16 and f32. -/
def fmtF (f : Nat) : Bool := decide (9 ≤ f ∧ f ≤ 11)
/-- Classes A, F, N and Q. -/
def fmtAll (f : Nat) : Bool := fmtA f || fmtF f || decide (13 ≤ f ∧ f ≤ 16)
/-- The elements of a register. -/
def lanes (f : Nat) : Nat := 1024 / (if codeBits f = 0 then 1 else codeBits f)

/-- Element `i` of `b` bits. -/
def lane {k : Nat} (v : BitVec k) (b i : Nat) : Nat := bitsAt v (b * i) b
/-- A register with element `i` replaced. -/
def setLane {k : Nat} (v : BitVec k) (b i x : Nat) : BitVec k := putBits v (b * i) b x

/-- A vector register. -/
def Port.vreg (q : Port) (n : Nat) : VWord := SMap.at 0 q.v n
/-- A predicate. -/
def Port.preg (q : Port) (n : Nat) : BitVec 256 := SMap.at 0 q.q n
/-- Replace a vector register. -/
def Port.setV (q : Port) (n : Nat) (v : VWord) : Port := { q with v := SMap.put q.v n v }
/-- Replace a predicate. -/
def Port.setP (q : Port) (n : Nat) (v : BitVec 256) : Port := { q with q := SMap.put q.q n v }
/-- Raise sticky flags of `VPCFG`. -/
def Port.raise (q : Port) (f : BitVec 5) : Port := { q with cfg := q.cfg ||| (f.setWidth 64 <<< 16) }
/-- Whether element `i` is active under a predicate number (08 R160). -/
def Port.active (q : Port) (qp i : Nat) : Bool := decide (qp = 0) || bitOf (q.preg qp) i

/-- Replace the active lanes of a register by `f`, and gather the flags. -/
def mapLanes (old : VWord) (b n : Nat) (act : Nat → Bool) (f : Nat → Nat × BitVec 5) : VWord × BitVec 5 :=
  (List.range n).foldl (fun (a : VWord × BitVec 5) i =>
    if act i then let r := f i; (setLane a.1 b i r.1, a.2 ||| r.2) else a) (old, 0)

/-! ## Elementwise (08 R168 to R170) -/

/-- The arithmetic of one element. -/
inductive VOp where
  | add | sub | mul | hi | fma | min | max | abs | neg
deriving DecidableEq, Repr

/-- An integer result: exact, then saturated or wrapped. -/
def intResult (f : Nat) (sat_ : Bool) (v : Int) : Nat := wrapTo (intBits f) (if sat_ then sat f v else v)

/-- One element of format `f`: `a`, `b`, and the old destination `d`. -/
def VOp.apply (o : VOp) (f rm : Nat) (sat_ : Bool) (a b d : Nat) : Nat × BitVec 5 :=
  if isFloatCode f then
    let g := codeFmt f
    match o with
    | .add => fAdd g rm sat_ a b
    | .sub => fSub g rm sat_ a b
    | .mul => fMul g rm sat_ a b
    | .hi => (0, 0)
    | .fma => fMad g rm sat_ a b d
    | .min => (fPick g false a b, 0)
    | .max => (fPick g true a b, 0)
    | .abs => (fSign g a false, 0)
    | .neg => (fSign g a (!fNegBit g a), 0)
  else
    let x := intValue f a
    let y := intValue f b
    match o with
    | .add => (intResult f sat_ (x + y), 0)
    | .sub => (intResult f sat_ (x - y), 0)
    | .mul => (intResult f sat_ (x * y), 0)
    | .hi => (intResult f sat_ (x * y / 2 ^ intBits f), 0)
    | .fma => (intResult f sat_ (intValue f d + x * y), 0)
    | .min => (wrapTo (intBits f) (if x ≤ y then x else y), 0)
    | .max => (wrapTo (intBits f) (if x ≤ y then y else x), 0)
    | .abs => (intResult f sat_ (if x < 0 then -x else x), 0)
    | .neg => (intResult f sat_ (-x), 0)

/-- A shift of a `w`-bit element: 0 left, 1 right, 2 arithmetic right, 3 rotate right. -/
def vShift (k w a count : Nat) : Nat :=
  let c := count % (if w = 0 then 1 else w)
  if k = 0 then a * 2 ^ c % 2 ^ w
  else if k = 1 then a / 2 ^ c
  else if k = 2 then wrapTo w (signedOf w a / (2 ^ c : Int))
  else (a / 2 ^ c + a * 2 ^ (w - c)) % 2 ^ w

/-- `VCMP`'s conditions (08 R170). -/
def vCompare (f c a b : Nat) : Bool :=
  if isFloatCode f then fCompare (codeFmt f) c a b
  else
    let x := intValue f a
    let y := intValue f b
    if c = 0 then decide (x = y) else if c = 1 then decide (x ≠ y) else if c = 2 then decide (x < y) else decide (x ≤ y)

/-! ## Conversion (08 R172) -/

/-- The source format of a `VCVT` FN4 code. -/
def cvtSource (k : Nat) : Nat := [11, 9, 10, 5, 6, 3, 4, 1, 2, 15, 16, 7, 8, 13, 14].getD k 0
/-- A grouped code. -/
def fmtQ (f : Nat) : Bool := decide (f = 13 ∨ f = 14)
/-- Whether a side may be converted to or from a grouped code. -/
def cvtLanes (src dst : Nat) : Nat := if fmtQ src || fmtQ dst then 32 else min (lanes src) (lanes dst)

/-- The scale entry and parts of a `VCVT`: e, pd, pa, rt. -/
def cvtParts (xs : Option Word) (cfg : Word) : Nat × Nat × Nat × Nat :=
  match xs with
  | some v => (bitsAt v 0 32, bitsAt v 32 3, bitsAt v 36 3, bitsAt v 39 1)
  | none => (bitsAt cfg 32 32, 0, 0, 0)

/-- Whether a `VCVT`'s formats and parts are reserved. -/
def cvtBad (src dst : Nat) (p : Nat × Nat × Nat × Nat) : Bool :=
  let qpart := fmtQ src || fmtQ dst
  let c := cvtLanes src dst
  !fmtAll dst || (qpart && ((fmtQ src && fmtQ dst) || !fmtF (if fmtQ src then dst else src))) ||
    decide (lanes src < (p.2.2.1 + 1) * c) || decide (lanes dst < (p.2.1 + 1) * c) || (decide (p.2.2.2 = 1) && qpart)

/-- One converted element. -/
def cvtOne (src dst rm : Nat) (sat_ : Bool) (e v : Nat) : Nat × BitVec 5 :=
  let z := e / 2 ^ 16 % 2 ^ 8
  let sc := e % 2 ^ 16
  if fmtQ dst then qenc (elemValue src v) z sc (codeBits dst)
  else if fmtQ src then roundF (codeFmt dst) rm sat_ (qval v z sc)
  else if isFloatCode dst then roundF (codeFmt dst) rm sat_ (elemValue src v)
  else if isFloatCode src then toInt dst rm (elemValue src v)
  else (intResult dst sat_ (intValue src v), 0)

/-! ## Reductions (06 R119; 08 R174, R175) -/

/-- The reduction of some elements: 0 ADD, 1 MIN, 2 MAX, 3 AND, 4 OR, 5 XOR. -/
def vReduce (op f rm : Nat) (sat_ : Bool) (l : List Nat) : Nat × BitVec 5 :=
  if isFloatCode f then
    let g := codeFmt f
    if op = 0 then
      match l with
      | [] => (g.zero false, 0)
      | a :: r =>
        let v := r.foldl (fun x y => fSum rm x (g.value y)) (g.value a)
        let inf (n : Bool) : Bool := l.any (fun x => (g.value x).isInf && decide ((g.value x).isNeg = n))
        let z := roundF g rm sat_ v
        (z.1, z.2 ||| (if inf true && inf false then fNV else 0))
    else
      match l with
      | [] => (g.inf (decide (op = 2)), 0)
      | a :: r => (r.foldl (fun x y => fPick g (decide (op = 2)) x y) (fPick g (decide (op = 2)) a a), 0)
  else
    let w := intBits f
    if op = 0 then (intResult f sat_ ((l.map (intValue f)).sum), 0)
    else if op = 1 then (wrapTo w (l.foldl (fun x y => min x (intValue f y)) (intMax f)), 0)
    else if op = 2 then (wrapTo w (l.foldl (fun x y => max x (intValue f y)) (intMin f)), 0)
    else if op = 3 then (l.foldl (· &&& ·) (2 ^ w - 1), 0)
    else if op = 4 then (l.foldl (· ||| ·) 0, 0)
    else (l.foldl (· ^^^ ·) 0, 0)

/-! ## Sorting (08 R184) -/

/-- A pair: key, index and position. -/
structure SortPair where
  key : Nat
  idx : Nat
  pos : Nat
deriving DecidableEq, Repr

/-- Whether a key lies below another on the key line; `n` puts NaN below. -/
def keyLess (f : Nat) (n : Bool) (a b : Nat) : Bool :=
  if isFloatCode f then
    let g := codeFmt f
    let x := g.value a
    let y := g.value b
    if x.isNan && y.isNan then false
    else if x.isNan then n
    else if y.isNan then !n
    else fLess x y || (x.isZero && y.isZero && x.isNeg && !y.isNeg)
  else decide (intValue f a < intValue f b)

/-- Whether pair `p` comes before `r`. -/
def pairBefore (f : Nat) (d n : Bool) (p r : SortPair) : Bool :=
  if keyLess f n p.key r.key then !d
  else if keyLess f n r.key p.key then d
  else if p.idx ≠ r.idx then decide (p.idx < r.idx)
  else decide (p.pos < r.pos)

/-- Insert a pair into a sorted list. -/
def insPair (f : Nat) (d n : Bool) (p : SortPair) : List SortPair → List SortPair
  | [] => [p]
  | r :: l => if pairBefore f d n p r then p :: r :: l else r :: insPair f d n p l

/-- The active pairs of an even register's run, with positions from `base`. -/
def Port.pairs (q : Port) (qp f a base : Nat) : List SortPair :=
  let c := min (lanes f) 32
  ((List.range c).filter (q.active qp)).map (fun j => ⟨lane (q.vreg a) (codeBits f) j, lane (q.vreg (a + 1)) 32 j, base + j⟩)

/-- Write sorted pairs into lanes 0 up of `vd` and `vd + 1`. -/
def Port.putPairs (q : Port) (f d : Nat) (l : List SortPair) : Port :=
  let keys := (l.zipIdx).foldl (fun v p => setLane v (codeBits f) p.2 p.1.key) (q.vreg d)
  let idxs := (l.zipIdx).foldl (fun v p => setLane v 32 p.2 p.1.idx) (q.vreg (d + 1))
  (q.setV d keys).setV (d + 1) idxs

/-! ## Checks at issue (08 R159, R162) -/

/-- The scalar operand of a vector instruction: a broadcast, an index, a stride or a parts word. -/
def bReg (b : VReg) : Reg := b.setWidth 4

/-- The registers whose values a vector instruction takes at issue. -/
def vScalars : Instr → List Reg
  | .vadd sg _ _ _ _ b => if sg = 1 then [bReg b] else []
  | .vsub sg _ _ _ _ b => if sg = 1 then [bReg b] else []
  | .vmul sg _ _ _ _ b => if sg = 1 then [bReg b] else []
  | .vfma sg _ _ _ _ b => if sg = 1 then [bReg b] else []
  | .vmin sg _ _ _ b => if sg = 1 then [bReg b] else []
  | .vmax sg _ _ _ b => if sg = 1 then [bReg b] else []
  | .vand sg _ _ _ b => if sg = 1 then [bReg b] else []
  | .vor sg _ _ _ b => if sg = 1 then [bReg b] else []
  | .vxor sg _ _ _ b => if sg = 1 then [bReg b] else []
  | .vshl sg _ _ _ b => if sg = 1 then [bReg b] else []
  | .vshr sg _ _ _ _ b => if sg = 1 then [bReg b] else []
  | .vcmp sg _ _ _ _ b => if sg = 1 then [bReg b] else []
  | .vsel sg _ _ _ b => if sg = 1 then [bReg b] else []
  | .vcvt sg _ _ _ _ b => if sg = 1 then [bReg b] else []
  | .vbcast _ _ _ _ b => [b]
  | .vmovx f _ a b => if f = 1 ∨ f = 3 then [b, bReg a] else [b]
  | .vld sg _ _ a b => if sg = 1 then [a, bReg b] else [a]
  | .vst sg _ _ a b => if sg = 1 then [a, bReg b] else [a]
  | .vtopk _ _ _ _ b => [b]
  | .plog sg _ _ _ b => if sg = 1 then [bReg b] else []
  | .rep _ _ a => [a]
  | .vgath a _ _ _ _ _ _ => [a]
  | .vscat a _ _ _ _ _ _ => [a]
  | _ => []

/-- The rounding field of a vector instruction, when it has one. -/
def vRound : Instr → Nat
  | .vadd _ f _ _ _ _ => f.toNat
  | .vsub _ f _ _ _ _ => f.toNat
  | .vmul _ f _ _ _ _ => if f = 4 then 0 else f.toNat
  | .vfma _ f _ _ _ _ => f.toNat
  | _ => 0

/-- An odd register. -/
def oddReg (r : VReg) : Bool := decide (r.toNat % 2 = 1)

/-- Whether a format or an operand of a vector instruction is reserved (08 R159, R168 to R184): RESERVED_BITS. -/
def vBad (i : Instr) (f : Nat) (xs : List Word) (cfg : Word) : Bool :=
  let x := (xs.getD 0 0).toNat
  let af := fmtA f || fmtF f
  let round (k : Nat) : Bool := !af || (decide (k ≠ 0) && !fmtF f)
  let sortable := decide (1 ≤ f ∧ f ≤ 6) || fmtF f
  match i with
  | .vadd _ k _ _ _ _ => round k.toNat
  | .vsub _ k _ _ _ _ => round k.toNat
  | .vmul _ k _ _ _ _ => if k = 4 then !fmtA f else round k.toNat
  | .vfma _ k _ _ _ _ => round k.toNat
  | .vmin _ _ _ _ _ => !af
  | .vmax _ _ _ _ _ => !af
  | .vabs _ _ _ => !af
  | .vneg _ _ _ => !af
  | .vcmp _ k _ _ _ _ => !af || (decide (k = 4) && !fmtF f)
  | .vred k _ _ _ => !af || (decide (3 ≤ k.toNat) && !fmtA f)
  | .vscan k _ _ _ => !af || (decide (3 ≤ k.toNat % 8) && !fmtA f)
  | .vshl _ _ _ _ _ => !fmtA f
  | .vshr _ _ _ _ _ _ => !fmtA f
  | .vand _ _ _ _ _ => !fmtAll f
  | .vor _ _ _ _ _ => !fmtAll f
  | .vxor _ _ _ _ _ => !fmtAll f
  | .vsel _ _ _ _ _ => !fmtAll f
  | .vperm _ _ _ _ => !fmtAll f
  | .vbcast k _ _ _ _ => !fmtAll f || (decide (k = 1) && decide (lanes f ≤ x))
  | .vmovx k _ _ _ => !fmtAll f || (if k.toNat < 2 then decide (lanes f ≤ x) else decide (4 ≤ x))
  | .vld sg _ _ _ _ => !fmtAll f || (decide (sg = 1) && decide (codeBits f = 4))
  | .vst sg _ _ _ _ => !fmtAll f || (decide (sg = 1) && decide (codeBits f = 4))
  | .vgath _ _ p _ _ _ _ => !(af || decide (f = 14)) || decide (lanes f < (p.toNat + 1) * min (lanes f) 32)
  | .vscat _ _ p _ _ _ _ => !(af || decide (f = 14)) || decide (lanes f < (p.toNat + 1) * min (lanes f) 32)
  | .vcvt sg k _ _ _ _ => cvtBad (cvtSource k.toNat) f (cvtParts (if sg = 1 then xs.head? else none) cfg)
  | .vapx _ _ _ _ => !fmtF f
  | .vsort _ _ _ d a => !sortable || oddReg d || oddReg a
  | .vmerge _ _ _ _ d a b => !sortable || oddReg d || oddReg a || oddReg b
  | .vtopk _ _ d a _ => !sortable || oddReg d || oddReg a || decide (min (lanes f) 32 < x)
  | _ => false

/-- The format and saturation in force: a prefix, or the port's default. -/
def vFormat (pfx : Option (BitVec 8)) (cfg : Word) : Nat × Bool :=
  match pfx with
  | some p => (bitsAt p 0 5, bitOf p 7)
  | none => (bitsAt cfg 0 5, bitOf cfg 7)

/-- An entry with everything fixed at issue. -/
def vEntry (i : Instr) (x : Ctx) (pfx : Option (BitVec 8)) (cfg : Word) : VEntry :=
  let f := vFormat pfx cfg
  { ins := i, fmt := f.1, sat := f.2, rm := rrMode (BitVec.ofNat 3 (bitsAt cfg 8 3)) (vRound i), xs := (vScalars i).map x.reg }

/-- The pending prefix of a thread. -/
def Ctx.prefix? (x : Ctx) : Option (BitVec 8) := if x.sta.pp then some x.sta.pfx else none

/-! ## Execution of an entry that uses the port alone -/

/-- The lanes of operand `b`: a register, or the broadcast scalar. -/
def Port.operand (q : Port) (e : VEntry) (sg : BitVec 1) (b : Nat) (i : Nat) : Nat :=
  if sg = 1 then (e.xs.getD 0 0).toNat % 2 ^ codeBits e.fmt else lane (q.vreg b) (codeBits e.fmt) i

/-- An elementwise instruction. -/
def Port.elementwise (q : Port) (e : VEntry) (qp d : Nat) (f : Nat → Nat × BitVec 5) : Port :=
  let r := mapLanes (q.vreg d) (codeBits e.fmt) (lanes e.fmt) (q.active qp) f
  (q.setV d r.1).raise r.2

/-- An arithmetic instruction. -/
def Port.arith (q : Port) (e : VEntry) (o : VOp) (sg : BitVec 1) (qp d a b : Nat) : Port :=
  let w := codeBits e.fmt
  q.elementwise e qp d (fun i => o.apply e.fmt e.rm e.sat (lane (q.vreg a) w i) (q.operand e sg b i) (lane (q.vreg d) w i))

/-- A bitwise instruction or a shift. -/
def Port.bitwise (q : Port) (e : VEntry) (sg : BitVec 1) (qp d a b : Nat) (f : Nat → Nat → Nat) : Port :=
  q.elementwise e qp d (fun i => (f (lane (q.vreg a) (codeBits e.fmt) i) (q.operand e sg b i), 0))

/-- The active elements of a register with an index below `k`. -/
def Port.members (q : Port) (e : VEntry) (qp a k : Nat) : List Nat :=
  ((List.range k).filter (q.active qp)).map (lane (q.vreg a) (codeBits e.fmt))

/-- What an instruction of the port computes, with its vector register fields moved up by `o` (08 R166). -/
def Port.compute (q : Port) (e : VEntry) (o : Nat) : Port :=
  let r (v : VReg) : Nat := (v.toNat + o) % 32
  let w := codeBits e.fmt
  let n := lanes e.fmt
  let x := (e.xs.getD 0 0).toNat
  match e.ins with
  | .vadd sg _ p d a b => q.arith e .add sg p.toNat (r d) (r a) (r b)
  | .vsub sg _ p d a b => q.arith e .sub sg p.toNat (r d) (r a) (r b)
  | .vmul sg k p d a b => q.arith e (if k = 4 then .hi else .mul) sg p.toNat (r d) (r a) (r b)
  | .vfma sg _ p d a b => q.arith e .fma sg p.toNat (r d) (r a) (r b)
  | .vmin sg p d a b => q.arith e .min sg p.toNat (r d) (r a) (r b)
  | .vmax sg p d a b => q.arith e .max sg p.toNat (r d) (r a) (r b)
  | .vabs p d a => q.arith e .abs 0 p.toNat (r d) (r a) (r a)
  | .vneg p d a => q.arith e .neg 0 p.toNat (r d) (r a) (r a)
  | .vand sg p d a b => q.bitwise e sg p.toNat (r d) (r a) (r b) (· &&& ·)
  | .vor sg p d a b => q.bitwise e sg p.toNat (r d) (r a) (r b) (· ||| ·)
  | .vxor sg p d a b => q.bitwise e sg p.toNat (r d) (r a) (r b) (· ^^^ ·)
  | .vshl sg p d a b => q.bitwise e sg p.toNat (r d) (r a) (r b) (vShift 0 w)
  | .vshr sg k p d a b => q.bitwise e sg p.toNat (r d) (r a) (r b) (vShift (k.toNat + 1) w)
  | .vcmp sg k p d a b =>
    let bit (m : BitVec 256) (i : Nat) : BitVec 256 :=
      if q.active p.toNat i then putBits m i 1 (vCompare e.fmt k.toNat (lane (q.vreg (r a)) w i) (q.operand e sg (r b) i)).toNat else m
    q.setP d.toNat ((List.range n).foldl bit (BitVec.ofNat 256 ((q.preg d.toNat).toNat % 2 ^ n)))
  | .vsel sg p d a b =>
    q.setV (r d) (mapLanes (q.vreg (r d)) w n (fun _ => true) (fun i =>
      (if q.active p.toNat i then lane (q.vreg (r a)) w i else q.operand e sg (r b) i, 0))).1
  | .vcvt sg k p d a _ =>
    let src := cvtSource k.toNat
    let pt := cvtParts (if sg = 1 then e.xs.head? else none) q.cfg
    let c := cvtLanes src e.fmt
    let rm := if pt.2.2.2 = 1 then 1 else e.rm
    let z := mapLanes (q.vreg (r d)) w n (fun i => decide (i / (if c = 0 then 1 else c) = pt.2.1) && q.active p.toNat i) (fun i =>
      cvtOne src e.fmt rm e.sat pt.1 (lane (q.vreg (r a)) (codeBits src) (pt.2.2.1 * c + (i - pt.2.1 * c))))
    (q.setV (r d) z.1).raise z.2
  | .vapx k p d a => q.elementwise e p.toNat (r d) (fun i => apx k.toNat (codeFmt e.fmt) (lane (q.vreg (r a)) w i))
  | .vred k p d a =>
    let z := vReduce k.toNat e.fmt e.rm e.sat (q.members e p.toNat (r a) n)
    (q.setV (r d) (BitVec.ofNat 1024 (z.1 % 2 ^ w))).raise z.2
  | .vscan k p d a =>
    q.elementwise e p.toNat (r d) (fun i =>
      vReduce (k.toNat % 8) e.fmt e.rm e.sat (q.members e p.toNat (r a) (if 8 ≤ k.toNat then i else i + 1)))
  | .vperm p d a b =>
    q.elementwise e p.toNat (r d) (fun i =>
      let k := lane (q.vreg (r b)) w i
      (if k < n then lane (q.vreg (r a)) w k else 0, 0))
  | .vbcast k p d a _ =>
    q.elementwise e p.toNat (r d) (fun _ => (if k = 1 then lane (q.vreg (r a)) w x else x % 2 ^ w, 0))
  | .vmovx k d _ _ =>
    let v := (e.xs.getD 1 0).toNat
    if k = 1 then q.setV (r d) (setLane (q.vreg (r d)) w x v)
    else if k = 3 then q.setP (d.toNat % 8) (setLane (q.preg (d.toNat % 8)) 64 x v)
    else q
  | .vsort m k p d a =>
    q.putPairs e.fmt d.toNat ((q.pairs p.toNat e.fmt a.toNat 0).foldr (insPair e.fmt (decide (k = 1)) (decide (m = 1))) [])
  | .vmerge h m k p d a b =>
    let c := min n 32
    let l := (q.pairs p.toNat e.fmt a.toNat 0 ++ q.pairs p.toNat e.fmt b.toNat c).foldr (insPair e.fmt (decide (k = 1)) (decide (m = 1))) []
    q.putPairs e.fmt d.toNat ((l.drop (h.toNat * c)).take c)
  | .vtopk m p d a _ =>
    q.putPairs e.fmt d.toNat (((q.pairs p.toNat e.fmt a.toNat 0).foldr (insPair e.fmt true (decide (m = 1))) []).take x)
  | .plog _ k d a b =>
    let u := q.preg a.toNat
    let v := q.preg (b.toNat % 8)
    let z : BitVec 256 :=
      if k = 0 then u &&& v else if k = 1 then u ||| v else if k = 2 then u ^^^ v else if k = 3 then u &&& ~~~v
      else if k = 4 then ~~~u else if k = 5 then BitVec.allOnes 256 else if k = 6 then 0
      else BitVec.ofNat 256 (2 ^ min x 256 - 1)
    q.setP d.toNat z
  | _ => q

/-! ## Poison marks (08 R183) -/

/-- What an instruction reads, what it writes, and whether it writes every element of its destination when QP is 0. -/
structure VUse where
  vsrc : List Nat := []
  psrc : List Nat := []
  vdst : List Nat := []
  pdst : List Nat := []
  whole : Bool := true
  qp : Nat := 0
deriving DecidableEq, Repr

/-- The use of a two-operand form. -/
def use2 (sg : BitVec 1) (p : PReg) (d a b : Nat) : VUse :=
  { vsrc := if sg = 1 then [a] else [a, b], vdst := [d], qp := p.toNat }

/-- The registers that an entry uses, moved up by `o`. -/
def VEntry.use (e : VEntry) (o : Nat) : VUse :=
  let r (v : VReg) : Nat := (v.toNat + o) % 32
  let full := decide (min (lanes e.fmt) 32 = lanes e.fmt) && decide (lanes e.fmt = 32)
  match e.ins with
  | .vadd sg _ p d a b => use2 sg p (r d) (r a) (r b)
  | .vsub sg _ p d a b => use2 sg p (r d) (r a) (r b)
  | .vmul sg _ p d a b => use2 sg p (r d) (r a) (r b)
  | .vfma sg _ p d a b => { use2 sg p (r d) (r a) (r b) with vsrc := r d :: (use2 sg p (r d) (r a) (r b)).vsrc }
  | .vmin sg p d a b => use2 sg p (r d) (r a) (r b)
  | .vmax sg p d a b => use2 sg p (r d) (r a) (r b)
  | .vand sg p d a b => use2 sg p (r d) (r a) (r b)
  | .vor sg p d a b => use2 sg p (r d) (r a) (r b)
  | .vxor sg p d a b => use2 sg p (r d) (r a) (r b)
  | .vshl sg p d a b => use2 sg p (r d) (r a) (r b)
  | .vshr sg _ p d a b => use2 sg p (r d) (r a) (r b)
  | .vcmp sg _ p d a b => { vsrc := if sg = 1 then [r a] else [r a, r b], pdst := [d.toNat], qp := p.toNat }
  | .vsel sg p d a b => use2 sg p (r d) (r a) (r b)
  | .vcvt _ k p d a _ => { vsrc := [r a], vdst := [r d], qp := p.toNat, whole := decide (cvtLanes (cvtSource k.toNat) e.fmt = lanes e.fmt) }
  | .vapx _ p d a => { vsrc := [r a], vdst := [r d], qp := p.toNat }
  | .vabs p d a => { vsrc := [r a], vdst := [r d], qp := p.toNat }
  | .vneg p d a => { vsrc := [r a], vdst := [r d], qp := p.toNat }
  | .vred _ p d a => { vsrc := [r a], vdst := [r d], qp := p.toNat }
  | .vscan _ p d a => { vsrc := [r a], vdst := [r d], qp := p.toNat }
  | .vperm p d a b => { vsrc := [r a, r b], vdst := [r d], qp := p.toNat }
  | .vbcast k p d a _ => { vsrc := if k = 1 then [r a] else [], vdst := [r d], qp := p.toNat }
  | .vmovx k d _ _ => if k = 1 then { vdst := [r d], whole := false } else if k = 3 then { pdst := [d.toNat % 8], whole := false } else {}
  | .vld _ p d _ _ => { vdst := [r d], qp := p.toNat }
  | .vst _ p d _ _ => { vsrc := [r d], qp := p.toNat }
  | .vsort _ _ p d a => { vsrc := [a.toNat, a.toNat + 1], vdst := [d.toNat, d.toNat + 1], qp := p.toNat, whole := full }
  | .vmerge _ _ _ p d a b =>
    { vsrc := [a.toNat, a.toNat + 1, b.toNat, b.toNat + 1], vdst := [d.toNat, d.toNat + 1], qp := p.toNat, whole := full }
  | .vtopk _ p d a _ =>
    { vsrc := [a.toNat, a.toNat + 1], vdst := [d.toNat, d.toNat + 1], qp := p.toNat,
      whole := full && decide (lanes e.fmt ≤ (e.xs.getD 0 0).toNat) }
  | .plog _ k d a b =>
    { psrc := if k.toNat < 4 then [a.toNat, b.toNat % 8] else if k = 4 then [a.toNat] else [], pdst := [d.toNat] }
  | _ => {}

/-- Whether a use reads anything marked. -/
def Port.marked (q : Port) (u : VUse) : Bool :=
  u.vsrc.any (fun n => bitOf q.vpoison n) || u.psrc.any (fun n => bitOf q.qpoison n) || (decide (u.qp ≠ 0) && bitOf q.qpoison u.qp)

/-- The marks after an instruction whose sources were `bad`. -/
def Port.mark (q : Port) (u : VUse) (bad : Bool) : Port :=
  let set {k : Nat} (m : BitVec k) (n : Nat) : BitVec k :=
    if bad then m ||| ((1 : BitVec k) <<< n) else if u.whole ∧ u.qp = 0 then m &&& ~~~((1 : BitVec k) <<< n) else m
  { q with vpoison := u.vdst.foldl set q.vpoison, qpoison := u.pdst.foldl set q.qpoison }

/-- An entry executes on the port alone. -/
def Port.execute (q : Port) (e : VEntry) (o : Nat) : Port :=
  let u := e.use o
  (q.compute e o).mark u (q.marked u)

end Sys2Proof.Machine
end

