-- ==== Sys2Proof/Machine/VectorMem.lean ====
section
/-! DEFINITION. Sys2Proof/Machine/VectorMem.lean: issuing vector instructions, the port's queue and repetition buffer, vector
memory accesses, configuration and the format prefix (05 R85, R86; 08 R161 to R167, R178 to R184). -/

namespace Sys2Proof.Machine

/-- The rows of 05 R82 that a vector instruction is subject to. -/
def vecGate : Gate := { fmt := true, vec := true }

/-- The port of the running context. -/
def State.myPort (s : State) : Port := s.port (coreOf s.cur) (s.ctx s.cur).sta.port.toNat
/-- Change the port of the running context. -/
def State.modMyPort (s : State) (f : Port → Port) : State := s.modPort (coreOf s.cur) (s.ctx s.cur).sta.port.toNat f

/-- The pending prefix is used (05 R86). -/
def State.clearPrefix (s : State) : State :=
  s.modCtx s.cur (fun x => { x with sta := { x.sta with pp := false, pfx := 0 } })

/-- The entry of an instruction that issues now. -/
def State.myEntry (s : State) (i : Instr) : VEntry := vEntry i (s.ctx s.cur) (s.ctx s.cur).prefix? s.myPort.cfg

/-- Put an entry into the port's queue of eight; the thread waits while it is full (02 R30). -/
def State.enqueue (s : State) (e : VEntry) : Res :=
  if 8 ≤ s.myPort.queue.length then .wait s .drain
  else .done ((s.modMyPort (fun q => { q with queue := q.queue ++ [e] })).clearPrefix)

/-- Issue an instruction of the port: its checks, then the queue. -/
def State.vissue (s : State) (i : Instr) : Res :=
  let e := s.myEntry i
  if vBad i e.fmt e.xs s.myPort.cfg then Res.bad Cause.reservedBits else s.enqueue e

/-- VADD (08 R168). -/
def execVadd (sg : BitVec 1) (f : BitVec 4) (q : PReg) (d : VReg) (a : VReg) (b : VReg) (s : State) :
    Host.Outcome State Fault Refusal := goes (s.run vecGate 4 (fun s => s.vissue (.vadd sg f q d a b)))
/-- VSUB (08 R168). -/
def execVsub (sg : BitVec 1) (f : BitVec 4) (q : PReg) (d : VReg) (a : VReg) (b : VReg) (s : State) :
    Host.Outcome State Fault Refusal := goes (s.run vecGate 4 (fun s => s.vissue (.vsub sg f q d a b)))
/-- VMUL (08 R168). -/
def execVmul (sg : BitVec 1) (f : BitVec 4) (q : PReg) (d : VReg) (a : VReg) (b : VReg) (s : State) :
    Host.Outcome State Fault Refusal := goes (s.run vecGate 4 (fun s => s.vissue (.vmul sg f q d a b)))
/-- VFMA (08 R168). -/
def execVfma (sg : BitVec 1) (f : BitVec 4) (q : PReg) (d : VReg) (a : VReg) (b : VReg) (s : State) :
    Host.Outcome State Fault Refusal := goes (s.run vecGate 4 (fun s => s.vissue (.vfma sg f q d a b)))
/-- VMIN (08 R168). -/
def execVmin (sg : BitVec 1) (q : PReg) (d : VReg) (a : VReg) (b : VReg) (s : State) :
    Host.Outcome State Fault Refusal := goes (s.run vecGate 4 (fun s => s.vissue (.vmin sg q d a b)))
/-- VMAX (08 R168). -/
def execVmax (sg : BitVec 1) (q : PReg) (d : VReg) (a : VReg) (b : VReg) (s : State) :
    Host.Outcome State Fault Refusal := goes (s.run vecGate 4 (fun s => s.vissue (.vmax sg q d a b)))
/-- VAND (08 R168). -/
def execVand (sg : BitVec 1) (q : PReg) (d : VReg) (a : VReg) (b : VReg) (s : State) :
    Host.Outcome State Fault Refusal := goes (s.run vecGate 4 (fun s => s.vissue (.vand sg q d a b)))
/-- VOR (08 R168). -/
def execVor (sg : BitVec 1) (q : PReg) (d : VReg) (a : VReg) (b : VReg) (s : State) :
    Host.Outcome State Fault Refusal := goes (s.run vecGate 4 (fun s => s.vissue (.vor sg q d a b)))
/-- VXOR (08 R168). -/
def execVxor (sg : BitVec 1) (q : PReg) (d : VReg) (a : VReg) (b : VReg) (s : State) :
    Host.Outcome State Fault Refusal := goes (s.run vecGate 4 (fun s => s.vissue (.vxor sg q d a b)))
/-- VSHL (08 R169). -/
def execVshl (sg : BitVec 1) (q : PReg) (d : VReg) (a : VReg) (b : VReg) (s : State) :
    Host.Outcome State Fault Refusal := goes (s.run vecGate 4 (fun s => s.vissue (.vshl sg q d a b)))
/-- VSHR (08 R169). -/
def execVshr (sg : BitVec 1) (f : BitVec 4) (q : PReg) (d : VReg) (a : VReg) (b : VReg) (s : State) :
    Host.Outcome State Fault Refusal := goes (s.run vecGate 4 (fun s => s.vissue (.vshr sg f q d a b)))
/-- VCMP (08 R170). -/
def execVcmp (sg : BitVec 1) (f : BitVec 4) (q : PReg) (d : PReg) (a : VReg) (b : VReg) (s : State) :
    Host.Outcome State Fault Refusal := goes (s.run vecGate 4 (fun s => s.vissue (.vcmp sg f q d a b)))
/-- VSEL (08 R171). -/
def execVsel (sg : BitVec 1) (q : PReg) (d : VReg) (a : VReg) (b : VReg) (s : State) :
    Host.Outcome State Fault Refusal := goes (s.run vecGate 4 (fun s => s.vissue (.vsel sg q d a b)))
/-- VCVT (08 R172). -/
def execVcvt (sg : BitVec 1) (f : BitVec 4) (q : PReg) (d : VReg) (a : VReg) (b : VReg) (s : State) :
    Host.Outcome State Fault Refusal := goes (s.run vecGate 4 (fun s => s.vissue (.vcvt sg f q d a b)))
/-- VAPX (08 R173). -/
def execVapx (f : BitVec 4) (q : PReg) (d : VReg) (a : VReg) (s : State) :
    Host.Outcome State Fault Refusal := goes (s.run vecGate 4 (fun s => s.vissue (.vapx f q d a)))
/-- VABS (08 R168). -/
def execVabs (q : PReg) (d : VReg) (a : VReg) (s : State) :
    Host.Outcome State Fault Refusal := goes (s.run vecGate 4 (fun s => s.vissue (.vabs q d a)))
/-- VNEG (08 R168). -/
def execVneg (q : PReg) (d : VReg) (a : VReg) (s : State) :
    Host.Outcome State Fault Refusal := goes (s.run vecGate 4 (fun s => s.vissue (.vneg q d a)))
/-- VRED (08 R174). -/
def execVred (f : BitVec 4) (q : PReg) (d : VReg) (a : VReg) (s : State) :
    Host.Outcome State Fault Refusal := goes (s.run vecGate 4 (fun s => s.vissue (.vred f q d a)))
/-- VSCAN (08 R175). -/
def execVscan (f : BitVec 4) (q : PReg) (d : VReg) (a : VReg) (s : State) :
    Host.Outcome State Fault Refusal := goes (s.run vecGate 4 (fun s => s.vissue (.vscan f q d a)))
/-- VPERM (08 R176). -/
def execVperm (q : PReg) (d : VReg) (a : VReg) (b : VReg) (s : State) :
    Host.Outcome State Fault Refusal := goes (s.run vecGate 4 (fun s => s.vissue (.vperm q d a b)))
/-- VBCAST (08 R177). -/
def execVbcast (f : BitVec 1) (q : PReg) (d a : VReg) (b : Reg) (s : State) : Host.Outcome State Fault Refusal :=
  goes (s.run vecGate 4 (fun s => s.vissue (.vbcast f q d a b)))
/-- VSORT (08 R184). -/
def execVsort (n k : BitVec 1) (q : PReg) (d a : VReg) (s : State) : Host.Outcome State Fault Refusal :=
  goes (s.run vecGate 4 (fun s => s.vissue (.vsort n k q d a)))
/-- VMERGE (08 R184). -/
def execVmerge (h n k : BitVec 1) (q : PReg) (d a b : VReg) (s : State) : Host.Outcome State Fault Refusal :=
  goes (s.run vecGate 4 (fun s => s.vissue (.vmerge h n k q d a b)))
/-- VTOPK (08 R184). -/
def execVtopk (n : BitVec 1) (q : PReg) (d a : VReg) (b : Reg) (s : State) : Host.Outcome State Fault Refusal :=
  goes (s.run vecGate 4 (fun s => s.vissue (.vtopk n q d a b)))
/-- PLOG (08 R179): it takes no format. -/
def execPlog (sg : BitVec 1) (f : BitVec 4) (d a : PReg) (b : VReg) (s : State) : Host.Outcome State Fault Refusal :=
  goes (s.run { vec := true } 4 (fun s => s.vissue (.plog sg f d a b)))

/-- Whether the running context's port has drained. -/
def State.portIdle (s : State) : Bool := s.drained (coreOf s.cur) (s.ctx s.cur).sta.port.toNat

/-- The value that a `VMOVX` variant 0 or 2 returns, with whether its source is marked. -/
def Port.moved (q : Port) (f a w x : Nat) : Nat × Bool :=
  if f = 0 then (lane (q.vreg a) w x, bitOf q.vpoison a) else (lane (q.preg (a % 8)) 64 x, bitOf q.qpoison (a % 8))

/-- VMOVX (08 R178, R183). -/
def execVmovx (f : BitVec 2) (d a : VReg) (b : Reg) (s : State) : Host.Outcome State Fault Refusal :=
  goes (s.run vecGate 4 (fun s =>
    let i : Instr := .vmovx f d a b
    let e := s.myEntry i
    if f = 1 ∨ f = 3 then s.vissue i
    else if vBad i e.fmt e.xs s.myPort.cfg then Res.bad Cause.reservedBits
    else if s.portIdle = false then .wait s .drain
    else
      let r := s.myPort.moved f.toNat a.toNat (codeBits e.fmt) (e.xs.getD 0 0).toNat
      if r.2 then Res.bad Cause.poisonConsumed else .done (s.clearPrefix.setReg (bReg d) (BitVec.ofNat 64 r.1))))

/-! ## Memory (08 R180 to R183) -/

/-- Where one element of a vector access lies, checked in the order of 08 R181. GRID handles admit no vector access (13 R272); the
window's own rules (03 R43) and the egress's checks (18 R433) come last. -/
def State.vecElem (s : State) (ptr : Word) (n need : Nat) (wr : Bool) : Except Cause Tgt :=
  let w := s.who s.cur
  match s.resolve w ptr n need with
  | .error e => .error e.code
  | .ok o =>
    if ptr.toNat % n ≠ 0 then .error Cause.misaligned
    else
      match o with
      | .scratch off => .ok (.mem (s.scratchSegs w.clu off n) false 0)
      | .window off => (match s.windowBad off n wr with | some k => .error k | none => .ok (.window off))
      | .signals off => .ok (.signals off)
      | .table e off =>
        if e.space = 3 then .error Cause.handlePerm
        else if e.space = 5 then
          match s.peerCap w (ptr.toNat / 2 ^ 52) e with
          | .error x => .error x.code
          | .ok cap =>
            match s.egress cap true off n (if wr then 2 else 1) (opBits opcRead 0) none with
            | some x => .error x.code
            | none => .ok (.peer e off)
        else if !footCovers (s.footOf s.cur) (e.base + off) n wr then .error Cause.footprintViolation
        else
          match s.xlateRange w.clu w.part (decide (e.space = 2)) w.sup need (e.base + off) n with
          | .error k => .error k
          | .ok segs => .ok (.mem segs e.keeps e.space)

/-- One element of a checked access: its number, its pointer and where it lies. -/
abbrev VElem := Nat × Word × Tgt

/-- Where some elements (index, pointer) lie, or the fault of the first that fails. -/
def State.vecElems (s : State) (n need : Nat) (wr : Bool) : List (Nat × Word) → Except Exc (List VElem)
  | [] => .ok []
  | (i, p) :: r =>
    match s.vecElem p n need wr with
    | .error k => .error { code := k, addr := p, info := BitVec.ofNat 64 i }
    | .ok t =>
      match State.vecElems s n need wr r with
      | .error e => .error e
      | .ok l => .ok ((i, p, t) :: l)

/-- The locations of an element that lies in memory. -/
def VElem.mem? (e : VElem) : Option (Nat × List Nat) :=
  match e.2.2 with
  | .mem segs _ _ => some (e.1, spanAll segs)
  | _ => none

/-- Whether the line of an element may be kept in the cluster cache. -/
def VElem.keeps (e : VElem) : Bool :=
  match e.2.2 with
  | .mem _ k _ => k
  | _ => false

/-- The detector sees a vector access's elements, one after another: the lines of those that are no-allocate traffic (03 R51). -/
def State.vecStream (s : State) (es : List VElem) : List Nat × State :=
  es.foldl (fun (a : List Nat × State) e =>
    let r := a.2.coreStream e.2.1
    (if r.1 then (linesOf (e.mem?.elim [] (·.2))).foldl addNat a.1 else a.1, r.2)) ([], s)

/-- The lines of elements that may not be kept in the cluster cache. -/
def unkept (es : List VElem) : List Nat :=
  linesOf (es.flatMap (fun e => if e.keeps then [] else e.mem?.elim [] (·.2)))

/-- Check a memory form's active elements, and go on with their locations; with the elements themselves where some do not lie in
memory; and with the lines that are not to be kept. -/
def State.vecCheck (s : State) (ps : List (Nat × Word)) (n need : Nat) (wr : Bool)
    (go : State → List (Nat × List Nat) → List Nat → Res) (far : List VElem → List Nat → State → Res) : Res :=
  match s.vecElems n need wr ps with
  | .error e => .fault e
  | .ok es =>
    let l := es.filterMap VElem.mem?
    let ls := l.flatMap (·.2)
    if !wr && (linesOf ls).any (fun k => s.copyBusy (cluOf s.cur) k) then .wait s (.place (ls.headD 0)) else
    match s.waterHold s.myPart ls with
    | some k => .wait s k
    | none =>
      match ls.find? (s.bankKept s.cur) with
      | some b => .wait s (.bank b)
      | none =>
        let (na, s1) := s.vecStream es
        let no := (unkept es).foldl addNat na
        if l.length = es.length then go s1 l no else far es no s1

/-- The bytes of an element of a format; two elements of 4 bits share one. -/
def elemBytes (f : Nat) : Nat := if codeBits f < 8 then 1 else codeBits f / 8

/-- The element that some bytes hold: element `i` of a 4-bit format is a nibble of its byte. -/
def elemOf (f i v : Nat) : Nat := if codeBits f = 4 then v / 16 ^ (i % 2) % 16 else v

/-- Load elements into a register: the register, whether an element met an error at its place, and the state. -/
def State.vecLoad (s : State) (c f : Nat) (segs : List (Nat × List Nat)) (na : List Nat) (old : VWord) : VWord × Bool × State :=
  let ls := segs.flatMap (·.2)
  let r := s.loadBytes c ls true na
  let n := elemBytes f
  let put (v : VWord) (p : (Nat × List Nat) × Nat) : VWord := setLane v (codeBits f) p.1.1 (elemOf f p.1.1 (leNat ((r.1.drop (n * p.2)).take n)))
  let met := ls.filter (s.fromPlace c true)
  ((segs.zipIdx).foldl put old, (s.errAt met).isSome, r.2.errMet met)

/-- A byte with the bits of a mask replaced. -/
def mergeByte (old b m : Byte) : Byte := (old &&& ~~~m) ||| (b &&& m)

/-- One element's byte and mask: a nibble covers half of its byte. -/
def nibOf (i x : Nat) : Byte × Byte := (BitVec.ofNat 8 (x * 16 ^ (i % 2)), BitVec.ofNat 8 (15 * 16 ^ (i % 2)))

/-- The bytes that elements of a register write, in ascending order, with the bits of each that they write. -/
def vecBytes (f : Nat) (segs : List (Nat × List Nat)) (v : VWord) : List (Nat × Byte × Byte) :=
  segs.foldl (fun (acc : List (Nat × Byte × Byte)) p =>
    let x := lane v (codeBits f) p.1
    if codeBits f = 4 then
      let l := p.2.headD 0
      let (b, m) := nibOf p.1 x
      if acc.any (fun q => decide (q.1 = l)) then
        acc.map (fun q => if q.1 = l then (l, mergeByte q.2.1 b m, q.2.2 ||| m) else q)
      else acc ++ [(l, b, m)]
    else acc ++ (p.2.zip (leBytes (elemBytes f) x)).map (fun b => (b.1, b.2, 0xFF#8))) []

/-- A vector store of some elements: it enters the thread's store buffer. At their places, behind the thread's own bytes and
releases, are written a lone nibble, whose byte keeps its other nibble (08 R181), the one that a baton holder has tagged where it has (15 R358), and a marked register, which leaves poison in
every granule it touches (08 R183). False, with what it asks for, while the store must wait. -/
def State.vecStore (s : State) (c f : Nat) (segs : List (Nat × List Nat)) (v : VWord) (na : List Nat) (bad : Bool)
    (more : Nat := 0) : State × Bool :=
  let bs := vecBytes f segs v
  let ls := bs.map (·.1)
  let lines := linesOf ls
  if bad || bs.any (fun b => decide (b.2.2 ≠ 0xFF#8)) || decide (8 ≤ more) then
    match hasMarker (s.ctx c).buf || lines.any (fun l => s.lockedFor l c), s.flushLines c lines with
    | false, some s1 =>
      let s2 := (s1.place (writerOf c) (bs.map (fun b => (b.1, mergeByte ((s1.taggedByte c b.1).getD (s1.mem.read b.1)) b.2.1 b.2.2)))).untagBytes c ls
      (if bad then { s2 with poison := ls.foldl (fun g l => addNat g (l / 16)) s2.poison } else s2, true)
    | _, _ => ((s.askFlush c lines).askWrites (writerOf c) lines, false)
  else
    match s.bufferBytes c (bs.map (fun b => (b.1, b.2.1))) false false true none more na with
    | some s1 => (s1.untagBytes c ls, true)
    | none => (s.askHeld c 1 (oldestOut (s.ctx c).buf), false)

/-- A buffer behind its first `k` markers: from the next marker on. -/
def fromMarker : Nat → List BufItem → List BufItem
  | _, [] => []
  | 0, .marker m :: r => .marker m :: r
  | k + 1, .marker _ :: r => fromMarker k r
  | k, _ :: r => fromMarker k r

/-- A queued vector store takes its place in the thread's program order: before the last `b` markers, which were placed behind it
(08 R180; 10 R210). -/
def State.vecStoreAt (s : State) (c f b : Nat) (segs : List (Nat × List Nat)) (v : VWord) (na : List Nat) (bad : Bool) : State × Bool :=
  let buf := (s.ctx c).buf
  let back := fromMarker (markersIn buf - b) buf
  let r := (s.modCtx c (fun x => { x with buf := x.buf.take (x.buf.length - back.length) })).vecStore c f segs v na bad (entriesOf back).length
  (r.1.modCtx c (fun x => { x with buf := x.buf ++ back }), r.2)

/-- What a thread whose vector store must wait waits for. -/
def State.vecWhy (s : State) (ls : List Nat) : Why :=
  let b := (s.ctx s.cur).buf
  if hasMarker b then .marker else if 8 ≤ (entriesOf b).length then .buffer else .place (ls.headD 0)

/-! ## Elements outside memory (03 R43; 18 R433; log 35) -/

/-- A request for one element of a vector access, or for the byte of a nibble. -/
def State.farSend (s : State) (e : VElem) (h : HEntry) (off n k : Nat) (data : Option (List Byte)) : Res :=
  match s.stepSend e.2.1 h off n k data with
  | .fault x => .fault { x with info := BitVec.ofNat 64 e.1 }
  | r => r

/-- A step of a vector access waits at a FIFO port. -/
def State.fifoStep (s : State) (k : Nat) : State :=
  let p := s.vecPart s.cur
  s.modCtx s.cur (fun x => { x with vpart := some { p with fifo := some k } })

/-- The bytes of one element of a store through a PEER handle enter the thread's buffer (18 R433). -/
def State.farStore (s : State) (ptr : Word) (off k : Nat) (bs : List Byte) : Res :=
  let ls := span (peerLoc s.myPart (ptr.toNat / 2 ^ 52) off) bs.length
  match s.bufferBytes s.cur (ls.zip bs) false false false with
  | some s1 => .done (s1.noteElem s.cur k 0 false)
  | none => .wait (s.askHeld s.cur 1 (oldestOut (s.ctx s.cur).buf)) (s.vecWhy ls)

/-- One element of a load (`val` none) or of a store of a register. Step `2 i` ends element `i`; a nibble at a peer is read
first, in step `2 i + 1`, unless the thread's buffer holds its byte. -/
def State.farOne (s : State) (f : Nat) (val : Option VWord) (bad : Bool) (na : List Nat) (e : VElem) : Res :=
  let i := e.1
  let c := s.cur
  let n := elemBytes f
  match e.2.2, val with
  | .mem segs _ _, none =>
    let ls := spanAll segs
    if s.readsHeld (cluOf c) (s.fetched c ls) then .wait s (.place (ls.headD 0))
    else
      let r := s.vecLoad c f [(i, ls)] na 0
      .done (r.2.2.noteElem c (2 * i) (lane r.1 (codeBits f) i) r.2.1)
  | .mem segs _ _, some v =>
    (match s.vecStore c f [(i, spanAll segs)] v na bad with
      | (s1, true) => .done (s1.noteElem c (2 * i) 0 false)
      | (s1, false) => .wait s1 (s.vecWhy (spanAll segs)))
  | .window off, none =>
    (match s.windowTake off n with
      | none =>
        let b := (off - 0xD00) / 8
        .wait ((s.fifoStep (2 * i)).modClu (cluOf c) (fun k => { k with fifoWait := SMap.put k.fifoWait b (k.waiters b ++ [(c, 0, none)]) }))
          (.fifo b true)
      | some (v, s1) => .done (s1.noteElem c (2 * i) (elemOf f i v) false))
  | .window off, some v =>
    (match s.windowStore e.2.1 off n (BitVec.ofNat 64 (lane v (codeBits f) i)) with
      | .done s1 => .done (s1.noteElem c (2 * i) 0 false)
      | .fault x => .fault { x with info := BitVec.ofNat 64 i }
      | .wait s1 (.fifo b p) => .wait (s1.fifoStep (2 * i)) (.fifo b p)
      | r => r)
  | .signals off, none =>
    (match s.domainOf c with
      | none => Res.bad Cause.handleInvalid e.2.1 (BitVec.ofNat 64 i)
      | some (_, d) => .done (s.noteElem c (2 * i) (elemOf f i (leNat ((span off n).map d.windowByte))) false))
  | .peer h off, none => s.farSend e h off n (2 * i) none
  | .peer h off, some v =>
    let x := lane v (codeBits f) i
    if codeBits f = 4 then
      let put (old : Byte) : Res := s.farStore e.2.1 off (2 * i) [mergeByte old (nibOf i x).1 (nibOf i x).2]
      match ownByte (s.ctx c).buf (peerLoc s.myPart (e.2.1.toNat / 2 ^ 52) off), (s.vecPart c).got.find? (fun g => decide (g.1 = 2 * i + 1)) with
      | some old, _ => put old
      | none, none => s.farSend e h off n (2 * i + 1) none
      | none, some (_, old) => put (BitVec.ofNat 8 old)
    else s.farStore e.2.1 off (2 * i) (leBytes n x)
  | _, _ => Res.bad Cause.handlePerm e.2.1 (BitVec.ofNat 64 i)

/-- A value of a 4-bit or wider element that an answer brought. -/
def VPart.value (p : VPart) (f : Nat) (far : Bool) (i : Nat) : Nat :=
  let v := ((p.got.find? (fun g => decide (g.1 = 2 * i))).map (·.2)).getD 0
  if far then elemOf f i v else v

/-- Whether an element lies at a peer. -/
def VElem.far (e : VElem) : Bool :=
  match e.2.2 with
  | .peer _ _ => true
  | _ => false

/-- A vector access whose elements do not all lie in memory: once the port has reached it, element by element in ascending order,
each for itself (08 R180), the thread waiting for each answer. DESIGN CHOICE: the spec does not say what the port does with
such elements (log 35). -/
def State.vecFar (f : Nat) (u : VUse) (d : Nat) (val : Option VWord) (es : List VElem) (na : List Nat) (s : State) : Res :=
  let c := s.cur
  let bad := s.myPort.marked u
  let todo := es.filter (fun e => !(s.vecPart c).got.any (fun g => decide (g.1 = 2 * e.1)))
  let r := todo.foldl (fun (r : Res) e => match r with | .done s1 => s1.farOne f val bad na e | r => r) (.done s)
  if s.portIdle = false then .wait s .drain
  else
    match r with
    | .done s1 =>
      let p := s1.vecPart c
      let s2 := (s1.modCtx c (fun x => { x with vpart := none })).clearPrefix
      if val.isSome then .done s2
      else
        .done (s2.modMyPort (fun q => (q.setV d (es.foldl (fun v e => setLane v (codeBits f) e.1 (p.value f e.far e.1)) (q.vreg d))).mark u
          (p.bad || q.marked u)))
    | r => r

/-- Issue `VLD` or `VST`: its active elements are checked and translated once the predicate is known. -/
def State.vmem (s : State) (i : Instr) (qp d : Nat) (need : Nat) (wr : Bool) : Res :=
  let e := s.myEntry i
  let q := s.myPort
  if vBad i e.fmt e.xs q.cfg then Res.bad Cause.reservedBits
  else if qp ≠ 0 ∧ s.portIdle = false then .wait s .drain
  else if 8 ≤ q.queue.length then .wait s .drain
  else
    let b := codeBits e.fmt
    let at_ (k : Nat) : Word := (e.xs.getD 0 0) +
      (match e.xs[1]? with
        | some st => BitVec.ofNat 64 k * st
        | none => BitVec.ofNat 64 (k * b / 8))
    let ps := ((List.range (lanes e.fmt)).filter (q.active qp)).map (fun k => (k, at_ k))
    s.vecCheck ps (elemBytes e.fmt) need wr (fun s l na => s.enqueue { e with segs := l, keep := true, na := na })
      (State.vecFar e.fmt (e.use 0) d (if wr then some (q.vreg d) else none))

/-- VLD. -/
def execVld (sg : BitVec 1) (q : PReg) (d : VReg) (a : Reg) (b : VReg) (s : State) : Host.Outcome State Fault Refusal :=
  goes (s.run vecGate 4 (fun s => s.vmem (.vld sg q d a b) q.toNat d.toNat needR false))
/-- VST. -/
def execVst (sg : BitVec 1) (q : PReg) (d : VReg) (a : Reg) (b : VReg) (s : State) : Host.Outcome State Fault Refusal :=
  goes (s.run vecGate 4 (fun s => s.vmem (.vst sg q d a b) q.toNat d.toNat needW true))

/-- The head entry of a port leaves its queue. -/
def Port.pop (q : Port) : Port := { q with queue := q.queue.drop 1 }

/-- Whether an engine's state is held for a save record (17 R404). -/
def State.engKept (s : State) (core e : Nat) : Bool := (s.core core).engHeld.any (fun h => decide (h.1 = e))

/-- A port executes the entry at the head of its queue for the context bound to it (08 R161, R166): a `REP` starts its passes,
or, with none to run, frees the buffer. -/
def State.portStep (s : State) (core p : Nat) : State :=
  let q := s.port core p
  match q.queue, s.engineUser core p with
  | e :: _, some c =>
    let ls := e.segs.flatMap (·.2)
    if s.engKept core p || q.rep.isSome || (e.isMem && (s.waterHold (s.ctx c).part ls).isSome) then s
    else if e.isMem && ls.any (s.bankKept c) then
      (match ls.find? (s.bankKept c) with
        | some l => s.saveHeldAt l
        | none => s)
    else
      match e.ins with
      | .rep _ _ _ =>
        s.modPort core p (fun q => if e.xs.getD 0 0 = 0 then { q.pop with repBuf := [] } else { q with rep := some 0 })
      | .vld _ _ d _ _ =>
        if s.readsHeld (cluOf c) (s.fetched c ls) || (linesOf ls).any (fun l => s.copyBusy (cluOf c) l) then s
        else
          let (v, bad, s1) := s.vecLoad c e.fmt e.segs e.na (q.vreg d.toNat)
          s1.modPort core p (fun q => ((q.setV d.toNat v).mark (e.use 0) (bad || q.marked (e.use 0))).pop)
      | .vst _ _ d _ _ =>
        (match s.vecStoreAt c e.fmt e.behind e.segs (q.vreg d.toNat) e.na (q.marked (e.use 0)) with
          | (s1, false) => s1
          | (s1, true) => s1.modPort core p Port.pop)
      | _ => s.modPort core p (fun q => (q.execute e 0).pop)
  | _, _ => s

/-- PORT_ENTRY_EXECUTE. -/
def execPortEntryExecute (core port : Nat) (s : State) : Host.Outcome State Fault Refusal := goes (s.portStep core port)

/-- The stagger of a `REP`. -/
def repStep : Instr → Nat
  | .rep t _ _ => t.toNat
  | _ => 0

/-- One pass of the running `REP`. -/
def Port.pass (q : Port) : Port :=
  match q.rep, q.queue with
  | some p, e :: _ =>
    let q1 := q.repBuf.foldl (fun q b => q.execute b (p * repStep e.ins)) q
    if (e.xs.getD 0 0).toNat ≤ p + 1 then { q1.pop with rep := none, repBuf := [] } else { q1 with rep := some (p + 1) }
  | _, _ => q

/-- REP_PASS (08 R166). -/
def execRepPass (core port : Nat) (s : State) : Host.Outcome State Fault Refusal :=
  goes (if s.engKept core port || (s.engineUser core port).isNone then s else s.modPort core port Port.pass)

/-- The elements of a gather or a scatter: destination lane and pointer. -/
def gatherPtrs (q : Port) (x : Word) (f sh p qp vi : Nat) (disp : Word) : List (Nat × Word) :=
  let c := min (lanes f) 32
  ((List.range c).filter (fun j => q.active qp (p * c + j))).map (fun j =>
    (p * c + j, x + disp + BitVec.ofNat 64 (lane (q.vreg vi) 32 j * 2 ^ sh)))

/-- The effect of `VGATH` and `VSCAT`, once the port has reached the instruction. DESIGN CHOICE: 08 R183 names a store from a
marked register only: under a marked QP predicate a `VST` or a `VSCAT` writes poison too, and a `VSCAT` whose index register is
marked does not (log 56). -/
def State.gather (s : State) (i : Instr) (sh p : BitVec 3) (qp : PReg) (vi d : VReg) (disp : BitVec 32) (store : Bool) : Res :=
  let e := s.myEntry i
  let q := s.myPort
  if vBad i e.fmt e.xs q.cfg then Res.bad Cause.reservedBits
  else if s.portIdle = false then .wait s .drain
  else
    let c := s.cur
    let ps := gatherPtrs q (e.xs.getD 0 0) e.fmt sh.toNat p.toNat qp.toNat vi.toNat (disp.signExtend 64)
    let u : VUse := { vsrc := if store then [d.toNat] else [vi.toNat], vdst := if store then [] else [d.toNat],
                      whole := decide (min (lanes e.fmt) 32 = lanes e.fmt), qp := qp.toNat }
    s.vecCheck ps (elemBytes e.fmt) (if store then needW else needR) store (fun s l na =>
      if store then
        match s.vecStore c e.fmt l (q.vreg d.toNat) na (q.marked u) with
        | (s1, false) => .wait s1 (s.vecWhy (l.flatMap (·.2)))
        | (s1, true) => .done s1.clearPrefix
      else if s.readsHeld (cluOf c) (s.fetched c (l.flatMap (·.2))) then .wait s (.place ((l.flatMap (·.2)).headD 0))
      else
        let (v, bad, s1) := s.vecLoad c e.fmt l na (q.vreg d.toNat)
        .done ((s1.modMyPort (fun q => (q.setV d.toNat v).mark u (bad || q.marked u))).clearPrefix))
      (State.vecFar e.fmt u d.toNat (if store then some (q.vreg d.toNat) else none))

/-- VGATH (08 R182). -/
def execVgath (a : Reg) (sh p : BitVec 3) (q : PReg) (vi d : VReg) (disp : BitVec 32) (s : State) : Host.Outcome State Fault Refusal :=
  goes (s.run vecGate 12 (fun s => s.gather (.vgath a sh p q vi d disp) sh p q vi d disp false))
/-- VSCAT (08 R182). -/
def execVscat (a : Reg) (sh p : BitVec 3) (q : PReg) (vi d : VReg) (disp : BitVec 32) (s : State) : Host.Outcome State Fault Refusal :=
  goes (s.run vecGate 12 (fun s => s.gather (.vscat a sh p q vi d disp) sh p q vi d disp true))

/-! ## The repetition buffer (08 R165) -/

/-- Whether an instruction may stand in a body: majors 0x40 to 0x53 and 0x5C. -/
def inBody : Instr → Bool
  | .vadd _ _ _ _ _ _ | .vsub _ _ _ _ _ _ | .vmul _ _ _ _ _ _ | .vfma _ _ _ _ _ _ | .vmin _ _ _ _ _ | .vmax _ _ _ _ _
  | .vand _ _ _ _ _ | .vor _ _ _ _ _ | .vxor _ _ _ _ _ | .vshl _ _ _ _ _ | .vshr _ _ _ _ _ _ | .vcmp _ _ _ _ _ _
  | .vsel _ _ _ _ _ | .vcvt _ _ _ _ _ _ | .vapx _ _ _ _ | .vabs _ _ _ | .vneg _ _ _ | .vred _ _ _ _ | .vscan _ _ _ _
  | .vperm _ _ _ _ | .vbcast _ _ _ _ _ | .plog _ _ _ _ _ => true
  | _ => false

/-- Capture the body from a pointer: `n` instructions, each with the `FMT` directly before it; the entries and the address
after the last word, or the fault that `REP` takes. -/
def State.capture (s : State) (x : Ctx) (cfg : Word) : Nat → Nat → Word → Option (BitVec 8) → Except Exc (List VEntry × Word)
  | 0, _, _, _ => .error { code := Cause.illegalOpcode }
  | _ + 1, 0, ptr, _ => .ok ([], ptr)
  | fuel + 1, n + 1, ptr, held =>
    let bad (c : Cause) : Except Exc (List VEntry × Word) := .error { code := c, addr := ptr }
    match s.fetch s.cur ptr with
    | .error (_, k) => .error { code := Cause.fetchFault, addr := ptr, info := k.setWidth 64 }
    | .ok ws =>
      match decode ws with
      | .error .reservedBits => bad Cause.reservedBits
      | .error _ => bad Cause.illegalOpcode
      | .ok (.fmt sg g f) =>
        if held.isSome then bad Cause.prefixOrphan
        else State.capture s x cfg fuel (n + 1) (ptr + 4) (some (sg ++ g ++ f))
      | .ok i =>
        if !inBody i then bad Cause.illegalOpcode
        else if held.isSome && (match i with | .plog _ _ _ _ _ => true | _ => false) then bad Cause.prefixOrphan
        else
          let e := vEntry i x held cfg
          if vBad i e.fmt e.xs cfg then bad Cause.reservedBits
          else
            match State.capture s x cfg fuel n (ptr + 4) none with
            | .error k => .error k
            | .ok (l, p) => .ok (e :: l, p)

/-- REP (08 R165): the thread waits while the buffer is busy or the queue is full (02 R30). -/
def execRep (t : BitVec 3) (l : BitVec 4) (a : Reg) (s : State) : Host.Outcome State Fault Refusal :=
  goes (s.run { vec := true } 4 (fun s =>
    let x := s.ctx s.cur
    let q := s.myPort
    let n := l.toNat + 1
    if 65535 < (s.reg a).toNat then Res.bad Cause.reservedBits
    else
      match s.capture x q.cfg (2 * n + 1) n (x.pc + 4) none with
      | .error e => .fault e
      | .ok (body, next) =>
        if !q.repBuf.isEmpty ∨ 8 ≤ q.queue.length then .wait s .drain
        else
          let e := vEntry (.rep t l a) x none q.cfg
          .stay ((s.modMyPort (fun q => { q with queue := q.queue ++ [e], repBuf := body })).complete s.cur x next)))

/-! ## VCFG (08 R158, R167) and FMT (05 R85) -/

/-- Whether a value is reserved for `VPCFG`. -/
def vcfgBad (v : Word) : Bool :=
  let f := bitsAt v 0 5
  decide (bitsAt v 21 11 ≠ 0 ∨ bitsAt v 11 5 ≠ 0 ∨ 4 < bitsAt v 8 3 ∨ bitsAt v 5 2 = 3) || !fmtAll f

/-- `VCFG` once the port has drained: the old value, then the new one. -/
def State.vcfg (s : State) (d : Reg) (new : Word → Word) : Res :=
  if s.portIdle = false then .wait s .drain
  else .done ((s.modMyPort (fun q => { q with cfg := new q.cfg })).setReg d s.myPort.cfg)

/-- VCFG. -/
def execVcfg (d : Reg) (s : State) : Host.Outcome State Fault Refusal := goes (s.run { vec := true } 4 (fun s => s.vcfg d id))
/-- VCFG.wr. -/
def execVcfgWr (d a : Reg) (s : State) : Host.Outcome State Fault Refusal :=
  goes (s.run { vec := true } 4 (fun s => if vcfgBad (s.reg a) then Res.bad Cause.reservedBits else s.vcfg d (fun _ => s.reg a)))
/-- VCFG.clr. -/
def execVcfgClr (d : Reg) (s : State) : Host.Outcome State Fault Refusal :=
  goes (s.run { vec := true } 4 (fun s => s.vcfg d (fun v => putBits v 16 5 0)))

/-- FMT. -/
def execFmt (sg : BitVec 1) (g : BitVec 2) (f : BitVec 5) (s : State) : Host.Outcome State Fault Refusal :=
  goes (s.run {} 4 (fun s =>
    .done (s.modCtx s.cur (fun x => { x with sta := { x.sta with pfx := sg ++ g ++ f, pp := true } }))))

end Sys2Proof.Machine
end

