-- ==== Sys2Proof/Machine/Launches.lean ====
section
/-! DEFINITION. Sys2Proof/Machine/Launches.lean: launch packets, their checks, the order of launches, placement, the start of a
block and the end of a launch (02 R19 to R24; 15 R325 to R338; 17 R411). -/

namespace Sys2Proof.Machine

/-! ## The packet (15 R326 to R328) -/

/-- A launch packet. -/
abbrev LPkt := BitVec 1024

/-- `n` bytes of a packet from byte `o`. -/
def LPkt.at (r : LPkt) (o n : Nat) : Nat := bitsAt r (8 * o) (8 * n)
/-- A pointer of a packet. -/
def LPkt.ptr (r : LPkt) (o : Nat) : Word := BitVec.ofNat 64 (r.at o 8)
/-- Reactive. -/
def LPkt.reactive (r : LPkt) : Bool := bitOf r 8
/-- The replay mode. -/
def LPkt.replay (r : LPkt) : Nat := bitsAt r 9 2
/-- FENCE. -/
def LPkt.fence (r : LPkt) : Bool := bitOf r 13
/-- The class. -/
def LPkt.cls (r : LPkt) : Nat := bitsAt r 14 2
/-- n, contexts per block. -/
def LPkt.ctxs (r : LPkt) : Nat := r.at 2 1
/-- F. -/
def LPkt.ringLog (r : LPkt) : Nat := r.at 3 1
/-- NSIG. -/
def LPkt.nsig (r : LPkt) : Nat := r.at 52 2
/-- The binding code of context `c`. -/
def LPkt.bindOf (r : LPkt) (c : Nat) : Nat := bitsAt r (8 * 65 + 3 * c) 3
/-- The width of field `k` (15 R327). -/
def LPkt.width (r : LPkt) (k : Nat) : Nat := bitsAt r (8 * 32 + 7 * k) 7
/-- The level of field `k`: 0 LOOP, 1 CONTEXT, 2 CORE, 3 CLUSTER, 4 DIE (02 R21). -/
def LPkt.level (r : LPkt) (k : Nat) : Nat := bitsAt r (8 * 32 + 42 + 3 * k) 3
/-- The lowest bit of field `k` in a WID (02 R19). -/
def LPkt.low (r : LPkt) (k : Nat) : Nat := ((List.range k).map r.width).sum
/-- The extent of field `k`. -/
def LPkt.ext (r : LPkt) (k : Nat) : Nat := bitsAt r (8 * 72 + r.low k) (r.width k) + 1
/-- The product of the extents of the fields at a level. -/
def LPkt.extAt (r : LPkt) (lv : Nat) : Nat :=
  (List.range 6).foldl (fun m k => if r.level k = lv then m * r.ext k else m) 1
/-- The number of blocks (02 R22). -/
def LPkt.blocks (r : LPkt) : Nat := r.extAt 2 * r.extAt 3 * r.extAt 4

/-- The composite index of a level put into its fields, lowest first, as bits of a WID (02 R21). -/
def LPkt.spread (r : LPkt) (lv idx : Nat) : Nat :=
  ((List.range 6).foldl (fun (a : Nat × Nat) k =>
    if r.level k = lv then (a.1 + a.2 % r.ext k * 2 ^ r.low k, a.2 / r.ext k) else a) (0, idx)).1

/-- The CORE, CLUSTER and DIE indices of a block (15 R334). -/
def LPkt.coreIdx (r : LPkt) (b : Nat) : Nat := b % r.extAt 2
/-- CLUSTER. -/
def LPkt.cluIdx (r : LPkt) (b : Nat) : Nat := b / r.extAt 2 % r.extAt 3
/-- DIE. -/
def LPkt.dieIdx (r : LPkt) (b : Nat) : Nat := b / (r.extAt 2 * r.extAt 3)

/-- The WID of context `c` of block `b` (02 R19 to R24). -/
def LPkt.wid (r : LPkt) (b c : Nat) : Word :=
  BitVec.ofNat 64 (r.spread 2 (r.coreIdx b) + r.spread 3 (r.cluIdx b) + r.spread 4 (r.dieIdx b) +
    (if r.extAt 1 = r.ctxs then r.spread 1 c else 0))

/-- The context of a block's core that is the gaffer, as block and slot (14 R293). -/
def LPkt.gaffer (r : LPkt) : Nat × Nat := (r.at 54 1, r.at 55 1)

/-! ## The checks (15 R330) -/

/-- A pointer of the packet under R41 for user mode: the qualified scratchpad, or a table handle. -/
def State.launchPtr (s : State) (p : Nat) (ptr : Word) (size need : Nat) : Bool :=
  let h := ptr.toNat / 2 ^ 52
  if h = 1 then
    match s.engSegs { clu := s.firstClu p, part := p, sup := false } ptr size need (decide (need &&& 2 ≠ 0)) with
    | .ok _ => true
    | .error e => e.xlate
  else if h < 16 then false
  else
    match s.resolve { clu := s.firstClu p, part := p, sup := false, thread := false } ptr size need with
    | .ok _ => true
    | .error _ => false

/-- The bytes that a pointer of the packet names, when they can be read. -/
def State.launchBytes (s : State) (p : Nat) (ptr : Word) (n : Nat) : Except Cause (List Byte) :=
  match s.engSegs { clu := s.firstClu p, part := p, sup := false } ptr n needR false with
  | .error e => .error e.cause
  | .ok segs =>
    match s.errAt (spanAll segs) with
    | some k => .error k
    | none => .ok (s.bytesAt (spanAll segs))

/-- A list of 16-byte entries. -/
def State.launchList (s : State) (p : Nat) (ptr : Word) (n : Nat) : Except Cause (List (List Byte)) :=
  if n = 0 ∨ 16 < n then .ok []
  else
    match s.launchBytes p ptr (16 * n) with
    | .error k => .error k
    | .ok bs => .ok ((List.range n).map (fun i => (bs.drop (16 * i)).take 16))

/-- A footprint entry: reserved bits and the range under R41 (15 R329). -/
def State.footBad (s : State) (p : Nat) (e : List Byte) : Bool :=
  !s.launchPtr p (BitVec.ofNat 64 (leNat (e.take 8))) (leNat ((e.drop 8).take 6)) needR ||
    decide (4 ≤ (e.getD 14 0).toNat) || decide (e.getD 15 0 ≠ 0)

/-- A feeder entry's reserved bytes and kind (15 R329). -/
def feederBad (e : List Byte) : Bool :=
  let k := (e.getD 0 0).toNat
  let v := leNat (e.drop 8)
  decide (leNat ((e.drop 1).take 7) ≠ 0) || decide (k = 0 ∨ 4 < k) || decide ((k = 2 ∨ k = 3) ∧ 16 ≤ v)

/-- Whether the bindings of a packet break 15 R328. -/
def LPkt.bindBad (r : LPkt) : Bool :=
  let n := r.ctxs
  let codes := (List.range 15).map r.bindOf
  codes.any (fun k => decide (k = 7)) || ((List.range 15).any (fun c => decide (n ≤ c ∧ r.bindOf c ≠ 0))) ||
    decide (bitsAt r (8 * 65 + 45) 11 ≠ 0) || decide (r.bindOf 0 = 6) ||
    ((List.range 5).any (fun e => decide (1 < (codes.filter (fun k => decide (k = e + 1))).length))) ||
    (r.reactive && decide (r.bindOf r.gaffer.2 ≠ 0))

/-- Whether the width and placement word breaks 02 R19 to R23 or 15 R327. -/
def LPkt.fieldBad (r : LPkt) : Bool :=
  decide (64 < r.low 6) || ((List.range 6).any (fun k => decide (64 < r.width k ∨ 4 < r.level k))) ||
    decide (bitsAt r (8 * 32 + 60) 4 ≠ 0) || decide (r.extAt 1 ≠ 1 ∧ r.extAt 1 ≠ r.ctxs)

/-- Whether the extent word breaks 15 R327. -/
def LPkt.extBad (r : LPkt) : Bool :=
  decide (r.at 72 8 / 2 ^ r.low 6 ≠ 0) || ((List.range 6).any (fun k => decide (r.width k = 64 ∧ r.ext k = 2 ^ 64)))

/-- The byte offset of the first bad field of a packet (15 R330). The lists stand at the offsets of their pointers. -/
def State.launchBad (s : State) (p : Nat) (r : LPkt) : Option Nat :=
  let opt (o size need : Nat) : Bool := decide (r.ptr o ≠ 0) && !s.launchPtr p (r.ptr o) size need
  let entries (o cnt : Nat) (f : List Byte → Bool) : Bool :=
    decide (cnt ≤ 16 ∧ 0 < cnt) && (!s.launchPtr p (r.ptr o) (16 * cnt) needR ||
      (match s.launchList p (r.ptr o) cnt with
        | .error _ => false
        | .ok l => l.any f))
  let re := r.reactive
  let table : Bool := match s.launchBytes p (r.ptr 88) r.nsig with
    | .ok bs => bs.any (fun b => decide (5 < b.toNat))
    | .error _ => false
  let checks : List (Nat × Bool) := [
    (1, decide (bitsAt r 11 2 ≠ 0) || decide (r.replay = 3)),
    (2, decide (r.ctxs = 0 ∨ 15 < r.ctxs)),
    (3, if re then decide (16 < r.ringLog) else decide (r.ringLog ≠ 0)),
    (8, !s.launchPtr p (r.ptr 8) 4 needX),
    (16, opt 16 256 needR),
    (24, decide (r.ptr 24 ≠ 0) && (s.syncLoc { clu := s.firstClu p, part := p, sup := false } (r.ptr 24)).isNone),
    (32, r.fieldBad),
    (40, entries 40 (r.at 48 4) (s.footBad p)),
    (48, decide (16 < r.at 48 4)),
    (52, if re then decide (r.nsig = 0 ∨ 4096 < r.nsig) else decide (r.nsig ≠ 0)),
    (54, if re then decide (3 < r.at 54 1 ∨ r.blocks ≤ r.at 54 1) else decide (r.at 54 1 ≠ 0)),
    (55, if re then decide (r.ctxs ≤ r.at 55 1) else decide (r.at 55 1 ≠ 0)),
    (56, (List.range 32).any (fun b => decide (bitsAt r (8 * 56 + 2 * b) 2 = 3))),
    (64, decide (r.at 64 1 ≠ 8)),
    (65, r.bindBad),
    (72, r.extBad),
    (80, opt 80 256 needR),
    (88, opt 88 r.nsig needR || (re && decide (r.ptr 88 ≠ 0) && table)),
    (96, if re then decide (r.ptr 96 ≠ 0) && (decide (r.at 96 8 % 4096 ≠ 0) || opt 96 (4096 * 2 ^ (min r.ringLog 16)) 3)
      else decide (r.ptr 96 ≠ 0)),
    (104, entries 104 (r.at 112 1) feederBad),
    (112, decide (16 < r.at 112 1)),
    (113, decide (r.at 113 15 ≠ 0))]
  (checks.find? (·.2)).map (·.1)

/-! ## Taking a launch (15 R325, R332; 17 R411) -/

/-- A launch is abandoned with a cause (12 R263; 15 R330, R332): the queue's owner is told. -/
def State.abandonLaunch (s : State) (l : Nat) (cause : Cause) (info : Word) : State :=
  let x := s.launch l
  let owner := ((s.part x.part).queues.find? (fun q => decide (q.hdr.toNat = x.queue))).map (·.owner)
  let s1 := s.modLaunch l (fun x => { x with st := .abandoned, fate := some cause })
  match owner with
  | none => s1
  | some c => s1.raiseAt c { code := cause, addr := x.slotPtr, info := info }

/-- The replay in force for a taken launch, and the partition after it has been counted (17 R411). -/
def State.traceTaken (s : State) (p mode : Nat) : Nat × Nat × State :=
  let m := (s.part p).traceMode
  if m = 0 ∨ mode ≠ m then (0, 0, s)
  else
    let n := (bitsAt (s.part p).trace 32 32 + 1) % 2 ^ 32
    let s1 := s.modPart p (fun x => { x with trace := putBits x.trace 32 32 n })
    if (s1.ringOf p).isSome then (mode, n, s1) else (0, n, s1.diverge p none (BitVec.allOnes 64))

/-- The ranges that a launch's footprint list declares. -/
def State.launchFoot (s : State) (p : Nat) (l : List (List Byte)) : List FootRange :=
  l.flatMap (fun e => s.footRange p (BitVec.ofNat 64 (leNat (e.take 8))) (leNat ((e.drop 8).take 6))
    (bitOf (e.getD 14 0) 0) (bitOf (e.getD 14 0) 1))

/-- A feeder entry as a key: word (1), channel (2), barrier (3) or grid part (4). A word of memory goes by its location, one
of the local window by its offset (15 R329). -/
def State.feederKey (s : State) (p : Nat) (e : List Byte) : Nat × Nat × Nat :=
  let k := (e.getD 0 0).toNat
  let v := leNat (e.drop 8)
  let ptr : Word := BitVec.ofNat 64 v
  if k = 1 then
    if v / 2 ^ 52 = 2 then (1, 1, v % 2 ^ 52 / 8)
    else
      match s.engSegs { clu := s.firstClu p, part := p, sup := true } ptr 1 0 false with
      | .ok ((l, _) :: _) => (1, 0, l / 8)
      | _ => (0, 0, 0)
  else if k = 4 then
    match s.handleRaw (s.firstClu p) p (v / 2 ^ 52) with
    | .ok raw => (4, (HEntry.ofNat raw.toNat).base, v / 2 ^ 40 % 2 ^ 12)
    | .error _ => (0, 0, 0)
  else (k, v, 0)

/-- The domain that a reactive launch creates (14 R293 to R296): C is the number of clusters that its pairs are bound to by
15 R335, on each die the smaller of its pairs and its clusters. -/
def State.newDomain (s : State) (p : Nat) (r : LPkt) (table : List Byte) : Domain :=
  let dies := (s.part p).dies
  let m := if dies.length = 0 then 1 else dies.length
  let on (i : Nat) : Nat :=
    let pairs := r.extAt 3 * ((r.extAt 4 + m - 1 - i) / m)
    let clus := ((s.part p).clusters.filter (fun k => decide (dieOf k = dies.getD i 0) && !(s.clu k).retired)).length
    if pairs ≤ clus then pairs else clus
  let cnt := ((List.range m).map on).sum
  { nsig := r.nsig, clucnt := if cnt = 0 then 1 else cnt, free := decide (r.ptr 96 = 0), ring := r.ptr 96, ringLog := r.ringLog,
    sigs := (table.zipIdx).foldl (fun g b => SMap.put g b.2 { comb := b.1.toNat }) [], awaiting := decide (r.ptr 96 ≠ 0) }

/-- A domain that runs free finds no frame for instant `i`: a FRAME record under record and replay (17 R414). -/
def State.noFrame (s : State) (l i : Nat) : Option State :=
  s.logged (s.launch l).part (some l) 4 0 0 i 0 (fun r => decide (bitsAt r 8 1 = 0 ∧ bitsAt r 64 64 = i))

/-- The 256 bytes that a packet's pointer names, read as the launch starts (03 R43; 07 R140). DESIGN CHOICE: the spec does not say
what the window holds where the pointer passed the packet's checks and the bytes cannot be read: zeros (log 57). -/
def State.record256 (s : State) (p : Nat) (ptr : Word) : List Byte :=
  if ptr = 0 then []
  else match s.launchBytes p ptr 256 with
    | .ok l => l
    | .error _ => []

/-- A waiting launch starts when the cards before it allow (15 R332): it becomes ready, its code is memory as it stands
(05 R69), and a reactive one creates its domain. -/
def State.tryReady (s : State) (l : Nat) : State :=
  let x := s.launch l
  if x.st ≠ .waiting then s
  else
    match s.cardTurn x.part x.queue ⟨l, decide (bitsAt x.pkt 384 32 = 0), x.foot, none⟩ (LPkt.fence x.pkt) with
    | .error k => s.abandonLaunch l k 0
    | .ok false => s
    | .ok true =>
      let r : LPkt := x.pkt
      let table : List Byte := if r.ptr 88 = 0 then [] else match s.launchBytes x.part (r.ptr 88) r.nsig with
        | .ok bs => bs
        | .error _ => []
      let dom := if r.reactive then some (s.newDomain x.part r table) else none
      let shape := s.record256 x.part (r.ptr 80)
      let args := s.record256 x.part (r.ptr 16)
      let go (s : State) : State := s.modLaunch l (fun x =>
        { x with st := .ready, readyAt := s.refCycle, code := some s.mem, dom := dom, shape := shape, args := args })
      if r.reactive ∧ r.ptr 96 = 0 then
        match s.noFrame l 0 with
        | none => s
        | some s1 => go s1
      else go s

/-- The launches of a partition in the order of their queues and slots (15 R333). -/
def State.launchesOf (s : State) (p : Nat) : List Nat :=
  (s.part p).queues.flatMap (fun q =>
    (s.launches.filter (fun x => decide (x.2.part = p ∧ x.2.queue = q.hdr.toNat))).map (·.1)) ++
  (s.launches.filter (fun x => decide (x.2.part = p) && !(s.part p).queues.any (fun q => decide (q.hdr.toNat = x.2.queue)))).map (·.1)

/-- Every waiting launch of a partition looks again. -/
def State.readyLaunches (s : State) (p : Nat) : State := (s.launchesOf p).foldl (fun s l => s.tryReady l) s

/-- The task scheduler takes the two slots at a queue's read index and checks the launch (15 R325, R330). -/
def State.takeLaunch (s : State) (part q : Nat) : State :=
  match (s.part part).queues[q]? with
  | none => s
  | some reg =>
    match s.headerLoc part reg.hdr with
    | none => s
    | some h =>
      let i := s.queueRd h
      let lg := s.queueLog h
      match s.slotLoc part reg.hdr lg i, s.slotLoc part reg.hdr lg (i + 1) with
      | some a, some b =>
        if bitOf (BitVec.ofNat 8 (s.queueKinds h)) 3 = false ∨ s.numIn a 0 1 ≠ 7 ∨ s.numIn b 0 1 = 0 then s
        else if s.queueHeld h [a, b] then s.askQueue h [a, b]
        else
          let r : LPkt := BitVec.ofNat 1024 (s.numIn a 0 64 + s.numIn b 0 64 * 2 ^ 512)
          let id := s.nextCard
          let bad := s.launchBad part r
          let foot := s.launchList part (r.ptr 40) (r.at 48 4)
          let feed := s.launchList part (r.ptr 104) (r.at 112 1)
          let lists (e : Except Cause (List (List Byte))) : List (List Byte) := match e with
            | .ok l => l
            | .error _ => []
          let x : Launch := { part := part, queue := reg.hdr.toNat, slotIdx := i, slotPtr := slotPtrOf reg.hdr lg i, pkt := r,
                               foot := s.launchFoot part (lists foot) }
          let s1 := s.consume h [a, b] 2
          let s2 : State := { s1 with nextCard := id + 1, launches := SMap.put s1.launches id x }
          match bad with
          | some o => s2.abandonLaunch id Cause.copyPacketInvalid (BitVec.ofNat 64 o)
          | none =>
            match foot, feed with
            | .error k, _ => s2.abandonLaunch id k 40
            | _, .error k => s2.abandonLaunch id k 104
            | .ok _, .ok _ =>
              let (mode, n, s3) := s2.traceTaken part r.replay
              s3.modLaunch id (fun x => { x with replay := mode, lcnt := n, feeders := (lists feed).map (s.feederKey part) })
      | _, _ => s

/-- LAUNCH (15 R325). -/
def execLaunch (part q : Nat) (s : State) : Host.Outcome State Fault Refusal :=
  goes ((s.takeLaunch part q).readyLaunches part)

/-- The whole epochs of 940,000 reference cycles that have passed since a launch became ready (15 R333). -/
def State.epochsOf (s : State) (x : Launch) : Nat := (s.refCycle - x.readyAt) / 940000

/-- SCHEDULER_EPOCH (15 R333): every launch of the partition that waits to be placed has waited so many whole epochs. -/
def execSchedulerEpoch (part : Nat) (s : State) : Host.Outcome State Fault Refusal :=
  goes { s with launches := s.launches.map (fun x =>
    (x.1, if x.2.part = part ∧ (x.2.st = .ready ∨ x.2.st = .running) ∧ x.2.nextBlock < LPkt.blocks x.2.pkt then
      { x.2 with epochs := s.epochsOf x.2 } else x.2)) }

/-- COPY_PACKET_COMPLETE (12 R262): later cards look again (15 R332). -/
def execCopyPacketComplete (id : Nat) (s : State) : Host.Outcome State Fault Refusal :=
  goes (
    if !s.pkIdle id then s
    else
      match s.pkSyncHeld id with
      | some l => s.askArrive l
      | none => (s.finishPk id).readyLaunches (s.pk id).part)

/-- COPY_HOLD_TIMEOUT (12 R263): a hold outlasts the wait limit. -/
def execCopyHoldTimeout (id : Nat) (s : State) : Host.Outcome State Fault Refusal :=
  goes (match (s.pk id).hold with
    | none => s
    | some (k, _) => (s.abandonPk id k).readyLaunches (s.pk id).part)

/-! ## Placement (15 R334 to R337) -/

/-- The engines that a block's contexts bind. -/
def LPkt.engines (r : LPkt) : List Nat := (List.range r.ctxs).filterMap (fun c => engineOf (r.bindOf c))

/-- Whether a core is eligible for a block (15 R336). A block also waits while a thread that stands in another slot of the core
holds an engine that it binds. -/
def State.coreFits (s : State) (p : Nat) (r : LPkt) (k : Nat) : Bool :=
  decide (k / 4 ∈ (s.part p).clusters) && !(s.clu (k / 4)).retired && !(s.core k).running && (s.core k).arrivals.isEmpty &&
    ((List.range r.ctxs).all (fun c => decide ((s.ctx (16 * k + c)).slot = .free))) &&
    r.engines.all (fun e => (s.engineUser k e).isNone)

/-- The cluster that a pair takes: the one it is bound to, or the choice of 15 R335. -/
def State.pairCluster (s : State) (l u v : Nat) : Option Nat :=
  let x := s.launch l
  let r : LPkt := x.pkt
  match x.pairs.find? (fun q => decide (q.1 = (u, v))) with
  | some q => some q.2
  | none =>
    let dies := (s.part x.part).dies
    let die := dies.getD (v % (if dies.length = 0 then 1 else dies.length)) 0
    let ks := (s.part x.part).clusters.filter (fun k => decide (dieOf k = die) && !(s.clu k).retired)
    let bound (k : Nat) : Nat := (x.pairs.filter (fun q => decide (q.2 = k))).length
    let open_ (k : Nat) : Nat := ((List.range 4).filter (fun i => s.coreFits x.part r (4 * k + i))).length
    ks.foldl (fun (o : Option Nat) k => match o with
      | none => some k
      | some j =>
        if bound k < bound j ∨ (bound k = bound j ∧ (open_ j < open_ k ∨ (open_ j = open_ k ∧ k < j))) then some k else some j) none

/-- The core of a cluster that a block takes, if one is eligible. -/
def State.placeCore (s : State) (l b k : Nat) : Option Nat :=
  let x := s.launch l
  let want := 4 * k + LPkt.coreIdx x.pkt b % 4
  if s.coreFits x.part x.pkt want then some want
  else ((List.range 4).map (4 * k + ·)).find? (fun c => s.coreFits x.part x.pkt c)

/-- The core and the cluster binding for a launch's next block, as they stand now. -/
def State.nextPlace (s : State) (l : Nat) : Option (Nat × Nat) :=
  let x := s.launch l
  let r : LPkt := x.pkt
  let b := x.nextBlock
  match s.pairCluster l (r.cluIdx b) (r.dieIdx b) with
  | none => none
  | some k => (s.placeCore l b k).map (fun c => (c, k))

/-- Whether a launch has a block to place. -/
def Launch.hasNext (x : Launch) : Bool := decide ((x.st = .ready ∨ x.st = .running) ∧ x.nextBlock < LPkt.blocks x.pkt)

/-- The placement class of a launch (15 R333). -/
def Launch.placeClass (x : Launch) : Nat := LPkt.cls x.pkt - x.epochs

/-- The place of a queue in its partition's order of registration: behind all others once it is registered no more. -/
def Part.queueNo (p : Part) (hdr : Nat) : Nat := p.queues.findIdx (fun q => decide (q.hdr.toNat = hdr))

/-- What a core's offer goes by: the placement class, the cycle in which the launch became ready, the registration of its queue and
its slot (15 R333). -/
def State.offerKey (s : State) (x : Launch) : List Nat := [x.placeClass, x.readyAt, (s.part x.part).queueNo x.queue, x.slotIdx]

/-- Lexicographic order, equal lists included. -/
def keyLe : List Nat → List Nat → Bool
  | a :: l, b :: r => decide (a < b) || (decide (a = b) && keyLe l r)
  | [], _ => true
  | _ :: _, [] => false

/-- The launches that a core is offered to, in order (15 R333). -/
def State.offers (s : State) (p : Nat) : List Nat :=
  let ls := s.launches.filter (fun x => decide (x.2.part = p) && x.2.hasNext)
  let ins (x : Nat × Launch) (acc : List (Nat × Launch)) : List (Nat × Launch) :=
    let before := acc.takeWhile (fun y => keyLe (s.offerKey y.2) (s.offerKey x.2))
    before ++ x :: acc.drop before.length
  (ls.foldl (fun acc x => ins x acc) []).map (·.1)

/-- A context of a block as it starts (15 R336; 17 R393, R397; 14 R293, R298). -/
def State.startCtx (s : State) (l b core c : Nat) : State :=
  let x := s.launch l
  let r : LPkt := x.pkt
  let code := r.bindOf c
  let role : Role := if r.reactive then (if (b, c) = r.gaffer then .gaffer else .member) else .outside
  let y : Ctx := { slot := .ready, part := x.part, pc := r.ptr 8, sta := { bind := bindField code, port := portField code },
                   hvec := s.defaultHvec x.part, wid := r.wid b c, launch := some l, block := b, startSlot := c, tid := s.nextTid,
                   role := role, settled := role = .member && x.dom.any (·.settled),
                   stopped := role = .member && x.dom.any (fun d => d.frozen.isSome), lastIssue := (s.ctx (16 * core + c)).lastIssue }
  let s1 := match engineOf code with
    | none => s
    | some e => s.takeEngine core e
  let s2 : State := { s1 with nextTid := s1.nextTid + 1 }
  let s3 := ((s2.emptyChan (16 * core + c)).dropSolo (16 * core + c)).setCtx (16 * core + c) y
  if role = .member ∧ bitOf (s.part x.part).trace 5 then s3.raiseAt (16 * core + c) { code := Cause.boundaryHook } else s3

/-- A block starts on a core (15 R336); the cluster has applied its inbox, so that the block reads what earlier cards wrote (11
R248). A held bank that changes mode is saved first (17 R405). -/
def State.startBlock (s : State) (l core : Nat) : State :=
  let x := s.launch l
  let r : LPkt := x.pkt
  let b := x.nextBlock
  let k := core / 4
  let fresh := decide (k ∉ x.begun)
  let s1 := (s.applyInbox k).modLaunch l (fun x => { x with
    st := .running, nextBlock := b + 1, cores := x.cores ++ [core], clus := if k ∈ x.clus then x.clus else x.clus ++ [k],
    begun := if fresh then x.begun ++ [k] else x.begun,
    pairs := if x.pairs.any (fun q => decide (q.1 = (r.cluIdx b, r.dieIdx b))) then x.pairs
      else x.pairs ++ [((r.cluIdx b, r.dieIdx b), k)] })
  let s2 := if fresh then
      let w := r.ptr 56
      let moved := (s1.clu k).bankHeld.filter (fun h => decide ((s1.clu k).mode h.bank ≠ bitsAt w (2 * h.bank) 2))
      let t := moved.foldl (fun s h => s.saveBank k h) s1
      (t.bankStore k w).getD t
    else s1
  let s3 := s2.modCore core (fun c => { c with launch := some l, block := b, running := true, reaps := [], spawns := 0, sems := [],
                                               semWait := [], shape := x.shape, args := x.args })
  let s4 := (List.range r.ctxs).foldl (fun s c => s.startCtx l b core c) s3
  s4.modCore core (fun c => { c with reaps := ((List.range r.ctxs).filter (fun i => decide (1 ≤ i))).map (fun i => (i, ReapRec.live)) })

/-- The next block of a launch takes a core (15 R335, R337): the rule's core, logged under record; the core that the trace
names under replay. `none` where the launch does not take this core. -/
def State.dispatchTo (s : State) (l core : Nat) : Option State :=
  let x := s.launch l
  if x.replay = 2 then
    match s.readRecord x.part with
    | none => none
    | some (i, r) =>
      if bitsAt r 0 8 ≠ 1 ∨ bitsAt r 16 16 ≠ x.lcnt % 2 ^ 16 then none
      else if bitsAt r 32 32 ≠ x.nextBlock % 2 ^ 32 ∨ bitsAt r 64 64 / 4 ∉ (s.part x.part).clusters then
        some (s.diverge x.part (some l) (BitVec.ofNat 64 i))
      else if bitsAt r 64 64 = core ∧ s.coreFits x.part x.pkt core then some ((s.passRecord x.part i).startBlock l core)
      else none
  else
    match s.nextPlace l with
    | none => none
    | some (c, _) =>
      if c ≠ core then none
      else (s.logged x.part (some l) 1 0 x.nextBlock core 0 (fun _ => true)).map (fun s => s.startBlock l core)

/-- BLOCK_DISPATCH (15 R333, R335): an eligible core is offered to the launches in order; the first that may place its next
block there takes it. -/
def execBlockDispatch (part core : Nat) (s : State) : Host.Outcome State Fault Refusal :=
  goes (((s.offers part).findSome? (fun l => s.dispatchTo l core)).getD s)

/-! ## The end of a launch (15 R338; 10 R214) -/

/-- Whether a launch has completed: every block has ended, its domain has ended, and its grids are at rest. -/
def State.launchDone (s : State) (l : Nat) : Bool :=
  let x := s.launch l
  decide (x.st = .ready ∨ x.st = .running) && decide (LPkt.blocks x.pkt ≤ x.ended) && x.dom.all (fun d => d.ended.isSome) &&
    !s.gridBusy (some l)

/-- Every write of a launch's clusters reaches its place, and every inbox is applied (10 R214). -/
def State.publishClusters (s : State) (ks : List Nat) : State :=
  ks.foldl (fun s k => (((List.range 4).foldl (fun s i => s.drainShared (4 * k + i)) s).drainThroughs k).applyInbox k) s

/-- The lines that some clusters' cores and write-throughs still hold, each with its writer. -/
def State.clusterLines (s : State) (ks : List Nat) : List (Nat × Nat) :=
  ks.flatMap (fun k => ((List.range 4).flatMap (fun i => (s.core (4 * k + i)).shared.map (fun p => (p.2.line, p.1)))) ++
    (s.clu k).throughs.map (fun e => (e.line, noCtx)))

/-- Whether one of these lines is held back (10 R226, R236). -/
def State.clustersHeld (s : State) (ks : List Nat) : Bool := (s.clusterLines ks).any (fun p => s.lockedFor p.1 p.2)

/-- What held lines of clusters ask for. -/
def State.askClusters (s : State) (ks : List Nat) : State := s.askWrites {} ((s.clusterLines ks).map (·.1))

/-- The sync word of a launch's packet. -/
def State.launchSync (s : State) (l : Nat) : Option Nat :=
  let x := s.launch l
  if LPkt.ptr x.pkt 24 = 0 then none
  else s.syncLoc { clu := s.firstClu x.part, part := x.part, sup := false } (LPkt.ptr x.pkt 24)

/-- LAUNCH_COMPLETE (15 R338): the launch's writes are published, it arrives at its sync word, and later cards look again. A line
or a bank that is held back keeps it. -/
def execLaunchComplete (l : Nat) (s : State) : Host.Outcome State Fault Refusal :=
  goes (
    let x := s.launch l
    if !s.launchDone l then s
    else if s.clustersHeld x.clus then s.askClusters x.clus
    else if (s.launchSync l).any s.arriveHeld then s.askArrive ((s.launchSync l).getD 0)
    else
      let s1 := (s.publishClusters x.clus).dropGrids (some l)
      let s2 := match s1.launchSync l with
        | none => s1
        | some a => (s1.arriveAt a 64).1
      (s2.modLaunch l (fun x => { x with st := .complete, code := none })).readyLaunches x.part)

end Sys2Proof.Machine
end

