-- ==== Sys2Proof/Machine/Records.lean ====
section
/-! DEFINITION. Sys2Proof/Machine/Records.lean: the save record of a spilled thread (17 R403) and the request queue of the
cullet area (17 R401, R402). -/

namespace Sys2Proof.Machine

/-- A number as `n` bytes at an offset of a record. -/
structure RecField where
  off : Nat
  len : Nat
  val : Nat
deriving DecidableEq, Repr

/-- Bit `k` of a mask for each signal `base + k` of a set (17 R403). -/
def maskFor (base : Nat) (l : List Nat) : Nat := ((List.range 64).map (fun k => if hasNat l (base + k) then 2 ^ k else 0)).sum

/-- The declaration slot `j` of a context: base and mask. -/
def Ctx.dslot (x : Ctx) (j : Nat) : Nat × Word := x.dslots.getD j (0, 0)

/-- The registers of a record (17 R403). -/
def Ctx.regFields (x : Ctx) : List RecField :=
  ((List.range 16).map (fun i => ⟨8 * i, 8, (x.x[i]?.getD 0).toNat⟩)) ++
    [⟨0x080, 8, x.pc.toNat⟩, ⟨0x088, 8, x.sta.toWord.toNat⟩, ⟨0x090, 1, x.tags.toNat⟩, ⟨0x098, 8, x.epc.toNat⟩,
     ⟨0x0A0, 8, x.esta.toNat⟩, ⟨0x0A8, 8, x.ecause.toNat⟩, ⟨0x0B0, 8, x.eaddr.toNat⟩, ⟨0x0B8, 8, x.einfo.toNat⟩,
     ⟨0x0C0, 8, x.hvec.toNat⟩, ⟨0x0C8, 8, x.ticket.toNat⟩,
     ⟨0x0D0, 4, ((List.range 32).map (fun k => if x.tickets.any (fun t => decide (t % 32 = k)) then 2 ^ k else 0)).sum⟩,
     ⟨0x0D8, 8, x.wid.toNat⟩]

/-- The reactive state of a record. -/
def Ctx.lehrFields (x : Ctx) : List RecField :=
  ((List.range 4).flatMap (fun j =>
    let d := x.dslot j
    [⟨0x0E0 + 2 * j, 2, d.1⟩, ⟨0x0E8 + 8 * j, 8, d.2.toNat⟩, ⟨0x108 + 8 * j, 8, maskFor d.1 x.renounced⟩,
     ⟨0x128 + 8 * j, 8, maskFor d.1 x.late⟩])) ++ [⟨0x148, 1, x.regions.length⟩] ++
  ((List.range 8).flatMap (fun j =>
    let g := x.regions.getD j ⟨true, 0, 0⟩
    [⟨0x150 + 16 * j, 8, g.handler.toNat⟩, ⟨0x158 + 16 * j, 2, g.sig⟩,
     ⟨0x15A + 16 * j, 1, if j < x.regions.length ∧ g.abort = false then 1 else 0⟩]))

/-- The speculation checkpoint of a record. -/
def Ctx.specFields (x : Ctx) : List RecField :=
  match x.spec with
  | none => []
  | some k =>
    ((List.range 16).map (fun i => ⟨0x1D0 + 8 * i, 8, (k.x[i]?.getD 0).toNat⟩)) ++
      [⟨0x250, 8, k.sta.toWord.toNat⟩, ⟨0x258, 8, k.pc.toNat⟩, ⟨0x260, 8, k.iter⟩, ⟨0x268, 8, k.base⟩]

/-- A number with `n` bytes put at an offset of a 1,024-byte record. -/
def putField (r : BitVec 8192) (f : RecField) : BitVec 8192 := putBits r (8 * f.off) (8 * f.len) f.val

/-- The record of a context but for its flags, the number it left and its status. -/
def Ctx.record (x : Ctx) : BitVec 8192 := (x.regFields ++ x.lehrFields ++ x.specFields).foldl putField 0

/-- `n` bytes of a record at an offset. -/
def recAt (r : BitVec 8192) (o n : Nat) : Nat := bitsAt r (8 * o) (8 * n)

/-- A word of a record. -/
def recW (r : BitVec 8192) (o : Nat) : Word := BitVec.ofNat 64 (recAt r o 8)

/-- The context that a record's registers, tracker and reactive state give; the rest of `x` is kept (17 R407). -/
def Ctx.loadRecord (x : Ctx) (r : BitVec 8192) : Ctx :=
  let bases := (List.range 4).map (fun j => (recAt r (0x0E0 + 2 * j) 2, recW r (0x0E8 + 8 * j)))
  let set (o : Nat) : List Nat := (bases.zipIdx).foldl (fun acc d => (List.range 64).foldl (fun acc k =>
    if bitOf (recW r (o + 8 * d.2)) k then addNat acc (d.1.1 + k) else acc) acc) []
  { x with x := Vector.ofFn (fun i : Fin 16 => recW r (8 * i.val)), pc := recW r 0x080, sta := Sta.ofWord (recW r 0x088),
           tags := BitVec.ofNat 8 (recAt r 0x090 1), ih := bitOf r (8 * 0x091), epc := recW r 0x098, esta := recW r 0x0A0,
           ecause := recW r 0x0A8, eaddr := recW r 0x0B0, einfo := recW r 0x0B8, hvec := recW r 0x0C0, ticket := recW r 0x0C8,
           tickets := x.tickets.filter (fun t => bitOf (BitVec.ofNat 32 (recAt r 0x0D0 4)) (t % 32)), wid := recW r 0x0D8,
           dslots := if bases.all (fun d => decide (d.2 = 0)) then [] else bases, renounced := set 0x108, late := set 0x128,
           regions := (List.range (recAt r 0x148 1)).map (fun j =>
             ⟨decide (recAt r (0x15A + 16 * j) 1 = 0), recAt r (0x158 + 16 * j) 2, recW r (0x150 + 16 * j)⟩),
           spec := if bitOf r (8 * 0x091 + 3) then
               some ⟨Vector.ofFn (fun i : Fin 16 => recW r (0x1D0 + 8 * i.val)), (x.spec.map (·.tags)).getD 0, Sta.ofWord (recW r 0x250), recW r 0x258,
                     recAt r 0x260 8, recAt r 0x268 8⟩
             else none }

/-- Write the saved state of a spilled thread again: a boundary has applied its regions (14 R312). -/
def State.rewriteRecord (s : State) (p rec_ : Nat) (x : Ctx) : State :=
  (s.areaWrite p (rec_ + 0x080) (leBytes 8 x.pc.toNat)).areaWrite p (rec_ + 0x148) (leBytes 1 x.regions.length)

end Sys2Proof.Machine
end

