-- ==== Sys2Proof/Machine/Waits.lean ====
section
/-! DEFINITION. Sys2Proof/Machine/Waits.lean: when a waiting thread can go on, the arrival of its tag, its withdrawal, and what
the lehr makes of its wait (02 R32; 10 R218; 14 R302, R303, R324; 15 R360, R361). -/

namespace Sys2Proof.Machine

/-! ## Signals that answer (14 R317) -/

/-- What a home answers to `TEST`, if it can. -/
def Signal.test (g : Signal) : Option Word :=
  match g.st with
  | .unknown => none
  | .present | .final => some 1
  | .absent | .forced => some 0

/-- What a home answers to `TESTV`, if it can. -/
def Signal.testv (g : Signal) : Option Word := if g.st.decided then some g.answer else none

/-- The signal of a thread's domain. -/
def State.sigOf (s : State) (c n : Nat) : Signal :=
  match s.domainOf c with
  | none => {}
  | some (_, d) => d.sig n

/-! ## Going on -/

/-- A context looks again: its instruction issues from the start. -/
def State.wake (s : State) (c : Nat) : State :=
  s.modCtx c (fun x => { x with slot := .ready, wait := none, readyFrom := s.acycle x.part + 1 })

/-- Whether a grid instruction that waits would now go on (13 R283 to R287). -/
def State.gridGoes (s : State) (c : Nat) : Bool :=
  let s1 : State := { s.wake c with cur := c }
  let ok (o : Host.Outcome State Fault Refusal) : Bool := match o with
    | .next t => decide ((t.ctx c).slot ≠ .blocked)
    | _ => false
  match s.nextInstr c with
  | .ok (.gld d a b p) => ok (execGld d a b p s1)
  | .ok (.gst d a b p) => ok (execGst d a b p s1)
  | .ok (.gstep a b) => ok (execGstep a b s1)
  | .ok (.gwait a b) => ok (execGwait a b s1)
  | .ok (.gwaitOut a b) => ok (execGwaitOut a b s1)
  | _ => true

/-- The news of a domain for `LEHRW`: its record kind, if there is any (14 R323). -/
def State.lehrNews (s : State) (c : Nat) (inst : Bool) : Option (Nat × Domain) :=
  match s.domainOf c with
  | none => none
  | some (_, d) =>
    match d.frozen with
    | some f => some (f.cause.toNat, d)
    | none =>
      if d.ended.isSome then some (1, d)
      else if inst ∧ ((s.ctx c).lastInst.getD 0).toNat < d.instant.toNat then some (0, d) else none

/-- Whether a wait that no reply ends would now be over. -/
def State.canGo (s : State) (c : Nat) (w : Why) : Bool :=
  let x := s.ctx c
  let es := entriesOf x.buf
  match w with
  | .buffer =>
    let out := oldestOut x.buf
    let sh := ((s.core (coreOf c)).shared.filter (fun p => decide (p.1 = c))).length
    decide (es.length + sh < 8) || (decide (0 < sh ∧ es.length < 8) && !s.heldBack c 1 []) ||
      (!out.isEmpty && !s.heldBack c 1 out) || s.askable ((s.homeLines c 1 out).map (·.1))
  | .marker => !s.vstQueued c && (!s.heldBack c 2 es || s.askable ((s.homeLines c 2 es).map (·.1)))
  | .place l => (!s.lockedFor (lineOf l) c || s.askable [lineOf l]) && !s.bankBusy l && !s.channelBusy l &&
      !s.readHeld (cluOf c) (lineOf l) && !s.copyBusy (cluOf c) (lineOf l) && !s.peerLineOut (lineOf l) &&
      (decide (c ∉ (s.dirAt (lineOf l)).lrq) || decide ((s.dirAt (lineOf l)).lrq.head? = some c ∧ (s.dirAt (lineOf l)).lock = none))
  | .bank l => (s.clu ((l - sramBase) / 2 ^ 21)).bankHeld.all (fun h => decide (h.bank ≠ (l - sramBase) / 2 ^ 16 % 32))
  | .drain => (engineOf x.sta.bindCode).all (fun e => s.drained (coreOf c) e)
  | .reap i =>
    let k := s.core (coreOf c)
    if i = 0 then
      !(k.reapsWith (fun r => match r with | .exited _ => true | _ => false)).isEmpty ||
        (k.reapsWith (fun r => match r with | .live => true | _ => false)).isEmpty
    else decide (k.reapOf i ≠ .live)
  | .baton => s.holdsBaton c
  | .engine e => (s.engineUser (coreOf c) e).isNone &&
      (((s.core (coreOf c)).engWait.filter (fun p => decide (p.1 = e))).head?.all (fun p => decide (p.2 = c)))
  | .openS dst => !(s.chan dst).waiting.any (fun m => decide (m.src = c)) &&
      (List.range 4).any (fun n => !(s.core (coreOf c)).streams.any (fun p => decide (p.1 = n)))
  | .recv => (s.chan c).wake || !(s.chan c).words.isEmpty
  | .mbox => !(s.core (coreOf c)).mbox.isEmpty
  | .barrier n p => decide ((s.barrier x.launch c n).phase ≠ p)
  | .mxwait t => decide (t < (s.mat (coreOf c)).done.toNat) || (s.mat (coreOf c)).stop
  | .mxqueue => decide ((s.mat (coreOf c)).queue.length < 4)
  | .cpwait t => decide (t ∉ x.tickets)
  | .grid _ => s.gridGoes c
  | .test n => (s.sigOf c n).test.isSome && !s.sigPending c
  | .testv n => (s.sigOf c n).testv.isSome && !s.sigPending c
  | .homes => !s.sigPending c
  | .lost _ _ => !s.heldBack c 2 es || s.askable ((s.homeLines c 2 es).map (·.1))
  | .lehr => (s.lehrNews c (match s.nextInstr c with | .ok (.lehrw k _ _ _) => decide (k = 1) | _ => true)).isSome
  | .migrate _ => !hasMarker x.buf && (!s.heldBack c 2 es || s.askable ((s.homeLines c 2 es).map (·.1))) &&
      !s.net.any (fun m => decide (m.src = c))
  | .cpqueue | .watermark _ _ | .trace | .reply => true
  | .retry _ | .watch _ | .syncword _ | .fifo _ _ | .sem _ | .send _ | .barArr | .rcall _ | .remote _ | .pause => false

/-- Whether a blocked context's tag has arrived: a reply, or what it waited for. -/
def State.tagHere (s : State) (c : Nat) : Bool :=
  match (s.ctx c).wait with
  | none => false
  | some w => w.reply.isSome || s.canGo c w.why

/-- The reply that a home gives to a waiting `TEST` or `TESTV` (14 R317). -/
def State.queryReply (s : State) (c : Nat) : Option Reply :=
  let put (q : BitVec 2) (d : Reg) (v : Word) : Reply := { writes := [(d, v)], acq := decide (q = 2) }
  match (s.ctx c).wait.map (·.why), s.nextInstr c with
  | some (Why.test n), .ok (.test q d _) => if s.sigPending c then none else (s.sigOf c n).test.map (put q d)
  | some (Why.testv n), .ok (.testv q d _) => if s.sigPending c then none else (s.sigOf c n).testv.map (put q d)
  | _, _ => none

/-- SIGNAL_QUERY (14 R317): a query is at the home of its signal and is answered when the home can. -/
def execSignalQuery (c : Nat) (s : State) : Host.Outcome State Fault Refusal :=
  goes (match s.queryReply c with
    | none => s
    | some r => s.giveReply c r)

/-- The tag of a waiting context arrives. A context that is lost writes what it has buffered and ends (17 R395, R410). A speculative thread that has its cluster's baton takes the fault that it held (15 R358);
any other whose wait is over issues again. -/
def State.resume (s : State) (c : Nat) (w : WaitRec) : State :=
  if w.reply.isSome then s.takeReply c
  else if s.canGo c w.why then
    match w.why, (s.ctx c).heldFault with
    | .lost code e, _ =>
      if s.heldBack c 2 (entriesOf (s.ctx c).buf) then s.askHeld c 2 (entriesOf (s.ctx c).buf) else (s.drainAll c).endLost c code e
    | _, none => s.wake c
    | _, some e => ((s.wake c).modCtx c (fun x => { x with heldFault := none })).takeFault c e
  else s

/-- TAG_ARRIVAL (02 R32): the awaited tag makes a BLOCKED context READY. While its cluster is calibrated again a context stays
BLOCKED (19 R446). -/
def execTagArrival (c : Nat) (s : State) : Host.Outcome State Fault Refusal :=
  goes (match (s.ctx c).wait with
    | none => s
    | some w => if (s.clu (cluOf c)).recal then s else s.resume c w)

/-! ## Withdrawal (10 R218; 15 R361) -/

/-- The remote request of a context that its wait names. -/
def State.outOf (s : State) (c n : Nat) : Option Outst := s.pkg.outst.find? (fun o => decide (o.ctx = some c ∧ o.eseq = n))

/-- The request of a context of this package that waits in a retry list or as a watch of this package, reached over the egress (10
R227, R234). -/
def State.ownRetry (s : State) (c n : Nat) : Option FabPkt :=
  let mine (r : Option FabPkt) : Option FabPkt :=
    r.filter (fun q => decide (q.srcNode = s.pkg.node ∧ q.tgtNode = s.pkg.node ∧ q.eseq = n))
  if (s.outOf c n).any (fun o => decide (o.pkt.tgtNode = s.pkg.node)) then
    ((s.clus.flatMap (fun k => k.2.retry)).findSome? (fun r => mine r.remote)).or
      ((s.dir.flatMap (fun d => d.2.watches)).findSome? (fun w => mine w.remote))
  else none

/-- Whether a request that has left this package has not been performed: the peer's place decides, and what it finds is free (10
R218; log 6). -/
def State.peerHas (s : State) : Bool := Config.freeBit s.fresh

/-- Whether a wait can be withdrawn: not a call that has been sent, nor a migration in flight (15 R361). A remote operation can while
it has not been performed: in this package that shows; of one that has left it the peer's place decides (10 R218). A `PAUSE` is
withdrawn for the stop of the thread's matrix unit (09 R196). -/
def State.canWithdraw (s : State) (c : Nat) (w : Why) : Bool :=
  match w with
  | .rcall _ | .barArr | .migrate _ | .lost _ _ => false
  | .pause => decide ((s.ctx c).sta.bind = 2) && (s.mat (coreOf c)).stop &&
      (s.ctx c).held.any (fun e => decide (e.code = (s.mat (coreOf c)).cause))
  | .remote n =>
    (s.ownRetry c n).isSome || (s.outOf c n).any (fun o => !o.sent || (decide (o.pkt.tgtNode ≠ s.pkg.node ∧ o.pkt.opc ≠ 0x06) && s.peerHas))
  | _ => true

/-- Whether a context waits for the reply to a call over the fabric that has been sent (15 R361). -/
def State.callSent (s : State) (c n : Nat) : Bool := (s.outOf c n).any (fun o => decide (o.pkt.opc = 0x06) && o.sent)

/-- Take a request that has not been performed back: out of the outbox, out of a retry list or a watch of this package, whose filter
then has not seen its number, or at the peer's place. -/
def State.unsend (s : State) (c n : Nat) : State :=
  let s1 := match s.ownRetry c n with
    | none => s
    | some q =>
      ({ s with clus := s.clus.map (fun k => (k.1, { k.2 with retry := k.2.retry.filter (fun r => decide (r.remote ≠ some q)) })),
                dir := s.dir.map (fun d => (d.1, { d.2 with watches := d.2.watches.filter (fun w => decide (w.remote ≠ some q)) })) } :
        State).modPkg (fun g => { g with seen := g.seen.filter (fun e => !decide (e.1 = q.srcNode ∧ e.2.1 = q.eseq)) })
  match s1.outOf c n with
  | none => s1
  | some o => ({ s1 with fresh := s1.fresh + 1 } : State).modPkg (fun g => { g with outst := g.outst.erase o, outbox := g.outbox.erase o.pkt })

/-- A blocked thread that must not wait: its operation completes if it has been performed, is withdrawn if it can be, and
otherwise goes on (10 R218). -/
def State.unblock (s : State) (c : Nat) : State :=
  match (s.ctx c).wait with
  | none => s
  | some w =>
    if w.reply.isSome then s.takeReply c
    else if s.canWithdraw c w.why then
      (match w.why with
        | .remote n => s.unsend c n
        | _ => s).withdraw c
    else s

/-! ## What the lehr sees (14 R302, R303, R324) -/

/-- How a member counts. -/
inductive LehrSt where
  | running | test | chan | req | paused | held | exited | stopped
deriving DecidableEq, Repr

/-- Whether an instruction's remote request is one that waits at its place for a word or a line: `LDFE`, `STFE` and `WAITRS` through a
PEER handle, and the modes of `RLD` and `RST` (10 R227, R231, R233; 18 R433). -/
def waitsAtPlace : Instr → Bool
  | .ldfeRead _ _ _ _ | .ldfeTake _ _ _ _ | .stfePut _ _ _ _ | .stfeFill _ _ _ _ | .stfeClear _ _ _ | .waitrs _ _ _ _ _ _ => true
  | .rld m _ _ _ _ _ _ => decide (m ≠ 0)
  | .rst m _ _ _ _ _ _ => decide (m ≠ 0)
  | _ => false

/-- Whether a context's remote request waits at its place, so that the thread counts as blocked in `LDFE` (10 R227, R231): in this
package that shows; of one that has left it what the peer's place holds is free (log 6). -/
def State.waitsAfar (s : State) (c : Nat) (w : Why) : Bool :=
  match w, s.nextInstr c with
  | .remote n, .ok i => waitsAtPlace i && ((s.ownRetry c n).isSome ||
      (s.outOf c n).any (fun o => o.sent && decide (o.pkt.tgtNode ≠ s.pkg.node) && s.peerHas))
  | _, _ => false

/-- The class of a wait: KIND and OBJ of a lehr entry, and SIG (14 R324; 15 R360). -/
def State.waitEntry (s : State) (c : Nat) (w : Why) : Nat × Nat × Nat :=
  let ptr := (s.waitPtr c).toNat % 2 ^ 32
  match w with
  | .test n => (0, 0, n)
  | .testv n => (1, 0, n)
  | .recv => (2, slotOf c, 0)
  | .mbox => (2, 0, 0)
  | .send dst => (3, dst, 0)
  | .openS dst => (3, dst, 0)
  | .sem n => (4, n, 0)
  | .engine e => (4, if e < 4 then 16 + e else 20, 0)
  | .reap i => (4, 32 + i, 0)
  | .baton => (4, 64, 0)
  | .barrier n _ => (5, n, 0)
  | .mxwait t => if (s.mat (coreOf c)).queue.any (fun e => e.joining && decide (e.ticket ≤ t)) then (5, 0, 0) else (7, 0, 0)
  | .fifo _ _ | .watch _ | .syncword _ | .retry _ | .grid _ => (6, ptr, 0)
  | .remote n => if s.waitsAfar c (.remote n) then (6, ptr, 0) else (7, 0, 0)
  | .buffer | .marker | .place _ | .bank _ | .barArr | .drain | .rcall _ | .mxqueue | .cpwait _ | .cpqueue
  | .watermark _ _ | .pause | .lehr | .migrate _ | .trace | .homes | .lost _ _ | .reply => (7, 0, 0)

/-- How a member of a launch counts for the lehr. An event about to be delivered makes it running. -/
def State.lehrState (s : State) (c : Nat) : LehrSt :=
  let x := s.ctx c
  if x.slot = .exited ∨ x.slot = .free then .exited
  else if x.stopped then .stopped
  else if x.suspended then .held
  else if x.paused then .paused
  else
    match x.wait with
    | none => .running
    | some w =>
      if !x.held.isEmpty && !x.ih then .running
      else if s.tagHere c then .req
      else
        let k := (s.waitEntry c w.why).1
        if k ≤ 1 then .test else if k ≤ 6 then .chan else .req

/-- The entry of a member (14 R324). -/
def State.lehrEntry (s : State) (c : Nat) : Word :=
  let e := match (s.ctx c).wait with
    | none => (7, 0, 0)
    | some w => s.waitEntry c w.why
  BitVec.ofNat 64 (c % 2 ^ 15 + e.1 * 2 ^ 16 + e.2.2 % 2 ^ 12 * 2 ^ 20 + e.2.1 % 2 ^ 32 * 2 ^ 32)

/-- The packet of a claim, while it stands in its slot (12 R268): the card that an engine will make of it. -/
def State.claimPk (s : State) (k : Claim) : Option CopyPk :=
  match s.headerLoc k.part (BitVec.ofNat 64 k.queue) with
  | none => none
  | some h => (s.slotLoc k.part (BitVec.ofNat 64 k.queue) (s.queueLog h) k.idx).map (fun l =>
      { part := k.part, clu := some k.clu, sup := k.sup, pkt := BitVec.ofNat 512 (s.numIn l 0 64) })

/-- Whether a sync word has an arrival on its way: an outstanding packet, taken or still in its slot, or a matrix record names it
(12 R267). -/
def State.syncFed (s : State) (l : Nat) : Bool :=
  let names (c : CopyPk) : Bool := decide (pkSync c.pkt ≠ 0) && decide (s.syncLoc (pkEng s c) (pkSync c.pkt) = some l)
  s.packets.any (fun p => p.2.fate.isNone && names p.2) || s.claims.any (fun k => (s.claimPk k).any names) ||
    s.mats.any (fun m => m.2.queue.any (fun c => decide (s.cmdSync m.1 c = some l)))

/-- The bands that a thread's grid instruction waits for, each with its part (13 R283 to R287): a cell's, the undecided ones of a
`GWAIT`, or those of the fills that still read its part. -/
def State.gridBands (s : State) (c gid : Nat) : List (Nat × BandId) :=
  let g := s.grid gid
  let ptr := s.waitPtr c
  let p := bitsAt ptr 40 12
  let cell (disp : Int) : List (Nat × BandId) :=
    match cellAt g.desc p ((ptr.toNat % 2 ^ 40 : Nat) + disp) with
    | none => []
    | some l => ((bandOf g.desc p l).map (fun b => (p, b))).toList
  let out (t : Int) : List (Nat × BandId) := (s.outList gid p t).flatMap (fun o =>
    ((bandsOf g.desc).filter (fun b => decide (isRuleBand g.desc o.1 b = decide (o.2.1 = 1)) && !(bandCells g.desc o.1 b).isEmpty)).map
      (fun b => (o.1, b)))
  match s.nextInstr c with
  | .ok (.gld _ _ _ e) => cell e.toInt
  | .ok (.gst _ _ _ e) => cell e.toInt
  | .ok (.gwait _ b) => ((bandsOf g.desc).filter (fun bd => decide (s.bandDecide gid p bd ((s.ctx c).reg b).toNat = .wait))).map (fun bd => (p, bd))
  | .ok (.gstep _ b) => out (((s.ctx c).reg b).toNat + 1 - dLevels g.desc)
  | .ok (.gwaitOut _ b) => out ((s.ctx c).reg b).toNat
  | _ => []

/-- Whether a grid wait has an external feeder: a band it waits for has a peer source, or its part is a peer's or is named by a
feeder entry of the launch (13 R291). -/
def State.gridFed (s : State) (l c gid : Nat) : Bool :=
  let g := s.grid gid
  (s.gridBands c gid).any (fun q => g.bandPeer q.1 q.2 || g.peers q.1 ||
    g.bases.any (fun b => decide ((4, b, q.1) ∈ (s.launch l).feeders)))

/-- Whether a wait has an external feeder (14 R303; 15 R329; 12 R267; 13 R291). -/
def State.fed (s : State) (l c : Nat) (w : Why) : Bool :=
  let feed := (s.launch l).feeders
  let word (loc : Nat) : Bool := decide ((1, 0, loc / 8) ∈ feed)
  match w with
  | .recv => decide ((2, slotOf c, 0) ∈ feed)
  | .barrier n _ => decide ((3, n, 0) ∈ feed)
  | .watch loc => word loc
  | .retry loc => word loc
  | .syncword loc => word loc || s.syncFed loc
  | .fifo b _ => decide ((1, 1, (0xD00 + 8 * b) / 8) ∈ feed)
  | .grid g => s.gridFed l c g
  | _ => false

end Sys2Proof.Machine
end

