-- ==== Sys2Proof/Machine/Lehr.lean ====
section
/-! DEFINITION. Sys2Proof/Machine/Lehr.lean: the lehr: the members of a launch, traffic, decisions of signals, boundaries, events and
the end of a domain (14 R293, R296, R299, R300, R303 to R309, R312, R321, R322). -/

namespace Sys2Proof.Machine

/-! ## Members and traffic (14 R293, R302, R303) -/

/-- The members of a launch that stand in slots, in ascending context number. -/
def State.members (s : State) (l : Nat) : List Nat :=
  (s.ctxs.filter (fun p => decide (p.2.launch = some l ∧ p.2.role ≠ .gaffer) && (p.2.slot.live || decide (p.2.slot = .exited)))).map (·.1)

/-- The spilled members of a launch, by their keys. -/
def State.spilledOf (s : State) (l : Nat) : List (Nat × Spilled) :=
  s.spilled.filter (fun p => decide (p.2.ctx.launch = some l ∧ p.2.ctx.role ≠ .gaffer))

/-- The members of a launch on their way to another core, by message number. -/
def State.movingOf (s : State) (l : Nat) : List (Nat × Ctx) :=
  s.moving.filter (fun p => decide (p.2.launch = some l ∧ p.2.role ≠ .gaffer))

/-- Whether every block of a launch has started. -/
def State.allStarted (s : State) (l : Nat) : Bool := decide (LPkt.blocks (s.launch l).pkt ≤ (s.launch l).nextBlock)

/-- The phase tag of a launch's current instant, 0 outside a reactive domain (02 R54; 14 R304). -/
def State.phaseTag (s : State) (l : Nat) : Bool := (s.launch l).dom.any (fun d => decide (d.instant.toNat % 2 = 1))

/-- Whether a message belongs to the traffic of a launch's members with the tag of its instant. -/
def State.msgOf (s : State) (l : Nat) (m : Msg) : Bool :=
  let is (c : Nat) : Bool := decide ((s.ctx c).launch = some l ∧ (s.ctx c).role ≠ .gaffer)
  decide (m.tag = s.phaseTag l) && (is m.src || is m.dst ||
    (match m.body with
      | .emit k _ _ => decide (k = l)
      | .release k _ _ => decide (k = l)
      | .exitNotice _ _ k _ _ => decide (k = some l)
      | .barrier k _ _ _ => decide (k = some l)
      | _ => false))

/-- The commands of a launch, with the tag of its instant, that matrix units hold, or the saved images of units (09 R206; 17
R405): each with its unit. -/
def State.cmdsOf (s : State) (l : Nat) : List (Mat × MCmd) :=
  let of (m : Mat) : List (Mat × MCmd) :=
    (m.queue.filter (fun c => decide (c.launch = some l ∧ c.tag = s.phaseTag l))).map (fun c => (m, c))
  s.mats.flatMap (fun m => of m.2) ++ (s.engImg.filter (fun m => m.2.live)).flatMap (fun m => of m.2.mat)

/-- Messages, requests and engine work of a launch's members, with the tag of its instant, but for its matrix commands (14 R303,
R304; 12 R271; 13 R291). A request that waits at its place is a wait, and no traffic (10 R231). -/
def State.inFlightOf (s : State) (l : Nat) : Bool :=
  let ms := s.members l
  s.net.any (s.msgOf l) || !(s.movingOf l).isEmpty || s.gridBusy (some l) ||
    ms.any (fun c =>
      let x := s.ctx c
      (x.buf.any (fun i => match i with | .msg _ => true | _ => false)) || decide (x.acks ≠ 0) ||
        (decide (x.slot = .exited) && decide (x.ending ≠ 2)) || !(s.portQueue c).isEmpty ||
        (s.pkg.outst.any (fun o => decide (o.ctx = some c)) && !x.wait.any (fun w => s.waitsAfar c w.why))) ||
    s.packets.any (fun p => decide (p.2.launch = some l ∧ p.2.tag = s.phaseTag l) && p.2.fate.isNone) ||
    s.claims.any (fun k => decide (k.launch = some l ∧ k.tag = s.phaseTag l))

/-- The traffic of an instant: it does not end before every command accepted in it has completed (09 R206). -/
def State.inTraffic (s : State) (l : Nat) : Bool := s.inFlightOf l || !(s.cmdsOf l).isEmpty

/-- The traffic that can still change something: a command that waits for the other parts of its gang, and what waits behind it, does
not by itself; a thread in `MXWAIT` on it counts as waiting in `BARW` (09 R206). -/
def State.inMotion (s : State) (l : Nat) : Bool := s.inFlightOf l || (s.cmdsOf l).any (fun p => !p.1.joinOpen p.2)

/-- Whether a launch has an unsettled member (14 R298, R303). -/
def State.anyUnsettled (s : State) (l : Nat) : Bool :=
  !s.allStarted l || (s.members l).any (fun c => !(s.ctx c).settled && decide ((s.ctx c).slot ≠ .exited)) ||
    (s.spilledOf l).any (fun p => !p.2.ctx.settled) || (s.movingOf l).any (fun p => !p.2.settled)

/-- How many members of a launch are in a state: a block that has not started, and a spilled member that is not paused, held
or stopped, are running. -/
def State.countLehr (s : State) (l : Nat) (k : LehrSt) : Nat :=
  let away (x : Ctx) : LehrSt := if x.stopped then .stopped else if x.suspended then .held else if x.paused then .paused else .running
  ((s.members l).filter (fun c => decide (s.lehrState c = k))).length + ((s.spilledOf l).filter (fun p => decide (away p.2.ctx = k))).length +
    (if k = .running ∧ !s.allStarted l then 1 else 0)

/-! ## Decisions (14 R299, R300) -/

/-- A domain. -/
def State.dom (s : State) (l : Nat) : Domain := (s.launch l).dom.getD {}

/-- Change a launch's domain. -/
def State.modDom (s : State) (l : Nat) (f : Domain → Domain) : State := s.modLaunch l (fun x => { x with dom := x.dom.map f })

/-- Change a signal. -/
def Domain.modSig (d : Domain) (n : Nat) (f : Signal → Signal) : Domain := { d with sigs := SMap.put d.sigs n (f (d.sig n)) }

/-- The conditions of finality and absence: settled, the frame applied, and no pending emitter. -/
def Domain.decideSig (d : Domain) (n : Nat) : Domain :=
  let g := d.sig n
  if d.settled && !d.awaiting && g.pend.isEmpty then
    match g.st with
    | .present => d.modSig n (fun g => { g with st := .final })
    | .unknown => d.modSig n (fun g => { g with st := .absent })
    | .final | .absent | .forced => d
  else d

/-- SETTLED is broadcast: every home decides what it can. -/
def Domain.settle (d : Domain) : Domain := (List.range d.nsig).foldl (fun d n => d.decideSig n) { d with settled := true }

/-- An emission arrives at its home: from a member or from the frame (14 R295, R299). -/
def Domain.emission (d : Domain) (n : Nat) (v : Word) : Domain :=
  if (d.sig n).st.decided then d else d.modSig n (fun g => g.emit v)

/-- A thread releases a signal at its home. -/
def Domain.released (d : Domain) (n tid : Nat) : Domain :=
  (d.modSig n (fun g => { g with pend := g.pend.filter (fun t => decide (t ≠ tid)) })).decideSig n

/-- SIGNAL_EMISSION (14 R299). -/
def execSignalEmission (m : Nat) (s : State) : Host.Outcome State Fault Refusal :=
  goes (match s.msgAt m with
    | none => s
    | some g =>
      match g.body with
      | .emit l n v => (s.takeMsg g).modDom l (fun d => d.emission n v)
      | _ => s)

/-- SIGNAL_RELEASE (14 R299). -/
def execSignalRelease (m : Nat) (s : State) : Host.Outcome State Fault Refusal :=
  goes (match s.msgAt m with
    | none => s
    | some g =>
      match g.body with
      | .release l n tid => (s.takeMsg g).modDom l (fun d => d.released n tid)
      | _ => s)

/-! ## Frames (14 R296; 17 R413) -/

/-- CRC-32 of IEEE 802.3 over some bytes, lowest bit first. -/
def crc32 (l : List Byte) : Nat :=
  let bit (c : Nat) : Nat := if c % 2 = 1 then c / 2 ^^^ 0xEDB88320 else c / 2
  (l.foldl (fun c b => (List.range 8).foldl (fun c _ => bit c) (c ^^^ b.toNat)) (2 ^ 32 - 1)) ^^^ (2 ^ 32 - 1)

/-- The locations of the frame slot of instant `i`. -/
def State.frameLocs (s : State) (l i : Nat) : Option (List Nat) :=
  let x := s.launch l
  let d := s.dom l
  match s.engSegs { clu := s.firstClu x.part, part := x.part, sup := false } (d.ring + BitVec.ofNat 64 (4096 * (i % 2 ^ d.ringLog)))
      4096 3 true with
  | .ok segs => some (spanAll segs)
  | .error _ => none

/-- The entries of a frame that are applied, in order: signal and value. -/
def frameEntries (nsig : Nat) (f : List Byte) : List (Nat × Word) :=
  let n := min (leNat ((f.drop 8).take 4)) 255
  (List.range n).filterMap (fun j =>
    let e := (f.drop (16 + 16 * j)).take 16
    let sig := leNat (e.take 2)
    if sig < nsig ∧ leNat ((e.drop 2).take 6) = 0 then some (sig, BitVec.ofNat 64 (leNat (e.drop 8))) else none)

/-- Whether an applied frame's record is logged or met (17 R414 to R416): none while it must wait. -/
def State.frameLogged (s : State) (l i crc : Nat) : Option State :=
  let x := s.launch l
  if x.replay = 2 then
    match s.readRecord x.part with
    | none => none
    | some (k, r) =>
      if bitsAt r 0 8 = 4 ∧ bitsAt r 16 16 = x.lcnt % 2 ^ 16 ∧ bitsAt r 8 1 = 1 ∧ bitsAt r 64 64 = i then
        if bitsAt r 32 32 = crc then some (s.passRecord x.part k) else some (s.diverge x.part (some l) (BitVec.ofNat 64 k))
      else none
  else s.logged x.part (some l) 4 1 crc i 0 (fun _ => true)

/-- FRAME_APPLY (14 R296, R305): the frame of the instant is present; its entries are applied as emissions, the consumed word is
written, and the instant starts. -/
def execFrameApply (l : Nat) (s : State) : Host.Outcome State Fault Refusal :=
  goes (
    let d := s.dom l
    let i := d.instant.toNat
    if d.awaiting = false ∨ d.frozen.isSome ∨ d.ended.isSome then s
    else
      match s.frameLocs l i with
      | none => s
      | some ls =>
        let f := s.bytesAt ls
        if leNat (f.take 8) ≠ i then s
        else
          let n := min (leNat ((f.drop 8).take 4)) 255
          match s.frameLogged l i (crc32 (f.take (16 + 16 * n))) with
          | none => s
          | some s1 =>
            let s2 := s1.modDom l (fun d => (frameEntries d.nsig f).foldl (fun d e => d.emission e.1 e.2) { d with awaiting := false })
            s2.place {} (((ls.drop 12).take 4).zip (leBytes 4 1)))

/-! ## Regions (14 R306, R312) -/

/-- What the regions of a member say of the next instant. -/
inductive RegionOut where
  | resume
  | abort (depth : Nat) (handler : Word)
  | hold
deriving DecidableEq, Repr

/-- R306: the outermost region whose signal was present decides. -/
def applyRegions (present : Nat → Bool) : Nat → List Region → RegionOut
  | _, [] => .resume
  | k, g :: r => if present g.sig then (if g.abort then .abort k g.handler else .hold) else applyRegions present (k + 1) r

/-- A PAUSED or HELD member in its slot after a boundary: `PAUSE` returns, at a handler or behind it, or the member is
held. -/
def Ctx.afterBoundary (x : Ctx) (o : RegionOut) : Ctx :=
  let y : Ctx := { x with renounced := [], late := [], released := [], resv := none }
  let give (r : Reply) (x : Ctx) : Ctx := { x with paused := false, suspended := false, wait := x.wait.map (fun w => { w with reply := some r }) }
  match o with
  | .resume => give {} y
  | .abort k h => give { pc := some h } { y with regions := y.regions.take k }
  | .hold => { y with paused := false, suspended := true }

/-- The same of a spilled member: its saved pc moves on. A `PAUSE` that so completes is stepped when the thread is back (17 R399),
and the hook of the boundary waits for it (17 R397). -/
def Ctx.afterBoundaryAway (x : Ctx) (o : RegionOut) (hook : Bool) : Ctx :=
  let y := x.afterBoundary o
  let due := if x.sta.ss && !x.sta.sup then some (({ code := Cause.singleStep } : Exc), x.ih) else none
  let go (pc : Word) : Ctx := { y with pc := pc, wait := none, dueTrap := due,
                                       held := if hook then insEvent { code := Cause.boundaryHook } y.held else y.held }
  match o with
  | .resume => go (x.pc + 4)
  | .abort _ h => go h
  | .hold => y

/-! ## The boundary (14 R305) -/

/-- Whether every member's writes, and those of the domain's clusters, can be written now (10 R214, R226, R236). -/
def State.canPublishAll (s : State) (l : Nat) : Bool :=
  (s.members l).all (fun c => !s.heldBack c 2 (entriesOf (s.ctx c).buf)) && !s.clustersHeld (s.launch l).clus

/-- Step 1: every member's entries are written with the effect of a system-scope release, and every inbox is applied. -/
def State.publishMembers (s : State) (l : Nat) : State :=
  ((s.members l).foldl (fun s c => s.drainAll c) s).publishClusters (s.launch l).clus

/-- Whether members have stores through PEER handles that no peer has acknowledged yet (10 R211, system row; 18 R433). -/
def State.peersLeft (s : State) (l : Nat) : Bool :=
  (s.members l).any (fun c => (entriesOf (s.ctx c).buf).any (fun e => isPeer (e.line * 128)) || s.peerOut (s.ctx c).tid ||
    (s.core (coreOf c)).shared.any (fun p => isPeer (p.2.line * 128)))

/-- Whether an instant can end now: what its members wrote can be published, and peers have acknowledged what goes to them. -/
def State.canBound (s : State) (l : Nat) : Bool := s.canPublishAll l && !s.peersLeft l

/-- What a boundary that must wait does: it asks for what holds its writes back, or, when only peers are still to acknowledge,
writes everything. -/
def State.askBound (s : State) (l : Nat) : State :=
  if s.canPublishAll l then s.publishMembers l
  else ((s.members l).foldl (fun s c => s.askHeld c 2 (entriesOf (s.ctx c).buf)) s).askClusters (s.launch l).clus

/-- Steps 2, 3 and 5: regions, the next instant, and what each member does in it. A HELD member is no pending emitter. Every
member's reservation ends with the instant (10 R225). -/
def State.nextInstant (s : State) (l : Nat) : State :=
  let d := s.dom l
  let was (n : Nat) : Bool := decide ((d.sig n).st = .present ∨ (d.sig n).st = .final)
  let out (x : Ctx) : RegionOut := applyRegions was 0 x.regions
  let bh := bitOf (s.part (s.launch l).part).trace 5
  let here (s : State) (c : Nat) : State :=
    let x := s.ctx c
    if x.paused || x.suspended then
      let s1 := s.setCtx c (x.afterBoundary (out x))
      if bh && decide (out x ≠ .hold) then s1.raiseAt c { code := Cause.boundaryHook } else s1
    else s.modCtx c (fun x => { x with resv := none })
  let s1 := (s.members l).foldl here s
  let away (s : State) (p : Nat × Spilled) : State :=
    let x := p.2.ctx
    if x.paused || x.suspended then
      let y := x.afterBoundaryAway (out x) bh
      let t : State := { s with spilled := SMap.put s.spilled p.1 { p.2 with ctx := y } }
      (t.areaWrite x.part (p.1 % 2 ^ 52 + 0x108) (List.replicate 64 0)).rewriteRecord x.part (p.1 % 2 ^ 52) y
    else s
  let s2 := (s.spilledOf l).foldl away s1
  let emitters : List Ctx := (((s2.members l).map s2.ctx) ++ ((s2.spilledOf l).map (fun p => p.2.ctx))).filter (fun x =>
    decide (x.slot ≠ .exited) && !x.suspended)
  let clear (g : Signal) : Signal := { comb := g.comb }
  let sigs0 : SMap Signal := d.sigs.map (fun p => (p.1, clear p.2))
  let enter (m : SMap Signal) (x : Ctx) : SMap Signal := x.declared.foldl (fun m n =>
    SMap.put m n { (SMap.at {} m n) with pend := (SMap.at {} m n).pend ++ [x.tid] }) m
  s2.modDom l (fun d => { d with instant := d.instant + 1, sigs := emitters.foldl enter sigs0, settled := false,
                                 awaiting := !d.free })

/-- Whether a boundary is the last one: every block has started and every member has exited. -/
def State.lastBoundary (s : State) (l : Nat) : Bool :=
  s.allStarted l && (s.members l).all (fun c => decide ((s.ctx c).slot = .exited)) && (s.spilledOf l).isEmpty && (s.movingOf l).isEmpty

/-- A boundary. In a domain that runs free the absent frame of the next instant is logged first (17 R414). -/
def State.boundary (s : State) (l : Nat) : State :=
  let d := s.dom l
  if s.lastBoundary l then
    (s.publishMembers l).modDom l (fun d => { d with ended := some d.instant })
  else if d.free then
    match s.noFrame l (d.instant.toNat + 1) with
    | none => s
    | some s1 => (s1.publishMembers l).nextInstant l
  else (s.publishMembers l).nextInstant l

/-! ## The end of a domain (14 R321, R322) -/

/-- The record of a thread that ended with a code away from its slot. -/
def State.endAway (s : State) (code : BitVec 8) (x : Ctx) : State :=
  match x.launch.bind (fun l => s.blockCore l x.block) with
  | none => s
  | some k =>
    if x.startSlot = 0 then
      if (s.ctx (16 * k)).slot.live then s
      else s.setCtx (16 * k) { slot := .exited, part := x.part, code := code, launch := x.launch, block := x.block, role := x.role,
                               settled := true, ending := 2, tid := x.tid }
    else s.setReap k x.startSlot (.exited code)

/-- Every member of a launch ends with a code, and so do the blocks that have not started. -/
def State.endMembers (s : State) (l : Nat) (code : BitVec 8) : State :=
  let here (s : State) (c : Nat) : State :=
    if (s.ctx c).slot.live then ((s.unblock c).modCtx c (fun x => { x with stopped := false, paused := false, suspended := false })).exitThread c code
    else s
  let s1 := (s.members l).foldl here s
  let away (s : State) (p : Nat × Spilled) : State :=
    let t : State := { s with spilled := SMap.del s.spilled p.1 }
    t.endAway code p.2.ctx
  let s2 := (s1.spilledOf l).foldl away s1
  let gone (s : State) (p : Nat × Ctx) : State :=
    let t : State := { s with moving := SMap.del s.moving p.1, net := s.net.filter (fun m => decide (m.id ≠ p.1)) }
    let u : State := { t with cores := t.cores.map (fun k => (k.1, { k.2 with arrivals := k.2.arrivals.filter (fun m => decide (m.id ≠ p.1)) })) }
    u.endAway code p.2
  let s3 := (s2.movingOf l).foldl gone s2
  let total := LPkt.blocks (s3.launch l).pkt
  s3.modLaunch l (fun x => { x with ended := x.ended + (total - x.nextBlock), nextBlock := max total x.nextBlock })

/-- Every member of a launch stops at its boundary, with its waits withdrawn. -/
def State.stopMembers (s : State) (l : Nat) : State :=
  (((s.members l).filter (fun c => (s.ctx c).slot.live)).foldl (fun s c => (s.unblock c).modCtx c (fun x => { x with stopped := true })) s)

/-- The members of a domain stop, with their waits withdrawn; what they wrote is published as at a boundary, every member ends
with code 255, and the domain ends (14 R321). While a line that must be written is held back, or a peer has not acknowledged, it
does not end yet. -/
def State.endDomain (s : State) (l : Nat) : State × Bool :=
  let s1 := s.stopMembers l
  if s1.canBound l then
    (((s1.publishMembers l).endMembers l 255).modDom l (fun d =>
      { d with frozen := none, awaiting := false, ending := false, ended := some d.instant }), true)
  else ((s1.askBound l).modDom l (fun d => { d with ending := true }), false)

/-! ## Events (14 R307 to R309, R322) -/

/-- Whether the gaffer of a launch has exited. -/
def State.gafferGone (s : State) (l : Nat) : Bool :=
  let is (x : Ctx) : Bool := decide (x.launch = some l ∧ x.role = .gaffer) && decide (x.slot ≠ .exited)
  decide ((LPkt.gaffer (s.launch l).pkt).1 < (s.launch l).nextBlock) && !s.ctxs.any (fun p => is p.2) &&
    !s.spilled.any (fun p => is p.2.ctx) && !s.moving.any (fun p => is p.2)

/-- The number that a member in flight goes by: the context that it left. -/
def State.leftFrom (s : State) (m : Nat) : Nat :=
  (((s.net ++ s.cores.flatMap (fun k => k.2.arrivals)).find? (fun g => decide (g.id = m))).map (·.src)).getD 0

/-- An entry goes into a record's list in ascending context number (14 R324). -/
def insEntry (e : Nat × Word) : List (Nat × Word) → List (Nat × Word)
  | [] => [e]
  | h :: r => if e.1 < h.1 then e :: h :: r else h :: insEntry e r

/-- A member stops at its boundary; where its wait is withdrawn, `EPC` names the instruction that waited (14 R307, R308). -/
def State.halt (s : State) (c : Nat) : State :=
  let back := (s.ctx c).wait.any (fun w => w.reply.isNone && s.canWithdraw c w.why)
  (s.unblock c).modCtx c (fun x => { x with stopped := true, epc := if back then x.pc else x.epc })

/-- An event freezes an instant: the members in `stop`, in slots, and those in `away`, in flight, stop and are listed (14 R307,
R308). -/
def State.freeze (s : State) (l : Nat) (cause : Cause) (stop : List Nat) (away : List Nat := []) : State :=
  let listed := (away.map (fun m => (s.leftFrom m, BitVec.ofNat 64 (s.leftFrom m % 2 ^ 15 + 7 * 2 ^ 16)))).foldl (fun t e => insEntry e t)
    (stop.map (fun c => (c, s.lehrEntry c)))
  let s1 := stop.foldl (fun s c => s.halt c) s
  let s1 : State := { s1 with moving := s1.moving.map (fun p => (p.1, if p.1 ∈ away then { p.2 with stopped := true } else p.2)) }
  if s1.gafferGone l then (s1.endDomain l).1
  else s1.modDom l (fun d => { d with frozen := some { cause := cause, instant := d.instant, listed := listed } })

/-- Outside a domain the fault goes to each listed thread at its waiting instruction (14 R309). -/
def State.deadlockFault (s : State) (c : Nat) : State :=
  let e := s.lehrEntry c
  let s1 := s.unblock c
  s1.enter c 0 (s1.ctx c).pc { code := Cause.channelDeadlock, info := e }

/-- One decision on a launch's current instant (14 R304, R309): the waves have come out equal. -/
def State.lehrDecide (s : State) (l : Nat) : State :=
  let x := s.launch l
  let re := x.dom.isSome
  let d := s.dom l
  if x.st ≠ .ready ∧ x.st ≠ .running then s
  else if d.ending then (s.endDomain l).1
  else if d.frozen.isSome ∨ d.awaiting ∨ d.ended.isSome then s
  else
    let s1 := if re && !d.settled && !s.anyUnsettled l then s.modDom l Domain.settle else s
    let n (k : LehrSt) : Nat := s1.countLehr l k
    let waiting := (s1.members l).filter (fun c => decide (s1.lehrState c = .test ∨ s1.lehrState c = .chan))
    if n .running + n .test + n .chan + n .req = 0 ∧ !s1.inTraffic l then
      if !re then s1 else if s1.canBound l then s1.boundary l else s1.askBound l
    else if n .running + n .req = 0 ∧ !s1.inMotion l ∧ !(waiting.any (fun c => (s1.ctx c).wait.any (fun w => s1.fed l c w.why))) then
      if re then
        if 0 < n .test then s1.freeze l Cause.causality waiting
        else if 0 < n .chan then s1.freeze l Cause.channelDeadlock waiting
        else s1
      else if 0 < n .chan then waiting.foldl (fun s c => s.deadlockFault c) s1
      else s1
    else s1

/-- LEHR_DECIDE (14 R304). Where a member's request stands at a peer, what the peer holds is looked at anew (log 6). -/
def execLehrDecide (l : Nat) (s : State) : Host.Outcome State Fault Refusal :=
  let afar := (s.members l).any (fun c => (s.ctx c).wait.any (fun w => match w.why with
    | .remote n => (s.outOf c n).any (fun o => o.sent)
    | _ => false))
  goes (if afar then ({ s with fresh := s.fresh + 1 } : State).lehrDecide l else s.lehrDecide l)

/-- INSTANT_LIMIT (14 R308): an instant has counted more than its limit. Cycles do not count while the instant is frozen or
a member is spilled. While the frame is awaited, no member is listed. -/
def execInstantLimit (l : Nat) (s : State) : Host.Outcome State Fault Refusal :=
  goes (
    let d := s.dom l
    let x := s.launch l
    if x.dom.isNone ∨ (x.st ≠ .ready ∧ x.st ≠ .running) ∨ d.frozen.isSome ∨ d.ended.isSome ∨ !(s.spilledOf l).isEmpty then s
    else if d.awaiting then s.freeze l Cause.instantLimit []
    else
      let is (k : LehrSt) : Bool := decide (k = .running ∨ k = .req ∨ k = .test ∨ k = .chan)
      s.freeze l Cause.instantLimit ((s.members l).filter (fun c => is (s.lehrState c))) ((s.movingOf l).map (·.1)))

end Sys2Proof.Machine
end

