-- ==== Sys2Proof/Machine/Instants.lean ====
section
/-! DEFINITION. Sys2Proof/Machine/Instants.lean: the instructions of instants and signals (14 R294, R297, R298, R314 to R324). -/

namespace Sys2Proof.Machine

/-- `INSTANT` (14 R294). -/
def State.instantOf (s : State) (c : Nat) : Word :=
  match s.domainOf c with
  | none => 0
  | some (_, d) => d.instant

/-- An instruction of a member: the role first (14 R314). -/
def State.asMember (s : State) (go : Nat → Domain → Res) : Res :=
  match s.domainOf s.cur with
  | none => Res.bad Cause.noBinding
  | some (l, d) => if (s.ctx s.cur).role = .member then go l d else Res.bad Cause.noBinding

/-- An instruction of the gaffer. -/
def State.asGaffer (s : State) (go : Nat → Domain → Res) : Res :=
  match s.domainOf s.cur with
  | none => Res.bad Cause.noBinding
  | some (l, d) => if (s.ctx s.cur).role = .gaffer then go l d else Res.bad Cause.noBinding

/-- The fault of a signal operand: EINFO[11:0] holds it. -/
def sigBad (n : Nat) : Res := Res.bad Cause.reservedBits 0 (BitVec.ofNat 64 (n % 2 ^ 12))

/-- A signal operand. -/
def onSignal (d : Domain) (v : Word) (go : Nat → Res) : Res := if d.nsig ≤ v.toNat then sigBad v.toNat else go v.toNat

/-- The signals of a group: base + k for each bit k of the mask. -/
def groupSigs (base : Nat) (mask : Word) : List Nat := ((List.range 64).filter (fun k => bitOf mask k)).map (base + ·)

/-- A group operand: the base, then the signals that the mask names. -/
def onGroup (d : Domain) (base mask : Word) (go : Nat → Res) : Res :=
  if base.toNat % 64 ≠ 0 ∨ d.nsig ≤ base.toNat then sigBad base.toNat
  else
    match (groupSigs base.toNat mask).find? (fun n => decide (d.nsig ≤ n)) with
    | some n => sigBad n
    | none => go base.toNat

/-! ## PAUSE and INSTN (14 R315) -/

/-- The effect of `PAUSE`. -/
def State.pause (s : State) : Res :=
  if (s.ctx s.cur).role = .member then
    let s1 := s.modCtx s.cur (fun x => { x with settled := true })
    .wait ((s1.releaseAll s.cur).modCtx s.cur (fun x => { x with paused := true })) .pause
  else .done (s.pushMarker s.cur 2)

/-- PAUSE. -/
def execPause (s : State) : Host.Outcome State Fault Refusal := goes (s.run {} 4 (fun s => s.pause))

/-- INSTN. -/
def execInstn (d : Reg) (s : State) : Host.Outcome State Fault Refusal :=
  goes (s.run {} 4 (fun s => .done (s.setReg d (s.instantOf s.cur))))

/-! ## EMIT, TEST, TESTV, RENOUNCE, EMITS (14 R316 to R319) -/

/-- The effect of `EMIT`: 0 plain, 1 with release at cluster, 2 at device scope. -/
def State.emit (s : State) (k : Nat) (a v : Word) : Res :=
  s.asMember (fun l d => onSignal d a (fun n =>
    let x := s.ctx s.cur
    if n ∉ x.declared ∨ n ∈ x.renounced ∨ n ∈ x.late then Res.bad Cause.emitUndeclared 0 (BitVec.ofNat 64 n)
    else
      let s1 := if k = 0 then s else s.pushMarker s.cur (BitVec.ofNat 2 k)
      .done (s1.post s1.cur (s1.sigHome l n) (.emit l n v))))

/-- EMIT. -/
def execEmit (k : BitVec 2) (a b : Reg) (s : State) : Host.Outcome State Fault Refusal :=
  goes (s.run {} 4 (fun s => s.emit k.toNat (s.reg a) (s.reg b)))

/-- A question to the home of a signal. -/
def State.ask (s : State) (q : Nat) (dst : Reg) (a : Word) (w : Nat → Why) (f : Signal → Option Word) : Res :=
  s.asMember (fun _ d => onSignal d a (fun n =>
    if s.sigPending s.cur then .wait s (w n)
    else
      match f (d.sig n) with
      | none => .wait s (w n)
      | some v => .done ((s.setReg dst v).acquire s.cur q)))

/-- TEST. -/
def execTest (q : BitVec 2) (d a : Reg) (s : State) : Host.Outcome State Fault Refusal :=
  goes (s.run {} 4 (fun s => s.ask q.toNat d (s.reg a) .test Signal.test))

/-- TESTV. -/
def execTestv (q : BitVec 2) (d a : Reg) (s : State) : Host.Outcome State Fault Refusal :=
  goes (s.run {} 4 (fun s => s.ask q.toNat d (s.reg a) .testv Signal.testv))

/-- The effect of `RENOUNCE`. -/
def State.renounce (s : State) (a : Word) : Res :=
  s.asMember (fun _ d => onSignal d a (fun n =>
    let s1 := s.modCtx s.cur (fun x => { x with settled := true })
    let x := s1.ctx s1.cur
    if n ∈ x.declared ∧ hasNat x.released n = false then
      .done ((s1.releaseSig s1.cur n).modCtx s1.cur (fun x => { x with renounced := addNat x.renounced n }))
    else .done s1))

/-- RENOUNCE. -/
def execRenounce (a : Reg) (s : State) : Host.Outcome State Fault Refusal :=
  goes (s.run {} 4 (fun s => s.renounce (s.reg a)))

/-- A context with declaration slot `i` replaced. -/
def Ctx.setDslot (x : Ctx) (i base : Nat) (mask : Word) : Ctx :=
  { x with dslots := (List.range 4).map (fun j => if j = i then (base, mask) else x.dslot j) }

/-- A signal joins a member's declared set: it is registered at its home, which answers late once it has decided. -/
def State.registerSig (s : State) (l c n : Nat) : State :=
  if ((s.dom l).sig n).st.decided then s.modCtx c (fun x => { x with late := addNat x.late n })
  else
    (s.modDom l (fun d => d.modSig n (fun g => { g with pend := g.pend.filter (fun t => decide (t ≠ (s.ctx c).tid)) ++ [(s.ctx c).tid] }))).modCtx c
      (fun x => { x with released := delNat x.released n })

/-- A signal leaves a member's declared set: it is released at its home. -/
def State.dropSig (s : State) (l c n : Nat) : State :=
  (s.modDom l (fun d => d.released n (s.ctx c).tid)).modCtx c (fun x => { x with released := addNat x.released n })

/-- The effect of `EMITS`: the homes answer once every earlier signal message has reached them. -/
def State.emits (s : State) (i : Nat) (base mask : Word) : Res :=
  s.asMember (fun l d => onGroup d base mask (fun b =>
    if s.sigPending s.cur then .wait s .homes
    else
      let c := s.cur
      let old := (s.ctx c).declared
      let s1 := s.modCtx c (fun x => x.setDslot i b mask)
      let new := (s1.ctx c).declared
      let s2 := (old.filter (fun n => decide (n ∉ new))).foldl (fun s n => s.dropSig l c n) s1
      let s3 := (new.filter (fun n => decide (n ∉ old))).foldl (fun s n => s.registerSig l c n) s2
      .done (s3.modCtx c (fun x => { x with settled := true }))))

/-- EMITS. -/
def execEmits (sl : BitVec 2) (a b : Reg) (s : State) : Host.Outcome State Fault Refusal :=
  goes (s.run {} 12 (fun s => s.emits sl.toNat (s.reg a) (s.reg b)))

/-! ## Regions (14 R320) -/

/-- Push a region. -/
def State.pushRegion (s : State) (g : Region) : Res :=
  if 8 ≤ (s.ctx s.cur).regions.length then Res.bad Cause.reservedBits
  else .done (s.modCtx s.cur (fun x => { x with regions := x.regions ++ [g] }))

/-- ABORTW: a displacement of 0 faults. -/
def execAbortw (a : Reg) (p : BitVec 32) (s : State) : Host.Outcome State Fault Refusal :=
  goes (s.run {} 12 (fun s => s.asMember (fun _ d => onSignal d (s.reg a) (fun n =>
    if p = 0 then Res.bad Cause.reservedBits
    else s.pushRegion ⟨true, n, (s.ctx s.cur).pc + p.signExtend 64 * 4⟩))))

/-- SUSPW. -/
def execSuspw (a : Reg) (s : State) : Host.Outcome State Fault Refusal :=
  goes (s.run {} 12 (fun s => s.asMember (fun _ d => onSignal d (s.reg a) (fun n => s.pushRegion ⟨false, n, 0⟩))))

/-- ENDW. -/
def execEndw (s : State) : Host.Outcome State Fault Refusal :=
  goes (s.run {} 12 (fun s => s.asMember (fun _ _ =>
    if (s.ctx s.cur).regions.isEmpty then Res.bad Cause.reservedBits
    else .done (s.modCtx s.cur (fun x => { x with regions := x.regions.dropLast })))))

/-! ## The gaffer (14 R321 to R324) -/

/-- The records of spilled threads say what they have renounced (17 R403). -/
def State.noteRenounced (s : State) (tids : List Nat) : State :=
  (s.spilled.filter (fun p => decide (p.2.ctx.tid ∈ tids))).foldl (fun s p =>
    let x := p.2.ctx
    s.areaWrite x.part (p.1 % 2 ^ 52 + 0x108) ((List.range 4).flatMap (fun j => leBytes 8 (maskFor (x.dslot j).1 x.renounced)))) s

/-- A forced signal closes; each pending emitter has it released and renounced. -/
def State.forceSig (s : State) (l n : Nat) : State :=
  let g := (s.dom l).sig n
  let close (g : Signal) : Signal :=
    if g.st = .unknown then { g with st := .forced } else if g.st = .present then { g with st := .final } else g
  if g.st.decided then s
  else
    let note (x : Ctx) : Ctx := { x with renounced := addNat x.renounced n, released := addNat x.released n }
    ((g.pend.foldl (fun s t => s.modThread t note) s).noteRenounced g.pend).modDom l (fun d => d.modSig n (fun g => { (close g) with pend := [] }))

/-- The instant thaws: every stopped member runs again. -/
def State.thaw (s : State) (l : Nat) : State :=
  let go (x : Ctx) : Ctx := if x.launch = some l then { x with stopped := false } else x
  let s1 : State := { s with ctxs := s.ctxs.map (fun p => (p.1, go p.2)), moving := s.moving.map (fun p => (p.1, go p.2)),
                             spilled := s.spilled.map (fun p => (p.1, { p.2 with ctx := go p.2.ctx })) }
  s1.modDom l (fun d => { d with frozen := none })

/-- The effect of `SIGFORCE`: 0 force, 1 force and resume, 2 end. -/
def State.sigforce (s : State) (k : Nat) (a b : Reg) : Res :=
  s.asGaffer (fun l d =>
    if k = 2 then
      if a ≠ 0 ∨ b ≠ 0 then Res.bad Cause.reservedBits
      else if d.ended.isSome then .done s
      else
        match s.endDomain l with
        | (s1, true) => .done s1
        | (s1, false) => .wait s1 .reply
    else onGroup d (s.reg a) (s.reg b) (fun base =>
      if d.frozen.isNone then Res.bad Cause.reservedBits
      else
        let s1 := (groupSigs base (s.reg b)).foldl (fun s n => s.forceSig l n) s
        .done (if k = 1 then s1.thaw l else s1)))

/-- SIGFORCE. -/
def execSigforce (k : BitVec 2) (a b : Reg) (s : State) : Host.Outcome State Fault Refusal :=
  goes (s.run {} 12 (fun s => s.sigforce k.toNat a b))

/-- The record of a domain's news (14 R324): instant, kind, total, and the first `lim` entries. -/
def lehrRecord (inst : Word) (kind lim : Nat) (listed : List (Nat × Word)) : List Byte :=
  leBytes 8 inst.toNat ++ leBytes 4 kind ++ leBytes 4 listed.length ++ List.replicate 48 0 ++
    (listed.take lim).flatMap (fun e => leBytes 8 e.2.toNat)

/-- The record of a domain's news of a kind (14 R323, R324). -/
def Domain.news (d : Domain) (kind lim : Nat) : List Byte :=
  match d.frozen with
  | some f => lehrRecord f.instant kind lim f.listed
  | none => lehrRecord (if kind = 1 then d.ended.getD 0 else d.instant - 1) kind lim []

/-- `LEHRW` ends: the gaffer has the record of the news of a kind up to an instant. -/
def State.lehrTold (s : State) (dst : Reg) (kind : Nat) (instant : Word) : State :=
  ((s.modCtx s.cur (fun x => { x with lastInst := some instant })).setReg dst (BitVec.ofNat 64 kind)).acquire s.cur 2

/-- The words of a record that are still to be written into the core local window, each a plain 64-bit store with its effect (03 R43;
14 R323). -/
def State.lehrWords (ptr : Word) (off : Nat) : List (Nat × Nat) → State → Res
  | [], s => .done s
  | (k, v) :: r, s =>
    match s.windowStore (ptr + BitVec.ofNat 64 (8 * k)) (off + 8 * k) 8 (BitVec.ofNat 64 v) with
    | .done s1 => State.lehrWords ptr off r (s1.noteElem s1.cur (k + 2) 0 false)
    | .wait s1 w =>
      let port := match w with
        | .fifo _ _ => some (k + 2)
        | _ => none
      .wait (s1.modCtx s1.cur (fun x => { x with vpart := some { s1.vecPart s1.cur with fifo := port } })) w
    | q => q

/-- A record that goes to the core local window: every word's place is checked first (03 R43); the record is taken once, and the
words written are kept with the thread while a port makes it wait. -/
def State.lehrWindow (s : State) (d : Domain) (inst : Bool) (lim : Nat) (dst : Reg) (ptr : Word) (off : Nat) : Res :=
  let c := s.cur
  let go (s : State) (k n len : Nat) (instant : Word) (steps : Nat) : Res :=
    match State.lehrWords ptr off (((List.range (len / 8)).drop steps).map (fun i => (i, n / 2 ^ (64 * i) % 2 ^ 64))) s with
    | .done s1 => .done ((s1.modCtx c (fun x => { x with vpart := none })).lehrTold dst k instant)
    | q => q
  match (List.range (8 + lim)).findSome? (fun i => s.windowBad (off + 8 * i) 8 true), (s.vecPart c).got with
  | some k, [] => Res.bad k ptr
  | _, (k, n) :: (len, i) :: rest => go s k n len (BitVec.ofNat 64 i) rest.length
  | _, _ =>
    match s.lehrNews c inst with
    | none => .wait s .lehr
    | some (kind, _) =>
      let bs := d.news kind lim
      go ((s.noteElem c kind (leNat bs) false).noteElem c bs.length d.instant.toNat false) kind (leNat bs) bs.length d.instant 0

/-- The record of a domain's news enters the gaffer's buffer as plain stores, once there is any. -/
def State.lehrStore (s : State) (d : Domain) (inst : Bool) (lim : Nat) (dst : Reg) (ls : List Nat) (keep : Bool) : Res :=
  match s.lehrNews s.cur inst with
  | none => .wait s .lehr
  | some (kind, _) =>
    match s.bufferBytes s.cur (ls.zip (d.news kind lim)) false false keep with
    | none => .wait (s.askHeld s.cur 1 (oldestOut (s.ctx s.cur).buf)) .buffer
    | some s1 => .done (s1.lehrTold dst kind d.instant)

/-- The effect of `LEHRW`. -/
def State.lehrw (s : State) (inst : Bool) (lim : Nat) (dst : Reg) (ptr : Word) : Res :=
  s.asGaffer (fun _ d =>
    let n := 64 + 8 * lim
    match s.access s.cur ptr n needW 8 .plain true false with
    | .error e => e.res s
    | .ok (.mem segs keep _) =>
      let na := s.coreStream ptr
      if (s.lehrNews s.cur inst).isNone then .wait s .lehr
      else na.2.lehrStore d inst lim dst (spanAll segs) (keep && !na.1)
    | .ok (.peer h off) =>
      (match s.peerCap (s.who s.cur) (ptr.toNat / 2 ^ 52) h with
        | .error x => .fault { x with addr := ptr }
        | .ok cap =>
          match s.egress cap true off n 2 (opBits opcWrite 0) none with
          | some x => .fault { x with addr := ptr }
          | none => s.lehrStore d inst lim dst (span (peerLoc s.myPart (ptr.toNat / 2 ^ 52) off) n) false)
    | .ok (.window off) => s.lehrWindow d inst lim dst ptr off
    | .ok _ => Res.bad Cause.handlePerm ptr)

/-- LEHRW. -/
def execLehrw (k : BitVec 1) (n : BitVec 16) (d a : Reg) (s : State) : Host.Outcome State Fault Refusal :=
  goes (s.run {} 12 (fun s => s.lehrw (decide (k = 1)) n.toNat d (s.reg a)))

end Sys2Proof.Machine
end

