-- ==== Sys2Proof/Machine/System.lean ====
section
/-! DEFINITION. Sys2Proof/Machine/System.lean: system registers, invalidation of cached translations and handles, handle entries,
page walks, capabilities in registers, and partitions (16 R363 to R390; 15 R331; 17 R393, R411, R412, R417). -/

namespace Sys2Proof.Machine

/-! ## Reading system registers (16 R365, R369) -/

/-- `PART` (16 R365). -/
def Part.word (p : Part) (num : Nat) : Word :=
  BitVec.ofNat 64 (num % 16 + p.rank % 8 * 2 ^ 8 + p.width % 16 * 2 ^ 14 + p.node % 2 ^ 11 * 2 ^ 18 + p.rlim % 2 ^ 16 * 2 ^ 32 +
    p.wlim % 2 ^ 16 * 2 ^ 48)

/-- `DOMAIN` (14 R294). -/
def State.domainWord (s : State) (c : Nat) : Word :=
  match s.domainOf c with
  | none => 0
  | some (_, d) =>
    BitVec.ofNat 64 (d.nsig % 2 ^ 13 + d.free.toNat * 2 ^ 13 + (decide ((s.ctx c).role = .gaffer)).toNat * 2 ^ 14 +
      (decide ((s.ctx c).role = .member)).toNat * 2 ^ 15 + (d.clucnt - 1) % 2 ^ 10 * 2 ^ 16)

/-- WIDTH: 3 for 16 lanes, 2 for 8, 1 for 4. -/
def OPort.width (o : OPort) : Nat :=
  let n := ((List.range 16).filter (fun i => bitOf o.lanes i)).length
  if n = 16 then 3 else if n = 8 then 2 else if n = 4 then 1 else 0

/-- `LINKSTAT` of a port (18 R427). -/
def OPort.word (o : OPort) : Word :=
  BitVec.ofNat 64 (o.lanes.toNat + o.width * 2 ^ 26 + o.state % 16 * 2 ^ 28 + (min o.replays 65535) * 2 ^ 32 + o.lseq % 2 ^ 16 * 2 ^ 48)

/-- `PCAPLVL` (16 R389). -/
def Part.capLevel (p : Part) : Word := BitVec.ofNat 64 (p.blvl % 16 + p.vmv % 2 ^ 12 * 2 ^ 4 + p.fmhz % 2 ^ 16 * 2 ^ 16)

/-- The registers that only the supervisor reads (16 R369). -/
def sysReadPriv (n : Nat) : Bool :=
  decide ((1 ≤ n ∧ n ≤ 6) ∨ (0x100 ≤ n ∧ n ≤ 0x103) ∨ (0x200 ≤ n ∧ n ≤ 0x207) ∨ n = 0x300 ∨ n = 0x301)

/-- A system register's value, if the number names one. -/
def State.sysRead (s : State) (c n : Nat) : Option Word :=
  let x := s.ctx c
  let p := s.part x.part
  if n = 0x000 then some x.sta.toWord
  else if n = 0x001 then some x.epc
  else if n = 0x002 then some x.esta
  else if n = 0x003 then some x.ecause
  else if n = 0x004 then some x.eaddr
  else if n = 0x005 then some x.einfo
  else if n = 0x006 then some x.hvec
  else if n = 0x010 then some x.wid
  else if n = 0x011 then some (BitVec.ofNat 64 c)
  else if n = 0x012 then some (p.word x.part)
  else if n = 0x020 then some (s.instantOf c)
  else if n = 0x021 then some (s.domainWord c)
  else if n = 0x030 then some (BitVec.ofNat 64 (s.mat (coreOf c)).progWord)
  else if n = 0x040 then some (BitVec.ofNat 64 p.queues.length)
  else if n = 0x100 then some p.htbase
  else if n = 0x101 then some p.htlen
  else if n = 0x102 then some p.ptroot
  else if n = 0x103 then some p.epoch
  else if n = 0x180 then some p.pcapwhy
  else if n = 0x181 then some p.capLevel
  else if 0x200 ≤ n ∧ n ≤ 0x207 then some (SMap.at {} s.oports (n - 0x200)).word
  else if n = 0x300 then some p.trace
  else if n = 0x301 then some p.traceptr
  else none

/-- SYSRD (16 R370). -/
def execSysrd (n : BitVec 12) (d : Reg) (s : State) : Host.Outcome State Fault Refusal :=
  goes (s.run { priv := sysReadPriv n.toNat } 4 (fun s =>
    match s.sysRead s.cur n.toNat with
    | none => Res.bad Cause.reservedBits
    | some v => .done (s.setReg d v)))

/-! ## Invalidation (16 R374, R377) -/

/-- What a `TLBINV` drops: 0 one page, 1 all, 2 one handle, 3 nothing. -/
structure Drop where
  kind : Nat
  x : Nat := 0

/-- A cluster's cached state with the named entries of a partition dropped. -/
def Cluster.drop (k : Cluster) (p : Nat) (d : Drop) : Cluster :=
  { k with
    tlb := k.tlb.filter (fun e => decide (e.part ≠ p) || !(decide (d.kind = 1) || (decide (d.kind = 0) && decide (e.vpn = d.x % 2 ^ 57 / 2 ^ e.shift)))),
    hcache := k.hcache.filter (fun e => decide (e.1 ≠ p) || !(decide (d.kind = 1) || (decide (d.kind = 2) && decide (e.2.1 = d.x % 2 ^ 12)))),
    pcaps := k.pcaps.filter (fun e => decide (e.1 ≠ p) || !(decide (d.kind = 1) || (decide (d.kind = 2) && decide (e.2.1 = d.x % 2 ^ 12)))) }

/-- The same of the load pipes of the matrix units of some clusters, and, from device scope on, of the walk caches (16 R374). -/
def State.dropWalks (s : State) (ks : List Nat) (scope p : Nat) (d : Drop) : State :=
  let page (e : Tlb) : Bool := decide (e.part ≠ p) || !(decide (d.kind = 1) || (decide (d.kind = 0) && decide (e.vpn = d.x % 2 ^ 57 / 2 ^ e.shift)))
  let table (e : WalkEnt) : Bool :=
    decide (e.part ≠ p) || !(decide (d.kind = 1) || (decide (d.kind = 0) && decide (e.pre = ptPrefix e.lv (d.x % 2 ^ 57))))
  { s with mats := s.mats.map (fun m => if m.1 / 4 ∈ ks then (m.1, { m.2 with tlb := m.2.tlb.filter page }) else m),
           walks := if 2 ≤ scope then s.walks.filter table else s.walks }

/-- The clusters in the scope of an invalidation. -/
def State.invScope (s : State) (c scope : Nat) : List Nat := if scope = 1 then [cluOf c] else (s.part (s.ctx c).part).clusters

/-- The contexts of a partition in the scope of an invalidation. -/
def State.invCtxs (s : State) (c scope : Nat) : List Nat :=
  let ks := s.invScope c scope
  (s.ctxs.filter (fun q => decide (q.2.part = (s.ctx c).part) && decide (cluOf q.1 ∈ ks))).map (·.1)

/-- Whether an invalidation covers the page or the handle entry of a pointer of a partition. -/
def State.invCovers (s : State) (p : Nat) (d : Drop) (ptr : Word) : Bool :=
  let va := s.vaOf p ptr
  let sh := s.pageSize p va
  decide (d.kind = 1) || (decide (d.kind = 0) && decide (va / 2 ^ sh = d.x % 2 ^ 57 / 2 ^ sh)) ||
    (decide (d.kind = 2) && decide (d.x % 2 ^ 12 = ptr.toNat / 2 ^ 52))

/-- Whether it covers PEER handle `h`, or the page of its granule. -/
def State.invPeer (s : State) (p : Nat) (d : Drop) (h : Nat) : Bool := s.invCovers p d (BitVec.ofNat 64 (h * 2 ^ 52))

/-- Whether requests that wait at their places, translated before, used a dropped entry: full-empty requests and watches, of the
contexts in scope and, from device scope on, of peers. -/
def State.invParked (s : State) (c scope : Nat) (d : Drop) : Bool :=
  let p := (s.ctx c).part
  let mine := s.invCtxs c scope
  let used (ctx : Nat) (r : Option FabPkt) : Bool := match r with
    | none => decide (ctx ∈ mine) && s.invCovers p d (s.waitPtr ctx)
    | some q => decide (2 ≤ scope ∧ q.tgtPart = p) && s.invCovers p d (remPtr q)
  s.clus.any (fun k => k.2.retry.any (fun r => used r.ctx r.remote)) ||
    s.dir.any (fun l => l.2.watches.any (fun w => !w.sync && used w.ctx w.remote))

/-- Whether requests that used a dropped PEER entry are on the fabric, or wait for the egress. -/
def State.invFabric (s : State) (p : Nat) (d : Drop) : Bool :=
  s.pkg.outst.any (fun o => decide (o.pkt.srcPart = p) && o.via.any (fun h => s.invPeer p d h)) ||
    s.pkg.peerq.any (fun w => decide (w.part = p) && s.invPeer p d w.hidx)

/-- Whether requests that used a dropped entry are still on their way: queued vector accesses; requests that wait at their
places; requests through a dropped PEER entry; for system scope and for KIND 3, every request on the fabric; and writes that are
held back. -/
def State.invBusy (s : State) (c scope : Nat) (d : Drop) : Bool :=
  let mine := s.invCtxs c scope
  ((decide (d.kind = 3) || decide (scope = 3)) && s.pkg.outst.any (fun o => decide (o.pkt.srcPart = (s.ctx c).part))) ||
    (decide (d.kind ≠ 3) && (mine.any (fun q => (s.portQueue q).any (fun e => !e.segs.isEmpty) ||
      s.heldBack q 2 (entriesOf (s.ctx q).buf)) || s.clustersHeld (s.invScope c scope) || s.invParked c scope d ||
      s.invFabric (s.ctx c).part d))

/-- The contexts in scope whose buffers hold stores through a dropped PEER entry: they leave before the entry is dropped. -/
def State.invStores (s : State) (c scope : Nat) (d : Drop) : List Nat :=
  let p := (s.ctx c).part
  let used (e : BufEntry) : Bool := isPeer (e.line * 128) && s.invPeer p d ((e.line * 128 - peerBase) / 2 ^ 52 % 2 ^ 12)
  (s.invCtxs c scope).filter (fun q => decide (d.kind ≠ 3) && ((entriesOf (s.ctx q).buf).any used || (s.core (coreOf q)).shared.any (fun e => used e.2)))

/-- What an invalidation whose writes are held back asks for. -/
def State.askInv (s : State) (c scope : Nat) : State :=
  ((s.invCtxs c scope).foldl (fun s q => s.askHeld q 2 (entriesOf (s.ctx q).buf)) s).askClusters (s.invScope c scope)

/-- A packet that a page holds is translated again (12 R263). -/
def State.heldAgain (s : State) (id : Nat) : State :=
  match (s.pk id).fill with
  | some k => s.finishFill k true
  | none => s.resumePk id true

/-- The effect of an invalidation once nothing is on its way: stores translated before are performed, the entries are dropped,
and the held packets that it covers are translated again (12 R263). -/
def State.invalidateFor (s : State) (c scope : Nat) (d : Drop) : State :=
  let ks := s.invScope c scope
  let p := (s.ctx c).part
  if d.kind = 3 then s
  else
    let s1 := (s.invCtxs c scope).foldl (fun s q => s.drainAll q) s
    let s2 := (ks.foldl (fun s k => (((List.range 4).foldl (fun s i => s.drainShared (4 * k + i)) s).drainThroughs k).modClu k
      (fun u => u.drop p d)) s1).dropWalks ks scope p d
    if scope = 1 then s2
    else
      let held := (s2.packets.filter (fun q => decide (q.2.part = p) && q.2.hold.any (fun h => s2.invCovers p d h.2))).map (·.1)
      (held.foldl (fun s q => s.heldAgain q) s2).readyLaunches p

/-- The effect of `TLBINV`: the release, the wait, the drop. `write` is done just before the drop. -/
def State.withInv (s : State) (scope : Nat) (d : Drop) (write : State → State) : Res :=
  match s.release s.cur (if scope = 3 then 3 else 2) with
  | (s1, false) => .wait s1 .marker
  | (s1, true) =>
    if s1.invBusy s1.cur scope d then .wait (if d.kind = 3 then s1 else s1.askInv s1.cur scope) .reply
    else if s1.invStores s1.cur scope d ≠ [] then
      .wait ((s1.invStores s1.cur scope d).foldl (fun s q => (s.drainAll q).drainShared (coreOf q)) s1) .reply
    else .done ((write s1).invalidateFor s1.cur scope d)

/-- TLBINV. -/
def execTlbinv (a b : Reg) (s : State) : Host.Outcome State Fault Refusal :=
  goes (s.run { priv := true } 4 (fun s =>
    let v := (s.reg b).toNat
    if v / 16 ≠ 0 ∨ v / 4 % 4 = 0 then Res.bad Cause.reservedBits
    else s.withInv (v / 4 % 4) ⟨v % 4, (s.reg a).toNat⟩ id))

/-! ## HTSET (03 R40; 16 R378) -/

/-- The byte of the first bad field of a handle entry. -/
def entryBad (e : BitVec 256) : Option Nat :=
  let f (lo n : Nat) : Nat := bitsAt e lo n
  let space := f 160 3
  let checks : List (Nat × Bool) := [
    (0, decide (space = 3 ∧ f 0 57 % 128 ≠ 0)),
    (7, decide (f 57 7 ≠ 0)),
    (8, decide (2 ^ 57 < f 0 57 + f 64 52) || decide (space = 3 ∧ f 64 52 ≠ 128)),
    (14, decide (f 116 12 ≠ 0)),
    (16, decide (f 128 32 ≠ 0)),
    (20, decide (space = 0 ∨ 5 < space) || decide (f 163 1 ≠ 0) || decide (f 166 2 ≠ 0)),
    (21, decide (f 175 1 ≠ 0)),
    (22, decide (f 178 6 ≠ 0)),
    (23, decide (f 184 8 ≠ 0)),
    (24, decide (f 192 16 ≠ 0)),
    (26, decide (space ≠ 5 ∧ f 208 16 ≠ 0)),
    (28, if space = 5 then decide (f 236 4 ≠ 0) else decide (f 224 16 ≠ 0)),
    (30, decide (f 240 16 ≠ 0))]
  (checks.find? (·.2)).map (·.1)

/-- Write a handle entry as one 32-byte unit, and drop the cached copies. -/
def State.putHandle (s : State) (h : Nat) (img : BitVec 256) : Res :=
  let va := (s.part s.myPart).htbase.toNat + 32 * h
  match s.xlateRange (cluOf s.cur) s.myPart false true needW va 32 with
  | .error k => Res.bad k (BitVec.ofNat 64 va)
  | .ok segs => s.withInv 2 ⟨2, h⟩ (fun s => s.place (writerOf s.cur) ((spanAll segs).zip (leBytes 32 img.toNat)))

/-- The image of an entry at a pointer. -/
def State.handleImage (s : State) (ptr : Word) (go : State → BitVec 256 → Res) : Res :=
  if ptr.toNat % 32 ≠ 0 then Res.bad Cause.misaligned ptr
  else
    match s.ownBytes ptr 32 s with
    | .error e => e.res s
    | .ok (bs, s1) => go s1 (BitVec.ofNat 256 (leNat bs))

/-- HTSET. -/
def execHtset (a b : Reg) (s : State) : Host.Outcome State Fault Refusal :=
  goes (s.run { priv := true } 4 (fun s =>
    let h := (s.reg a).toNat
    if h < 0x10 ∨ (s.part s.myPart).htlen.toNat ≤ h then Res.bad Cause.handleInvalid
    else if s.reg b = 0 then s.putHandle h 0
    else s.handleImage (s.reg b) (fun s e =>
      match entryBad e with
      | some o => Res.bad Cause.reservedBits 0 (BitVec.ofNat 64 o)
      | none => s.putHandle h e)))

/-! ## PAGE_WALK (16 R373, R374, R376) -/

/-- A translation among those that a unit holds, at most `n`: the oldest makes room. -/
def tlbAdd (l : List Tlb) (n : Nat) (t : Tlb) : List Tlb :=
  let r := l.filter (fun e => decide (e ≠ t))
  (if n ≤ r.length then r.drop 1 else r) ++ [t]

/-- A unit takes a translation: a cluster holds 256, a matrix unit's load pipes 64, an engine none (16 R374). -/
def State.tlbPut (s : State) (u : Nat) (t : Tlb) : State :=
  if u < 1024 then s.modClu u (fun k => { k with tlb := tlbAdd k.tlb 256 t })
  else if u < 4096 then s.modMat (u - 1024) (fun m => { m with tlb := tlbAdd m.tlb 64 t })
  else s

/-- The walk cache of a unit's die takes the tables that a walk passed (16 R374). How much it holds is open: what it held before
may have made room for them (log 6). -/
def State.walkPut (s : State) (u part va : Nat) : State :=
  let die := dieOfUnit u
  let b := s.walkStart die part va
  let new := (s.walkTables part va (5 - b.1) b.1 b.2).map (fun t => ({ die := die, part := part, lv := t.1, pre := ptPrefix t.1 va, table := t.2 } : WalkEnt))
  let (room, s1) := s.draw
  { s1 with walks := s1.walks.filter (fun e => !(room && decide (e.die = die)) && !new.any (fun n => decide (n.die = e.die ∧ n.part = e.part ∧ n.lv = e.lv ∧ n.pre = e.pre))) ++ new }

/-- A cluster takes entry `h` of a handle table, and with a PEER entry the capability of its granule (16 R374, R376; 18 R433). -/
def State.handlePut (s : State) (clu part h : Nat) : State :=
  match s.handleRaw clu part h with
  | .error _ => s
  | .ok e =>
    let x := HEntry.ofNat e.toNat
    let s1 := s.modClu clu (fun k => { k with
      hcache := k.hcache.filter (fun q => !decide (q.1 = part ∧ q.2.1 = h)) ++ [(part, h, e)],
      pcaps := k.pcaps.filter (fun q => !decide (q.1 = part ∧ q.2.1 = h)) })
    if !x.valid || decide (x.space ≠ 3) then s1
    else
      match s.peerGranule clu part x with
      | .error _ => s1
      | .ok cap => s1.modClu clu (fun k => { k with pcaps := k.pcaps ++ [(part, h, cap)] })

/-- PAGE_WALK: a walk for a cluster ends, or, by their numbers as units, for a matrix unit or an engine. Its tables enter the die's
walk cache, and the translation the unit's cache; a failed walk leaves nothing. A walk for an entry of the handle table brings
the entry with it. An error that it meets and the device can correct is corrected (17 R408). -/
def execPageWalk (clu part : Nat) (host : Bool) (va : Nat) (s : State) : Host.Outcome State Fault Refusal :=
  let s := s.correct (s.walkReads clu part va)
  goes (match s.walkFor clu part va with
    | .error _ => s
    | .ok (leaf, sh) =>
      if !host && decide (dramLimit (s.part part) ≤ leaf.toNat % 2 ^ 52 / 2 ^ 8 * 2 ^ 8 + va % 2 ^ sh) then s
      else
        let s1 := (s.walkPut clu part va).tlbPut clu { part := part, shift := sh, vpn := va / 2 ^ sh, leaf := leaf }
        let base := (s.part part).htbase.toNat
        let h := (va - base) / 32
        if clu < 1024 ∧ base ≤ va ∧ (va - base) % 32 = 0 ∧ h < (s.part part).htlen.toNat then s1.handlePut clu part h else s1)

/-! ## Writing system registers (16 R369 to R371, R376, R377, R384, R386, R388; 15 R331; 17 R393, R411, R412) -/

/-- The registers that only the supervisor writes. -/
def sysWritePriv (n : Nat) : Bool :=
  decide ((1 ≤ n ∧ n ≤ 6) ∨ n = 0x040 ∨ (0x100 ≤ n ∧ n ≤ 0x103) ∨ n = 0x180 ∨ n = 0x300 ∨ n = 0x301)

/-- Whether a write of `STA` needs supervisor mode: it changes SUP or SS (05 R82; 16 R370). -/
def State.staPriv (s : State) (v : Word) : Bool :=
  let n := Sta.ofWord v
  let t := (s.ctx s.cur).sta
  decide (n.sup ≠ t.sup ∨ n.ss ≠ t.ss)

/-- `STA`: bits [18:9]. -/
def State.writeSta (s : State) (v : Word) : Res :=
  let n := Sta.ofWord v
  if v.toNat / 2 ^ 25 ≠ 0 ∨ 4 < n.rm.toNat then Res.bad Cause.reservedBits
  else .done (s.modCtx s.cur (fun x => { x with sta := { x.sta with ss := n.ss, sup := n.sup, flags := n.flags, rm := n.rm } }))

/-- `ECAUSE`, `ESTA` and `HVEC`, with their checks; `EPC`, `EADDR` and `EINFO`. -/
def State.writeExc (s : State) (n : Nat) (v : Word) : Res :=
  let put (f : Ctx → Ctx) : Res := .done (s.modCtx s.cur f)
  if n = 1 then put (fun x => { x with epc := v })
  else if n = 2 then
    if v.toNat / 2 ^ 25 ≠ 0 ∨ 4 < (Sta.ofWord v).rm.toNat then Res.bad Cause.reservedBits else put (fun x => { x with esta := v })
  else if n = 3 then
    if v.toNat / 2 ^ 12 ≠ 0 ∨ bitsAt v 8 3 ≠ 0 ∨ bitsAt v 6 2 = 3 then Res.bad Cause.reservedBits else put (fun x => { x with ecause := v })
  else if n = 4 then put (fun x => { x with eaddr := v })
  else if n = 5 then put (fun x => { x with einfo := v })
  else if v.toNat % 2 ^ 12 ≠ 0 then Res.bad Cause.reservedBits else put (fun x => { x with hvec := v })

/-- `QREG`, registering. -/
def State.qregister (s : State) (v : Word) : Res :=
  if bitsAt v 1 5 ≠ 0 then Res.bad Cause.reservedBits
  else
    match s.qreg s.cur (BitVec.ofNat 64 (v.toNat / 64 * 64)) with
    | none => Res.bad Cause.reservedBits
    | some s1 => .done s1

/-- `QREG`, unregistering. -/
def State.qunregister (s : State) (v : Word) : Res :=
  if bitsAt v 1 5 ≠ 0 then Res.bad Cause.reservedBits
  else
    match s.qunreg s.cur (BitVec.ofNat 64 (v.toNat / 64 * 64)) with
    | none => Res.bad Cause.reservedBits
    | some s1 => .done s1

/-- `HTBASE`, `HTLEN` and `PTROOT`: the write, then an invalidation of everything at device scope. -/
def State.writeTable (s : State) (bad : Bool) (f : Part → Part) : Res :=
  if bad then Res.bad Cause.reservedBits else s.withInv 2 ⟨1, 0⟩ (fun s => s.modPart s.myPart f)

/-- `HTBASE`. -/
def State.writeHtbase (s : State) (v : Word) : Res :=
  s.writeTable (decide (v.toNat / 2 ^ 57 ≠ 0 ∨ v.toNat % 32 ≠ 0)) (fun p => { p with htbase := v })

/-- `HTLEN`. -/
def State.writeHtlen (s : State) (v : Word) : Res :=
  s.writeTable (decide (v.toNat ≠ 0 ∧ (v.toNat < 16 ∨ 4096 < v.toNat))) (fun p => { p with htlen := v })

/-- `PTROOT`. -/
def State.writePtroot (s : State) (v : Word) : Res :=
  s.writeTable (decide (v.toNat / 2 ^ 52 ≠ 0 ∨ v.toNat % 2 ^ 12 ≠ 0)) (fun p => { p with ptroot := v })

/-- Whether 16 R384 refuses a window. -/
def epochBad (old new : Word) : Bool :=
  let oc := bitsAt old 0 8
  let of_ := bitsAt old 8 8
  let nc := bitsAt new 0 8
  let nf := bitsAt new 8 8
  decide (new.toNat / 2 ^ 16 ≠ 0) || (decide (nc ≠ oc) && decide (nc ≠ (oc + 1) % 256)) ||
    decide ((nc + 256 - of_) % 256 < (nf + 256 - of_) % 256) || decide (254 < (nc + 256 - nf) % 256)

/-- Whether requests that a partition has accepted under an epoch that window `v` excludes have still to be performed and
acknowledged (16 R386): those that wait in retry lists and as watches, those whose number is in progress, which takes in shares
of an open round and writes whose acknowledgement is withheld, and calls that have not been answered, but for the caller's own. -/
def State.epochOpen (s : State) (p : Nat) (v : Word) : Bool :=
  let old (q : FabPkt) : Bool := decide (q.tgtPart = p) && !epochValid v (capEpoch q.cap)
  let call (m : Msg) : Bool := match m.body with | .rcall _ _ _ _ _ _ (some q) => old q | _ => false
  let callee (x : Ctx) : Bool := x.call.any (fun k => k.remote.any old)
  s.clus.any (fun k => k.2.retry.any (fun r => r.remote.any old)) || s.dir.any (fun l => l.2.watches.any (fun w => w.remote.any old)) ||
    s.pkg.seen.any (fun e => decide (e.2.2.1 = 1) && old e.2.2.2) || s.net.any call || s.cores.any (fun k => k.2.arrivals.any call) ||
    s.ctxs.any (fun x => decide (x.1 ≠ s.cur) && callee x.2) || s.moving.any (fun x => callee x.2) || s.spilled.any (fun x => callee x.2.ctx)

/-- `CAPEPOCH`: it waits for the requests that the partition accepted under an epoch now excluded (16 R386). -/
def State.writeEpoch (s : State) (v : Word) : Res :=
  let p := s.myPart
  if epochBad (s.part p).epoch v then Res.bad Cause.reservedBits
  else if s.epochOpen p v then .wait s .reply
  else .done (s.modPart p (fun x => { x with epoch := v }))

/-- `PCAPWHY`: SEEN bits written as one are cleared. -/
def State.writePcapwhy (s : State) (v : Word) : Res :=
  .done (s.modPart s.myPart (fun p => { p with pcapwhy := p.pcapwhy &&& ~~~(v &&& 0x1F00) }))

/-- `TRACECTL`: a write of MODE clears LCNT; DIV is cleared by writing one. -/
def State.writeTracectl (s : State) (v : Word) : Res :=
  if bitsAt v 8 24 ≠ 0 ∨ bitOf v 6 ∨ bitOf v 0 ∨ bitsAt v 1 2 = 3 then Res.bad Cause.reservedBits
  else .done (s.modPart s.myPart (fun p =>
    { p with trace := BitVec.ofNat 64 (bitsAt v 1 5 * 2 + (if bitOf p.trace 7 && !bitOf v 7 then 2 ^ 7 else 0)) }))

/-- `TRACEPTR`: a ring in an object of SPACE DRAM with PRIV = 1, aligned to 64; any other pointer, 0 among them, breaks the layout
(17 R412). -/
def State.writeTraceptr (s : State) (v : Word) : Res :=
  let ok : Bool := match s.resolve { s.who s.cur with sup := true } v 64 0 with
    | .ok (.table e _) => decide (e.space = 1) && e.priv
    | _ => false
  if v.toNat % 64 = 0 ∧ ok then .done (s.modPart s.myPart (fun p => { p with traceptr := v }))
  else Res.bad Cause.reservedBits

/-- A write of a system register by number. -/
def State.sysWrite (s : State) (n : Nat) (v : Word) : Res :=
  if n = 0x000 then s.writeSta v
  else if 1 ≤ n ∧ n ≤ 6 then s.writeExc n v
  else if n = 0x040 then (if bitOf v 0 then s.qunregister v else s.qregister v)
  else if n = 0x100 then s.writeHtbase v
  else if n = 0x101 then s.writeHtlen v
  else if n = 0x102 then s.writePtroot v
  else if n = 0x103 then s.writeEpoch v
  else if n = 0x180 then s.writePcapwhy v
  else if n = 0x300 then s.writeTracectl v
  else if n = 0x301 then s.writeTraceptr v
  else Res.bad Cause.reservedBits

/-- SYSWR (16 R370). -/
def execSyswr (n : BitVec 12) (a : Reg) (s : State) : Host.Outcome State Fault Refusal :=
  goes (s.run { priv := sysWritePriv n.toNat || (decide (n = 0) && s.staPriv (s.reg a)) } 4 (fun s => s.sysWrite n.toNat (s.reg a)))

/-- STA_WRITE: a `SYSWR` to `STA`. -/
def execStaWrite (a : Reg) (s : State) : Host.Outcome State Fault Refusal := 
  goes (s.run { priv := s.staPriv (s.reg a) } 4 (fun s => s.writeSta (s.reg a)))
/-- ECAUSE_WRITE: a `SYSWR` to `ECAUSE`, `ESTA` or `HVEC` by its number; another number is no such write. -/
def execEcauseWrite (n : BitVec 12) (a : Reg) (s : State) : Host.Outcome State Fault Refusal :=
  goes (if n = 2 ∨ n = 3 ∨ n = 6 then s.run { priv := true } 4 (fun s => s.writeExc n.toNat (s.reg a)) else s)
/-- HTBASE_WRITE. -/
def execHtbaseWrite (a : Reg) (s : State) : Host.Outcome State Fault Refusal :=
  goes (s.run { priv := true } 4 (fun s => s.writeHtbase (s.reg a)))
/-- HTLEN_WRITE. -/
def execHtlenWrite (a : Reg) (s : State) : Host.Outcome State Fault Refusal :=
  goes (s.run { priv := true } 4 (fun s => s.writeHtlen (s.reg a)))
/-- PTROOT_WRITE. -/
def execPtrootWrite (a : Reg) (s : State) : Host.Outcome State Fault Refusal :=
  goes (s.run { priv := true } 4 (fun s => s.writePtroot (s.reg a)))
/-- CAPEPOCH_WRITE. -/
def execCapepochWrite (a : Reg) (s : State) : Host.Outcome State Fault Refusal :=
  goes (s.run { priv := true } 4 (fun s => s.writeEpoch (s.reg a)))
/-- PCAPWHY_WRITE. -/
def execPcapwhyWrite (a : Reg) (s : State) : Host.Outcome State Fault Refusal :=
  goes (s.run { priv := true } 4 (fun s => s.writePcapwhy (s.reg a)))
/-- TRACECTL_WRITE. -/
def execTracectlWrite (a : Reg) (s : State) : Host.Outcome State Fault Refusal :=
  goes (s.run { priv := true } 4 (fun s => s.writeTracectl (s.reg a)))
/-- TRACEPTR_WRITE. -/
def execTraceptrWrite (a : Reg) (s : State) : Host.Outcome State Fault Refusal :=
  goes (s.run { priv := true } 4 (fun s => s.writeTraceptr (s.reg a)))
/-- QREG_REGISTER: a `SYSWR` to `QREG` whose UNREG bit is taken as 0. -/
def execQregRegister (a : Reg) (s : State) : Host.Outcome State Fault Refusal :=
  goes (s.run { priv := true } 4 (fun s => s.qregister (s.reg a)))
/-- QREG_UNREGISTER: a `SYSWR` to `QREG` whose UNREG bit is taken as 1. -/
def execQregUnregister (a : Reg) (s : State) : Host.Outcome State Fault Refusal :=
  goes (s.run { priv := true } 4 (fun s => s.qunregister (s.reg a)))

/-! ## Capabilities in registers (16 R379, R382) -/

/-- A capability from its fields. -/
def mkCap (node part hidx perm epoch base len : Nat) : BitVec 128 :=
  BitVec.ofNat 128 (len % 2 ^ 40 * 2 ^ 4 + base % 2 ^ 40 * 2 ^ 44 + epoch % 2 ^ 8 * 2 ^ 84 + perm % 2 ^ 8 * 2 ^ 92 + hidx % 2 ^ 12 * 2 ^ 100 +
    part % 2 ^ 5 * 2 ^ 112 + node % 2 ^ 11 * 2 ^ 117)

/-- A capability derived from `c`: its base moved by `d`, its length and mask as given. -/
def capDerive (c : BitVec 128) (d l m : Nat) : BitVec 128 :=
  mkCap (capNode c) (capPart c) (capHidx c) (capPerm c &&& m) (capEpoch c) (capBase c + d) l

/-- CDERIV. -/
def execCderiv (d a b : Reg) (s : State) : Host.Outcome State Fault Refusal :=
  goes (s.run {} 4 (fun s =>
    let x := s.ctx s.cur
    let c := x.pair a
    let off := (x.reg b).toNat
    let w := (x.reg (b + 1)).toNat
    if x.tagOf a = false then Res.bad Cause.capTag
    else if w / 2 ^ 48 ≠ 0 then Res.bad Cause.reservedBits
    else if capLen c < off + w % 2 ^ 40 then Res.bad Cause.capBounds
    else .done (s.setPair d (capDerive c off (w % 2 ^ 40) (w / 2 ^ 40)) true)))

/-- The permissions that a minted capability may have. -/
def capAllowed (e : HEntry) : Nat :=
  let bit (from_ to_ : Nat) : Nat := if e.perm / 2 ^ from_ % 2 = 1 then 2 ^ to_ else 0
  bit 0 0 + bit 1 1 + bit 3 2 + bit 4 3 + bit 5 4 + bit 6 5 + bit 1 6 + (if e.space = 4 then bit 3 7 else 0)

/-- The entry of a handle as CGET checks it (16 R382; 03 R38): the fixed handles 1 to 3, or the table's entry; or the fault. The
window of handle 3 exists in a domain only. -/
def State.cgetEntry (s : State) (h : Nat) : Except Exc HEntry :=
  let fixed (len perm : Nat) : HEntry :=
    { base := 0, len := len, space := 0, policy := 0, perm := perm, valid := true, priv := false, peern := 0, peerh := 0 }
  if h = 1 then .ok (fixed (65536 * (banksOf 1 (s.clu (cluOf s.cur)).bankmode).length) 0x7B)
  else if h = 2 then .ok (fixed 0x2000 0x1B)
  else if h = 3 then
    match s.domainOf s.cur with
    | none => .error { code := Cause.handleInvalid }
    | some (_, d) => .ok (fixed (0x1000 + 8 * d.nsig) 0x19)
  else if h < 16 ∨ (s.part s.myPart).htlen.toNat ≤ h then .error { code := Cause.handleInvalid }
  else
    match s.handleRaw (cluOf s.cur) s.myPart h with
    | .error k => .error { code := Cause.handleInvalid, info := k.setWidth 64 }
    | .ok raw => let e := HEntry.ofNat raw.toNat; if e.valid then .ok e else .error { code := Cause.handleInvalid }

/-- CGET. -/
def execCget (d a b : Reg) (s : State) : Host.Outcome State Fault Refusal :=
  goes (s.run { priv := true } 4 (fun s =>
    let h := (s.reg a).toNat
    let m := (s.reg b).toNat
    let p := s.part s.myPart
    if h / 2 ^ 12 ≠ 0 ∨ m / 2 ^ 8 ≠ 0 then Res.bad Cause.reservedBits
    else
      match s.cgetEntry h with
      | .error e => .fault e
      | .ok e =>
        if e.priv then Res.bad Cause.handlePerm
        else .done (s.setPair d (mkCap p.node s.myPart h (m &&& capAllowed e) (bitsAt p.epoch 0 8) 0 (min e.len (2 ^ 40 - 1))) true)))

/-- CCLR: D lies outside the pair. -/
def execCclr (d a : Reg) (s : State) : Host.Outcome State Fault Refusal :=
  goes (s.run {} 4 (fun s =>
    if d.toNat / 2 = a.toNat / 2 then Res.bad Cause.reservedBits
    else
      let t := (s.ctx s.cur).tagOf a
      .done ((s.modCtx s.cur (fun x => x.untag a)).setReg d (boolW t))))

/-! ## The trace instructions (17 R417) -/

/-- DTRACE.mark: user mode needs UM. -/
def execDtraceMark (a : Reg) (s : State) : Host.Outcome State Fault Refusal :=
  goes (s.run { priv := !bitOf (s.part s.myPart).trace 3 } 4 (fun s =>
    let p := s.myPart
    if (s.part p).traceMode = 1 then .done ((s.beginTrace s.cur 5 0 s.cur (s.reg a).toNat 0).flushTrace p) else .done s))

/-- DTRACE.bon: user mode needs UB. -/
def execDtraceBon (s : State) : Host.Outcome State Fault Refusal :=
  goes (s.run { priv := !bitOf (s.part s.myPart).trace 4 } 4 (fun s => .done (s.modCtx s.cur (fun x => { x with btrace := true }))))

/-- DTRACE.boff. -/
def execDtraceBoff (s : State) : Host.Outcome State Fault Refusal :=
  goes (s.run { priv := !bitOf (s.part s.myPart).trace 4 } 4 (fun s => .done (s.modCtx s.cur (fun x => { x with btrace := false }))))

/-- DTRACE.sync: every record begun is in the ring, then a release at device scope. -/
def execDtraceSync (s : State) : Host.Outcome State Fault Refusal :=
  goes (s.run { priv := true } 4 (fun s =>
    if !(s.part s.myPart).traceq.isEmpty then .wait s .trace
    else
      match s.release s.cur 2 with
      | (s1, false) => .wait s1 .marker
      | (s1, true) => .done s1))

/-! ## Limits and clocks (16 R387 to R389; 17 R397) -/

/-- Whether the broadcast limit applies to a partition. -/
def State.capApplies (s : State) (p : Part) : Bool := s.pkg.capApplied && decide (s.pkg.capRank ≤ p.rank)

/-- The level L in force for a partition. -/
def State.broadcastLevel (s : State) (p : Part) : Nat := if s.capApplies p then s.pkg.capLevel else 0

/-- The step j, 0 to 40, of a limit by its code: 1 partition budget, 2 package budget, 3 broadcast, 4 thermal, 5 current. A limit
that is not engaged takes no step; an engaged thermal or current limit lowers the clock (19 R449). -/
def State.limitStep (s : State) (p : Part) (code : Nat) : Nat :=
  let n := s.fresh
  let l := s.broadcastLevel p
  if code = 1 then Config.limitSteps 1 (16 * p.budget) n % 41
  else if code = 2 then Config.limitSteps 2 0 n % 41
  else if code = 3 then (if l = 0 then 0 else Config.limitSteps 3 ((16 - l) * p.budget) n % 41)
  else if code = 4 then (if s.pkg.thermal then 1 + Config.limitSteps 4 0 n % 40 else 0)
  else (if s.pkg.current then 1 + Config.limitSteps 5 0 n % 40 else 0)

/-- The binding limit: the lowest clock; of equal ones current, thermal, broadcast, package, partition; 0 when none lowers it. -/
def State.bindingLimit (s : State) (p : Part) : Nat :=
  let j := (List.range 5).foldl (fun m i => max m (s.limitStep p (i + 1))) 0
  if j = 0 then 0 else ([5, 4, 3, 2, 1].find? (fun k => decide (s.limitStep p k = j))).getD 0

/-- A partition's clock, supply and PCAPWHY by its limits: a lowered clock has a lowered supply (01 R18). `seq` is the last applied frame's sequence number. -/
def State.clocked (s : State) (p : Part) : Part :=
  let why := s.bindingLimit p
  let f := 940 - 20 * (if why = 0 then 0 else s.limitStep p why)
  let seen : Word := if why = 0 then 0 else 1#64 <<< (7 + why)
  let old := p.pcapwhy &&& 0x1F00
  { p with fmhz := f, vmv := if f = 940 then 675 else Config.supplyMv f % 675, blvl := s.broadcastLevel p,
           pcapwhy := (old ||| seen) ||| BitVec.ofNat 64 (why + s.pkg.capSeq % 2 ^ 16 * 2 ^ 32) }

/-- Set one partition's clock. POWER_EVENT is raised when WHY changes. -/
def State.setClock (s : State) (n : Nat) : State :=
  let p := s.part n
  let q := s.clocked p
  let s1 := s.modPart n (fun _ => q)
  if q.pcapwhy.toNat % 8 = p.pcapwhy.toNat % 8 then s1
  else
    let e : Exc := { code := Cause.powerEvent, info := q.pcapwhy }
    (s1.raiseService n e).report e

/-- Set every partition's clock; the free values of the limits are drawn anew (log 41). -/
def State.setClocks (s : State) : State :=
  let s1 := ((s.parts.filter (fun p => p.2.live)).map (·.1)).foldl (fun s n => s.setClock n) s
  { s1 with fresh := s1.fresh + 1 }

/-! ## Partitions (02 R26; 16 R363) -/

/-- The contexts of some clusters end without a trace, and the cores are as after power-up: the messages that they sent or that go
to them, their waiting requests, their watches and their places in FIFO queues are gone too (16 R364). -/
def State.wipeClusters (s : State) (ks : List Nat) : State :=
  let out (c : Nat) : Bool := decide (c < 2 ^ 15) && decide (cluOf c ∈ ks)
  { s with ctxs := s.ctxs.filter (fun p => decide (cluOf p.1 ∉ ks)), cores := s.cores.filter (fun p => decide (p.1 / 4 ∉ ks)),
           ports := s.ports.filter (fun p => decide (p.1 / 16 ∉ ks)), mats := s.mats.filter (fun p => decide (p.1 / 4 ∉ ks)),
           soloBars := s.soloBars.filter (fun p => decide (cluOf (p.1 / 16) ∉ ks)),
           net := s.net.filter (fun m => !(out m.src || out m.dst)),
           clus := s.clus.map (fun k => (k.1, { k.2 with
             retry := k.2.retry.filter (fun r => r.remote.isSome || !out r.ctx),
             fifoWait := if k.1 ∈ ks then [] else k.2.fifoWait, spec := if k.1 ∈ ks then [] else k.2.spec })),
           dir := s.dir.map (fun d => (d.1, { d.2 with watches := d.2.watches.filter (fun w => w.remote.isSome || !out w.ctx),
                                                       lrq := d.2.lrq.filter (fun c => !out c), lock := d.2.lock.filter (fun c => !out c) })) }

/-- The directory service slot of a cluster: the thread that the runtime starts there (02 R26). -/
def State.startService (s : State) (p k : Nat) (entry hvec : Word) : State :=
  let x : Ctx := { slot := if entry = 0 then .reserved else .ready, part := p, pc := entry, hvec := hvec, sta := { sup := true },
                   tid := s.nextTid }
  ({ s with nextTid := s.nextTid + 1 } : State).setCtx (dscOf k) x

/-- A partition is removed: its threads, launches, packets, grids and messages are gone, and so are the requests of peers that wait
at its lines. -/
def State.removePart (s : State) (p : Nat) : State :=
  let s1 := s.wipeClusters (s.part p).clusters
  let ls := (s1.launches.filter (fun x => decide (x.2.part = p))).map (·.1)
  { s1 with parts := SMap.del s1.parts p, launches := s1.launches.filter (fun x => decide (x.2.part ≠ p)),
            packets := s1.packets.filter (fun x => decide (x.2.part ≠ p)), claims := s1.claims.filter (fun k => decide (k.part ≠ p)),
            spilled := s1.spilled.filter (fun x => decide (x.2.ctx.part ≠ p)), waters := s1.waters.filter (fun w => decide (w.part ≠ p)),
            grids := s1.grids.filter (fun g => decide (g.2.part ≠ p)),
            moving := s1.moving.filter (fun x => decide (x.2.part ≠ p)),
            net := s1.net.filter (fun m => !(match m.body with
              | .emit l _ _ => decide (l ∈ ls)
              | .release l _ _ => decide (l ∈ ls)
              | .barrier (some l) _ _ _ => decide (l ∈ ls)
              | .exitNotice _ _ (some l) _ _ => decide (l ∈ ls)
              | .rcall _ q _ _ _ _ _ => decide (q = p)
              | .sigma q _ _ => decide (q = p)
              | _ => false)),
            clus := s1.clus.map (fun k => (k.1, { k.2 with
              retry := k.2.retry.filter (fun r => !r.remote.any (fun q => decide (q.tgtPart = p))), tlb := k.2.tlb.filter (fun e => decide (e.part ≠ p)),
              hcache := k.2.hcache.filter (fun e => decide (e.1 ≠ p)), pcaps := k.2.pcaps.filter (fun e => decide (e.1 ≠ p)) })),
            dir := s1.dir.map (fun d => (d.1, { d.2 with watches := d.2.watches.filter (fun w => !w.remote.any (fun q => decide (q.tgtPart = p))) })),
            walks := s1.walks.filter (fun w => decide (w.part ≠ p)) }

/-- Whether a partition can have what the management controller sets: its number, its package's node (01 R14), its clusters in service and in no other
partition, an interleave width and a table of distinct slices as 03 R48 has them, no failed channel under its slices, a balancing
interval of 02 R35; and only after phase 3 (19 R442, R443). -/
def State.partOk (s : State) (q : PartSpec) : Bool :=
  s.pkg.ready && decide (q.num < 16 ∧ q.node < 2048) && !q.clusters.isEmpty && decide (4 ≤ q.width ∧ q.width ≤ 9) && decide (q.table.length = 2 ^ q.width) &&
    decide q.table.Nodup && decide (q.interval ∈ [1024, 2048, 4096, 8192, 16384, 32768, 65536]) &&
    q.table.all (fun k => decide (k ∈ q.clusters) && !s.pkg.badChannels.any (fun c => decide (c / 4 = k))) &&
    q.clusters.all (fun k => decide (k < 512) && !(s.clu k).retired && !s.parts.any (fun p => decide (p.1 ≠ q.num) && p.2.live && decide (k ∈ p.2.clusters)))

/-- PARTITION_CREATE: a partition is created, resized or removed. A cluster that joins gets its directory service context; a cluster
that leaves is as after power-up. What cannot be set changes nothing. -/
def execPartitionCreate (q : PartSpec) (s : State) : Host.Outcome State Fault Refusal :=
  goes (
    if q.remove then s.removePart q.num
    else if !s.partOk q then s
    else
      let old := if (s.part q.num).live then (s.part q.num).clusters else []
      let s1 := (if (s.part q.num).live then s.dropPlan q.num else s).wipeClusters (old.filter (fun k => decide (k ∉ q.clusters)))
      let base : Part := if (s1.part q.num).live then s1.part q.num else {}
      let p : Part := { base with live := true, clusters := q.clusters.foldl addNat [], width := q.width, table := q.table, rank := q.rank, node := q.node,
                                  wlim := q.wlim, rlim := q.rlim, budget := q.budget, interval := q.interval,
                                  llAt := if base.live then base.llAt else s.refCycle, acyc := if base.live then base.acyc else s.cycle }
      let s2 : State := ({ s1 with parts := SMap.put s1.parts q.num p } : State).modPkg (fun g => { g with node := q.node })
      ((q.clusters.filter (fun k => decide (k ∉ old))).foldl (fun s k => s.startService q.num k q.entry q.hvec) s2).setClock q.num)

/-- ILLEGAL_OPCODE (05 R81): a fetched word that is no instruction issues and faults. -/
def execIllegalOpcode (s : State) : Host.Outcome State Fault Refusal := goes (s.takeFault s.cur { code := Cause.illegalOpcode })

end Sys2Proof.Machine
end

