-- ==== Sys2Proof/Machine/Exceptions.lean ====
section
/-! DEFINITION. Sys2Proof/Machine/Exceptions.lean: traps, breakpoints and returns, delivery of events, the watchdog, soft errors
and the limit of a wait under replay (17 R391 to R400, R408 to R410, R416; 10 R236, R237). -/

namespace Sys2Proof.Machine

/-! ## TRAP, BRK, ERET (17 R398, R400) -/

/-- TRAP. -/
def execTrap (code : BitVec 15) (s : State) : Host.Outcome State Fault Refusal :=
  goes (s.run {} 4 (fun s => .trap s { code := Cause.softwareTrap, info := code.setWidth 64 }))

/-- BRK. -/
def execBrk (code : BitVec 15) (s : State) : Host.Outcome State Fault Refusal :=
  goes (s.run {} 4 (fun _ => Res.bad Cause.breakpoint 0 (code.setWidth 64)))

/-- The end of a directory overflow event (10 R236): a WRITE clears the line's pointers and its overflow bit, a write of the
device's own that was performed is acknowledged, and the full-empty requests that waited for the line are served. -/
def State.endOverflow (s : State) (e : DirEv) : State :=
  if !e.write then s
  else
    let s1 := s.modDir e.line (fun d => { d with sharers := [], ovf := false })
    let s2 := match e.waiter with
      | none => s1
      | some t => s1.modThread t (fun x => { x with acks := x.acks - 1 })
    s2.serveWords (span (e.line * 128) 128)

/-- The effect of `ERET` once its target is aligned: the return, and the end of an overflow event when no handler remains. -/
def State.eret (s : State) (c : Nat) : State :=
  let s1 := s.modCtx c Ctx.eret
  match (s1.ctx c).ih, (s1.ctx c).handling with
  | false, some e => (s1.modCtx c (fun x => { x with handling := none })).endOverflow e
  | _, _ => s1

/-- ERET. -/
def execEret (s : State) : Host.Outcome State Fault Refusal :=
  goes (s.run { priv := true } 4 (fun s =>
    let t := (s.ctx s.cur).epc
    if t.toNat % 4 ≠ 0 then Res.bad Cause.misaligned t else .jump (s.eret s.cur) t 6))

/-! ## Delivery of events (17 R391, R394; 10 R218, R237) -/

/-- The slices whose overflow events go to a context. -/
def State.slicesOf (s : State) (c : Nat) : List Nat :=
  if !isDsc c then [] else (s.part (s.ctx c).part).clusters.filter (fun k => decide (s.dscFor (s.ctx c).part k = c))

/-- What an overflow event gives its handler (10 R237). -/
def DirEv.exc (e : DirEv) : Exc :=
  { code := Cause.directoryOverflow, addr := BitVec.ofNat 64 (e.line * 128 % 2 ^ 40),
    info := BitVec.ofNat 64 (e.clu % 2 ^ 10 + e.write.toNat * 2 ^ 63) }

/-- The next event of a context: from its sources, or from a slice of its own. -/
def State.nextEvent (s : State) (c : Nat) : Option (Exc × Option (Nat × DirEv)) :=
  let over1 := (s.slicesOf c).findSome? (fun k => (s.clu k).dirq.head?.map (fun e => (k, e)))
  match (s.ctx c).held, over1 with
  | [], none => none
  | [], some o => some (o.2.exc, some o)
  | h :: _, none => some (h, none)
  | h :: _, some o =>
    if h.code = Cause.machineCheck ∨ h.code.toNat < Cause.directoryOverflow.toNat then some (h, none) else some (o.2.exc, some o)

/-- Whether a context can take an event now: it is READY, or BLOCKED in a wait that ends or is withdrawn, and its cluster is not
being calibrated again (19 R446). -/
def State.canTake (s : State) (c : Nat) : Bool :=
  let x := s.ctx c
  !x.ih && !x.stopped && (decide (x.slot = .ready) ||
    (decide (x.slot = .blocked) && !(s.clu (cluOf c)).recal && x.wait.any (fun w => w.reply.isSome || s.canWithdraw c w.why)))

/-- An event is delivered: its source lets it go, and the handler is entered at the next instruction, or at the withdrawn
one. -/
def State.deliver (s : State) (c : Nat) : State :=
  let s1 := if (s.ctx c).slot = .blocked then s.unblock c else s
  if (s1.ctx c).slot ≠ .ready ∨ (s1.ctx c).ih then s1
  else
    match s1.nextEvent c with
    | none => s1
    | some (e, none) =>
      (s1.modCtx c (fun x => { x with held := x.held.drop 1 })).enter c 2 (s1.ctx c).pc e
    | some (e, some (k, o)) =>
      ((s1.modClu k (fun u => { u with dirq := u.dirq.drop 1 })).modCtx c (fun x => { x with handling := some o })).enter c 2
        (s1.ctx c).pc e

/-- EVENT_DELIVERY. -/
def execEventDelivery (c : Nat) (s : State) : Host.Outcome State Fault Refusal :=
  goes (if (s.nextEvent c).isSome && s.canTake c then s.deliver c else s)

/-- WATCHDOG (17 R395): a handler has run for longer than the wait limit. It is reported once. -/
def execWatchdog (c : Nat) (s : State) : Host.Outcome State Fault Refusal :=
  goes (
    let x := s.ctx c
    if x.ih && x.slot.live && x.handlerSince.isSome then
      let e : Exc := { code := Cause.watchdog, info := BitVec.ofNat 64 c }
      let s1 := s.modCtx c (fun x => { x with handlerSince := none })
      if c = s.serviceCtx x.part then s1.report e else s1.raiseService x.part e
    else s)

/-! ## Soft errors (17 R408 to R410) -/

/-- PATROL_SCRUB: the scrubber reads a granule. An error that it can correct is corrected and counted; an uncorrectable one poisons
the granule; poison is counted. -/
def execPatrolScrub (g : Nat) (s : State) : Host.Outcome State Fault Refusal :=
  goes (
    if hasNat s.poison g then s.modPkg (fun k => { k with scrubPoison := k.scrubPoison + 1 })
    else if hasNat s.ecc g then
      ({ s with ecc := delNat s.ecc g, poison := addNat s.poison g } : State).modPkg (fun k => { k with scrubPoison := k.scrubPoison + 1 })
    else s.correct (span (16 * g) 16))

/-- An upset of a granule of memory: of one bit, which the device can correct, or of two, which it cannot; a second bit of a granule
makes two (17 R408, R409). -/
def State.upset (s : State) (g : Nat) (double : Bool) : State :=
  if hasNat s.poison g || hasNat s.ecc g then s
  else if double || hasNat s.soft g then { s with ecc := addNat s.ecc g, soft := delNat s.soft g }
  else { s with soft := addNat s.soft g }

/-- An uncorrectable error in a line of a cluster cache: a clean copy is dropped and fetched again at its next use (17 R409). -/
def State.copyError (s : State) (clu line : Nat) : State := s.evictLine clu line

/-- A context's control state is lost: it becomes EXITED with code 253 after its intact entries are written (17 R410). -/
def State.loseCtx (s : State) (c : Nat) : State :=
  (s.withdraw c).lose c 253 { code := Cause.machineCheck, info := BitVec.ofNat 64 (c + 2 * 2 ^ 22) }

/-- The launches of a partition stop with code 253 (17 R410). -/
def State.stopLaunches (s : State) (p : Nat) : State :=
  let ls := (s.launches.filter (fun x => decide (x.2.part = p) && decide (x.2.st = .running ∨ x.2.st = .ready))).map (·.1)
  (ls.foldl (fun s l => (s.endMembers l 253).modDom l (fun d => { d with frozen := none, awaiting := false, ended := some d.instant })) s).modPart p
    (fun q => { q with retire := true })

/-- CONTROL_STATE_ERROR: below 2^15 a context's own control state; from there on, the lehr, a directory or a scheduler of the
partition `c - 2^15`. -/
def execControlStateError (c : Nat) (s : State) : Host.Outcome State Fault Refusal :=
  goes (
    if c < 2 ^ 15 then (if (s.ctx c).slot.live then s.loseCtx c else s)
    else (s.stopLaunches (c - 2 ^ 15)).report { code := Cause.machineCheck })

/-! ## Replay (17 R416) -/

/-- REPLAY_WAIT_TIMEOUT: the record at the read position has stayed unmatched for the wait limit. The launch of the record goes
on with replay off; for a record of no launch in replay the event is raised all the same. -/
def execReplayWaitTimeout (p : Nat) (s : State) : Host.Outcome State Fault Refusal :=
  goes (match s.readRecord p with
    | none => s
    | some (i, r) =>
      s.diverge p ((s.launches.find? (fun l =>
        decide (l.2.part = p ∧ l.2.replay = 2 ∧ l.2.lcnt % 2 ^ 16 = bitsAt r 16 16))).map (·.1)) (BitVec.ofNat 64 i))

end Sys2Proof.Machine
end

