-- ==== Sys2Proof/Machine/Preempt.lean ====
section
/-! DEFINITION. Sys2Proof/Machine/Preempt.lean: pre-emption requests: SPILL, RESTORE and SAVE (17 R401 to R407). -/

namespace Sys2Proof.Machine

/-! ## Requests (17 R401, R402) -/

namespace Cull
/-- OP. -/
def op (r : BitVec 512) : Nat := bitsAt r 0 8
/-- N. -/
def notify (r : BitVec 512) : Bool := bitOf r 8
/-- BANKS. -/
def banks (r : BitVec 512) : Bool := bitOf r 9
/-- CTX. -/
def ctx (r : BitVec 512) : Nat := bitsAt r 16 16
/-- MASK. -/
def mask (r : BitVec 512) : Nat := bitsAt r 32 32
/-- REC. -/
def record (r : BitVec 512) : Nat := bitsAt r 64 64
/-- ENG. -/
def eng (r : BitVec 512) : Nat := bitsAt r 128 64
end Cull

/-- The length of the cullet area; 0 where it does not meet 17 R401. -/
def State.areaLen (s : State) (p : Nat) : Nat :=
  match s.cullet p with
  | none => 0
  | some e => e.len

/-- Whether a record's offset is one that 17 R403 allows. -/
def State.recOk (s : State) (p rec_ : Nat) : Bool := decide (rec_ % 1024 = 0 ∧ rec_ + 1024 ≤ s.areaLen p)

/-- Write a record's status word, where the area holds it. -/
def State.setStatus (s : State) (p rec_ st why : Nat) : State :=
  if s.areaLen p < rec_ + 1024 then s else s.areaWrite p (rec_ + 0x3F8) (leBytes 8 (st + why * 2 ^ 8))

/-- The status of a record. -/
def State.statusOf (s : State) (p rec_ : Nat) : Nat := s.areaN p (rec_ + 0x3F8) 1

/-- A request is refused for a reason. -/
def State.refuse (s : State) (p : Nat) (r : BitVec 512) (why : Nat) : State := s.setStatus p (Cull.record r) 2 why

/-- The schedulers take the slot at the read index, when it is written: its OP byte is zeroed and the index advances. An
unknown operation is refused (log 36). -/
def State.cullTake (s : State) (p : Nat) : Option State :=
  let n := s.areaLen p
  let lg := s.areaN p 16 1
  let rd := s.areaN p 8 8
  let off := 0x1000 + 64 * (rd % 2 ^ lg)
  if n = 0 ∨ lg < 1 ∨ 20 < lg ∨ n < 0x1000 + 64 * 2 ^ lg then none
  else
    let r : BitVec 512 := BitVec.ofNat 512 (s.areaN p off 64)
    if Cull.op r = 0 then none
    else
      let s1 := (s.areaWrite p off [0]).areaWrite p 8 (leBytes 8 ((rd + 1) % 2 ^ 64))
      some (if Cull.op r ≤ 3 then s1.modPart p (fun q => { q with cull := q.cull ++ [r] }) else s1.refuse p r 1)

/-- Take every slot that is written. -/
def State.cullAll (p : Nat) : Nat → State → State
  | 0, s => s
  | fuel + 1, s =>
    match s.cullTake p with
    | none => s
    | some s1 => State.cullAll p fuel s1

/-- Each waiting request of an operation is tried; the finished ones leave. Requests proceed independently. -/
def State.cullRun (s : State) (p op : Nat) (one : State → BitVec 512 → State × Bool) : State :=
  let s0 := State.cullAll p 1024 s
  let try_ (a : State × List (BitVec 512)) (r : BitVec 512) : State × List (BitVec 512) :=
    if Cull.op r ≠ op then (a.1, a.2 ++ [r])
    else
      match one a.1 r with
      | (s1, true) => (s1, a.2)
      | (s1, false) => (s1, a.2 ++ [r])
  let (s1, rest) := (s0.part p).cull.foldl try_ (s0, [])
  s1.modPart p (fun q => { q with cull := rest })

/-! ## SPILL (17 R404) -/

/-- The engine of a context that a SPILL holds. -/
def State.spillEngine (s : State) (c : Nat) : Option Nat := engineOf (s.ctx c).sta.bindCode

/-- The banks that a SPILL holds. -/
def Cull.bankList (r : BitVec 512) : List Nat :=
  if Cull.banks r then (List.range 32).filter (fun b => decide (Cull.mask r / 2 ^ b % 2 = 1)) else []

/-- The bytes of the region that a request needs from ENG on. -/
def regionNeed (engine : Option Nat) (banks : Nat) : Nat :=
  if 0 < banks then 0x22000 + 0x11000 * banks
  else match engine with
    | none => 0
    | some e => if e < 4 then 0x2000 else 0x22000

/-- The reason that refuses a SPILL, if there is one. -/
def State.spillBad (s : State) (p : Nat) (r : BitVec 512) : Option Nat :=
  let c := Cull.ctx r
  let need := regionNeed (s.spillEngine c) (Cull.bankList r).length
  if cluOf c ∉ (s.part p).clusters ∨ !(s.ctx c).slot.live ∨ isDsc c then some 1
  else if !s.recOk p (Cull.record r) then some 2
  else if ((s.spillEngine c).isSome ∨ Cull.banks r) ∧ Cull.eng r = 0 then some 2
  else if Cull.eng r ≠ 0 ∧ (Cull.eng r % 4096 ≠ 0 ∨ s.areaLen p < Cull.eng r + need) then some 2
  else none

/-- Whether a context can be spilled now: at a boundary, its lines not held back, its release markers complete and so every message
behind them sent (11 R245), its messages arrived, and no answer from a peer still to come for its matrix commands. A sent call
does not hold it (15 R361). -/
def State.spillReady (s : State) (c : Nat) : Bool :=
  let x := s.ctx c
  let es := entriesOf x.buf
  let still := match x.wait with
    | none => true
    | some w => w.reply.isSome || s.canWithdraw c w.why ||
      (match w.why with | .rcall _ => true | .pause => true | .remote n => s.callSent c n | _ => false)
  still && !hasMarker x.buf && !s.heldBack c 2 es && !s.net.any (fun m => decide (m.src = c)) && !s.sigPending c &&
    !(decide (s.spillEngine c = some 4) && s.pkg.outst.any (fun o => o.mat.any (fun k => decide (k.1 = coreOf c))))

/-- What is kept under a context's number goes under another: its tagged lines and its requests on the fabric. A spilled thread has a
key of its own (15 R358, R361). -/
def State.rekey (s : State) (old new : Nat) : State :=
  let k (n : Nat) : Nat := if n = old then new else n
  ({ s with clus := s.clus.map (fun u => (u.1, { u.2 with spec := u.2.spec.map (fun l => { l with ctx := k l.ctx }) })) } : State).modPkg
    (fun g => { g with outst := g.outst.map (fun o => { o with ctx := o.ctx.map k }) })

/-- The record of a context with its flags and its number. -/
def State.fullRecord (s : State) (c : Nat) (eng banks : Bool) : BitVec 8192 :=
  let x := s.ctx c
  let pin := x.owner || !(s.streamsOf c).isEmpty
  let flags := x.ih.toNat + pin.toNat * 2 + eng.toNat * 4 + x.spec.isSome.toNat * 8 + banks.toNat * 16
  putField (putField x.record ⟨0x091, 1, flags⟩) ⟨0x092, 2, c⟩

/-- The thread of a context leaves for its record. -/
def State.spillOut (s : State) (p c : Nat) (r : BitVec 512) : State :=
  let rec_ := Cull.record r
  let eng := s.spillEngine c
  let banks := Cull.bankList r
  let s1 := (s.drainAll c).modCtx c (fun x => { x with resv := none })
  let x := s1.ctx c
  let bytes := s1.fullRecord c eng.isSome (Cull.banks r)
  let s2 := match eng with
    | none => s1
    | some e => s1.modCore (coreOf c) (fun k => { k with engHeld := k.engHeld ++ [(e, p, rec_, Cull.eng r)] })
  let holds : List BankHold := (banks.zipIdx).map (fun b => ⟨b.1, p, rec_, Cull.eng r, b.2, x.launch⟩)
  let s3 := s2.modClu (cluOf c) (fun k => { k with bankHeld := k.bankHeld ++ holds })
  let s4 := s3.areaRows p rec_ ((List.range 16).map (fun i => leBytes 64 (bitsAt bytes (512 * i) 512)))
  let kept : Spilled := { ctx := x, at_ := s4.refCycle, mask := if Cull.banks r then Cull.mask r else 0, from_ := c }
  let s5 : State := ({ s4 with spilled := SMap.put s4.spilled (regionKey p rec_) kept } : State).rekey c (spillKey x.tid)
  let pin := x.owner || !(s5.streamsOf c).isEmpty
  let s6 := if pin then s5.setCtx c { slot := .reserved, part := p, lastIssue := x.lastIssue } else s5.freeSlot c
  s6.setStatus p rec_ 1 0

/-- A SPILL request: an event that can be delivered goes first; a wait is withdrawn, or ends, or stays with the thread. -/
def State.spillOne (s : State) (p : Nat) (r : BitVec 512) : State × Bool :=
  let c := Cull.ctx r
  match s.spillBad p r with
  | some why => (s.refuse p r why, true)
  | none =>
    if (s.nextEvent c).isSome && s.canTake c then (s.deliver c, false)
    else if !s.spillReady c then (s.askHeld c 2 (entriesOf (s.ctx c).buf), false)
    else
      let s1 := if (s.ctx c).slot = .blocked then s.unblock c else s
      if !(s1.ctx c).slot.live then (s1.refuse p r 1, true)
      else if s1.ctx c = s.ctx c ∨ (s1.ctx c).wait.isNone then (s1.spillOut p c r, true) else (s1, false)

/-- SPILL. -/
def execSpill (p : Nat) (s : State) : Host.Outcome State Fault Refusal := goes (s.cullRun p 1 (fun s r => s.spillOne p r))

/-! ## SAVE (17 R405) -/

/-- Every held engine and bank of a record is written to its region. -/
def State.saveRecord (s : State) (p rec_ : Nat) : State :=
  let engs := s.cores.flatMap (fun k => (k.2.engHeld.filter (fun h => decide (h.2.1 = p ∧ h.2.2.1 = rec_))).map (fun h => (k.1, h.1)))
  let s1 := engs.foldl (fun s h => s.saveEngine h.1 h.2) s
  let banks := s1.clus.flatMap (fun k => (k.2.bankHeld.filter (fun h => decide (h.part = p ∧ h.rec_ = rec_))).map (fun h => (k.1, h)))
  banks.foldl (fun s h => s.saveBank h.1 h.2) s1

/-- A SAVE request. -/
def State.saveOne (s : State) (p : Nat) (r : BitVec 512) : State × Bool :=
  if !s.recOk p (Cull.record r) then (s.refuse p r 2, true)
  else if s.statusOf p (Cull.record r) ≠ 1 then (s.refuse p r 4, true)
  else ((s.saveRecord p (Cull.record r)).setStatus p (Cull.record r) 4 0, true)

/-- SAVE. -/
def execSave (p : Nat) (s : State) : Host.Outcome State Fault Refusal := goes (s.cullRun p 3 (fun s r => s.saveOne p r))

/-! ## RESTORE (17 R406, R407) -/

/-- A port from its image. -/
def State.loadPort (s : State) (p reg : Nat) : Port :=
  let base := (SMap.at ({} : EngImage) s.engImg (regionKey p reg)).port
  let marks := s.areaN p (reg + 0x1108) 8
  { base with v := (List.range 32).foldl (fun m i => SMap.put m i (BitVec.ofNat 1024 (s.areaN p (reg + 128 * i) 128))) [],
              q := (List.range 8).foldl (fun m i => SMap.put m i (BitVec.ofNat 256 (s.areaN p (reg + 0x1000 + 32 * i) 32))) [],
              cfg := BitVec.ofNat 64 (s.areaN p (reg + 0x1100) 8), vpoison := BitVec.ofNat 32 marks,
              qpoison := BitVec.ofNat 8 (marks / 2 ^ 32) }

/-- A matrix unit from its image. -/
def State.loadMat (s : State) (p reg : Nat) : Mat :=
  let base := (SMap.at ({} : EngImage) s.engImg (regionKey p reg)).mat
  let tile (t : Nat) : Tile :=
    { base.tile t with data := (List.range 64).foldl (fun m i => SMap.put m i (BitVec.ofNat 2048 (s.areaN p (reg + 0x4000 * t + 256 * i) 256))) [] }
  { base with tiles := (List.range 8).foldl (fun m t => SMap.put m t (tile t)) [],
              staging := (List.range 32).foldl (fun m i => SMap.put m i (BitVec.ofNat 512 (s.areaN p (reg + 0x20000 + 64 * i) 64))) [] }

/-- A bank from its image: data, full-empty bits, tags, and its FIFO words. -/
def State.loadBank (s : State) (p clu bank off : Nat) : State :=
  let a := sramLoc clu bank 0
  let full := s.areaN p (off + 0x10000) 1024
  let tags := s.areaN p (off + 0x10400) 512
  let s1 := (List.range 256).foldl (fun s i => s.rawWrite ((span (a + 256 * i) 256).zip (s.areaRead p (off + 256 * i) 256))) s
  let s2 : State := { s1 with
    empties := (List.range 8192).foldl (fun e w => if full / 2 ^ w % 2 = 0 then addNat e (a / 8 + w) else e) s1.empties,
    mtags := (List.range 4096).foldl (fun t g => if tags / 2 ^ g % 2 = 1 then addNat t (a / 16 + g) else t) s1.mtags }
  s2.modClu clu (fun k => { k with fifo := SMap.put k.fifo bank (SMap.at [] s2.bankImg (regionKey p off)) })

/-- The engine state of a record comes back to a core: as it stands while it is held, else from its image. -/
def State.regainEngine (s : State) (core e p rec_ reg : Nat) : State :=
  let mine (h : Nat × Nat × Nat × Nat) : Bool := decide (h.1 = e ∧ h.2.1 = p ∧ h.2.2.1 = rec_)
  if (s.core core).engHeld.any mine then s.modCore core (fun k => { k with engHeld := k.engHeld.filter (fun h => !mine h) })
  else
    let s1 := s.saveEngine core e
    let s2 : State := { s1 with engImg := s1.engImg.map (fun q => if q.1 = regionKey p reg then (q.1, { q.2 with live := false }) else q) }
    if e < 4 then s2.modPort core e (fun _ => s1.loadPort p reg) else s2.modMat core (fun _ => s1.loadMat p reg)

/-- The banks of a record come back: saved ones are loaded, the others are released from hold. -/
def State.regainBanks (s : State) (clu p rec_ reg mask : Nat) : State :=
  let bs := (List.range 32).filter (fun b => decide (mask / 2 ^ b % 2 = 1))
  (bs.zipIdx).foldl (fun s b =>
    let mine (h : BankHold) : Bool := decide (h.bank = b.1 ∧ h.part = p ∧ h.rec_ = rec_)
    if (s.clu clu).bankHeld.any mine then s.modClu clu (fun k => { k with bankHeld := k.bankHeld.filter (fun h => !mine h) })
    else s.loadBank p clu b.1 (bankImage reg b.2)) s

/-- What the device keeps of a record's thread: of the thread spilled at that offset, or, where software has moved the record, of one
that left the context that the record names; by its place among the spilled threads. -/
def State.spilledFor (s : State) (p rec_ left : Nat) : Option (Nat × Spilled) :=
  (s.spilled.find? (fun q => decide (q.1 = regionKey p rec_))).or
    (s.spilled.find? (fun q => decide (q.2.from_ = left ∧ q.2.ctx.part = p ∧ s.statusOf p (q.1 % 2 ^ 52) ≠ 1 ∧ s.statusOf p (q.1 % 2 ^ 52) ≠ 4)))

/-- The reason that refuses a RESTORE, if there is one. -/
def State.restoreBad (s : State) (p : Nat) (r : BitVec 512) : Option Nat :=
  let t := Cull.ctx r
  let rec_ := Cull.record r
  let flags := s.areaN p (rec_ + 0x091) 1
  let left := s.areaN p (rec_ + 0x092) 2
  let bit (i : Nat) : Bool := decide (flags / 2 ^ i % 2 = 1)
  if !s.recOk p rec_ then some 2
  else if s.statusOf p rec_ ≠ 1 ∧ s.statusOf p rec_ ≠ 4 then some 4
  else if 2 ^ 15 ≤ t ∨ cluOf t ∉ (s.part p).clusters ∨ (s.clu (cluOf t)).retired then some 1
  else if isDsc t ∨ ((s.ctx t).slot ≠ .free ∧ ¬((s.ctx t).slot = .reserved ∧ t = left ∧ bit 1)) then some 1
  else if (bit 1 ∧ t ≠ left) ∨ ((bit 2 ∨ bit 4) ∧ coreOf t ≠ coreOf left) ∨ (bit 3 ∧ cluOf t ≠ cluOf left) then some 3
  else if (bit 2 ∨ bit 4) ∧ (Cull.eng r = 0 ∨ Cull.eng r % 4096 ≠ 0 ∨ s.areaLen p ≤ Cull.eng r) then some 2
  else none

/-- A restored thread resumes: an iteration that a write of the baton holder has met starts again (15 R359), and a trap that an
instruction ended with is taken (17 R399). -/
def State.resumeThread (s : State) (c : Nat) (again : Bool) : State :=
  let s1 := if again then s.restart c else s
  if (s1.ctx c).wait.isSome then s1 else s1.payTrap c

/-- A RESTORE request. An engine that another context holds makes it wait, and so do the entrants of the core's arrival queue (15
R354). A record of which the device keeps nothing is restored from what it lays out (17 R403; log 19). -/
def State.restoreOne (s : State) (p : Nat) (r : BitVec 512) : State × Bool :=
  match s.restoreBad p r with
  | some why => (s.refuse p r why, true)
  | none =>
    let t := Cull.ctx r
    let rec_ := Cull.record r
    let bytes : BitVec 8192 := BitVec.ofNat 8192 (s.areaN p rec_ 1024)
    let had := s.spilledFor p rec_ (recAt bytes 0x092 2)
    let old := (had.map (·.2)).getD { ctx := { tid := s.nextTid }, at_ := s.refCycle }
    let x := old.ctx.loadRecord bytes
    let engine := if bitOf bytes (8 * 0x091 + 2) then engineOf x.sta.bindCode else none
    if engine.any (fun e => (s.engineUser (coreOf t) e).isSome) ∨ ((s.ctx t).slot = .free ∧ (s.core (coreOf t)).arrivals ≠ []) then (s, false)
    else
      let pinned := decide ((s.ctx t).slot = .reserved)
      let s1 := match engine with
        | none => s
        | some e => s.regainEngine (coreOf t) e p rec_ (Cull.eng r)
      let s2 := if bitOf bytes (8 * 0x091 + 4) then s1.regainBanks (cluOf t) p rec_ (Cull.eng r) old.mask else s1
      let y : Ctx := { x with slot := if x.wait.isSome then .blocked else .ready, part := p, lastIssue := (s.ctx t).lastIssue }
      let s3 := (({ s2 with nextTid := if had.isNone then s2.nextTid + 1 else s2.nextTid } : State).setCtx t y).rekey (spillKey y.tid) t
      let s4 := ((if pinned then s3 else (s3.emptyChan t).dropSolo t).applyInbox (cluOf t)).noteClu t
      let s5 : State := { s4 with spilled := s4.spilled.filter (fun q => !had.any (fun h => decide (h.1 = q.1))) }
      let s6 := (s5.setStatus p rec_ 3 0).resumeThread t old.again
      (if Cull.notify r then s6.raiseAt t { code := Cause.preempt, info := BitVec.ofNat 64 (s6.refCycle - old.at_) } else s6, true)

/-- RESTORE. -/
def execRestore (p : Nat) (s : State) : Host.Outcome State Fault Refusal := goes (s.cullRun p 2 (fun s r => s.restoreOne p r))

end Sys2Proof.Machine
end

