-- ==== Sys2Proof/Machine/Links.lean ====
section
/-! DEFINITION. Sys2Proof/Machine/Links.lean: the Osell links: node numbers and routes, flits, link replay, lane loss and
retraining (18 R418 to R427). Where a response carries the target's window, and which bytes of a write count, is the
model's own (log 37). -/

namespace Sys2Proof.Machine

/-! ## Flits (18 R423, R424) -/

/-- The data flits of a packet. -/
def pktFlits (p : FabPkt) : Nat := (p.data.length + 63) / 64

/-- The header flit. -/
def pktHeader (p : FabPkt) : List Byte :=
  let mop := if p.cls = 1 then p.cause.toNat else p.mop % 16 + p.sz % 8 * 16
  let off := if p.cls = 1 then p.cur.toNat + p.floor.toNat * 2 ^ 8 else p.off.toNat
  leBytes 2 (p.tgtNode % 2 ^ 11 + p.tgtPart % 32 * 2 ^ 11) ++ leBytes 2 (p.srcNode % 2 ^ 11 + p.srcPart % 32 * 2 ^ 11) ++
    leBytes 1 (p.cls % 4 + p.vc % 2 * 4 + p.detour.toNat * 8 + pktFlits p % 16 * 16) ++ leBytes 1 p.opc ++ leBytes 1 mop ++
    leBytes 1 0 ++ leBytes 4 p.eseq ++ leBytes 4 p.rev.toNat ++ leBytes 16 p.cap.toNat ++ leBytes 8 off ++ leBytes 16 p.opnd.toNat ++
    leBytes 8 0

/-- Flit `i` of a packet: 0 the header, then the payload in ascending order. -/
def pktFlit (p : FabPkt) (i : Nat) : List Byte :=
  if i = 0 then pktHeader p else let d := (p.data.drop (64 * (i - 1))).take 64; d ++ List.replicate (64 - d.length) 0

/-- A flit as it travels: LSEQ, type 1 or 2, and the CRC. -/
def wireFlit (lseq ty : Nat) (f : List Byte) : List Byte :=
  let b := f ++ leBytes 2 lseq ++ leBytes 1 ty ++ leBytes 1 0
  b ++ leBytes 4 (crc32 b)

/-- A number of `n` bytes of a byte list at an offset. -/
def numAt (l : List Byte) (o n : Nat) : Nat := leNat ((l.drop o).take n)

/-- The packet of a header flit and its payload. -/
def pktOfFlits (h d : List Byte) : FabPkt :=
  let ctl := numAt h 4 1
  let cls := ctl % 4
  let opc := numAt h 5 1
  let mop := numAt h 6 1
  let opnd := numAt h 40 16
  let data := if cls = 0 ∧ opc = opcWrite then d.take opnd else if cls = 2 ∧ opc = 0x08 then d.take (opnd / 2 ^ 72) else d
  { cls := cls, opc := opc, detour := decide (ctl / 8 % 2 = 1), vc := ctl / 4 % 2, tgtNode := numAt h 0 2 % 2 ^ 11,
    tgtPart := numAt h 0 2 / 2 ^ 11, srcNode := numAt h 2 2 % 2 ^ 11, srcPart := numAt h 2 2 / 2 ^ 11, eseq := numAt h 8 4,
    rev := BitVec.ofNat 32 (numAt h 12 4), cap := BitVec.ofNat 128 (numAt h 16 16),
    off := if cls = 1 then 0 else BitVec.ofNat 64 (numAt h 32 8), opnd := BitVec.ofNat 128 opnd,
    mop := if cls = 1 then 0 else mop % 16, sz := if cls = 1 then 0 else mop / 16 % 8,
    cause := if cls = 1 then BitVec.ofNat 6 mop else 0, floor := if cls = 1 then BitVec.ofNat 8 (numAt h 33 1) else 0,
    cur := if cls = 1 then BitVec.ofNat 8 (numAt h 32 1) else 0, data := data }

/-! ## Sending (18 R425) -/

/-- Whether a direction moves flits: X16, X8LO, X8HI or X4. -/
def OPort.up (o : OPort) : Bool := decide (2 ≤ o.state ∧ o.state ≤ 5)

/-- Whether the replay buffer of 2,048 flits has room for a packet. -/
def OPort.fits (o : OPort) (p : FabPkt) : Bool := o.up && decide (o.unacked.length + (1 + pktFlits p) ≤ 2048)

/-- The packet that leaves next: the oldest that fits, of those that are the oldest of their class and virtual channel, so that none
waits for what traffic of another class holds (18 R422). -/
def OPort.first (o : OPort) : Option FabPkt :=
  o.sendq.find? (fun p => o.fits p && decide (o.sendq.find? (fun q => decide (q.cls = p.cls ∧ q.vc = p.vc)) = some p))

/-- A packet that waits enters the replay buffer, numbered on. -/
def OPort.pump (o : OPort) : OPort :=
  match o.first with
  | none => o
  | some p =>
    let n := 1 + pktFlits p
    { o with sendq := o.sendq.erase p, unacked := o.unacked ++ (List.range n).map (fun i => (p, i)), next := (o.next + n) % 2 ^ 16 }

/-- Whether a port has a free slot for a collective packet of a virtual channel: two are reserved (18 R422). -/
def OPort.slotFree (o : OPort) (vc : Nat) : Bool := decide ((o.sendq.filter (fun q => decide (q.cls = 2 ∧ q.vc = vc))).length < 2)

/-- The number of the last accepted flit. -/
def OPort.last (o : OPort) : Nat := (o.expect + 2 ^ 16 - 1) % 2 ^ 16

/-- The receiver drops a flit and sends a NAK that names its last accepted number (18 R425). -/
def OPort.sendNak (o : OPort) : OPort := { o with nak := true, ctl := some (o.last, true), owed := 0 }

/-- A flit has been accepted: at the sixteenth since the last one, or sooner, an acknowledgement leaves (18 R425). -/
def OPort.accepted (o : OPort) (soon : Bool) : OPort :=
  let o1 := { o with expect := (o.expect + 1) % 2 ^ 16, nak := false, owed := o.owed + 1 }
  if soon || decide (16 ≤ o1.owed) then { o1 with ctl := some (o1.last, false), owed := 0 } else o1

/-- Flits up to a number are acknowledged. -/
def OPort.ack (o : OPort) (lseq : Nat) : OPort :=
  let k := (lseq + 2 * 2 ^ 16 - (o.next + 2 ^ 16 - o.unacked.length) % 2 ^ 16 + 1) % 2 ^ 16
  if 1 ≤ k ∧ k ≤ o.unacked.length then { o with unacked := o.unacked.drop k, lseq := lseq % 2 ^ 16, fails := 0 } else o

/-- The unacknowledged flits are sent again. -/
def OPort.replay (o : OPort) : OPort := if o.unacked.isEmpty then o else { o with replays := o.replays + 1, fails := o.fails + 1 }

/-- LINK_ACK_RECEIVE (18 R425, R426): an acknowledgement, or a NAK that names the last accepted number. A third failed replay
of one flit starts retraining when it falls within 1 µs of the first, which is free (log 6). -/
def execLinkAckReceive (port : Nat) (lseq : BitVec 16) (nak : Bool) (s : State) : Host.Outcome State Fault Refusal :=
  goes (
    if !(s.oport port).up then s
    else
      let s1 := s.modOport port (fun o => o.ack lseq.toNat)
      let s2 := if nak then s1.modOport port OPort.replay else s1
      if nak && decide (4 ≤ (s2.oport port).fails) then
        let (soon, s3) := s2.draw
        s3.modOport port (fun o => if soon then { o with state := 1, fails := 0 } else { o with fails := 1 })
      else s2.modOport port OPort.pump)

/-! ## Retraining (18 R426, R427) -/

/-- The lanes of a half or a quarter. -/
def laneSet (lo n : Nat) : BitVec 16 := BitVec.ofNat 16 ((2 ^ n - 1) * 2 ^ lo)

/-- The state and the lanes of the lowest-numbered whole quarter. -/
def quarterOf (dead : BitVec 16) : Nat × BitVec 16 :=
  match (List.range 4).find? (fun q => decide (dead &&& laneSet (4 * q) 4 = 0)) with
  | some q => (5, laneSet (4 * q) 4)
  | none => (0, 0)

/-- The widest state that the whole lanes allow. -/
def widest (dead : BitVec 16) : Nat × BitVec 16 :=
  if dead = 0 then (2, laneSet 0 16)
  else if dead &&& laneSet 0 8 = 0 then (3, laneSet 0 8)
  else if dead &&& laneSet 8 8 = 0 then (4, laneSet 8 8)
  else quarterOf dead

/-- The state of a direction by the lanes that it uses. -/
def laneState (l : BitVec 16) : Nat :=
  if l = 0 then 0 else if l = laneSet 0 16 then 2 else if l = laneSet 0 8 then 3 else if l = laneSet 8 8 then 4 else 5

/-- Where retraining leads from the lanes in use, given the failed lanes. A link never widens by itself. -/
def retrained (used dead : BitVec 16) : Nat × BitVec 16 :=
  if used &&& dead = 0 then (laneState used, used)
  else if laneState used = 2 ∧ dead &&& laneSet 8 8 = 0 then (4, laneSet 8 8)
  else if laneState used = 2 ∧ dead &&& laneSet 0 8 = 0 then (3, laneSet 0 8)
  else quarterOf dead

/-- LINK_DEGRADED at every partition's service context and at the controller. -/
def State.degraded (s : State) (port : Nat) : State :=
  let e : Exc := { code := Cause.linkDegraded, info := (s.oport port).word ||| BitVec.ofNat 64 (port % 8 * 2 ^ 16) }
  ((s.parts.filter (fun p => p.2.live)).foldl (fun s p => s.raiseService p.1 e) s).report e

/-- The packets that a replay buffer holds, oldest first. -/
def OPort.packets (o : OPort) : List FabPkt :=
  o.unacked.foldl (fun acc f => if acc.getLast? = some f.1 && decide (f.2 ≠ 0) then acc else acc ++ [f.1]) []

/-- LANE_LOSS_OF_SIGNAL (18 R426): lanes fail, which starts retraining. -/
def execLaneLossOfSignal (port : Nat) (lanes : BitVec 16) (s : State) : Host.Outcome State Fault Refusal :=
  goes (s.modOport port (fun o =>
    let o1 := { o with dead := o.dead ||| lanes }
    if o.up && decide (lanes ≠ 0) then { o1 with state := 1 } else o1))

/-- SERVICE_RETRAIN (18 R426; 19 R446): the management controller has a port retrained; `whole` are its whole lanes. -/
def execServiceRetrain (port : Nat) (whole : BitVec 16) (s : State) : Host.Outcome State Fault Refusal :=
  goes (
    if s.hasPeer s.pkg.node port then s.modOport port (fun o => { o with state := 1, dead := ~~~whole, service := true })
    else s)

end Sys2Proof.Machine
end

