-- ==== Sys2Proof/Machine/Fabric.lean ====
section
/-! DEFINITION. Sys2Proof/Machine/Fabric.lean: requests and answers over the fabric: the duplicate filter, performance at the
target, the answer at the source, packets that arrive and pass, and reductions across packages (10 R234, R235; 16 R385;
18 R420 to R437). -/

namespace Sys2Proof.Machine

/-! ## The duplicate filter (18 R429) -/

/-- The highest number seen of a source package. -/
def State.highSeen (s : State) (src : Nat) : Option Nat :=
  (s.pkg.seen.filter (fun e => decide (e.1 = src))).foldl (fun h e => match h with
    | none => some e.2.1
    | some m => if serialAfter e.2.1 m then some e.2.1 else some m) none

/-- What the filter makes of a request. -/
inductive Filter where
  | perform
  | drop
  | again (a : FabPkt)
deriving DecidableEq, Repr

/-- The decision on number `n` of a source. Marks: 0 unseen, 1 in progress, 2 done with its answer. -/
def State.filter (s : State) (src n : Nat) : Filter :=
  match s.highSeen src with
  | none => .perform
  | some h =>
    if serialAfter n h then .perform
    else if 1024 ≤ (h + 2 ^ 32 - n % 2 ^ 32) % 2 ^ 32 then .drop
    else
      match s.pkg.seen.find? (fun e => decide (e.1 = src ∧ e.2.1 = n)) with
      | none => .perform
      | some (_, _, m, a) => if m = 0 then .perform else if m = 1 then .drop else .again a

/-- Set a mark; numbers that fall out of the window are forgotten. -/
def State.mark (s : State) (src n m : Nat) (a : FabPkt) : State :=
  let s1 := s.modPkg (fun g => { g with seen := (g.seen.filter (fun e => !decide (e.1 = src ∧ e.2.1 = n))) ++ [(src, n, m, a)] })
  let h := (s1.highSeen src).getD n
  let near (e : Nat) : Bool := decide ((h + 2 ^ 32 - e % 2 ^ 32) % 2 ^ 32 < 1024)
  s1.modPkg (fun g => { g with seen := g.seen.filter (fun e => decide (e.1 ≠ src) || near e.2.1),
                               kept := g.kept.filter (fun a => decide (a.tgtNode ≠ src) || near a.eseq) })

/-- An answer leaves for its source. -/
def State.emitPkt (s : State) (a : FabPkt) : State := s.modPkg (fun g => { g with outbox := g.outbox ++ [a] })

/-- The answer to a request of this package's partition, with its window. -/
def State.answerTo (s : State) (q : FabPkt) (cause : Cause) (data : List Byte) : FabPkt := answerPkt q cause (s.part q.tgtPart).epoch data

/-- A refused request: nothing was done, and its number is unseen. -/
def State.rejectPkt (s : State) (q : FabPkt) (cause : Cause) (opnd : BitVec 128 := 0) : State :=
  (s.mark q.srcNode q.eseq 0 q).emitPkt { s.answerTo q cause [] with opc := 0x12, opnd := opnd }

/-- NOTYET: the number is unseen, and the source sends it again. -/
def State.notYet (s : State) (q : FabPkt) : State :=
  (s.mark q.srcNode q.eseq 0 q).emitPkt { s.answerTo q 0 [] with opc := 0x13 }

/-! ## Performance at the target (10 R234; 18 R432) -/

/-- The target's own checks of a request, with the rights of user mode (log 38): the locations, or the cause with the locations whose
error was met. `cell` asks for an exact cell's space, `fe` refuses HOST, and `rd` says that the data is consumed (10 R217). -/
def State.remLocs (s : State) (q : FabPkt) (size need al : Nat) (cell fe rd : Bool) : Except (Cause × List Nat) (List Nat) :=
  let w : Who := { clu := s.firstClu q.tgtPart, part := q.tgtPart, sup := false, thread := false }
  match s.resolve w (remPtr q) size need with
  | .error e => .error (e.code, [])
  | .ok (.table e off) =>
    if (remPtr q).toNat % al ≠ 0 then .error (Cause.misaligned, [])
    else if e.space = 3 ∨ e.space = 5 ∨ (cell ∧ e.space ≠ 4) ∨ (fe ∧ e.space = 2) then .error (Cause.atomicUnsupported, [])
    else
      match s.xlateRange w.clu w.part (decide (e.space = 2)) false need (e.base + off) size with
      | .error k => .error (k, [])
      | .ok segs =>
        match s.errAt (spanAll segs) with
        | some k => if rd then .error (k, spanAll segs) else .ok (spanAll segs)
        | none => .ok (spanAll segs)
  | .ok _ => .error (Cause.atomicUnsupported, [])

/-- How a request ends at its place. `bad` has the locations whose error it met. -/
inductive Perf where
  | ok (s : State) (data : List Byte)
  | bad (cause : Cause) (met : List Nat)
  | later (s : State)
  | kept (s : State)

/-- The thread of this package that made a request to it. -/
def State.ownMaker (s : State) (q : FabPkt) : Option Nat :=
  if q.srcNode ≠ s.pkg.node then none
  else ((s.pkg.outst.find? (fun o => decide (o.eseq = q.eseq ∧ o.pkt.tgtNode = q.tgtNode))).bind (·.ctx)).filter (fun c => decide (c < 2 ^ 15))

/-- The lines of a thread's own request, before it is performed: what the thread and its cluster have written of them is written
first, and the cluster's copies go, so that no read of the thread returns less than the request did (11 R240). -/
def State.ownFirst (s : State) (q : FabPkt) (ls : List Nat) : Option State :=
  match s.ownMaker q with
  | none => some s
  | some c =>
    (s.flushLines c (linesOf ls)).map (fun s => s.modClu (cluOf c) (fun k => { k with
      cache := k.cache.filter (fun p => !(decide (p.1 ∈ linesOf ls) && !p.2.through)) }))

/-- A request that passes the target's checks is performed at its place; it waits while a DRAM channel is in training (19 R446). -/
def State.remPlace (s : State) (q : FabPkt) (size need al : Nat) (cell fe rd : Bool) (go : State → List Nat → Perf) : Perf :=
  match s.remLocs q size need al cell fe rd with
  | .error k => .bad k.1 k.2
  | .ok ls =>
    if ls.any s.channelBusy then .later s
    else
      match s.ownFirst q ls with
      | none => .later s
      | some s1 => go (if rd then s1.correct ls else s1) ls

/-- Whether a write to some locations must wait at its place (10 R226, R236). -/
def State.writeHeld (s : State) (ls : List Nat) (who : Nat := noCtx) : Bool := (linesOf ls).any (fun l => s.lockedFor l who)

/-- The writer that a peer's request is. -/
def peerWriter (q : FabPkt) : Writer := { key := some (peerKey q.srcNode q.eseq) }

/-- A write that waits asks for its lines and comes again. -/
def State.comeAgain (s : State) (q : FabPkt) (ls : List Nat) : Perf := .later (s.askWrites (peerWriter q) (linesOf ls))

/-- The alignment of a request of `n` bytes (10 R217): only plain loads and stores through a PEER handle need none. -/
def remAlign (q : FabPkt) (n : Nat) : Nat := if q.opc = opcRld ∨ q.opc = opcRst then n else 1

/-- A read. -/
def State.remRead (s : State) (q : FabPkt) (n : Nat) : Perf :=
  s.remPlace q n needR (remAlign q n) false false true (fun s ls => .ok s (s.bytesAt ls))
/-- A write of bytes. -/
def State.remWrite (s : State) (q : FabPkt) (bs : List Byte) : Perf :=
  s.remPlace q bs.length needW (remAlign q bs.length) false false false (fun s ls =>
    if s.writeHeld ls then s.comeAgain q ls else .ok (s.place (peerWriter q) (ls.zip bs)) [])

/-- A full-empty operation. -/
def State.remFe (s : State) (q : FabPkt) (m : FeMode) : Perf :=
  s.remPlace q 8 ((if m.loads then needR else needW) + needF) 8 false true m.loads (fun s ls =>
    let l := ls.headD 0
    let r : FeReq := { ctx := peerKey q.srcNode q.eseq, loc := l, mode := m, data := q.opnd.setWidth 64, remote := some q }
    if m.writes && s.writeHeld ls then s.comeAgain q ls
    else if m.ready (s.isFull l) then
      let (v, s1) := s.fePerform (peerWriter q) l m r.data
      .ok (s1.serveWords [l]) (if m.loads then leBytes 8 v.toNat else [])
    else
      let k := s.placeClu l
      if (s.clu k).retry.length < 256 then .kept (s.modClu k (fun u => { u with retry := u.retry ++ [r] })) else .later s)

/-- A `WAITRS` at its place (10 R227): the value where it differs from the expected one or the place holds its 64 watches; else a
watch. -/
def State.remWatch (s : State) (q : FabPkt) (n : Nat) : Perf :=
  s.remPlace q n (needR + needF) n false true true (fun s ls =>
    let l := ls.headD 0
    if leNat (s.bytesAt ls) ≠ q.opnd.toNat % 2 ^ (8 * n) ∨ 64 ≤ s.watchCount l then .ok s (s.bytesAt ls)
    else .kept (s.modDir (lineOf l) (fun e => { e with
      watches := e.watches ++ [{ ctx := peerKey q.srcNode q.eseq, loc := l, z := q.sz, remote := some q }] })))

/-- An atomic: what it writes, if it writes, from the old value, or a cause; and the answer. -/
def State.remAtomic (s : State) (q : FabPkt) (n need : Nat) (cell : Bool) (f : Nat → Except Cause (Option Nat × List Byte)) : Perf :=
  s.remPlace q n need n cell false true (fun s ls =>
    match f (leNat (s.bytesAt ls)) with
    | .error k => .bad k []
    | .ok (none, d) => .ok s d
    | .ok (some v, d) => if s.writeHeld ls then s.comeAgain q ls else .ok (s.place (peerWriter q) (ls.zip (leBytes n v))) d)

/-- The number under which a context of another package stands in a line's queue and holds its lock (10 R226): above every
context's of this one. -/
def farCtx (node c : Nat) : Nat := 2 ^ 16 + node * 2 ^ 15 + c

/-- The turn of a peer's `LR` after a failed `SC` of its line, as of a context of this package (10 R226). -/
def State.farTurn (s : State) (key line : Nat) : Bool × State :=
  if (key, line) ∉ s.rfailed ∨ (s.dirAt line).lock = some key then (true, s)
  else
    let s1 := s.modDir line (fun d => { d with lrq := if key ∈ d.lrq then d.lrq else d.lrq ++ [key] })
    let d := s1.dirAt line
    if d.lrq.head? = some key ∧ d.lock = none then
      (true, { s1.modDir line (fun d => { d with lrq := d.lrq.drop 1, lock := some key }) with rfailed := s1.rfailed.filter (fun r => decide (r ≠ (key, line))) })
    else (false, s1)

/-- `LR` of a context of another package (10 R215, R225, R226): the reservation stands at the place. -/
def State.remLr (s : State) (q : FabPkt) (n : Nat) : Perf :=
  let c := q.opnd.toNat / 2 ^ 64 % 2 ^ 16
  s.remPlace q n needA n false false true (fun s ls =>
    let line := lineOf (ls.headD 0)
    match s.farTurn (farCtx q.srcNode c) line with
    | (false, s1) => .later s1
    | (true, s1) =>
      .ok { s1 with rresv := s1.rresv.filter (fun r => !decide (r.1 = q.srcNode ∧ r.2.1 = c)) ++ [(q.srcNode, c, line)] } (s1.bytesAt ls))

/-- `SC` of a context of another package: one that fails makes the next `LR` of its line queue. Bit 16 of the context's field says
that the context holds a reservation of the pointer and the size (log 30). -/
def State.remSc (s : State) (q : FabPkt) (n : Nat) : Perf :=
  let c := q.opnd.toNat / 2 ^ 64 % 2 ^ 16
  let key := farCtx q.srcNode c
  s.remPlace q n needA n false false false (fun s ls =>
    let line := lineOf (ls.headD 0)
    if s.writeHeld ls key then s.comeAgain q ls
    else
      let ok := bitOf q.opnd 80 && decide ((q.srcNode, c, line) ∈ s.rresv)
      let s1 : State := { s with rresv := s.rresv.filter (fun r => !decide (r.1 = q.srcNode ∧ r.2.1 = c)),
                                 rfailed := s.rfailed.filter (fun r => decide (r ≠ (key, line))) ++ (if ok then [] else [(key, line)]) }
      let s2 := if ok then s1.place (peerWriter q) (ls.zip (leBytes n (q.opnd.toNat % 2 ^ (8 * n)))) else s1
      .ok (if (s.dirAt line).lock = some key then s2.unlock line else s2) (leBytes 8 (if ok then 0 else 1)))

/-- RAMO: the operations of `AMO`; `CAS` 9, `RED` 10, `XSRD` 11, `XSRD.clr` 12, `LR` 13 and `SC` 14 through a PEER handle
(log 30). -/
def State.remAmo (s : State) (q : FabPkt) : Perf :=
  let n := szBytes q.sz
  let a := q.opnd.toNat % 2 ^ 64
  let b := q.opnd.toNat / 2 ^ 64
  if q.mop ≤ 8 then
    s.remAtomic q n needA false (fun old => .ok (some (amoValue q.mop (8 * n) old (a % 2 ^ (8 * n))), leBytes n old))
  else if q.mop = 9 then
    s.remAtomic q n needA false (fun old => .ok (if old = b % 2 ^ (8 * n) then some (a % 2 ^ (8 * n)) else none, leBytes n old))
  else if q.mop = 10 then
    s.remAtomic q 64 needA true (fun old =>
      match xsAdd (BitVec.ofNat 512 old) (elemValue (b % 2 ^ 8) a) (b % 2 ^ 8) with
      | none => .error Cause.xcellFormat
      | some w => .ok (some w.toNat, []))
  else if q.mop ≤ 12 then
    s.remAtomic q 64 (if q.mop = 12 then needR + needW else needR) true (fun old =>
      let r := xsRead (BitVec.ofNat 512 old) (a % 2 ^ 8) (a / 2 ^ 8 % 8)
      .ok (if q.mop = 12 then some 0 else none, leBytes 8 r.1 ++ leBytes 8 r.2.toNat))
  else if q.mop = 13 then s.remLr q n
  else s.remSc q n

/-- RCALL: the call goes to the core of the named line's home channel. The target acknowledges it, and keeps the reply apart until
the caller's port acknowledges that (15 R351; 18 R429). -/
def State.remCall (s : State) (q : FabPkt) : Perf :=
  let w : Who := { clu := s.firstClu q.tgtPart, part := q.tgtPart, sup := false, thread := false }
  match s.resolve w (remPtr q) 1 needR with
  | .error e => .bad e.code []
  | .ok (.table e off) =>
    if e.space ≠ 1 then .bad Cause.rpcTarget []
    else
      match s.xlate w.clu w.part false false needR (e.base + off) with
      | .error k => .bad k []
      | .ok l =>
        let core := homeCore (s.part q.tgtPart) (l % 2 ^ 40)
        let word (i : Nat) : Word := BitVec.ofNat 64 (numAt q.data (8 * i) 8)
        let t := s.pkg.nextToken
        let m : Msg := { id := s.nextMsg, src := 16 * core, dst := 16 * core, tag := false,
                         body := .rcall core q.tgtPart (word 6) ((List.range 6).map word) t 3 (some q) }
        .ok (({ s with nextMsg := s.nextMsg + 1, net := s.net ++ [m] } : State).modPkg (fun g => { g with nextToken := t + 1 })) []
  | .ok _ => .bad Cause.rpcTarget []

/-! ## Reductions at the root (18 R435 to R437) -/

/-- xs_merge (18 R436): none for XCELL_FORMAT. -/
def xsMerge (d s : BitVec 512) : Option (BitVec 512) :=
  if xsTag s ≠ 0 ∧ xsTag d ≠ 0 ∧ xsTag s ≠ xsTag d then none
  else
    let big := xsFlag s 3 || decide (2 ^ 48 - 1 < xsCount d + xsCount s)
    let fl := ((bitsAt d 496 8 ||| (bitsAt s 496 8 &&& 7)) ||| (if big then 8 else 0))
    some (xsCell (xsAcc d + xsAcc s) (if big then xsCount d else xsCount d + xsCount s) fl (if xsTag d = 0 then xsTag s else xsTag d))

/-- The locations of some bytes of a reduction object: its handle must be of SPACE XCELL. -/
def State.redLocs (s : State) (part hidx off n : Nat) : Option (List Nat) :=
  let w : Who := { clu := s.firstClu part, part := part, sup := false, thread := false }
  let ptr : Word := BitVec.ofNat 64 (hidx * 2 ^ 52 + off)
  match s.resolve w ptr n needA with
  | .ok (.table e o) =>
    if e.space ≠ 4 then none
    else
      match s.xlateRange w.clu part false false needA (e.base + o) n with
      | .ok segs => some (spanAll segs)
      | .error _ => none
  | _ => none

/-- A number of a reduction object. -/
def State.redN (s : State) (part hidx off n : Nat) : Nat :=
  match s.redLocs part hidx off n with
  | some ls => leNat (s.bytesAt ls)
  | none => 0

/-- Write a number of a reduction object. -/
def State.redPut (s : State) (part hidx off n v : Nat) : State :=
  match s.redLocs part hidx off n with
  | some ls => s.place {} (ls.zip (leBytes n v))
  | none => s

/-- The nodes of a map. -/
def mapNodes (m : Nat) : List Nat := (List.range 2048).filter (fun n => decide (m / 2 ^ n % 2 = 1))

/-- The round record of an object. -/
def State.roundOf (s : State) (part hidx : Nat) : Round :=
  (s.pkg.rounds.find? (fun r => decide (r.part = part ∧ r.hidx = hidx))).getD { part := part, hidx := hidx }

/-- Replace a round record. -/
def State.setRound (s : State) (r : Round) : State :=
  s.modPkg (fun g => { g with rounds := g.rounds.filter (fun q => !decide (q.part = r.part ∧ q.hidx = r.hidx)) ++ [r] })

/-- The request of a contributor, as far as its answer needs it. -/
def State.sharePkt (s : State) (part hidx : Nat) (w : Nat × Nat × Nat) (epoch : Nat := 0) : FabPkt :=
  { cls := 0, opc := 0x09, detour := false, vc := 0, tgtNode := s.pkg.node, tgtPart := part, srcNode := w.1, srcPart := w.2.1,
    eseq := w.2.2, rev := 0, cap := BitVec.ofNat 128 (hidx * 2 ^ 100 + epoch % 2 ^ 8 * 2 ^ 84), off := 0, opnd := 0, mop := 0, sz := 0, cause := 0,
    floor := 0, cur := 0, data := [] }

/-- EINFO of REDUCTION_INCOMPLETE. -/
def State.missInfo (s : State) (part hidx : Nat) : Nat :=
  let ns := mapNodes (s.redN part hidx 576 256)
  ns.headD 0 % 2 ^ 11 + ns.length % 2 ^ 11 * 2 ^ 12 + s.redN part hidx 0 8 % 2 ^ 32 * 2 ^ 32

/-- Every listed contributor is answered with a cause. -/
def State.refuseShares (s : State) (part hidx : Nat) (ws : List (Nat × Nat × Nat)) (cause : Cause) (info : Nat) : State :=
  ws.foldl (fun s w => s.emitPkt { s.answerTo (s.sharePkt part hidx w) cause [] with opc := 0x12, opnd := BitVec.ofNat 128 info }) s

/-- Merge some cells into an object's cells from byte `off` on: none where a format clashes. -/
def State.mergeCells (s : State) (part hidx off : Nat) (cells : List (BitVec 512)) : Option (List (Nat × BitVec 512)) :=
  (cells.zipIdx).foldr (fun c acc => match acc, xsMerge (BitVec.ofNat 512 (s.redN part hidx (off + 64 * c.2) 64)) c.1 with
    | some l, some w => some ((off + 64 * c.2, w) :: l)
    | _, _ => none) (some [])

/-- Write merged cells. -/
def State.putCells (s : State) (part hidx : Nat) (l : List (Nat × BitVec 512)) : State :=
  l.foldl (fun s c => s.redPut part hidx c.1 64 c.2.toNat) s

/-- A contribution at the root, once (18 R437): the state, and the contributions to look at again when a round closes. -/
def State.contributeOne (s : State) (c : Contribution) : State × List Contribution :=
  let p := c.part
  let h := c.hidx.toNat
  let ncell := s.redN p h 10 2
  let cmask := s.redN p h 64 256
  let amap := s.redN p h 320 256
  let st := s.redN p h 8 1
  let nodes := c.who.map (·.1)
  let mine := nodes.foldl (fun m n => m ||| 2 ^ n) 0
  let r := s.roundOf p h
  if (s.redLocs p h 0 (1024 + 128 * ncell)).isNone ∨ ncell < c.first + c.cells.length ∨ mine &&& cmask ≠ mine then
    (s.refuseShares p h c.who Cause.handleBounds 0, [])
  else if st % 2 = 1 then (s.refuseShares p h c.who Cause.reductionIncomplete (s.missInfo p h), [])
  else if mine &&& amap ≠ 0 then (s.setRound { r with waiting := r.waiting ++ [c] }, [])
  else
    let stg := 1024 + 64 * ncell
    let s1 := if st / 2 % 2 = 1 then s
      else (List.range ncell).foldl (fun s j => s.redPut p h (stg + 64 * j) 64 0) ((s.redPut p h 8 1 2).setRound { r with came := [] })
    match s1.mergeCells p h (stg + 64 * c.first) c.cells with
    | none => (s1.refuseShares p h c.who Cause.xcellFormat 0, [])
    | some l =>
      let r1 := s1.roundOf p h
      let s2 := ((s1.putCells p h l).redPut p h 320 256 (amap ||| mine)).setRound { r1 with came := r1.came ++ c.who }
      if amap ||| mine ≠ cmask then (s2, [])
      else
        let came := r1.came ++ c.who
        let sums := (List.range ncell).map (fun j => BitVec.ofNat 512 (s2.redN p h (stg + 64 * j) 64))
        let s3 := ((s2.redPut p h 320 256 0).redPut p h 8 1 0).setRound { r1 with came := [], waiting := [] }
        match s2.mergeCells p h 1024 sums with
        | none => (s3.refuseShares p h came Cause.xcellFormat 0, r1.waiting)
        | some l =>
          let s4 := (s3.putCells p h l).redPut p h 0 8 (s3.redN p h 0 8 + 1)
          (came.foldl (fun s w => s.emitPkt (s.answerTo (s.sharePkt p h w) 0 [])) s4, r1.waiting)

/-- A contribution, and then those that were held for the round that it closed. -/
def State.contributeAll : Nat → State → List Contribution → State
  | 0, s, _ => s
  | _, s, [] => s
  | fuel + 1, s, c :: r => let (s1, l) := s.contributeOne c; State.contributeAll fuel s1 (r ++ l)

/-- A round fails (18 R437). -/
def State.failRound (s : State) (p h : Nat) : State :=
  if s.redN p h 8 1 / 2 % 2 = 0 then s
  else
    let r := s.roundOf p h
    let cmask := s.redN p h 64 256
    let amap := s.redN p h 320 256
    let s1 := (((s.redPut p h 576 256 (cmask ^^^ (cmask &&& amap))).redPut p h 320 256 0).redPut p h 8 1 1).setRound
      { r with came := [], waiting := [] }
    let s2 := s1.refuseShares p h r.came Cause.reductionIncomplete (s1.missInfo p h)
    State.contributeAll (r.waiting.length + 1) s2 r.waiting

/-- The contributors of an object that an open round still misses. -/
def State.missing (s : State) (p h : Nat) : List Nat := mapNodes (s.redN p h 64 256 ^^^ (s.redN p h 64 256 &&& s.redN p h 320 256))

/-- An open round that misses a contributor without a path to the root fails (18 R437). -/
def State.roundCheck (s : State) (p h : Nat) : State :=
  if s.redN p h 8 1 / 2 % 2 = 1 ∧ (s.missing p h).any (fun n => !s.reaches 80 n s.pkg.node false) then s.failRound p h else s

/-- The same for every object. -/
def State.roundsCheck (s : State) : State := s.pkg.rounds.foldl (fun s r => s.roundCheck r.part r.hidx) s

/-- A contribution comes in. -/
def State.contribution (s : State) (c : Contribution) : State :=
  (State.contributeAll ((s.roundOf c.part c.hidx.toNat).waiting.length + 2) s [c]).roundCheck c.part c.hidx.toNat

/-- The OPND of a REJECT for a revision: the current one and its masks (18 R431). -/
def State.revOpnd (s : State) : BitVec 128 :=
  let own := s.ownRev
  BitVec.ofNat 128 (own.rev.toNat + own.ops.toNat * 2 ^ 32 + own.fmts.toNat * 2 ^ 48)

/-- REDUCTION_CONTRIBUTION (18 R436, R437): a contribution, merged on its way or not, arrives at the root. One that lists an
answered number has its answers sent again and is dropped. The revision and the epoch window are checked as of any request (18
R432). -/
def execReductionContribution (c : Contribution) (s : State) : Host.Outcome State Fault Refusal :=
  goes (
    let pkt (w : Nat × Nat × Nat) : FabPkt := s.sharePkt c.part c.hidx.toNat w c.epoch
    if c.who.all (fun w => decide (s.filter w.1 w.2.2 = .perform)) then
      if c.rev ≠ s.ownRev.rev then c.who.foldl (fun s w => s.rejectPkt (pkt w) Cause.remoteOpUnsupported s.revOpnd) s
      else if !epochValid (s.part c.part).epoch c.epoch then c.who.foldl (fun s w => s.rejectPkt (pkt w) Cause.capRevoked) s
      else (c.who.foldl (fun s w => s.mark w.1 w.2.2 1 (pkt w)) s).contribution c
    else
      c.who.foldl (fun s w => match s.filter w.1 w.2.2 with
        | .again a => s.emitPkt a
        | _ => s) s)

/-- REDUCTION_ROUND_FAIL (18 R437): the remote limit has passed since the round opened. -/
def execReductionRoundFail (part : Nat) (hidx : BitVec 12) (s : State) : Host.Outcome State Fault Refusal :=
  goes (s.failRound part hidx.toNat)

/-- A whole contribution from its parts. -/
def shareWhole (part : Nat) (hidx : BitVec 12) (l : List Share) : Contribution :=
  let n := (l.headD { node := 0, part := 0, eseq := 0, count := 0, idx := 0, card := 0, first := 0, cells := [] }).count
  let of (i : Nat) : Option Share := l.find? (fun x => decide (x.idx = i))
  { part := part, hidx := hidx, who := l.map (fun x => (x.node, x.part, x.eseq)), first := ((of 0).map (·.first)).getD 0,
    cells := (List.range n).flatMap (fun i => ((of i).map (·.cells)).getD []) }

/-- A REDUCE request: a part of its contribution, which comes in when it is whole (18 R423, R435; log 31). -/
def State.remReduce (s : State) (q : FabPkt) : Perf :=
  let off := capBase q.cap + q.off.toNat
  if off < 1024 ∨ off % 64 ≠ 0 ∨ q.data.length % 64 ≠ 0 then .bad Cause.handleBounds []
  else
    let x : Share := { node := q.srcNode, part := q.srcPart, eseq := q.eseq, count := q.opnd.toNat % 2 ^ 16, idx := q.opnd.toNat / 2 ^ 16 % 2 ^ 16,
                       card := q.opnd.toNat / 2 ^ 64, first := (off - 1024) / 64,
                       cells := (List.range (q.data.length / 64)).map (fun i => BitVec.ofNat 512 (numAt q.data (64 * i) 64)) }
    let r := s.roundOf q.tgtPart (capHidx q.cap)
    let mine (y : Share) : Bool := decide (y.node = x.node ∧ y.part = x.part ∧ y.card = x.card)
    let all := r.parts.filter mine ++ [x]
    if all.length < x.count then .kept (s.setRound { r with parts := r.parts ++ [x] })
    else .kept ((s.setRound { r with parts := r.parts.filter (fun y => !mine y) }).contribution
      (shareWhole q.tgtPart (BitVec.ofNat 12 (capHidx q.cap)) all))

/-! ## Ingress (18 R429, R431, R432; 16 R385) -/

/-- A request performed at its place. -/
def State.perform (s : State) (q : FabPkt) : Perf :=
  if q.opc = opcRld ∧ q.mop ≤ 2 then (if q.mop = 0 then s.remRead q (szBytes q.sz) else s.remFe q (if q.mop = 1 then .read else .take))
  else if q.opc = opcRld ∧ q.mop = watchMode then s.remWatch q (szBytes q.sz)
  else if q.opc = opcRead then s.remRead q (szBytes q.sz)
  else if q.opc = opcRst ∧ q.mop ≤ 3 then
    (if q.mop = 0 then s.remWrite q (leBytes (szBytes q.sz) q.opnd.toNat)
     else s.remFe q (if q.mop = 1 then .put else if q.mop = 2 then .fill else .clear))
  else if q.opc = opcWrite ∨ q.opc = 0x08 then s.remWrite q q.data
  else if q.opc = opcRamo ∧ q.mop ≤ 14 then s.remAmo q
  else if q.opc = 0x06 then s.remCall q
  else if q.opc = 0x07 then (match s.haloArrive q with | .later s1 => .later s1 | .ok s1 => .ok s1 [] | .bad k => .bad k [])
  else if q.opc = 0x09 then s.remReduce q
  else .bad Cause.illegalOpcode []

/-- The kept reply to a call that is sent again (15 R351). -/
def State.keptReply (s : State) (q : FabPkt) : State :=
  (s.pkg.kept.filter (fun a => decide (a.tgtNode = q.srcNode ∧ a.eseq = q.eseq))).foldl (fun s a => s.emitPkt a) s

/-- A request arrives at its target package. -/
def State.ingress (s : State) (q : FabPkt) : State :=
  match s.filter q.srcNode q.eseq with
  | .drop => s
  | .again a => (s.emitPkt a).keptReply q
  | .perform =>
    if q.rev ≠ s.ownRev.rev then s.rejectPkt q Cause.remoteOpUnsupported s.revOpnd
    else if !epochValid (s.part q.tgtPart).epoch (capEpoch q.cap) then s.rejectPkt q Cause.capRevoked
    else
      let s1 := s.mark q.srcNode q.eseq 1 q
      match s1.perform q with
      | .ok s2 d => s2.emitPkt (s2.answerTo q 0 d)
      | .kept s2 => s2
      | .bad k met => (s1.errMet met).rejectPkt q k
      | .later s2 => s2.notYet q

/-- FABRIC_REQUEST_INGRESS. -/
def execFabricRequestIngress (q : FabPkt) (s : State) : Host.Outcome State Fault Refusal :=
  goes (if q.tgtNode = s.pkg.node ∧ q.cls ≠ 1 then s.ingress q else s)

/-! ## Answers (10 R234, R235; 18 R428, R431, R432) -/

/-- What an answer teaches the egress: the target's window, and a new revision. -/
def State.learn (s : State) (a : FabPkt) : State :=
  let s1 := if a.opc = 0x14 then s
    else s.modPkg (fun g => { g with windows := g.windows.filter (fun w => !decide (w.1 = a.srcNode ∧ w.2.1 = a.srcPart)) ++
      [(a.srcNode, a.srcPart, BitVec.ofNat 16 (a.cur.toNat + a.floor.toNat * 2 ^ 8))] })
  if a.opc = 0x12 ∧ a.cause = Cause.remoteOpUnsupported then
    let r : Rev := { rev := BitVec.ofNat 32 a.opnd.toNat, ops := BitVec.ofNat 16 (a.opnd.toNat / 2 ^ 32), fmts := BitVec.ofNat 32 (a.opnd.toNat / 2 ^ 48) }
    s1.modPkg (fun g => { g with revs := SMap.put g.revs a.srcNode r })
  else s1

/-- The fault that a refusal makes at the source. A member of a multicast that refuses or cannot be reached abandons its packet with
REMOTE_UNREACHABLE whatever its cause (18 R434). -/
def refusal (o : Outst) (a : FabPkt) : Exc :=
  let many := o.pk.isSome && decide (o.pkt.opc = 0x08 ∨ o.pkt.opc = opcWrite) && capMulti o.pkt.cap
  if a.opc = 0x14 then { code := Cause.remoteUnreachable }
  else if !many && decide (a.cause = Cause.capRevoked ∨ a.cause = Cause.remoteOpUnsupported) then { code := a.cause }
  else { code := Cause.remoteUnreachable, info := BitVec.ofNat 64 (64 + a.cause.toNat) }

/-- The reply that an answer gives a thread. -/
def threadReply (o : Outst) (a : FabPkt) (ptr : Word) : Reply :=
  if a.opc = 0x12 ∨ a.opc = 0x14 then
    (if o.pkt.opc = 0x06 ∧ a.opc = 0x12 ∧ a.cause ≠ Cause.capRevoked ∧ a.cause ≠ Cause.remoteOpUnsupported then callReply [] (some a.cause)
     else { exc := some { refusal o a with addr := ptr } })
  else if o.pkt.opc = 0x06 then callReply ((List.range 6).map (fun i => BitVec.ofNat 64 (numAt a.data (8 * i) 8))) none
  else if o.pkt.opc = opcRamo ∧ o.pkt.mop = 14 then { writes := [(o.reg, BitVec.ofNat 64 (a.opnd.toNat % 2))] }
  else if o.pkt.opc = opcRamo ∧ (o.pkt.mop = 11 ∨ o.pkt.mop = 12) then
    { writes := [(o.reg, placeCode (o.pkt.opnd.toNat % 2 ^ 8) (a.opnd.toNat % 2 ^ 64))], flags := BitVec.ofNat 5 (a.opnd.toNat / 2 ^ 64), acq := o.acq }
  else if o.pkt.opc = opcRld ∨ o.pkt.opc = opcRead ∨ o.pkt.opc = opcRamo then
    { writes := [(o.reg, extend o.sz (a.opnd.toNat % 2 ^ (8 * szBytes o.sz)))], acq := o.acq }
  else { acq := o.acq }

/-- The answer to a step of a vector access: the thread keeps it, and its instruction goes on with the next (18 R433). -/
def State.elemReply (s : State) (o : Outst) (a : FabPkt) (r : Reply) : State × Reply :=
  match o.ctx, o.elem, r.exc with
  | some c, some k, none =>
    if (s.ctx c).wait.any (fun w => decide (w.why = .remote o.eseq) && w.reply.isNone) then
      (s.noteElem c k (a.opnd.toNat % 2 ^ (8 * szBytes o.sz)) false, { again := true })
    else (s, r)
  | _, _, _ => (s, r)

/-- A thread that waits for the answer `n` gets its reply: in its slot, or, under its own key, spilled (15 R361). -/
def State.replyTo (s : State) (c n : Nat) (r : Reply) : State :=
  let put (x : Ctx) : Ctx := if x.wait.any (fun w => decide (w.why = .remote n) && w.reply.isNone) then
      { x with wait := x.wait.map (fun w => { w with reply := some r }) } else x
  if c < 2 ^ 20 then s.modCtx c put else s.modThread (c - 2 ^ 20) put

/-- The copy that the cluster of a thread's own request may have taken of its line goes (11 R240). -/
def State.ownCopyGone (s : State) (o : Outst) : State :=
  match o.ctx with
  | none => s
  | some c =>
    if o.pkt.tgtNode ≠ s.pkg.node ∨ 2 ^ 15 ≤ c then s
    else
      match s.remLocs o.pkt 1 0 1 false false false with
      | .error _ => s
      | .ok ls => s.modClu (cluOf c) (fun k => { k with cache := k.cache.filter (fun p => !(decide (p.1 ∈ linesOf ls) && !p.2.through)) })

/-- An outstanding request ends for whoever made it: a thread, a buffered store, a matrix command's element, a copy packet or a
grid. -/
def State.endRequest (s : State) (o : Outst) (r : Reply) (data : List Byte) (fail : Option (Exc × Option Word)) : State :=
  let s0 := (s.modPkg (fun g => { g with outst := g.outst.erase o })).ownCopyGone o
  match o.ctx, o.pk, o.halo with
  | some c, _, _ => s0.replyTo c o.eseq r
  | none, some id, _ => (match fail with
    | none => s0
    | some (e, info) => s0.abandonPk id e.code info)
  | none, none, some (gid, peer, _) => (match fail with
    | none => s0
    | some (e, _) => s0.peerLost gid peer e.code)
  | none, none, none =>
    match o.store, o.mat, fail with
    | some (tid, _), _, some (e, _) => s0.storeLost tid { e with addr := BitVec.ofNat 64 ((o.via.getD 0) * 2 ^ 52 + o.pkt.off.toNat) }
    | none, some (k, t, ptr), _ =>
      if (s0.mat k).queue.any (fun c => decide (c.ticket = t)) then
        s0.modMat k (fun m => { m with far := m.far ++ [⟨t, ptr, (fail.map (·.1.code)).getD 0, data⟩] })
      else s0
    | _, _, _ => s0

/-- The acknowledgement of a call's reply by the caller's port (15 R351): an ACK whose OPND is 1 (log 37). -/
def State.callAck (s : State) (a : FabPkt) : FabPkt :=
  { a with opc := 0x11, opnd := 1, cause := 0, tgtNode := a.srcNode, tgtPart := a.srcPart, srcNode := a.tgtNode, srcPart := a.tgtPart, data := [],
           cur := BitVec.ofNat 8 (s.part a.tgtPart).epoch.toNat, floor := BitVec.ofNat 8 ((s.part a.tgtPart).epoch.toNat / 2 ^ 8) }

/-- Whether a packet acknowledges a call's reply. -/
def isCallAck (a : FabPkt) : Bool := decide (a.cls = 1 ∧ a.opc = 0x11 ∧ a.opnd = 1)

/-- An answer arrives at the source: one that nothing expects is dropped; NOTYET leaves the request outstanding, and so does the ACK
of a call, whose reply is still to come; a window only teaches. -/
def State.response (s : State) (a : FabPkt) : State :=
  let s1 := s.learn a
  if a.opc = 0x15 then s1
  else if isCallAck a then s1.modPkg (fun g => { g with kept := g.kept.filter (fun k => !decide (k.tgtNode = a.srcNode ∧ k.eseq = a.eseq)) })
  else
    match s1.pkg.outst.find? (fun o => decide (o.eseq = a.eseq ∧ o.pkt.tgtNode = a.srcNode)) with
    | none => s1
    | some o =>
      if a.opc = 0x13 then s1
      else if o.pkt.opc = 0x06 ∧ a.opc = 0x11 then
        s1.modPkg (fun g => { g with outst := g.outst.map (fun p => if p = o then { p with acked := true } else p) })
      else
        let s2 := if o.pkt.opc = 0x06 ∧ o.acked then s1.emitPkt (s1.callAck a) else s1
        let fail : Option (Exc × Option Word) :=
          if a.opc = 0x12 ∧ a.cause = Cause.reductionIncomplete ∧ o.pkt.opc = 0x09 then
            some ({ code := Cause.reductionIncomplete }, some (a.opnd.setWidth 64))
          else if a.opc = 0x12 ∨ a.opc = 0x14 then some (refusal o a, none) else none
        let r := s2.elemReply o a (threadReply o a (match o.ctx with | none => 0 | some c => s2.waitPtr c))
        r.1.endRequest o r.2 (leBytes (szBytes o.sz) a.opnd.toNat) fail

/-- FABRIC_RESPONSE. A window update of this package's own partition leaves for its target (16 R385; 18 R422). -/
def execFabricResponse (a : FabPkt) (s : State) : Host.Outcome State Fault Refusal :=
  goes (
    if a.opc = 0x15 ∧ a.srcNode = s.pkg.node ∧ a.tgtNode ≠ s.pkg.node then
      let win := (s.part a.srcPart).epoch
      s.emitPkt { a with cls := 1, cur := BitVec.ofNat 8 win.toNat, floor := BitVec.ofNat 8 (win.toNat / 2 ^ 8), opnd := 0, data := [] }
    else if a.tgtNode = s.pkg.node ∧ a.cls = 1 then s.response a else if a.opc = 0x15 then s.learn a else s)

/-- E2E_RESEND (18 R428): a request without a response is sent again, with the same number and header. A member of a multicast that
its tree no longer reaches gets a unicast copy (18 R434). -/
def execE2eResend (n : Nat) (s : State) : Host.Outcome State Fault Refusal :=
  goes (match s.pkg.outst[n]? with
    | none => s
    | some o =>
      let q := if isTree o.pkt && !s.routeClear 40 s.pkg.node o.pkt.tgtNode then { s.copyFor o.pkt o.pkt.tgtNode with eseq := o.eseq } else o.pkt
      if o.acked ∨ q ∈ s.pkg.outbox then s else s.emitPkt q)

/-- REMOTE_TIMEOUT (10 R235): the remote limit ends a request. A thread's instruction keeps its number for `ERET`. -/
def execRemoteTimeout (n : Nat) (s : State) : Host.Outcome State Fault Refusal :=
  goes (match s.pkg.outst[n]? with
    | none => s
    | some o =>
      let e : Exc := { code := Cause.remoteTimeout, info := BitVec.ofNat 64 (o.eseq % 2 ^ 32) }
      let s1 := s.modPkg (fun g => { g with outbox := g.outbox.filter (fun q => decide (q ≠ o.pkt)) })
      let keep (x : Ctx) : Ctx := { x with eseq := some (x.pc, o.pkt.tgtNode, o.eseq, x.ih) }
      let s2 := match o.ctx with
        | none => s1
        | some c => if c < 2 ^ 20 then s1.modCtx c keep else s1.modThread (c - 2 ^ 20) keep
      s2.endRequest o { exc := some e } [] (some (e, none)))

/-- A revision entry goes out over every link that is up (18 R431). -/
def State.tell (s : State) (node : Nat) (r : Rev) : State :=
  { s with oports := s.oports.map (fun o => (o.1, if o.2.up then { o.2 with told := SMap.put o.2.told node r } else o.2)) }

/-- REVISION_EXCHANGE (18 R431): a node's revision and masks reach the egress, and go on over the other links. -/
def execRevisionExchange (node : Nat) (rev : BitVec 32) (ops : BitVec 16) (fmts : BitVec 32) (s : State) :
    Host.Outcome State Fault Refusal := goes ((s.modPkg (fun g => { g with revs := SMap.put g.revs node ⟨rev, ops, fmts⟩ })).tell node ⟨rev, ops, fmts⟩)

/-! ## Packets on their way (18 R420 to R422) -/

/-- A packet leaves by a port. -/
def State.sendOn (s : State) (inPort p : Nat) (detour : Bool) (q : FabPkt) : State :=
  s.modOport p (fun o => { o with sendq := o.sendq ++ [{ q with detour := detour, vc := s.vcOn s.pkg.node inPort p q.vc }] }.pump)

/-- UNREACH for a request. -/
def unreach (q : FabPkt) : FabPkt := { answerPkt q 0 0 [] with opc := 0x14 }

/-- A request that finds no way returns to its source as UNREACH; an answer that finds none is lost, and the source asks
again. -/
def State.routeOut (s : State) (inPort : Nat) (q : FabPkt) : State :=
  match s.wayFrom s.pkg.node q.tgtNode q.detour with
  | some (p, d) => s.sendOn inPort p d q
  | none =>
    if q.cls = 1 then s
    else
      let a := unreach q
      if a.tgtNode = s.pkg.node then s.response a
      else
        match s.wayFrom s.pkg.node a.tgtNode false with
        | some (p, d) => s.sendOn 8 p d a
        | none => s

/-- A multicast packet at a node of its tree (18 R434): it leaves by every branch port when each has a free slot; none while one has
not. A branch that is DOWN sends the source UNREACH for the members behind it; the source's own port has split them off
before. A member performs it as its request. -/
def State.forkPkt (s : State) (inPort : Nat) (q : FabPkt) : Option State :=
  let ports := s.treePorts q
  let live := ports.filter (fun p => !s.portDown s.pkg.node p)
  if live.any (fun p => !(s.oport p).slotFree (s.vcOn s.pkg.node inPort p q.vc)) then none
  else
    let s1 := live.foldl (fun s p => s.sendOn inPort p false q) s
    let cut := if q.srcNode = s.pkg.node then [] else (ports.filter (fun p => s.portDown s.pkg.node p)).flatMap (s.membersBehind q)
    let s2 := cut.foldl (fun s m => s.emitPkt (unreach { q with tgtNode := m })) s1
    some (if s.pkg.node ∈ mcastMembers q then s2.ingress { q with tgtNode := s.pkg.node } else s2)

/-- A whole packet arrives through a port. -/
def State.packetIn (s : State) (inPort : Nat) (q : FabPkt) : State :=
  if isTree q then (s.forkPkt inPort q).getD (s.modOport inPort (fun o => { o with held := o.held ++ [q] }))
  else if q.tgtNode ≠ s.pkg.node then s.routeOut inPort q
  else if q.cls = 1 then s.response q else s.ingress q

/-- A packet that is held whole tries its branches again. -/
def State.heldIn (s : State) (inPort : Nat) (q : FabPkt) : State :=
  let s1 := s.modOport inPort (fun o => { o with held := o.held.erase q })
  (s1.forkPkt inPort q).getD s

/-- A packet of this package leaves its outbox. An answer marks its request done when it leaves, but for the reply to a call, whose
saved result is its ACK (18 R429); while a directory service context withholds the acknowledgement of its write, it stays,
and so does a multicast packet while a branch has no free slot. -/
def State.leave (s : State) (q : FabPkt) : State :=
  let key := peerKey q.tgtNode q.eseq
  if q.cls = 1 && !isCallAck q && decide (q ∉ s.pkg.kept) && s.ackHeld key then s
  else
    let same (o : Outst) : Bool := decide (o.pkt = if isTree q then { q with tgtNode := o.pkt.tgtNode } else q)
    let gone (o : Outst) : Outst := if same o then { o with sent := true } else o
    let s1 := s.modPkg (fun g => { g with outbox := g.outbox.erase q, outst := g.outst.map gone })
    let s2 := if q.cls = 1 ∧ q ∉ s.pkg.kept ∧ !isCallAck q ∧
          s1.pkg.seen.any (fun e => decide (e.1 = q.tgtNode ∧ e.2.1 = q.eseq ∧ e.2.2.1 = 1)) then
        s1.mark q.tgtNode q.eseq 2 q
      else s1
    if isTree q then (s2.forkPkt 8 q).getD s else s2.packetIn 8 q

/-- FABRIC_FORWARD (18 R420): a packet moves on: from this package's outbox (`inPort` 8 and above), or from a port, where it has
arrived or is held. -/
def execFabricForward (inPort : Nat) (q : FabPkt) (s : State) : Host.Outcome State Fault Refusal :=
  goes (if 8 ≤ inPort then (if q ∈ s.pkg.outbox then s.leave q else s)
    else if q ∈ (s.oport inPort).held then s.heldIn inPort q else s.packetIn inPort q)

/-- FLIT_RECEIVE (18 R424, R425): only the flit after the last accepted one, with a good CRC, is accepted; any other but an old
one is dropped with a NAK. An acknowledgement leaves at least once per 16 accepted flits; how much sooner is free (log 6). The
last flit of a packet completes it. -/
def execFlitReceive (port : Nat) (bytes : List Byte) (s : State) : Host.Outcome State Fault Refusal :=
  goes (
    let o := s.oport port
    let ty := numAt bytes 66 1
    let n := numAt bytes 64 2
    if bytes.length ≠ 72 ∨ numAt bytes 68 4 ≠ crc32 (bytes.take 68) then s.modOport port OPort.sendNak
    else if ty ≠ 1 ∧ ty ≠ 2 then s
    else if n ≠ o.expect then
      (if 2 ^ 15 ≤ (n + 2 ^ 16 - o.expect) % 2 ^ 16 then s else s.modOport port OPort.sendNak)
    else
      let f := bytes.take 64
      let rx := if ty = 1 then [f] else if o.rx.isEmpty then [] else o.rx ++ [f]
      let want := 1 + numAt (rx.headD []) 4 1 / 16
      let (soon, s0) := s.draw
      let s1 := s0.modOport port (fun o => { o.accepted soon with rx := if rx.length = want then [] else rx })
      if rx.length = want then s1.packetIn port (pktOfFlits (rx.headD []) (rx.drop 1).flatten) else s1)

/-! ## The end of training, and the link-state table (18 R421, R426, R437; 19 R443) -/

/-- A packet that a DOWN port gives back is routed afresh. Of a multicast packet, the source sends the members behind the port unicast
copies, and another node sends UNREACH for them: a tree never detours (18 R426, R434). -/
def State.reroute (s : State) (port : Nat) (q : FabPkt) : State :=
  if isTree q then
    (s.membersBehind q port).foldl (fun s m =>
      s.emitPkt (if q.srcNode = s.pkg.node then { s.copyFor q m with eseq := q.eseq } else unreach { q with tgtNode := m })) s
  else s.routeOut 8 q

/-- A direction takes a state. A change raises LINK_DEGRADED; packets of a direction that is DOWN are routed afresh, and rounds that
miss a contributor behind it fail (18 R437). A link that comes up sends this package's revision and every entry that it has
learned (18 R431). -/
def State.settleLink (s : State) (port st : Nat) (lanes : BitVec 16) : State :=
  let old := laneState (s.oport port).lanes
  let news := SMap.put s.pkg.revs s.pkg.node s.ownRev
  let s1 := s.modOport port (fun o => { o with state := st, lanes := lanes, service := false, fails := 0,
                                                told := if st = 0 then [] else if old = 0 then news else o.told })
  let s2 := if st ≠ 0 then s1.modOport port (fun o => o.replay.pump)
    else
      let back := (s1.oport port).packets ++ (s1.oport port).sendq
      (back.foldl (fun s q => s.reroute port q) (s1.modOport port (fun o => { o with unacked := [], sendq := [] }))).roundsCheck
  if st ≠ old then s2.degraded port else s2

/-- RETRAIN_COMPLETE (18 R426): every lane has been tested, `r.whole` are the good ones, and both ends have exchanged their last accepted
numbers: the sender discards its buffer up to `r.last`, and where the direction is DOWN its numbers go on from there. -/
def execRetrainComplete (port : Nat) (r : LaneReport) (s : State) : Host.Outcome State Fault Refusal :=
  goes (
    let o := s.oport port
    if o.state ≠ 1 then s
    else
      let t := if o.service then widest (~~~r.whole) else retrained o.lanes (~~~r.whole)
      let s1 := (s.modOport port (fun o => { o.ack r.last.toNat with dead := ~~~r.whole })).settleLink port t.1 t.2
      if t.1 = 0 then s1.modOport port (fun o => { o with next := (r.last.toNat + 1) % 2 ^ 16, lseq := r.last.toNat }) else s1)

/-- OSELL_TRAINING_END (19 R443): bring-up training of a port ends; one with no peer stays DOWN. -/
def execOsellTrainingEnd (port : Nat) (whole : BitVec 16) (s : State) : Host.Outcome State Fault Refusal :=
  goes (
    if s.hasPeer s.pkg.node port ∧ (s.oport port).state = 0 then
      (s.modOport port (fun o => { o with dead := ~~~whole })).settleLink port (widest (~~~whole)).1 (widest (~~~whole)).2
    else s)

/-- LINK_STATE_UPDATE (18 R421, R437): a broadcast changes the table; a round that a missing contributor can no longer reach
fails. -/
def execLinkStateUpdate (node port : Nat) (up : Bool) (s : State) : Host.Outcome State Fault Refusal :=
  goes (
    let l := s.pkg.linkDown.filter (fun e => decide (e ≠ (node, port)))
    (s.modPkg (fun g => { g with linkDown := if up || decide (port < 4 ∨ 8 ≤ port) then l else l ++ [(node, port)] })).roundsCheck)

end Sys2Proof.Machine
end

