-- ==== Sys2Proof/Machine/Service.lean ====
section
/-! DEFINITION. Sys2Proof/Machine/Service.lean: bring-up, firmware and attestation, the host's registers and accesses, service
while running, and the limits (19 R438 to R449; 16 R387 to R389). -/

namespace Sys2Proof.Machine

/-! ## Cap frames and limits (16 R387; 19 R448, R449) -/

/-- A big-endian number from bytes. -/
def beNat (l : List Byte) : Nat := leNat l.reverse

/-- Byte `i` of a frame. -/
def frameByte (f : List Byte) (i : Nat) : Nat := (f.getD i 0).toNat

/-- The sequence number of a frame. -/
def frameSeq (f : List Byte) : Nat := leNat ((f.drop 4).take 8)

/-- Whether a cap frame is accepted (19 R448): type, length, ranges, the reserved bytes, and the tag under the hall key. -/
def State.frameGood (s : State) (f : List Byte) : Bool :=
  decide (f.length = 64) && decide (leNat (f.take 2) = 1) && decide (leNat ((f.drop 2).take 2) = 64) &&
    decide (frameByte f 12 ≤ 7 ∧ frameByte f 13 ≤ 15 ∧ frameByte f 14 = 0 ∧ frameByte f 15 = 0) &&
    (match s.pkg.hallKey with
     | none => false
     | some k => decide (leNat (f.drop 16) = Config.hmac384 k (f.take 16) % 2 ^ 384))

/-- CAP_FRAME: an accepted frame that is newer than the last applied one replaces it in full. A bad one is counted. -/
def execCapFrame (f : List Byte) (s : State) : Host.Outcome State Fault Refusal :=
  goes (
    if !s.frameGood f then s.modPkg (fun g => { g with badFrames := g.badFrames + 1 })
    else if s.pkg.capApplied && decide (frameSeq f ≤ s.pkg.capSeq) then s
    else (s.modPkg (fun g => { g with capApplied := true, capSeq := frameSeq f, capRank := frameByte f 12, capLevel := frameByte f 13 })).setClocks)

/-- THERMAL_LIMIT. -/
def execThermalLimit (s : State) : Host.Outcome State Fault Refusal := goes (s.modPkg (fun g => { g with thermal := true })).setClocks

/-- CURRENT_LIMIT. -/
def execCurrentLimit (s : State) : Host.Outcome State Fault Refusal := goes (s.modPkg (fun g => { g with current := true })).setClocks

/-- THERMAL_LIMIT_RELEASE. -/
def execThermalLimitRelease (s : State) : Host.Outcome State Fault Refusal := goes (s.modPkg (fun g => { g with thermal := false })).setClocks

/-- CURRENT_LIMIT_RELEASE. -/
def execCurrentLimitRelease (s : State) : Host.Outcome State Fault Refusal := goes (s.modPkg (fun g => { g with current := false })).setClocks

/-- THERMAL_TRIP: core power is removed, and the management controller learns of it. -/
def execThermalTrip (s : State) : Host.Outcome State Fault Refusal :=
  goes ((s.modPkg (fun g => { g with tripped := true })).report { code := Cause.machineCheck })

/-- HALL_KEY_PROVISION. -/
def execHallKeyProvision (key : Nat) (s : State) : Host.Outcome State Fault Refusal :=
  goes (s.modPkg (fun g => { g with hallKey := some key }))

/-! ## Bring-up and firmware (19 R440, R442 to R445) -/

/-- `PKGSTAT`. -/
def Pkg.stat (g : Pkg) : Word :=
  BitVec.ofNat 64 (g.ready.toNat + g.phase % 8 * 2 + g.retired % 2 ^ 10 * 2 ^ 12 + g.fwrev % 2 ^ 32 * 2 ^ 32)

/-- Whether both signatures over an image verify (19 R444). -/
def imageSigned (image : List Byte) : Bool := Config.imageEcdsa image && Config.imageLms image

/-- The boot ROM verifies an image: a good one stands in place and bring-up goes on with calibration; else PHASE is 4. -/
def State.boot (s : State) (image : List Byte) : State :=
  if imageSigned image then s.modPkg (fun g => { g with image := image, fwrev := Config.imageRev image, phase := 1 })
  else s.modPkg (fun g => { g with phase := 4 })

/-- POWER_UP with the image that stands in place: everything is as after reset, but for what the management controller keeps on
its own rail, and for the host's memory, which is not the package's (log 42). -/
def execPowerUp (image : List Byte) (s : State) : Host.Outcome State Fault Refusal :=
  goes (
    let s0 : State := { State.reset with agenda := s.agenda, fresh := s.fresh, nextTid := s.nextTid, mem := s.mem.filter (fun p => isHost p.1) }
    (s0.modPkg (fun g => { g with hallKey := s.pkg.hallKey })).boot image)

/-- FWPTR_WRITE: during a re-fetch the boot ROM reads the image from host memory and verifies it. -/
def execFwptrWrite (v : Word) (s : State) : Host.Outcome State Fault Refusal :=
  goes (
    let s1 := s.modPkg (fun g => { g with fwptr := v })
    if s.pkg.phase ≠ 4 then s1 else s1.boot (s.peek (hostBase + bitsAt v 12 52 * 4096) (bitsAt v 0 12 * 4096)))

/-- Whether numbers are what the management controller sets of a fabric: its four sizes, at most 2, 4, 16 and 16 packages in its
dimensions, and, where a fifth stands, the package's own node (01 R14; 18 R418, R419; log 42). -/
def sizesOk (l : List Nat) : Bool :=
  decide (l.length = 4 ∨ (l.length = 5 ∧ l.getD 4 0 < 2048)) && (l.zip [2, 4, 16, 16]).all (fun p => decide (1 ≤ p.1 ∧ p.1 ≤ p.2))

/-- CALIBRATION_DONE: failed clusters are retired, channels that failed training are known, the fabric sizes and the package's node are set (19 R443). Without a
usable cluster the package has failed. -/
def execCalibrationDone (failed bad sizes : List Nat) (s : State) : Host.Outcome State Fault Refusal :=
  goes (
    if s.pkg.phase ≠ 1 then s
    else
      let out := (List.range Config.clusters).filter (fun k => decide (k ∈ failed))
      let s1 := out.foldl (fun s k => s.modClu k (fun u => { u with retired := true })) s
      let dead := decide (out.length = Config.clusters)
      s1.modPkg (fun g => { g with phase := if dead then 7 else 2, failed := dead, badChannels := bad, sizes := if sizesOk sizes then sizes.take 4 else g.sizes, node := if sizesOk sizes then sizes.getD 4 g.node else g.node,
                                   retired := out.length }))

/-- MEMORY_INIT_DONE: every word is zero and full, untagged, with valid ECC; every bank is in CACHE; the package is ready. -/
def execMemoryInitDone (s : State) : Host.Outcome State Fault Refusal :=
  goes (
    if s.pkg.phase ≠ 2 then s
    else
      let s1 : State := { s with mem := s.mem.filter (fun p => isHost p.1), empties := [], mtags := [], poison := [], ecc := [], soft := [], dir := [] }
      let s2 : State := { s1 with clus := s1.clus.map (fun p => (p.1, { p.2 with bankmode := 0, busy := 0, fifo := [], cache := [] })) }
      s2.modPkg (fun g => { g with phase := 3, ready := true }))

/-- LIVE_FIRMWARE_UPDATE: a verified image runs in place of the old one; another leaves everything as it was. -/
def execLiveFirmwareUpdate (image : List Byte) (s : State) : Host.Outcome State Fault Refusal :=
  goes (if imageSigned image then s.modPkg (fun g => { g with image := image, fwrev := Config.imageRev image }) else s)

/-- A list of numbers as bytes: its length, then each. -/
def numBytes (n : Nat) (l : List Nat) : List Byte := leBytes 4 l.length ++ l.flatMap (fun k => leBytes n k)

/-- What an attestation report says of a partition (19 R445). -/
def Part.attested (n : Nat) (q : Part) : List Byte :=
  leBytes 2 n ++ numBytes 2 q.clusters ++ leBytes 1 q.width ++ numBytes 2 q.table ++ numBytes 8 [q.rank, q.node, q.wlim, q.rlim, q.budget, q.interval]

/-- What an attestation report says of the management controller's state (19 R445): what it has set, counted, been told and
applied. -/
def Pkg.attested (g : Pkg) : List Byte :=
  leBytes 8 g.stat.toNat ++ leBytes 8 g.fwptr.toNat ++ leBytes 8 g.capSeq ++
    numBytes 8 [g.capApplied.toNat, g.capRank, g.capLevel, g.badFrames, g.thermal.toNat, g.current.toNat, g.tripped.toNat, g.failed.toNat, g.corrected,
      g.scrubPoison, g.node, g.retired, g.hallKey.isSome.toNat] ++
    numBytes 8 g.sizes ++ numBytes 8 g.badChannels ++ numBytes 8 g.retrainChannels ++ numBytes 8 (g.linkDown.flatMap (fun e => [e.1, e.2])) ++
    numBytes 8 (g.controller.flatMap (fun e => [e.1.toNat, e.2.1.toNat, e.2.2.toNat]))

/-- What an attestation report covers beside the image (19 R445): FWREV, the partition map, and the controller's state, with the
clusters that it has taken out of service or is calibrating. -/
def State.attested (s : State) : List Byte :=
  let out (f : Cluster → Bool) : List Byte := numBytes 2 ((s.clus.filter (fun k => f k.2)).map (·.1))
  leBytes 4 s.pkg.fwrev ++ (s.parts.filter (fun p => p.2.live)).flatMap (fun p => p.2.attested p.1) ++ s.pkg.attested ++
    out (·.retired) ++ out (·.retiring) ++ out (·.recal)

/-- ATTESTATION_REQUEST: from the host, into the mailbox; from the rack network, at the management port. -/
def execAttestationRequest (rack : Bool) (s : State) : Host.Outcome State Fault Refusal :=
  goes (
    let r := Config.attestation s.attested s.pkg.image
    s.modPkg (fun g => if rack then { g with rackReport := r } else { g with attest := r }))

/-! ## The host (19 R439, R441; 11 R253) -/

/-- BUSY of `HREQ`: a HOST_REQUEST is held undelivered for the partition's service context. -/
def State.hreqBusy (s : State) (p : Nat) : Bool := (s.ctx (s.serviceCtx p)).held.any (fun e => decide (e.code = Cause.hostRequest))

/-- What a read of `HREQ` returns. -/
def State.hreq (s : State) (p : Nat) : Word := boolW (s.hreqBusy p)

/-- HREQ_WRITE. -/
def execHreqWrite (p : Nat) (v : Word) (s : State) : Host.Outcome State Fault Refusal :=
  goes (if !(s.part p).live || s.hreqBusy p then s else s.raiseService p { code := Cause.hostRequest, addr := 0, info := v })

/-- The registers in the first memory windows of the package's functions (19 R439). -/
inductive HostReg where
  | pkgstat | fwptr | mailbox
  | hreq (part : Nat)
deriving DecidableEq, Repr

/-- The register at an offset of a function's first window: function 0 holds `PKGSTAT` at 0x0000, `FWPTR` at 0x0008 and the attestation
mailbox at 0x1000; function p + 1, which exists while partition p does, holds `HREQ` at 0x0000 (19 R439). -/
def State.hostRegAt (s : State) (fn off : Nat) : Option HostReg :=
  if fn = 0 then
    (if off = 0x0000 then some .pkgstat else if off = 0x0008 then some .fwptr else if off = 0x1000 then some .mailbox else none)
  else if fn ≤ 16 ∧ (s.part (fn - 1)).live ∧ off = 0x0000 then some (.hreq (fn - 1))
  else none

/-- What the host reads there: the mailbox gives the report's bytes. -/
def State.hostRegRead (s : State) : HostReg → List Byte
  | .pkgstat => leBytes 8 s.pkg.stat.toNat
  | .fwptr => leBytes 8 s.pkg.fwptr.toNat
  | .mailbox => s.pkg.attest
  | .hreq p => leBytes 8 (s.hreq p).toNat

/-- What the host's write of `v` there does: it is the device step of FWPTR_WRITE, ATTESTATION_REQUEST or HREQ_WRITE; `PKGSTAT` is
read-only (19 R440, R441, R444, R445). -/
def State.hostRegWrite (s : State) (v : Word) : HostReg → Host.Outcome State Fault Refusal
  | .pkgstat => goes s
  | .fwptr => execFwptrWrite v s
  | .mailbox => execAttestationRequest false s
  | .hreq p => execHreqWrite p v s

/-- The bytes that a host's request touches. -/
def hostLocs (p : Nat) : HostOp → List Nat
  | .read pa n => span (dramBase p + pa) n
  | .write pa bs => span (dramBase p + pa) bs.length

/-- The end of a host's range. -/
def hostTop : HostOp → Nat
  | .read pa n => pa + n
  | .write pa bs => pa + bs.length

/-- Whether a host's request lies in a range that the device advertises: READY, a partition that exists, its device DRAM; and the
core rail is on (19 R439, R449). -/
def State.hostOpen (s : State) (p : Nat) (op : HostOp) : Bool :=
  s.pkg.ready && !s.pkg.tripped && (s.part p).live && decide (hostTop op ≤ dramLimit (s.part p))

/-- Whether a host's request is performed now: its range is open, no line is locked, no channel is in training. -/
def State.hostReady (s : State) (p : Nat) (op : HostOp) : Bool :=
  s.hostOpen p op && !(hostLocs p op).any s.channelBusy && !(linesOf (hostLocs p op)).any (fun l => (s.dirAt l).lock.isSome)

/-- A CXL.mem request completes. -/
def State.cxlDone (s : State) (d : CxlDone) : State := s.modPkg (fun g => { g with cxl := some d })

/-- CXL_MEM_REQUEST: a write is performed at its home like any other. A read changes nothing but an error that it meets: its granule
is poison from then on (17 R409). A request outside every advertised range completes with an error and performs nothing (19 R439);
one that waits for a line or a channel changes nothing yet. -/
def execCxlMemRequest (p : Nat) (op : HostOp) (s : State) : Host.Outcome State Fault Refusal :=
  goes (
    if !s.hostOpen p op then s.cxlDone { error := true }
    else if !s.hostReady p op then s
    else
      match op with
      | .write _ bs =>
        if (linesOf (hostLocs p op)).any (fun l => s.lockedFor l noCtx) then s.askWrites {} (linesOf (hostLocs p op))
        else (s.place {} ((hostLocs p op).zip bs)).cxlDone { error := false }
      | .read _ _ =>
        let bad := s.ecc.filter (fun g => (hostLocs p op).any (fun l => decide (l / 16 = g)))
        let s1 := ({ s with ecc := bad.foldl delNat s.ecc, poison := bad.foldl addNat s.poison } : State).correct (hostLocs p op)
        s1.cxlDone { error := false, data := (hostLocs p op).map s1.mem.read, poison := (hostLocs p op).any (fun l => hasNat s1.poison (l / 16)) })

/-- The host writes its own memory: copies that clusters keep of its lines are invalidated as by any writer (03 R42; 11 R253). -/
def State.hostWrite (s : State) (pa : Nat) (bs : List Byte) : State := s.place {} ((span (hostBase + pa) bs.length).zip bs)

/-! ## Service while running (19 R446, R447) -/

/-- The waiters of the retry lists whose words are homed at a DRAM channel are served (10 R231). -/
def State.serveChannel (s : State) (ch : Nat) : State :=
  s.serveWords ((s.clus.flatMap (fun k => k.2.retry.map (·.loc))).filter (fun l =>
    isDram l && decide (homeCore (s.part (l / 2 ^ 40)) (l % 2 ^ 40) = ch)))

/-- DRAM_CHANNEL_RETRAIN: one channel at a time; its requests wait, and its data is kept. At its end the requests of its retry lists
go on. -/
def execDramChannelRetrain (ch : Nat) (on : Bool) (s : State) : Host.Outcome State Fault Refusal :=
  goes (
    if on then (if s.pkg.retrainChannels.isEmpty && decide (ch < 2048) then s.modPkg (fun g => { g with retrainChannels := [ch] }) else s)
    else (s.modPkg (fun g => { g with retrainChannels := delNat g.retrainChannels ch })).serveChannel ch)

/-- CLUSTER_RECALIBRATION: the cluster's cores issue nothing meanwhile. -/
def execClusterRecalibration (k : Nat) (on : Bool) (s : State) : Host.Outcome State Fault Refusal :=
  goes (s.modClu k (fun u => { u with recal := on }))

/-- The partition that a cluster belongs to. -/
def State.partOfClu (s : State) (k : Nat) : Option Nat := (s.parts.find? (fun p => p.2.live && decide (k ∈ p.2.clusters))).map (·.1)

/-- CLUSTER_RETIRE: the notice to the runtime. -/
def execClusterRetire (k : Nat) (s : State) : Host.Outcome State Fault Refusal :=
  goes (
    if (s.clu k).retired || (s.clu k).retiring then s
    else
      let s1 := s.modClu k (fun u => { u with retiring := true })
      match s.partOfClu k with
      | none => s1
      | some p => s1.raiseService p { code := Cause.hostRequest, addr := 1, info := BitVec.ofNat 64 (2 ^ 56 + k % 512) })

/-- A context of a retired cluster ends with code 252, after its entries are written. -/
def State.retireCtx (s : State) (c : Nat) : State :=
  if (s.ctx c).slot.live then (((s.unblock c).drainAll c).modCtx c (fun x => { x with stopped := false, paused := false, suspended := false })).exitThread c 252
  else s

/-- A context that waits in the arrival queue of a retired cluster's core, or is on its way to it, ends with code 252. -/
def State.retireMoving (s : State) (m : Msg) : State :=
  match s.moving.find? (fun p => decide (p.1 = m.id)) with
  | none => s
  | some (_, x) =>
    let t : State := { s with moving := SMap.del s.moving m.id, net := s.net.filter (fun n => decide (n.id ≠ m.id)) }
    let u := (t.setCtx m.dst { x with slot := .exited, code := 252 }).closeThread m.dst
    (u.setCtx m.dst (s.ctx m.dst)).endAway 252 (u.ctx m.dst)

/-- A retired cluster's cores admit nothing more: contexts in their arrival queues and on their way end, and calls are answered. -/
def State.retireArrivals (s : State) (k : Nat) : State :=
  let ms := (List.range 4).flatMap (fun i => (s.core (4 * k + i)).arrivals) ++ s.net.filter (fun m => decide (m.dst / 64 = k))
  let s1 := (List.range 4).foldl (fun s i => s.modCore (4 * k + i) (fun u => { u with arrivals := [] })) s
  ms.foldl (fun s m => match m.body with
    | .migrate => s.retireMoving m
    | .rcall core _ _ _ _ _ _ => ((s.takeMsg m).arriveRetired core m).getD s
    | _ => s) s1

/-- Whether a location lies in a bank of a cluster. -/
def inBanks (k l : Nat) : Bool := decide (sramLoc k 0 0 ≤ l) && decide (l < sramLoc (k + 1) 0 0)

/-- A cluster's banks are saved where a record holds them, and dropped. -/
def State.dropBanks (s : State) (k : Nat) : State :=
  let s1 := (s.clu k).bankHeld.foldl (fun s h => s.saveBank k h) s
  let s2 := s1.modClu k (fun u => { u with fifo := [], cache := [] })
  { s2 with mem := s2.mem.filter (fun p => !inBanks k p.1), empties := s2.empties.filter (fun w => !inBanks k (8 * w)),
            mtags := s2.mtags.filter (fun g => !inBanks k (16 * g)), poison := s2.poison.filter (fun g => !inBanks k (16 * g)),
            ecc := s2.ecc.filter (fun g => !inBanks k (16 * g)) }

/-- The events of a retired cluster's directory service context are raised again (10 R236; 17 R396): an overflow event that has
not ended returns to the head of its slice's queue, the others go to the service context. -/
def State.reraise (s : State) (c p : Nat) : State :=
  let x := s.ctx c
  let s1 := s.modCtx c (fun x => { x with held := [], handling := none })
  let s2 := match x.handling with
    | none => s1
    | some e => s1.modClu (s1.placeClu (e.line * 128)) (fun u => { u with dirq := e :: u.dirq })
  x.held.foldl (fun s e => s.raiseService p e) s2

/-- CLUSTER_RETIRE_FINISH: no context remains, or the limit has passed: what remains ends with code 252, also on its way to the
cluster. -/
def execClusterRetireFinish (k : Nat) (s : State) : Host.Outcome State Fault Refusal :=
  goes (
    if !(s.clu k).retiring || (s.clu k).retired then s
    else
      let s1 := (s.ctxsOf k).foldl (fun s c => s.retireCtx c) s
      let s2 := ((s1.retireArrivals k).dropBanks k).modClu k (fun u => { u with retired := true, retiring := false })
      let s3 := s2.modPkg (fun g => { g with retired := g.retired + 1 })
      match s.partOfClu k with
      | none => s3
      | some p => s3.reraise (dscOf k) p)

/-! ## The standby rail (19 R449) -/

/-- The device steps of the management controller, the CXL controller and the ports on the standby rail: they go on while the core
rail is off. -/
def onStandby (i : Instr) : Bool :=
  match i with
  | .capFrame .. | .thermalLimit | .currentLimit | .thermalLimitRelease | .currentLimitRelease | .thermalTrip | .hallKeyProvision .. | .powerUp ..
  | .fwptrWrite .. | .liveFirmwareUpdate .. | .attestationRequest .. | .hreqWrite .. | .cxlMemRequest .. => true
  | _ => false

end Sys2Proof.Machine
end

