-- ==== Sys2Proof/Machine/Dispatch.lean ====
section
/-! DEFINITION. Sys2Proof/Machine/Dispatch.lean: one arm per constructor of Instr, each one call of its meaning. -/

namespace Sys2Proof.Machine

def exec (i : Instr) (s : State) : Host.Outcome State Fault Refusal :=
  match i with
  | .add w d a b => Sys2Proof.Machine.execAdd w d a b s
  | .sub w d a b => Sys2Proof.Machine.execSub w d a b s
  | .and w d a b => Sys2Proof.Machine.execAnd w d a b s
  | .or w d a b => Sys2Proof.Machine.execOr w d a b s
  | .xor w d a b => Sys2Proof.Machine.execXor w d a b s
  | .andn w d a b => Sys2Proof.Machine.execAndn w d a b s
  | .shl w d a b => Sys2Proof.Machine.execShl w d a b s
  | .shr w d a b => Sys2Proof.Machine.execShr w d a b s
  | .shra w d a b => Sys2Proof.Machine.execShra w d a b s
  | .rot w d a b => Sys2Proof.Machine.execRot w d a b s
  | .min w d a b => Sys2Proof.Machine.execMin w d a b s
  | .max w d a b => Sys2Proof.Machine.execMax w d a b s
  | .minn w d a b => Sys2Proof.Machine.execMinn w d a b s
  | .maxn w d a b => Sys2Proof.Machine.execMaxn w d a b s
  | .adds w d a b => Sys2Proof.Machine.execAdds w d a b s
  | .subs w d a b => Sys2Proof.Machine.execSubs w d a b s
  | .addi d a im => Sys2Proof.Machine.execAddi d a im s
  | .andi d a im => Sys2Proof.Machine.execAndi d a im s
  | .ori d a im => Sys2Proof.Machine.execOri d a im s
  | .xori d a im => Sys2Proof.Machine.execXori d a im s
  | .shiShl w c d a => Sys2Proof.Machine.execShiShl w c d a s
  | .shiShr w c d a => Sys2Proof.Machine.execShiShr w c d a s
  | .shiShra w c d a => Sys2Proof.Machine.execShiShra w c d a s
  | .shiRot w c d a => Sys2Proof.Machine.execShiRot w c d a s
  | .cmp c d a b => Sys2Proof.Machine.execCmp c d a b s
  | .cmpi c d a im => Sys2Proof.Machine.execCmpi c d a im s
  | .mul d a b => Sys2Proof.Machine.execMul d a b s
  | .mulh d a b => Sys2Proof.Machine.execMulh d a b s
  | .mulhn d a b => Sys2Proof.Machine.execMulhn d a b s
  | .mad d a b => Sys2Proof.Machine.execMad d a b s
  | .div d a b => Sys2Proof.Machine.execDiv d a b s
  | .divn d a b => Sys2Proof.Machine.execDivn d a b s
  | .rem d a b => Sys2Proof.Machine.execRem d a b s
  | .remn d a b => Sys2Proof.Machine.execRemn d a b s
  | .clz d a => Sys2Proof.Machine.execClz d a s
  | .ctz d a => Sys2Proof.Machine.execCtz d a s
  | .popc d a => Sys2Proof.Machine.execPopc d a s
  | .brev d a => Sys2Proof.Machine.execBrev d a s
  | .bswap d a => Sys2Proof.Machine.execBswap d a s
  | .extb sg l p d a => Sys2Proof.Machine.execExtb sg l p d a s
  | .insb l p d a => Sys2Proof.Machine.execInsb l p d a s
  | .sel c d a b => Sys2Proof.Machine.execSel c d a b s
  | .lea sg d a b => Sys2Proof.Machine.execLea sg d a b s
  | .ldi d im => Sys2Proof.Machine.execLdi d im s
  | .widf d a => Sys2Proof.Machine.execWidf d a s
  | .shape d a => Sys2Proof.Machine.execShape d a s
  | .locid d a => Sys2Proof.Machine.execLocid d a s
  | .fadd f r d a b => Sys2Proof.Machine.execFadd f r d a b s
  | .fsub f r d a b => Sys2Proof.Machine.execFsub f r d a b s
  | .fmul f r d a b => Sys2Proof.Machine.execFmul f r d a b s
  | .fdiv f r d a b => Sys2Proof.Machine.execFdiv f r d a b s
  | .fmin f r d a b => Sys2Proof.Machine.execFmin f r d a b s
  | .fmax f r d a b => Sys2Proof.Machine.execFmax f r d a b s
  | .fsqrt f r d a => Sys2Proof.Machine.execFsqrt f r d a s
  | .fabs f r d a => Sys2Proof.Machine.execFabs f r d a s
  | .fneg f r d a => Sys2Proof.Machine.execFneg f r d a s
  | .fcpys f r d a b => Sys2Proof.Machine.execFcpys f r d a b s
  | .fma f r d a b => Sys2Proof.Machine.execFma f r d a b s
  | .fcmp f c d a b => Sys2Proof.Machine.execFcmp f c d a b s
  | .fcvt r t sg d a => Sys2Proof.Machine.execFcvt r t sg d a s
  | .fclass f d a => Sys2Proof.Machine.execFclass f d a s
  | .rcp f d a => Sys2Proof.Machine.execRcp f d a s
  | .rsq f d a => Sys2Proof.Machine.execRsq f d a s
  | .exp2 f d a => Sys2Proof.Machine.execExp2 f d a s
  | .log2 f d a => Sys2Proof.Machine.execLog2 f d a s
  | .sinpi f d a => Sys2Proof.Machine.execSinpi f d a s
  | .cospi f d a => Sys2Proof.Machine.execCospi f d a s
  | .tanh f d a => Sys2Proof.Machine.execTanh f d a s
  | .sigm f d a => Sys2Proof.Machine.execSigm f d a s
  | .br o => Sys2Proof.Machine.execBr o s
  | .call o => Sys2Proof.Machine.execCall o s
  | .bc c b a o => Sys2Proof.Machine.execBc c b a o s
  | .bz c a o => Sys2Proof.Machine.execBz c a o s
  | .jmpr a => Sys2Proof.Machine.execJmpr a s
  | .callr d a => Sys2Proof.Machine.execCallr d a s
  | .ret a => Sys2Proof.Machine.execRet a s
  | .jtab a n t => Sys2Proof.Machine.execJtab a n t s
  | .exit c => Sys2Proof.Machine.execExit c s
  | .nop => Sys2Proof.Machine.execNop s
  | .ld scp o z d a p => Sys2Proof.Machine.execLd scp o z d a p s
  | .st scp o z d a p => Sys2Proof.Machine.execSt scp o z d a p s
  | .fence scp k => Sys2Proof.Machine.execFence scp k s
  | .lr scp o z d a p => Sys2Proof.Machine.execLr scp o z d a p s
  | .sc scp o z d a p => Sys2Proof.Machine.execSc scp o z d a p s
  | .amoAdd scp o z d a p => Sys2Proof.Machine.execAmoAdd scp o z d a p s
  | .amoAnd scp o z d a p => Sys2Proof.Machine.execAmoAnd scp o z d a p s
  | .amoOr scp o z d a p => Sys2Proof.Machine.execAmoOr scp o z d a p s
  | .amoXor scp o z d a p => Sys2Proof.Machine.execAmoXor scp o z d a p s
  | .amoSwap scp o z d a p => Sys2Proof.Machine.execAmoSwap scp o z d a p s
  | .amoMin scp o z d a p => Sys2Proof.Machine.execAmoMin scp o z d a p s
  | .amoMax scp o z d a p => Sys2Proof.Machine.execAmoMax scp o z d a p s
  | .amoMinn scp o z d a p => Sys2Proof.Machine.execAmoMinn scp o z d a p s
  | .amoMaxn scp o z d a p => Sys2Proof.Machine.execAmoMaxn scp o z d a p s
  | .cas z scp o d a b p => Sys2Proof.Machine.execCas z scp o d a b p s
  | .waitrs scp o z d a p => Sys2Proof.Machine.execWaitrs scp o z d a p s
  | .red f scp o a b p => Sys2Proof.Machine.execRed f scp o a b p s
  | .xsrd k f scp o d a p => Sys2Proof.Machine.execXsrd k f scp o d a p s
  | .ldfeRead scp d a p => Sys2Proof.Machine.execLdfeRead scp d a p s
  | .ldfeTake scp d a p => Sys2Proof.Machine.execLdfeTake scp d a p s
  | .stfePut scp d a p => Sys2Proof.Machine.execStfePut scp d a p s
  | .stfeFill scp d a p => Sys2Proof.Machine.execStfeFill scp d a p s
  | .stfeClear scp a p => Sys2Proof.Machine.execStfeClear scp a p s
  | .pref scp a p => Sys2Proof.Machine.execPref scp a p s
  | .clean scp a p => Sys2Proof.Machine.execClean scp a p s
  | .inval scp a p => Sys2Proof.Machine.execInval scp a p s
  | .invalCluster scp d a p => Sys2Proof.Machine.execInvalCluster scp d a p s
  | .ldc scp o d a p => Sys2Proof.Machine.execLdc scp o d a p s
  | .stc scp o d a p => Sys2Proof.Machine.execStc scp o d a p s
  | .spawn k c a b => Sys2Proof.Machine.execSpawn k c a b s
  | .reap d a => Sys2Proof.Machine.execReap d a s
  | .reapAny d => Sys2Proof.Machine.execReapAny d s
  | .bind k => Sys2Proof.Machine.execBind k s
  | .semP a => Sys2Proof.Machine.execSemP a s
  | .semV a => Sys2Proof.Machine.execSemV a s
  | .semTry d a => Sys2Proof.Machine.execSemTry d a s
  | .send a b => Sys2Proof.Machine.execSend a b s
  | .sendS a b => Sys2Proof.Machine.execSendS a b s
  | .openS d a => Sys2Proof.Machine.execOpenS d a s
  | .close a => Sys2Proof.Machine.execClose a s
  | .wake a b => Sys2Proof.Machine.execWake a b s
  | .recv d b => Sys2Proof.Machine.execRecv d b s
  | .tryrecv d b => Sys2Proof.Machine.execTryrecv d b s
  | .rcall a b k p => Sys2Proof.Machine.execRcall a b k p s
  | .rreply a => Sys2Proof.Machine.execRreply a s
  | .bara d bar n => Sys2Proof.Machine.execBara d bar n s
  | .barw a bar => Sys2Proof.Machine.execBarw a bar s
  | .llpush d a => Sys2Proof.Machine.execLlpush d a s
  | .llpop d b => Sys2Proof.Machine.execLlpop d b s
  | .migrate a => Sys2Proof.Machine.execMigrate a s
  | .specb a b => Sys2Proof.Machine.execSpecb a b s
  | .specc => Sys2Proof.Machine.execSpecc s
  | .pause => Sys2Proof.Machine.execPause s
  | .instn d => Sys2Proof.Machine.execInstn d s
  | .emit k a b => Sys2Proof.Machine.execEmit k a b s
  | .test q d a => Sys2Proof.Machine.execTest q d a s
  | .testv q d a => Sys2Proof.Machine.execTestv q d a s
  | .renounce a => Sys2Proof.Machine.execRenounce a s
  | .emits sl a b => Sys2Proof.Machine.execEmits sl a b s
  | .abortw a p => Sys2Proof.Machine.execAbortw a p s
  | .suspw a => Sys2Proof.Machine.execSuspw a s
  | .endw => Sys2Proof.Machine.execEndw s
  | .sigforce k a b => Sys2Proof.Machine.execSigforce k a b s
  | .lehrw k n d a => Sys2Proof.Machine.execLehrw k n d a s
  | .rld m o z d a b p => Sys2Proof.Machine.execRld m o z d a b p s
  | .rst m o z d a b p => Sys2Proof.Machine.execRst m o z d a b p s
  | .ramo o z k d a b p => Sys2Proof.Machine.execRamo o z k d a b p s
  | .cderiv d a b => Sys2Proof.Machine.execCderiv d a b s
  | .cget d a b => Sys2Proof.Machine.execCget d a b s
  | .cclr d a => Sys2Proof.Machine.execCclr d a s
  | .vadd sg f q d a b => Sys2Proof.Machine.execVadd sg f q d a b s
  | .vsub sg f q d a b => Sys2Proof.Machine.execVsub sg f q d a b s
  | .vmul sg f q d a b => Sys2Proof.Machine.execVmul sg f q d a b s
  | .vfma sg f q d a b => Sys2Proof.Machine.execVfma sg f q d a b s
  | .vmin sg q d a b => Sys2Proof.Machine.execVmin sg q d a b s
  | .vmax sg q d a b => Sys2Proof.Machine.execVmax sg q d a b s
  | .vand sg q d a b => Sys2Proof.Machine.execVand sg q d a b s
  | .vor sg q d a b => Sys2Proof.Machine.execVor sg q d a b s
  | .vxor sg q d a b => Sys2Proof.Machine.execVxor sg q d a b s
  | .vshl sg q d a b => Sys2Proof.Machine.execVshl sg q d a b s
  | .vshr sg f q d a b => Sys2Proof.Machine.execVshr sg f q d a b s
  | .vcmp sg f q d a b => Sys2Proof.Machine.execVcmp sg f q d a b s
  | .vsel sg q d a b => Sys2Proof.Machine.execVsel sg q d a b s
  | .vcvt sg f q d a b => Sys2Proof.Machine.execVcvt sg f q d a b s
  | .vapx f q d a => Sys2Proof.Machine.execVapx f q d a s
  | .vabs q d a => Sys2Proof.Machine.execVabs q d a s
  | .vneg q d a => Sys2Proof.Machine.execVneg q d a s
  | .vred f q d a => Sys2Proof.Machine.execVred f q d a s
  | .vscan f q d a => Sys2Proof.Machine.execVscan f q d a s
  | .vperm q d a b => Sys2Proof.Machine.execVperm q d a b s
  | .vbcast f q d a b => Sys2Proof.Machine.execVbcast f q d a b s
  | .vmovx f d a b => Sys2Proof.Machine.execVmovx f d a b s
  | .vld sg q d a b => Sys2Proof.Machine.execVld sg q d a b s
  | .vst sg q d a b => Sys2Proof.Machine.execVst sg q d a b s
  | .vgath a sh p q vi d disp => Sys2Proof.Machine.execVgath a sh p q vi d disp s
  | .vscat a sh p q vi d disp => Sys2Proof.Machine.execVscat a sh p q vi d disp s
  | .vsort n k q d a => Sys2Proof.Machine.execVsort n k q d a s
  | .vmerge h n k q d a b => Sys2Proof.Machine.execVmerge h n k q d a b s
  | .vtopk n q d a b => Sys2Proof.Machine.execVtopk n q d a b s
  | .plog sg f d a b => Sys2Proof.Machine.execPlog sg f d a b s
  | .rep t l a => Sys2Proof.Machine.execRep t l a s
  | .vcfg d => Sys2Proof.Machine.execVcfg d s
  | .vcfgWr d a => Sys2Proof.Machine.execVcfgWr d a s
  | .vcfgClr d => Sys2Proof.Machine.execVcfgClr d s
  | .mxq d a => Sys2Proof.Machine.execMxq d a s
  | .mxwait a => Sys2Proof.Machine.execMxwait a s
  | .mxwaitAll => Sys2Proof.Machine.execMxwaitAll s
  | .mxstat d a => Sys2Proof.Machine.execMxstat d a s
  | .mxstatResume => Sys2Proof.Machine.execMxstatResume s
  | .mxstatDrop => Sys2Proof.Machine.execMxstatDrop s
  | .mxstatSdrop => Sys2Proof.Machine.execMxstatSdrop s
  | .cpq d a b => Sys2Proof.Machine.execCpq d a b s
  | .cpwait a => Sys2Proof.Machine.execCpwait a s
  | .cpwaitAll => Sys2Proof.Machine.execCpwaitAll s
  | .syncw a b => Sys2Proof.Machine.execSyncw a b s
  | .syncwReset a b => Sys2Proof.Machine.execSyncwReset a b s
  | .syncwait d a b => Sys2Proof.Machine.execSyncwait d a b s
  | .mbox d a => Sys2Proof.Machine.execMbox d a s
  | .mboxTry d a => Sys2Proof.Machine.execMboxTry d a s
  | .mboxSt d => Sys2Proof.Machine.execMboxSt d s
  | .gld d a b p => Sys2Proof.Machine.execGld d a b p s
  | .gst d a b p => Sys2Proof.Machine.execGst d a b p s
  | .gstep a b => Sys2Proof.Machine.execGstep a b s
  | .gwait a b => Sys2Proof.Machine.execGwait a b s
  | .gwaitOut a b => Sys2Proof.Machine.execGwaitOut a b s
  | .fmt sg g f => Sys2Proof.Machine.execFmt sg g f s
  | .trap c => Sys2Proof.Machine.execTrap c s
  | .brk c => Sys2Proof.Machine.execBrk c s
  | .sysrd n d => Sys2Proof.Machine.execSysrd n d s
  | .syswr n a => Sys2Proof.Machine.execSyswr n a s
  | .eret => Sys2Proof.Machine.execEret s
  | .tlbinv a b => Sys2Proof.Machine.execTlbinv a b s
  | .htset a b => Sys2Proof.Machine.execHtset a b s
  | .dtraceMark a => Sys2Proof.Machine.execDtraceMark a s
  | .dtraceBon => Sys2Proof.Machine.execDtraceBon s
  | .dtraceBoff => Sys2Proof.Machine.execDtraceBoff s
  | .dtraceSync => Sys2Proof.Machine.execDtraceSync s
  | .portEntryExecute core port => Sys2Proof.Machine.execPortEntryExecute core port s
  | .repPass core port => Sys2Proof.Machine.execRepPass core port s
  | .mxqWindowSubmit rec v => Sys2Proof.Machine.execMxqWindowSubmit rec v s
  | .mma core => Sys2Proof.Machine.execMma core s
  | .mmai core => Sys2Proof.Machine.execMmai core s
  | .mmaq core => Sys2Proof.Machine.execMmaq core s
  | .tload core => Sys2Proof.Machine.execTload core s
  | .tstore core => Sys2Proof.Machine.execTstore core s
  | .tzero core => Sys2Proof.Machine.execTzero core s
  | .tcfg core => Sys2Proof.Machine.execTcfg core s
  | .trow core => Sys2Proof.Machine.execTrow core s
  | .gangJoin core => Sys2Proof.Machine.execGangJoin core s
  | .gangJoinComplete core => Sys2Proof.Machine.execGangJoinComplete core s
  | .gangReduce core => Sys2Proof.Machine.execGangReduce core s
  | .scaleMissFill core => Sys2Proof.Machine.execScaleMissFill core s
  | .matrixCompletion core => Sys2Proof.Machine.execMatrixCompletion core s
  | .copy eng part q => Sys2Proof.Machine.execCopy eng part q s
  | .gather eng part q => Sys2Proof.Machine.execGather eng part q s
  | .scatter eng part q => Sys2Proof.Machine.execScatter eng part q s
  | .fill eng part q => Sys2Proof.Machine.execFill eng part q s
  | .reduce eng part q => Sys2Proof.Machine.execReduce eng part q s
  | .halox eng part q => Sys2Proof.Machine.execHalox eng part q s
  | .rcopy eng part q => Sys2Proof.Machine.execRcopy eng part q s
  | .notify eng part q => Sys2Proof.Machine.execNotify eng part q s
  | .copyPacketComplete pk => Sys2Proof.Machine.execCopyPacketComplete pk s
  | .copyHoldTimeout pk => Sys2Proof.Machine.execCopyHoldTimeout pk s
  | .watermarkAdvance pk => Sys2Proof.Machine.execWatermarkAdvance pk s
  | .mailboxPost pk => Sys2Proof.Machine.execMailboxPost pk s
  | .mailboxTimeout pk => Sys2Proof.Machine.execMailboxTimeout pk s
  | .launch part q => Sys2Proof.Machine.execLaunch part q s
  | .blockDispatch part core => Sys2Proof.Machine.execBlockDispatch part core s
  | .schedulerEpoch part => Sys2Proof.Machine.execSchedulerEpoch part s
  | .launchComplete l => Sys2Proof.Machine.execLaunchComplete l s
  | .qregRegister a => Sys2Proof.Machine.execQregRegister a s
  | .qregUnregister a => Sys2Proof.Machine.execQregUnregister a s
  | .tagArrival c => Sys2Proof.Machine.execTagArrival c s
  | .releaseMarkerComplete c => Sys2Proof.Machine.execReleaseMarkerComplete c s
  | .homeWrite src => Sys2Proof.Machine.execHomeWrite src s
  | .atomicAtPlace c => Sys2Proof.Machine.execAtomicAtPlace c s
  | .feResend c => Sys2Proof.Machine.execFeResend c s
  | .feLimit c => Sys2Proof.Machine.execFeLimit c s
  | .lrLockExpiry line => Sys2Proof.Machine.execLrLockExpiry line s
  | .streamIdleEnd unit k => Sys2Proof.Machine.execStreamIdleEnd unit k s
  | .bankmodeWrite clu v => Sys2Proof.Machine.execBankmodeWrite clu v s
  | .bankModeChangeDone clu bank => Sys2Proof.Machine.execBankModeChangeDone clu bank s
  | .fifoPush clu bank v => Sys2Proof.Machine.execFifoPush clu bank v s
  | .fifoPop clu bank => Sys2Proof.Machine.execFifoPop clu bank s
  | .haloFillStart k => Sys2Proof.Machine.execHaloFillStart k s
  | .haloFillComplete k => Sys2Proof.Machine.execHaloFillComplete k s
  | .sigmaUpdate m => Sys2Proof.Machine.execSigmaUpdate m s
  | .haloFillAbandon k cause => Sys2Proof.Machine.execHaloFillAbandon k cause s
  | .lehrDecide l => Sys2Proof.Machine.execLehrDecide l s
  | .instantLimit l => Sys2Proof.Machine.execInstantLimit l s
  | .frameApply l => Sys2Proof.Machine.execFrameApply l s
  | .signalEmission m => Sys2Proof.Machine.execSignalEmission m s
  | .signalRelease m => Sys2Proof.Machine.execSignalRelease m s
  | .signalQuery c => Sys2Proof.Machine.execSignalQuery c s
  | .channelWordArrival m => Sys2Proof.Machine.execChannelWordArrival m s
  | .exitNotice m => Sys2Proof.Machine.execExitNotice m s
  | .barrierArrival m => Sys2Proof.Machine.execBarrierArrival m s
  | .migrationArrival m => Sys2Proof.Machine.execMigrationArrival m s
  | .migrationResend m => Sys2Proof.Machine.execMigrationResend m s
  | .rcallArrival m => Sys2Proof.Machine.execRcallArrival m s
  | .loadLevellingInterval core => Sys2Proof.Machine.execLoadLevellingInterval core s
  | .llEntriesArrive m => Sys2Proof.Machine.execLlEntriesArrive m s
  | .pageWalk clu part host va => Sys2Proof.Machine.execPageWalk clu part host va s
  | .staWrite a => Sys2Proof.Machine.execStaWrite a s
  | .htbaseWrite a => Sys2Proof.Machine.execHtbaseWrite a s
  | .htlenWrite a => Sys2Proof.Machine.execHtlenWrite a s
  | .ptrootWrite a => Sys2Proof.Machine.execPtrootWrite a s
  | .capepochWrite a => Sys2Proof.Machine.execCapepochWrite a s
  | .pcapwhyWrite a => Sys2Proof.Machine.execPcapwhyWrite a s
  | .tracectlWrite a => Sys2Proof.Machine.execTracectlWrite a s
  | .traceptrWrite a => Sys2Proof.Machine.execTraceptrWrite a s
  | .ecauseWrite n a => Sys2Proof.Machine.execEcauseWrite n a s
  | .eventDelivery c => Sys2Proof.Machine.execEventDelivery c s
  | .watchdog c => Sys2Proof.Machine.execWatchdog c s
  | .spill part => Sys2Proof.Machine.execSpill part s
  | .restore part => Sys2Proof.Machine.execRestore part s
  | .save part => Sys2Proof.Machine.execSave part s
  | .patrolScrub g => Sys2Proof.Machine.execPatrolScrub g s
  | .controlStateError c => Sys2Proof.Machine.execControlStateError c s
  | .replayWaitTimeout part => Sys2Proof.Machine.execReplayWaitTimeout part s
  | .flitReceive port bytes => Sys2Proof.Machine.execFlitReceive port bytes s
  | .linkAckReceive port lseq nak => Sys2Proof.Machine.execLinkAckReceive port lseq nak s
  | .laneLossOfSignal port lanes => Sys2Proof.Machine.execLaneLossOfSignal port lanes s
  | .retrainComplete port r => Sys2Proof.Machine.execRetrainComplete port r s
  | .serviceRetrain port whole => Sys2Proof.Machine.execServiceRetrain port whole s
  | .linkStateUpdate node port up => Sys2Proof.Machine.execLinkStateUpdate node port up s
  | .fabricForward inPort pkt => Sys2Proof.Machine.execFabricForward inPort pkt s
  | .fabricRequestIngress pkt => Sys2Proof.Machine.execFabricRequestIngress pkt s
  | .fabricResponse pkt => Sys2Proof.Machine.execFabricResponse pkt s
  | .e2eResend c => Sys2Proof.Machine.execE2eResend c s
  | .remoteTimeout c => Sys2Proof.Machine.execRemoteTimeout c s
  | .revisionExchange node rev ops fmts => Sys2Proof.Machine.execRevisionExchange node rev ops fmts s
  | .reductionContribution c => Sys2Proof.Machine.execReductionContribution c s
  | .reductionRoundFail part hidx => Sys2Proof.Machine.execReductionRoundFail part hidx s
  | .capFrame bytes => Sys2Proof.Machine.execCapFrame bytes s
  | .thermalLimit => Sys2Proof.Machine.execThermalLimit s
  | .currentLimit => Sys2Proof.Machine.execCurrentLimit s
  | .thermalTrip => Sys2Proof.Machine.execThermalTrip s
  | .powerUp image => Sys2Proof.Machine.execPowerUp image s
  | .calibrationDone failed badChannels sizes => Sys2Proof.Machine.execCalibrationDone failed badChannels sizes s
  | .memoryInitDone => Sys2Proof.Machine.execMemoryInitDone s
  | .fwptrWrite v => Sys2Proof.Machine.execFwptrWrite v s
  | .attestationRequest rack => Sys2Proof.Machine.execAttestationRequest rack s
  | .hreqWrite part v => Sys2Proof.Machine.execHreqWrite part v s
  | .cxlMemRequest part op => Sys2Proof.Machine.execCxlMemRequest part op s
  | .liveFirmwareUpdate image => Sys2Proof.Machine.execLiveFirmwareUpdate image s
  | .dramChannelRetrain ch on => Sys2Proof.Machine.execDramChannelRetrain ch on s
  | .clusterRecalibration clu on => Sys2Proof.Machine.execClusterRecalibration clu on s
  | .clusterRetire clu => Sys2Proof.Machine.execClusterRetire clu s
  | .clusterRetireFinish clu => Sys2Proof.Machine.execClusterRetireFinish clu s
  | .partitionCreate p => Sys2Proof.Machine.execPartitionCreate p s
  | .illegalOpcode => Sys2Proof.Machine.execIllegalOpcode s
  | .osellTrainingEnd port whole => Sys2Proof.Machine.execOsellTrainingEnd port whole s
  | .thermalLimitRelease => Sys2Proof.Machine.execThermalLimitRelease s
  | .currentLimitRelease => Sys2Proof.Machine.execCurrentLimitRelease s
  | .hallKeyProvision key => Sys2Proof.Machine.execHallKeyProvision key s

end Sys2Proof.Machine
end

