-- ==== Sys2Proof/Machine/Due.lean ====
section
/-! DEFINITION. Sys2Proof/Machine/Due.lean: the device's own work that is due when the agenda is empty, in a fixed order (log 2):
replies, events, releases, traces, messages, engines, packets, fills, the fabric, ends of threads, epochs and intervals, launches, the lehr,
and waits that are over. Expiries of limits, cached walks, evictions and background writes come from the agenda only. -/

namespace Sys2Proof.Machine

/-- A step that changes something: the free draws and the running context do not count. -/
def State.changed (s t : State) : Option State :=
  if ({ t with fresh := s.fresh, cur := s.cur } : State) = s then none else some t

/-- A meaning, waiting for its state. -/
abbrev Act := State → Host.Outcome State Fault Refusal

/-- A device step, if it changes something. -/
def State.tryStep (s : State) (f : Act) : Option State :=
  match f s with
  | .next t => s.changed t
  | _ => none

/-- The first of some device steps that changes something. -/
def State.firstStep (s : State) (l : List Act) : Option State := l.findSome? (fun f => s.tryStep f)

/-- The numbers of a map's records that pass a test. -/
def keysOf {α : Type} (m : SMap α) (f : Nat → α → Bool) : List Nat := (m.filter (fun p => f p.1 p.2)).map (·.1)

/-! ## Threads -/

/-- A reply that has come is taken; an event is delivered (02 R32; 17 R392). -/
def State.dueReply (s : State) : Option State :=
  s.firstStep ((keysOf s.ctxs (fun _ x => x.wait.any (fun w => w.reply.isSome))).map (fun n => (execTagArrival n : Act))) <|>
  s.firstStep ((keysOf s.ctxs (fun c _ => (s.nextEvent c).isSome && s.canTake c)).map (fun n => (execEventDelivery n : Act)))

/-- A buffer's first marker completes; release stores and messages behind it follow (10 R210; 11 R245). A begun write-through
reaches its home. -/
def State.dueBuffers (s : State) : Option State :=
  s.firstStep ((keysOf s.ctxs (fun _ x => !x.buf.isEmpty)).map (fun n => (execReleaseMarkerComplete n : Act))) <|>
  (keysOf s.ctxs (fun _ x => !x.buf.isEmpty)).findSome? (fun c => s.changed (s.sendReady c)) <|>
  s.firstStep ((keysOf s.clus (fun _ k => !k.throughs.isEmpty)).map (fun k => execHomeWrite (.through k 0)))

/-- Trace records that wait go to the ring (17 R412). -/
def State.dueTrace (s : State) : Option State :=
  (keysOf s.parts (fun _ p => !p.traceq.isEmpty)).findSome? (fun p => s.changed (s.flushTrace p))

/-- The arrival of a message by its kind. -/
def arrivalOf (m : Msg) : Act :=
  match m.body with
  | .word _ _ | .wake _ | .close | .openS _ _ => execChannelWordArrival m.id
  | .emit _ _ _ => execSignalEmission m.id
  | .release _ _ _ => execSignalRelease m.id
  | .exitNotice _ _ _ _ _ => execExitNotice m.id
  | .barrier _ _ _ _ => execBarrierArrival m.id
  | .migrate => execMigrationArrival m.id
  | .rcall _ _ _ _ _ _ _ | .rreply _ _ _ => execRcallArrival m.id
  | .entries _ _ => execLlEntriesArrive m.id
  | .sigma _ _ _ => execSigmaUpdate m.id

/-- A message arrives. -/
def State.dueMessage (s : State) : Option State := s.firstStep (s.net.map arrivalOf)

/-! ## Engines -/

/-- A held bank that a matrix command's next access needs is saved (17 R405). -/
def State.saveHeads (s : State) : Option State :=
  (keysOf s.mats (fun _ m => !m.queue.isEmpty)).findSome? (fun k => (s.mat k).queue.findSome? (fun c =>
    match s.cmdMeet k c with
    | some (.held (.bank l) _ _) => s.changed (s.saveHeldAt l)
    | _ => none))

/-- A port's or a matrix unit's next work. -/
def State.dueEngine (s : State) : Option State :=
  s.saveHeads <|>
  s.firstStep ((keysOf s.ports (fun _ q => !q.queue.isEmpty)).map (fun k => execPortEntryExecute (k / 4) (k % 4))) <|>
  s.firstStep ((keysOf s.ports (fun _ q => q.rep.isSome)).map (fun k => execRepPass (k / 4) (k % 4))) <|>
  s.firstStep ((keysOf s.mats (fun _ m => !m.queue.isEmpty)).flatMap (fun k => [
    execMma k, execMmai k, execMmaq k, execTload k, execTstore k, execTzero k, execTcfg k, execTrow k, execGangJoin k, execGangJoinComplete k, execGangReduce k,
    execScaleMissFill k, execMatrixCompletion k]))

/-- The queues of live partitions: partition and place. -/
def State.queueList (s : State) : List (Nat × Nat) :=
  (s.parts.filter (fun p => p.2.live)).flatMap (fun p => (List.range p.2.queues.length).map (fun q => (p.1, q)))

/-- The first copy engine that serves a queue. -/
def State.engineFor (s : State) (p q : Nat) : Option Nat :=
  match (s.part p).queues[q]? with
  | none => none
  | some g =>
    match s.headerLoc p g.hdr with
    | none => none
    | some h => (List.range 48).find? (fun e => affinityTakes (s.part p) (s.queueAff h) e)

/-- Take a packet or a launch from a queue. -/
def State.dueQueue (s : State) : Option State :=
  s.queueList.findSome? (fun a =>
    s.firstStep ((match s.engineFor a.1 a.2 with
      | none => []
      | some e => [execCopy e a.1 a.2, execGather e a.1 a.2, execScatter e a.1 a.2, execFill e a.1 a.2, execReduce e a.1 a.2, execHalox e a.1 a.2,
                   execRcopy e a.1 a.2, execNotify e a.1 a.2]) ++ [execLaunch a.1 a.2]))

/-- A taken packet starts, goes on, sends its next request, posts its message or completes (12 R257 to R263). -/
def State.duePacket (s : State) : Option State :=
  (keysOf s.packets (fun _ c => c.fate.isNone)).findSome? (fun id =>
    s.changed (s.resumePk id) <|> s.changed (s.pumpPk id) <|>
      s.firstStep [execWatermarkAdvance id, execMailboxPost id, execCopyPacketComplete id])

/-- A halo fill starts, pushes or completes; a grid's messages leave (13 R281). -/
def State.dueFill (s : State) : Option State :=
  (keysOf s.fills (fun _ f => f.lost.isNone)).findSome? (fun k =>
    s.firstStep [execHaloFillStart k] <|> s.changed (s.pumpFill k) <|> s.firstStep [execHaloFillComplete k]) <|>
  (keysOf s.grids (fun _ g => !g.outq.isEmpty)).findSome? (fun g => s.changed (s.pumpGrid g))

/-- A buffered store goes out to a peer, a packet leaves the package, one that is held whole at a port goes on, or a link sends the
next one (18 R420, R425, R433, R434). -/
def State.dueFabric (s : State) : Option State :=
  s.changed s.pumpPeer <|>
  s.firstStep ((keysOf s.oports (fun _ o => !o.held.isEmpty)).flatMap (fun p => (s.oport p).held.map (fun q => execFabricForward p q))) <|>
  s.firstStep (s.pkg.outbox.map (fun q => execFabricForward 8 q)) <|>
  (keysOf s.oports (fun _ o => !o.sendq.isEmpty)).findSome? (fun p => s.changed (s.modOport p OPort.pump))

/-! ## Ends, launches and the lehr -/

/-- An exited thread's end goes on: its streams close, then its writes are published; a block ends; an arrival is admitted
(15 R342, R343, R354). -/
def State.dueEnds (s : State) : Option State :=
  (keysOf s.ctxs (fun _ x => decide (x.slot = .exited) && decide (x.ending < 2))).findSome? (fun c =>
    if (s.ctx c).ending = 0 then s.changed (s.closeThread c) else if s.canPublish c then s.changed (s.settleExit c) else none) <|>
  ((keysOf s.cores (fun k _ => s.blockOver k)).head?).map (fun k => s.endBlock k) <|>
  (keysOf s.cores (fun _ k => !k.arrivals.isEmpty)).findSome? (fun k => s.changed (s.admitNext k))

/-- A scheduler epoch ends for a waiting launch (15 R333); a balancing interval begins, and its entries are shipped (02 R35;
15 R356). -/
def State.dueClock (s : State) : Option State :=
  (keysOf s.launches (fun _ x => x.hasNext && decide (x.epochs ≠ s.epochsOf x))).findSome? (fun l =>
    s.firstStep [execSchedulerEpoch (s.launch l).part]) <|>
  (keysOf s.parts (fun _ q => q.live && (!q.llTodo.isEmpty || decide (q.llAt + q.interval ≤ s.refCycle)))).findSome? (fun p =>
    let q := s.part p
    let core := match q.llTodo with
      | e :: _ => e.1
      | [] => 4 * s.firstClu p
    s.firstStep [execLoadLevellingInterval core])

/-- A waiting launch becomes ready, a block takes a core, a launch completes (15 R332 to R338). -/
def State.dueLaunch (s : State) : Option State :=
  (keysOf s.parts (fun p _ => s.launches.any (fun x => decide (x.2.part = p ∧ x.2.st = .waiting)))).findSome? (fun p => s.changed (s.readyLaunches p)) <|>
  (keysOf s.parts (fun p _ => !(s.offers p).isEmpty)).findSome? (fun p =>
    s.firstStep ((s.part p).clusters.flatMap (fun k => (List.range 4).map (fun i => execBlockDispatch p (4 * k + i))))) <|>
  s.firstStep ((keysOf s.launches (fun _ x => decide (x.st = .ready ∨ x.st = .running))).map (fun n => (execLaunchComplete n : Act)))

/-- The lehr decides, a frame is applied (14 R296, R304). -/
def State.dueLehr (s : State) : Option State :=
  s.firstStep ((keysOf s.launches (fun _ x => decide (x.st = .ready ∨ x.st = .running))).flatMap (fun l => [execFrameApply l, execLehrDecide l]))

/-! ## Requests and waits -/

/-- Pre-emption requests (17 R402). -/
def State.dueCull (s : State) : Option State :=
  (keysOf s.parts (fun p q => q.live && (!q.cull.isEmpty || (s.cullTake p).isSome))).findSome? (fun p => s.firstStep [execSpill p, execRestore p, execSave p])

/-- A held bank that a waiting access needs is saved (17 R405). -/
def State.saveFor (s : State) (c : Nat) : Option State :=
  match (s.ctx c).wait.map (·.why) with
  | some (Why.bank l) =>
    let k := (l - sramBase) / 2 ^ 21
    ((s.clu k).holdOf ((l - sramBase) / 2 ^ 16 % 32)).map (fun h => s.saveBank k h)
  | _ => none

/-- A request at its place, a query, or a wait that is over. -/
def State.dueWait (s : State) : Option State :=
  (keysOf s.ctxs (fun _ x => decide (x.slot = Slot.blocked))).findSome? (fun c =>
    s.saveFor c <|> s.firstStep [execAtomicAtPlace c, execFeResend c, execSignalQuery c, execTagArrival c])

/-- The first device step that is due, taken. -/
def State.due (s : State) : Option (Host.Outcome State Fault Refusal) :=
  (s.dueReply <|> s.dueBuffers <|> s.dueTrace <|> s.dueMessage <|> s.dueEngine <|> s.dueQueue <|> s.duePacket <|> s.dueFill <|>
    s.dueFabric <|> s.dueEnds <|> s.dueClock <|> s.dueLaunch <|> s.dueLehr <|> s.dueCull <|> s.dueWait).map .next

/-! ## Room in a queue (02 R30) -/

/-- The major opcode of an instruction; a device step has none. -/
def majorOf (i : Instr) : Nat := (encode i).headD 0 / 4 % 128

/-- Whether the queue that an instruction needs has room: the port's queue of eight and, for `REP`, its buffer; the matrix
queue of four for `MXQ` and for a store that submits a record. -/
def State.roomFor (s : State) (c : Nat) (i : Instr) : Bool :=
  let x := s.ctx c
  let q := s.port (coreOf c) x.sta.port.toNat
  let mat := decide ((s.mat (coreOf c)).queue.length < 4)
  if 0x40 ≤ majorOf i ∧ majorOf i ≤ 0x5E then
    decide (x.sta.bind ≠ 1) || (decide (q.queue.length < 8) && (match i with | .rep _ _ _ => q.repBuf.isEmpty | _ => true))
  else
    match i with
    | .mxq _ _ => decide (x.sta.bind ≠ 2) || mat
    | .st _ _ z _ a p =>
      let ptr := x.reg a + dispW (szBytes z.toNat) p
      let off := ptr.toNat % 2 ^ 52
      decide (x.sta.bind ≠ 2) || decide (z ≠ 6) || decide (ptr.toNat / 2 ^ 52 ≠ 2) || decide (0x800 ≤ off ∨ off % 64 ≠ 0) || mat
    | _ => true

end Sys2Proof.Machine
end

