-- ==== Sys2Proof/Machine/Issue.lean ====
section
/-! DEFINITION. Sys2Proof/Machine/Issue.lean: which context issues next (02 R30, R31), fetching and decoding its
instruction (05 R69, R82), and a machine that runs a given word next. -/

namespace Sys2Proof.Machine

/-- Whether something outside the thread keeps it from issuing: its domain is frozen or waits for its frame (14 R296, R307), or
its cluster is being calibrated again or is retired (19 R446, R447). -/
def State.heldStill (s : State) (c : Nat) : Bool :=
  (s.ctx c).stopped || (s.clu (cluOf c)).recal || (s.clu (cluOf c)).retired || (decide ((s.ctx c).role = .member) && (s.domainOf c).any (fun d => d.2.awaiting))

/-- The arithmetic cycle of a core: its partition's (16 R366). -/
def State.coreCycle (s : State) (k : Nat) : Nat :=
  match s.partOf (k / 4) with
  | none => s.cycle
  | some p => s.acycle p

/-- Whether a core has an issue slot now: its clusters' clock has a cycle, and the core has not issued in it (02 R30; 16 R366). -/
def State.hasTurn (s : State) (k : Nat) : Bool :=
  (match s.partOf (k / 4) with | none => true | some p => (s.part p).beat) && decide ((s.core k).issued ≠ some (s.coreCycle k))

/-- Whether a context is eligible (02 R30): READY, from the cycle after the arrival that made it so, eight cycles after its
last issue, and room in the queue that its instruction needs. -/
def State.eligible (s : State) (c : Nat) : Bool :=
  let x := s.ctx c
  let now := s.coreCycle (coreOf c)
  decide (x.slot = .ready) && !s.heldStill c && decide (x.readyFrom ≤ now) &&
    (match x.lastIssue with | none => true | some t => decide (t + 8 ≤ now)) &&
    (if x.sta.bind = 0 then true
     else match s.nextInstr c with
       | .error _ => true
       | .ok i => s.roomFor c i)

/-- The context that a core issues from in a cycle in which it has an issue slot: the first eligible one from its pointer up,
modulo 16 (02 R31). -/
def State.pick (s : State) (k : Nat) : Option Nat :=
  if !s.hasTurn k then none
  else ((List.range 16).map (fun i => 16 * k + ((s.core k).rr + i) % 16)).find? (fun c => s.eligible c)

/-- The locations of one word of a context's code. -/
def State.wordLocs (s : State) (c : Nat) (ptr : Word) : List Nat :=
  let x := s.ctx c
  match s.resolve { clu := cluOf c, part := x.part, sup := x.sta.sup, ctx := c } ptr 4 needX with
  | .ok (.table e off) =>
    (match s.xlateRange (cluOf c) x.part (decide (e.space = 2)) x.sta.sup needX (e.base + off) 4 with
     | .ok segs => spanAll segs
     | .error _ => [])
  | _ => []

/-- A fetch meets the errors of the words that it reads: those that the device can correct are corrected (17 R408). -/
def State.fetchCorrect (s : State) (c : Nat) : State :=
  if s.soft.isEmpty then s
  else
    let pc := (s.ctx c).pc
    let n := match s.fetch c pc with
      | .ok ws => ws.length
      | .error (p, _) => (p - pc).toNat / 4
    s.correct ((List.range n).flatMap (fun i => s.wordLocs c (pc + BitVec.ofNat 64 (4 * i))))

/-- A core's issue slot is taken by context `c`: it becomes the running context, and the pointer moves past it (02 R31). -/
def State.takeSlot (s : State) (c : Nat) : State :=
  let now := s.coreCycle (coreOf c)
  let s1 := (s.fetchCorrect c).modCtx c (fun x => { x with lastIssue := some now })
  { s1.modCore (coreOf c) (fun k => { k with rr := (slotOf c + 1) % 16, issued := some now }) with cur := c, turn := coreOf c + 1 }

/-- A partition's arithmetic clock over one reference cycle: it gains `fmhz` parts of 940, and has a cycle when they make a
whole one (02 R3; 16 R366; log 8). -/
def Part.tick (q : Part) : Part :=
  let f := q.frac + q.fmhz
  if 940 ≤ f then { q with acyc := q.acyc + 1, frac := f - 940, beat := true } else { q with frac := f, beat := false }

/-- The next reference cycle: two network cycles, and a partition's arithmetic cycle as its clock runs (16 R366; log 8). -/
def State.tick (s : State) : State :=
  { s with cycle := s.cycle + 1, refCycle := s.refCycle + 1, netCycle := s.netCycle + 2, turn := 0,
           parts := s.parts.map (fun p => (p.1, p.2.tick)) }

/-! ## Fixed and variable latency (02 R32) -/

/-- The instructions of variable latency (02 R32; 08 R162; 10 R219, R229; 12 R265, R267, R268, R270; 14 R319, R321, R323; 15 R350; 16
R370, R377, R386). -/
def variableLatency (i : Instr) : Bool :=
  match i with
  | .ld .. | .ldc .. | .lr .. | .sc .. | .amoAdd .. | .amoAnd .. | .amoOr .. | .amoXor .. | .amoSwap .. | .amoMin .. | .amoMax .. | .amoMinn ..
  | .amoMaxn .. | .cas .. | .waitrs .. | .red .. | .xsrd .. | .ldfeRead .. | .ldfeTake .. | .stfePut .. | .stfeFill .. | .stfeClear .. | .rld ..
  | .rst .. | .ramo .. | .mxwait .. | .mxwaitAll .. | .cpwait .. | .cpwaitAll .. | .syncw .. | .syncwReset .. | .syncwait .. | .gwait ..
  | .gwaitOut .. | .recv .. | .semP .. | .bara .. | .barw .. | .rcall .. | .specc .. | .test .. | .testv .. | .mbox .. | .vcfg .. | .vcfgWr ..
  | .vcfgClr .. | .vld .. | .vst .. | .vgath .. | .vscat .. | .gld .. | .sigforce .. | .lehrw .. | .tlbinv .. | .emits .. | .cpq ..
  | .htbaseWrite .. | .htlenWrite .. | .ptrootWrite .. | .capepochWrite .. => true
  | .vmovx f .. => decide (f = 0 ∨ f = 2)
  | .syswr n _ => decide (0x100 ≤ n.toNat ∧ n.toNat ≤ 0x103)
  | _ => false

/-- Whether an instruction of a context has variable latency: so has `SHAPE` on a core that runs another launch (07 R141). -/
def State.variable (s : State) (c : Nat) (i : Instr) : Bool :=
  variableLatency i || (match i with
    | .shape .. => (s.ctx c).launch.isSome && decide ((s.core (coreOf c)).launch ≠ (s.ctx c).launch)
    | _ => false)

/-- An instruction of variable latency takes its context from READY to BLOCKED at issue (02 R32). Where its effect is done in the
step that issued it, its reply is already there, and the context issues again from the cycle after it is taken. -/
def State.blockIssued (s : State) (c : Nat) (i : Instr) : State :=
  if s.variable c i && decide ((s.ctx c).slot = .ready) then
    s.modCtx c (fun x => { x with slot := .blocked, wait := some { why := .reply, len := 0, reply := some { again := true } } })
  else s

/-- The machine at a core's next issue slot: this cycle's, or the next one's where the core has issued in this one (02 R30). -/
def State.turnOf (s : State) (k : Nat) : State := if (s.core k).issued = some (s.coreCycle k) then s.tick else s

/-- The cores that have a READY context, from the turn up. -/
def State.coresFrom (s : State) : List Nat :=
  ((s.ctxs.filter (fun p => decide (p.2.slot = .ready))).foldl (fun acc p => addNat acc (coreOf p.1)) []).filter
    (fun k => decide (s.turn ≤ k))

/-- The context that issues next in this cycle: each core has one slot, taken in core order (log 2). -/
def State.pickAny (s : State) : Option Nat := s.coresFrom.findSome? (fun k => s.pick k)

/-- Set up a partition 0 whose page tables map one page and whose handle 0x010 names code at physical address 0x8000, and
a READY context 0 of it whose pc is that handle's first byte (log 1). The words of the instruction stand there. -/
def State.placeWord (s : State) (nbits w : Nat) : State :=
  let pt (m : Memory) (a v : Nat) : Memory := m.writes ((span a 8).zip (leBytes 8 v))
  let m := pt (pt (pt (pt (pt s.mem 0x1000 0x2001) 0x2000 0x3001) 0x3000 0x4001) 0x4000 0x5001) 0x5000 0x7B
  let m := m.writes ((span 0x6200 32).zip (leBytes 32 (0x8000 + 0x1000 * 2 ^ 64 + (1 + 0x7F * 2 ^ 8 + 2 ^ 16) * 2 ^ 160)))
  let m := m.writes ((span 0x8000 20).zip (leBytes 20 (w % 2 ^ nbits)))
  let s := s.modPart 0 (fun p => { p with live := true, width := 4, table := List.range 16, clusters := List.range 16,
                                          htbase := 0x6000, htlen := 0x11, ptroot := 0x1000, beat := true })
  let s := s.modClu 0 (fun k => { k with tlb := k.tlb.filter (fun e => decide (e.part ≠ 0)),
                                         hcache := k.hcache.filter (fun e => decide (e.1 ≠ 0)),
                                         pcaps := k.pcaps.filter (fun e => decide (e.1 ≠ 0)), recal := false, retired := false })
  let s := s.modPkg (fun g => { g with tripped := false })
  let s := s.modCore 0 (fun k => { k with rr := 0, issued := none })
  let s := s.modCtx 0 (fun x => { x with slot := .ready, part := 0, pc := 0x0100000000000000, launch := none,
                                         lastIssue := none, readyFrom := 0, wait := none, stopped := false, role := .outside })
  { s with mem := m, poison := s.poison.filter (fun g => decide (0x1000 ≤ g)), agenda := [.issue 0],
           ecc := s.ecc.filter (fun g => decide (0x1000 ≤ g)), walks := s.walks.filter (fun e => decide (e.part ≠ 0)), turn := 0 }

end Sys2Proof.Machine
end

