-- ==== Sys2Proof/Machine/Step.lean ====
section
/-! DEFINITION. Sys2Proof/Machine/Step.lean: one step of the machine. -/

namespace Sys2Proof.Machine

/-- A context issues: its instruction is fetched, decoded and executed; a word that is no instruction faults
(05 R69, R81, R82). One of variable latency leaves its context BLOCKED (02 R32). -/
def issue (c : Nat) (s : State) : Host.Outcome State Fault Refusal :=
  let s1 := s.takeSlot c
  match s1.nextInstr c with
  | .error e => .next (s1.takeFault c e)
  | .ok i =>
    match exec i s1 with
    | .next t => .next (t.blockIssued c i)
    | o => o

/-- One step. The agenda's first turn, if there is one: a device step, a core's issue slot, in the next cycle if it has had this
one's, an upset, or a write of the host to its own memory. With an empty agenda: the device's own work that is due; else the next
context by the barrel rule, in this cycle or the next (log 2). While a thermal trip keeps core power away, only what has the standby
rail takes its turn (19 R449); a part that failed bring-up stays out of service (19 R442). -/
def step (s : State) : Host.Outcome State Fault Refusal :=
  match s.agenda with
  | .device i :: r => if s.pkg.tripped && !onStandby i then .next { s with agenda := r } else exec i { s with agenda := r }
  | .upset g double :: r => .next (({ s with agenda := r } : State).upset g double)
  | .copyError k line :: r => .next (({ s with agenda := r } : State).copyError k line)
  | .hostWrite pa bs :: r => .next (({ s with agenda := r } : State).hostWrite pa bs)
  | .issue k :: r =>
    if s.pkg.tripped then .next { s with agenda := r }
    else
    let s1 := ({ s with agenda := r } : State).turnOf k
    match s1.pick k with
    | some c => issue c s1
    | none => .next s1
  | [] =>
    if s.pkg.tripped then .fault .corePowerOff
    else if s.pkg.failed then .fault .bringUpFailed
    else
      match s.due with
      | some r => r
      | none =>
        match s.pickAny with
        | some c => issue c s
        | none =>
          match s.tick.pickAny with
          | some c => issue c s.tick
          | none => .next s.tick

/-- `s` with the instruction of the words of `w` as the one that the very next step runs. -/
def State.withFetchWord (s : State) (nbits w : Nat) : State := s.placeWord nbits w

end Sys2Proof.Machine
end

