-- ==== Sys2Proof/Safety.lean ====
section
/-! DEFINITION. Sys2Proof/Safety.lean: what a safe step and a well-kept state are, in the terms that claims use. -/

namespace Sys2Proof.Machine

/-- A step that gives a next state: the machine goes on. -/
def Runs (s : State) : Prop := ∃ t, step s = .next t

/-- What every step keeps: memory stands in its canonical form, and so do the sets of empty words, tagged granules, poisoned
granules and granules in error, as rising lists. -/
structure WellKept (s : State) : Prop where
  mem : s.mem.wf = true
  empties : s.empties.Pairwise (· < ·)
  mtags : s.mtags.Pairwise (· < ·)
  poison : s.poison.Pairwise (· < ·)
  ecc : s.ecc.Pairwise (· < ·)

/-- The running context's record. -/
def State.me (s : State) : Ctx := s.ctx s.cur

/-- The running thread's instruction completes in the ordinary way: no format prefix stands before it (05 R87), and no
single-step trap follows it (17 R399). -/
structure Plain (s : State) : Prop where
  prefix_ : s.me.sta.pp = false
  step_ : s.me.sta.ss = false ∨ s.me.sta.sup = true
  /-- No trap of an instruction before it is still to be taken. -/
  due : s.me.dueTrap = none

/-- Beside that, no branch record is due (17 R417), and the thread is not speculative (15 R357). -/
structure Calm (s : State) : Prop extends Plain s where
  trace : s.me.btrace = false
  spec : s.me.spec = none

/-- The machine after an instruction of `len` bytes of the running thread whose one effect on the thread's own record is `f`:
the pc has moved past the instruction, and nothing else has changed. -/
def State.after (s : State) (len : Nat) (f : Ctx → Ctx) : State :=
  s.modCtx s.cur (fun x => { f x with pc := (f x).pc + BitVec.ofNat 64 len })

/-- The machine after a transfer of control to `t`. -/
def State.afterJump (s : State) (t : Word) (f : Ctx → Ctx) : State := s.modCtx s.cur (fun x => { f x with pc := t })

/-- The bytes of memory that an instruction leaves: every location outside `ls`. -/
def SameMem (ls : List Nat) (s t : State) : Prop := ∀ l, l ∉ ls → t.mem.read l = s.mem.read l

/-- Every context but `c` is unchanged. -/
def SameOthers (c : Nat) (s t : State) : Prop := ∀ k, k ≠ c → t.ctx k = s.ctx k

end Sys2Proof.Machine
end

