-- ==== Sys2Proof/Certificates/Slice0/Obligations.lean ====
section
/-! DEFINITION. Sys2Proof/Certificates/Slice0/Obligations.lean: the statements for the provers, by family. A statement of a
result says the whole next state, so it is the instruction's frame too: what it does not name is unchanged. -/

section

open Sys2Proof Sys2Proof.Machine

/-! ## Scalar integers -/

/-- An instruction whose one effect is a register write completes: `d` takes `v`, and the pc moves past its `len` bytes. -/
def Claim.Puts (s : State) (i : Instr) (len : Nat) (d : Reg) (v : Word) : Prop :=
  exec i s = .next (s.after len (·.setReg d v))

/-- The running context takes a fault (17 R391, R392; what it does is `Obligations.EntrySavesAndJumps`). -/
def Claim.Faults (s : State) (i : Instr) (c : Cause) (addr info : Word) : Prop :=
  exec i s = .next (s.takeFault s.cur { code := c, addr := addr, info := info })

/-- The bits of a WW field (07 R128). -/
def Claim.bits (w : BitVec 2) : Nat := 64 >>> w.toNat

/-- An operation on the low bits of two words, zero-extended (07 R124). -/
def Claim.narrow (w : BitVec 2) (f : (k : Nat) → BitVec k → BitVec k → BitVec k) (x y : Word) : Word :=
  (f (Claim.bits w) (x.setWidth (Claim.bits w)) (y.setWidth (Claim.bits w))).setWidth 64

/-- A value held inside the signed range of `k` bits (06 R101). -/
def Claim.clamp (k : Nat) (v : Int) : BitVec k := BitVec.ofInt k (max (-(2 ^ (k - 1))) (min (2 ^ (k - 1) - 1) v))

/-- The condition codes 0 to 5 (07 R131). -/
def Claim.cond (c : BitVec 3) (x y : Word) : Bool :=
  match c.toNat with
  | 0 => x == y
  | 1 => x != y
  | 2 => x.slt y
  | 3 => !x.slt y
  | 4 => x.ult y
  | _ => !x.ult y

/-- 07 R128, R124: the ALU group at each width. -/
def Claim.AluResults : Prop :=
  ∀ (s : State) (w : BitVec 2) (d a b : Reg), Plain s →
    let put (i : Instr) (f : (k : Nat) → BitVec k → BitVec k → BitVec k) : Prop :=
      Claim.Puts s i 4 d (Claim.narrow w f (s.me.reg a) (s.me.reg b))
    put (.add w d a b) (fun _ p q => p + q) ∧ put (.sub w d a b) (fun _ p q => p - q) ∧
    put (.and w d a b) (fun _ p q => p &&& q) ∧ put (.or w d a b) (fun _ p q => p ||| q) ∧
    put (.xor w d a b) (fun _ p q => p ^^^ q) ∧ put (.andn w d a b) (fun _ p q => p &&& ~~~q) ∧
    put (.min w d a b) (fun _ p q => if p.toInt ≤ q.toInt then p else q) ∧
    put (.max w d a b) (fun _ p q => if p.toInt ≤ q.toInt then q else p) ∧
    put (.minn w d a b) (fun _ p q => if p.toNat ≤ q.toNat then p else q) ∧
    put (.maxn w d a b) (fun _ p q => if p.toNat ≤ q.toNat then q else p) ∧
    put (.adds w d a b) (fun k p q => Claim.clamp k (p.toInt + q.toInt)) ∧
    put (.subs w d a b) (fun k p q => Claim.clamp k (p.toInt - q.toInt))

/-- 07 R128, R130, R124: shifts and rotates by a register and by a constant count below the width. -/
def Claim.ShiftResults : Prop :=
  ∀ (s : State) (w : BitVec 2) (c : BitVec 6) (d a b : Reg), Plain s →
    let put (i : Instr) (f : (k : Nat) → BitVec k → BitVec k → BitVec k) : Prop :=
      Claim.Puts s i 4 d (Claim.narrow w f (s.me.reg a) (s.me.reg b))
    put (.shl w d a b) (fun k p q => p <<< (q.toNat % k)) ∧ put (.shr w d a b) (fun k p q => p >>> (q.toNat % k)) ∧
    put (.shra w d a b) (fun k p q => p.sshiftRight (q.toNat % k)) ∧
    put (.rot w d a b) (fun k p q => p.rotateRight (q.toNat % k)) ∧
    (c.toNat < Claim.bits w →
      put (.shiShl w c d a) (fun _ p _ => p <<< c.toNat) ∧ put (.shiShr w c d a) (fun _ p _ => p >>> c.toNat) ∧
      put (.shiShra w c d a) (fun _ p _ => p.sshiftRight c.toNat) ∧ put (.shiRot w c d a) (fun _ p _ => p.rotateRight c.toNat))

/-- The two together: `Claim.AluResults` and `Claim.ShiftResults`. -/
def Obligations.AluAndShiftResults : Prop := Claim.AluResults ∧ Claim.ShiftResults

/-- 07 R129, R131, R135 to R137: immediate operations in both forms, comparisons, selection, scaled addresses, constants. -/
def Claim.ImmediateResults : Prop :=
  ∀ (s : State) (c cc : BitVec 3) (d a b e : Reg) (v15 : BitVec 15) (v12 : BitVec 12) (l : Word), Plain s → cc.toNat < 6 →
    let x := s.me.reg a
    let y := s.me.reg b
    let one (t : Bool) : Word := if t then 1 else 0
    Claim.Puts s (.addi d a (.short v15)) 4 d (x + v15.signExtend 64) ∧ Claim.Puts s (.addi d a (.lit l)) 12 d (x + l) ∧
    Claim.Puts s (.andi d a (.short v15)) 4 d (x &&& v15.signExtend 64) ∧ Claim.Puts s (.andi d a (.lit l)) 12 d (x &&& l) ∧
    Claim.Puts s (.ori d a (.short v15)) 4 d (x ||| v15.signExtend 64) ∧ Claim.Puts s (.ori d a (.lit l)) 12 d (x ||| l) ∧
    Claim.Puts s (.xori d a (.short v15)) 4 d (x ^^^ v15.signExtend 64) ∧ Claim.Puts s (.xori d a (.lit l)) 12 d (x ^^^ l) ∧
    Claim.Puts s (.cmp cc d a b) 4 d (one (Claim.cond cc x y)) ∧
    Claim.Puts s (.cmpi cc d a (.short v12)) 4 d (one (Claim.cond cc x (v12.signExtend 64))) ∧
    Claim.Puts s (.cmpi cc d a (.lit l)) 12 d (one (Claim.cond cc x l)) ∧
    Claim.Puts s (.sel e d a b) 4 d (if s.me.reg e ≠ 0 then x else y) ∧
    Claim.Puts s (.lea c d a b) 4 d (x + y <<< c.toNat) ∧
    Claim.Puts s (.ldi d (.short v15)) 4 d (v15.signExtend 64) ∧ Claim.Puts s (.ldi d (.lit l)) 12 d l

/-- How many numbers below `n` come before the first that `p` holds of. -/
def Claim.run (p : Nat → Bool) (n : Nat) : Nat := ((List.range n).takeWhile (fun i => !p i)).length

/-- The word whose bit `i` is `p i`. -/
def Claim.wordOf (p : Nat → Bool) : Word := BitVec.ofNat 64 ((List.range 64).map (fun i => (p i).toNat * 2 ^ i)).sum

/-- 07 R132, R133; 06 R102: multiplication, division with its corners, and bit counts and reversals. -/
def Claim.MulDivBitsResults : Prop :=
  ∀ (s : State) (d a b : Reg), Plain s →
    let x := s.me.reg a
    let y := s.me.reg b
    Claim.Puts s (.mul d a b) 4 d (x * y) ∧
    Claim.Puts s (.mulh d a b) 4 d (((x.signExtend 128 * y.signExtend 128) >>> 64).setWidth 64) ∧
    Claim.Puts s (.mulhn d a b) 4 d (((x.setWidth 128 * y.setWidth 128) >>> 64).setWidth 64) ∧
    Claim.Puts s (.mad d a b) 4 d (s.me.reg d + x * y) ∧
    Claim.Puts s (.div d a b) 4 d (if y = 0 then -1 else x.sdiv y) ∧
    Claim.Puts s (.divn d a b) 4 d (if y = 0 then -1 else x / y) ∧
    Claim.Puts s (.rem d a b) 4 d (if y = 0 then x else x.srem y) ∧
    Claim.Puts s (.remn d a b) 4 d (if y = 0 then x else x % y) ∧
    Claim.Puts s (.clz d a) 4 d (BitVec.ofNat 64 (Claim.run (fun i => x.getLsbD (63 - i)) 64)) ∧
    Claim.Puts s (.ctz d a) 4 d (BitVec.ofNat 64 (Claim.run x.getLsbD 64)) ∧
    Claim.Puts s (.popc d a) 4 d (BitVec.ofNat 64 ((List.range 64).countP x.getLsbD)) ∧
    Claim.Puts s (.brev d a) 4 d (Claim.wordOf (fun i => x.getLsbD (63 - i))) ∧
    Claim.Puts s (.bswap d a) 4 d (Claim.wordOf (fun i => x.getLsbD (8 * (7 - i / 8) + i % 8)))

/-- 07 R134: bit fields. -/
def Claim.FieldResults : Prop :=
  ∀ (s : State) (l p : BitVec 6) (d a : Reg), Plain s → p.toNat + l.toNat + 1 ≤ 64 →
    let x := s.me.reg a
    let n := l.toNat + 1
    Claim.Puts s (.extb 0 l p d a) 4 d ((x.extractLsb' p.toNat n).setWidth 64) ∧
    Claim.Puts s (.extb 1 l p d a) 4 d ((x.extractLsb' p.toNat n).signExtend 64) ∧
    Claim.Puts s (.insb l p d a) 4 d (Claim.wordOf (fun i =>
      if p.toNat ≤ i ∧ i < p.toNat + n then x.getLsbD (i - p.toNat) else (s.me.reg d).getLsbD i))

/-- The two together: `Claim.MulDivBitsResults` and `Claim.FieldResults`. -/
def Obligations.MultiplyDivideAndFieldResults : Prop := Claim.MulDivBitsResults ∧ Claim.FieldResults

/-- 07 R138 to R142; 02 R19, R20: a thread's identity, and the selectors that fault. -/
def Claim.IdentityResults : Prop :=
  ∀ (s : State) (d a : Reg), Plain s →
    let v := s.me.reg a
    let n := v.toNat
    let pe := s.fieldWords s.cur
    let wid := s.me.wid.toNat
    let width (k : Nat) : Nat := pe.1 / 2 ^ (7 * k) % 128
    let base (k : Nat) : Nat := ((List.range k).map width).sum
    let field (k : Nat) : Nat := wid / 2 ^ base k % 2 ^ width k
    let extent (k : Nat) : Nat := pe.2 / 2 ^ base k % 2 ^ width k + 1
    (n < 6 → Claim.Puts s (.widf d a) 4 d (BitVec.ofNat 64 (field n))) ∧
    (8 ≤ n → n < 14 → Claim.Puts s (.widf d a) 4 d (BitVec.ofNat 64 (extent (n - 8)))) ∧
    (n = 6 ∨ n = 7 ∨ 14 ≤ n → Claim.Faults s (.widf d a) Cause.reservedBits 0 v) ∧
    (n < 8 → Claim.Puts s (.locid d a) 4 d (BitVec.ofNat 64 (match n with
      | 0 => s.cur % 16
      | 1 => s.cur / 16 % 4
      | 2 => s.cur / 64 % 128
      | 3 => s.cur / 8192
      | 4 => s.cur / 16
      | 5 => s.cur
      | 6 => s.me.part
      | _ => (s.part s.me.part).clusters.countP (fun q => decide (q < s.cur / 64))))) ∧
    (8 ≤ n → Claim.Faults s (.locid d a) Cause.reservedBits 0 v) ∧
    (let r := s.shapeOf s.cur
     let t := n / 8
     let j := n / 2 % 4
     let o := 16 + 40 * t + 10 * j
     let ext := recN r o 4
     let blk := recN r (o + 4) 4
     let fld := recN r (o + 8) 1
     let bs := if blk = 0 then (ext + extent fld - 1) / extent fld else blk
     let lo := if fld = 255 then 0 else min (field fld * bs) ext
     let hi := if fld = 255 then ext else min (lo + bs) ext
     let ok := n < 64 ∧ t < recN r 0 1 ∧ j < recN r (1 + t) 1 ∧ (fld = 255 ∨ fld ≤ 5)
     (ok → Claim.Puts s (.shape d a) 4 d (BitVec.ofNat 64 (if n % 2 = 1 then hi else lo))) ∧
     (¬ ok → Claim.Faults s (.shape d a) Cause.reservedBits 0 v))

/-- The two together: `Claim.ImmediateResults` and `Claim.IdentityResults`. -/
def Obligations.ImmediateAndIdentityResults : Prop := Claim.ImmediateResults ∧ Claim.IdentityResults

/-! ## Scalar floating point -/

/-- A float instruction completes: the low bits of `d` take the result, and the flags are raised with it (07 R126). -/
def Claim.PutsF (s : State) (i : Instr) (d : Reg) (r : Nat × BitVec 5) : Prop :=
  exec i s = .next (s.after 4 (fun x => (x.setReg d (BitVec.ofNat 64 r.1)).raise r.2))

/-- The rounding mode of an RR field (07 R143). -/
def Claim.rounding (s : State) (r : BitVec 2) : Nat :=
  match r.toNat with
  | 0 => s.me.sta.rm.toNat
  | 1 => 0
  | 2 => 1
  | _ => 4

/-- 07 R143, R144; 06 R106, R107: the float arithmetic of the scalar side. Each sum, product and fused sum is formed exactly
and rounded once; an operation that makes a NaN of operands that are none raises NV. -/
def Claim.FloatArithmetic : Prop :=
  ∀ (s : State) (f : BitVec 3) (r : BitVec 2) (d a b : Reg), Plain s → f.toNat < 4 →
    let g := fffFmt f.toNat
    let x := (s.me.reg a).toNat
    let y := (s.me.reg b).toNat
    let z := (s.me.reg d).toNat
    let m := Claim.rounding s r
    let made (v : FVal) (from_ : List FVal) : BitVec 5 := if v = .nan ∧ FVal.nan ∉ from_ then fNV else 0
    let once (v : FVal) (from_ : List FVal) : Nat × BitVec 5 :=
      ((roundF g m false v).1, (roundF g m false v).2 ||| made v from_)
    Claim.PutsF s (.fadd f r d a b) d (once (fSum m (g.value x) (g.value y)) [g.value x, g.value y]) ∧
    Claim.PutsF s (.fsub f r d a b) d (once (fSum m (g.value x) (g.value y).neg) [g.value x, g.value y]) ∧
    Claim.PutsF s (.fmul f r d a b) d (once (fProd (g.value x) (g.value y)) [g.value x, g.value y]) ∧
    Claim.PutsF s (.fdiv f r d a b) d (fDiv g m false x y) ∧ Claim.PutsF s (.fsqrt f r d a) d (fSqrt g m false x) ∧
    Claim.PutsF s (.fma f r d a b) d (fMad g m false x y z)

/-- 07 R143, R145, R147; 06 R104, R107: the float operations that round nothing and set no flag. -/
def Claim.FloatExactOperations : Prop :=
  ∀ (s : State) (f c : BitVec 3) (r : BitVec 2) (d a b : Reg), Plain s → f.toNat < 4 → c.toNat < 5 →
    let g := fffFmt f.toNat
    let x := (s.me.reg a).toNat % 2 ^ g.width
    let y := (s.me.reg b).toNat % 2 ^ g.width
    let top := 2 ^ (g.eb + g.fb)
    let nx := decide (g.value x = .nan)
    let ny := decide (g.value y = .nan)
    let signed (n : Nat) : Nat := if nx then g.qnan else x % top + n * top
    let below := fLess (g.value x) (g.value y)
    let above := fLess (g.value y) (g.value x)
    let under := below || (!above && decide (top ≤ x) && decide (y < top))
    let least := if nx then (if ny then g.qnan else y) else if ny then x else if under then x else y
    let most := if nx then (if ny then g.qnan else y) else if ny then x else if under then y else x
    Claim.PutsF s (.fabs f r d a) d (signed 0, 0) ∧ Claim.PutsF s (.fneg f r d a) d (signed (1 - x / top), 0) ∧
    Claim.PutsF s (.fcpys f r d a b) d (signed (y / top), 0) ∧
    Claim.PutsF s (.fmin f r d a b) d (least, 0) ∧ Claim.PutsF s (.fmax f r d a b) d (most, 0) ∧
    Claim.Puts s (.fcmp f c d a b) 4 d (if (match c.toNat with
      | 0 => !nx && !ny && !below && !above
      | 1 => nx || ny || below || above
      | 2 => !nx && !ny && below
      | 3 => !nx && !ny && !above
      | _ => nx || ny) then 1 else 0) ∧
    Claim.Puts s (.fclass f d a) 4 d (BitVec.ofNat 64 (2 ^ (
      let e := x / 2 ^ g.fb % 2 ^ g.eb
      let h := x % 2 ^ g.fb
      let p := x < top
      if e = 2 ^ g.eb - 1 then (if h ≠ 0 then 8 else if p then 7 else 0)
      else if e ≠ 0 then (if p then 6 else 1)
      else if h ≠ 0 then (if p then 5 else 2)
      else if p then 4 else 3)))

/-- The two together: `Claim.FloatArithmetic` and `Claim.FloatExactOperations`. -/
def Claim.FloatResults : Prop := Claim.FloatArithmetic ∧ Claim.FloatExactOperations

/-- 07 R146; 06 R106, R108: conversions. -/
def Claim.ConversionResults : Prop :=
  ∀ (s : State) (rt : BitVec 1) (t k : BitVec 5) (d a : Reg), Plain s →
    5 ≤ t.toNat → t.toNat ≤ 12 → 5 ≤ k.toNat → k.toNat ≤ 12 → 9 ≤ t.toNat ∨ 9 ≤ k.toNat →
    let m := if rt = 1 then 1 else s.me.sta.rm.toNat
    let x := s.me.reg a
    let v : FVal := match k.toNat with
      | 5 => .ofInt (x.setWidth 32).toInt
      | 6 => .ofInt (x.setWidth 32).toNat
      | 7 => .ofInt x.toInt
      | 8 => .ofInt x.toNat
      | 9 => fF16.value x.toNat
      | 10 => fBf16.value x.toNat
      | 11 => fF32.value x.toNat
      | _ => fF64.value x.toNat
    let whole (w : Nat) (lo hi : Int) : Nat × BitVec 5 :=
      let fit (i : Int) : Nat := (BitVec.ofInt w i).toNat
      match v with
      | .nan => (0, fNV)
      | .inf n => (fit (if n then lo else hi), fNV)
      | .fin n p e st =>
        let u := roundAt m n p e 0 st
        let i : Int := if n then -(u.1 : Int) else u.1
        if i < lo then (fit lo, fNV) else if hi < i then (fit hi, fNV) else (fit i, if u.2 then fNX else 0)
    Claim.PutsF s (.fcvt rt t k d a) d (match t.toNat with
      | 5 => whole 32 (-(2 ^ 31)) (2 ^ 31 - 1)
      | 6 => whole 32 0 (2 ^ 32 - 1)
      | 7 => whole 64 (-(2 ^ 63)) (2 ^ 63 - 1)
      | 8 => whole 64 0 (2 ^ 64 - 1)
      | 9 => roundF fF16 m false v
      | 10 => roundF fBf16 m false v
      | 11 => roundF fF32 m false v
      | _ => roundF fF64 m false v)

/-- The two together: `Claim.FloatResults` and `Claim.ConversionResults`. -/
def Obligations.FloatAndConversionResults : Prop := Claim.FloatResults ∧ Claim.ConversionResults

/-- 06 R103 to R106: a value that a format holds is rounded to itself, in every mode, and raises nothing; a NaN becomes the
canonical one. -/
def Claim.RoundingKeepsWhatFits : Prop :=
  ∀ (f rm a : Nat) (st : Bool), rm < 5 →
    let g := fffFmt f
    roundF g rm st (g.value a) = (if g.value a = .nan then g.qnan else a % 2 ^ g.width, 0)

/-- 06 R107: what the invalid operations and a division by zero give, for each format and mode. -/
def Claim.InvalidOperations : Prop :=
  ∀ (f rm a b : Nat) (st : Bool),
    let g := fffFmt f
    let x := g.value a
    let y := g.value b
    let nv : Nat × BitVec 5 := (g.qnan, fNV)
    (∀ n, x = .inf n → y = .inf (!n) → fAdd g rm st a b = nv) ∧ (∀ n, x = .inf n → y = .inf n → fSub g rm st a b = nv) ∧
    (x.isZero → y.isInf → fMul g rm st a b = nv ∧ ∀ d, (fMad g rm st a b d) = nv) ∧
    (x.isInf → y.isZero → fMul g rm st a b = nv ∧ ∀ d, (fMad g rm st a b d) = nv) ∧
    (x.isZero → y.isZero → fDiv g rm st a b = nv) ∧ (x.isInf → y.isInf → fDiv g rm st a b = nv) ∧
    (x.isNan = false → x.isNeg → x.isZero = false → fSqrt g rm st a = nv) ∧
    (x.isNan = false → x.isInf = false → x.isZero = false → y.isZero →
      fDiv g rm st a b = (g.inf (x.isNeg != y.isNeg), fDZ))

/-- The two together: `Claim.RoundingKeepsWhatFits` and `Claim.InvalidOperations`. -/
def Claim.RoundingAndInvalidOperations : Prop := Claim.RoundingKeepsWhatFits ∧ Claim.InvalidOperations

/-- 07 R148; 06 R120 to R122: the approximate functions complete with the bits that 06 R121 and R122 fix; and the special and
exact cases of 06 R122 come before the table: NaN, the poles, the invalid operands, and the infinities. -/
def Claim.ApproximateFunctions : Prop :=
  ∀ (s : State) (f : BitVec 3) (d a : Reg), Plain s → 1 ≤ f.toNat → f.toNat ≤ 3 →
    let g := fffFmt f.toNat
    let x := (s.me.reg a).toNat
    let v := g.value x
    let one : Nat := g.bias * 2 ^ g.fb
    let nan : Nat × BitVec 5 := (g.qnan, 0)
    let bad : Nat × BitVec 5 := (g.qnan, fNV)
    (Claim.PutsF s (.rcp f d a) d (apxRcp g x) ∧ Claim.PutsF s (.rsq f d a) d (apxRsq g x) ∧
     Claim.PutsF s (.exp2 f d a) d (apxExp2 g x) ∧ Claim.PutsF s (.log2 f d a) d (apxLog2 g x) ∧
     Claim.PutsF s (.sinpi f d a) d (apxSinpi g x) ∧ Claim.PutsF s (.cospi f d a) d (apxCospi g x) ∧
     Claim.PutsF s (.tanh f d a) d (apxTanh g x) ∧ Claim.PutsF s (.sigm f d a) d (apxSigm g x)) ∧
    (v.isNan → ∀ fn < 8, apx fn g x = nan) ∧
    (v.isZero → apxRcp g x = (g.inf v.isNeg, fDZ) ∧ apxRsq g x = (g.inf v.isNeg, fDZ) ∧ apxLog2 g x = (g.inf true, fDZ) ∧
      apxExp2 g x = (one, 0) ∧ apxTanh g x = (g.zero v.isNeg, 0) ∧ apxSinpi g x = (g.zero v.isNeg, 0) ∧ apxCospi g x = (one, 0)) ∧
    (v.isNan = false → v.isNeg → v.isZero = false → apxRsq g x = bad ∧ apxLog2 g x = bad) ∧
    (v.isInf → apxSinpi g x = bad ∧ apxCospi g x = bad ∧ apxRcp g x = (g.zero v.isNeg, 0) ∧
      apxTanh g x = (one + v.isNeg.toNat * 2 ^ (g.eb + g.fb), 0) ∧
      apxExp2 g x = (if v.isNeg then 0 else g.inf false, 0) ∧ apxSigm g x = (if v.isNeg then 0 else one, 0))

/-- The two together: `Claim.RoundingAndInvalidOperations` and `Claim.ApproximateFunctions`.
Where the spec leaves the matter open it follows the model's choices and readings of log 7. -/
def Obligations.RoundingAndApproximateFunctions : Prop := Claim.RoundingAndInvalidOperations ∧ Claim.ApproximateFunctions

/-! ## Control transfer, and the end of a thread -/

/-- A transfer of control to `t` completes, with `f` done to the thread's registers. -/
def Claim.Goes (s : State) (i : Instr) (t : Word) (f : Ctx → Ctx) : Prop := exec i s = .next (s.afterJump t f)

/-- 07 R149 to R153, R155: transfers take effect whole, or fault with MISALIGNED and nothing changed; a branch not taken and a
table index out of range go on at the next instruction. -/
def Obligations.TransfersTakeEffectWhole : Prop :=
  ∀ (s : State) (o23 : BitVec 23) (o12 : BitVec 12) (l : Word) (cc : BitVec 3) (d a b : Reg) (n : BitVec 32) (t : BitVec 30),
    Plain s → s.me.btrace = false → cc.toNat < 6 →
    let pc := s.me.pc
    let x := s.me.reg a
    let go (i : Instr) (t : Word) (f : Ctx → Ctx) : Prop :=
      (t.extractLsb' 0 2 = 0#2 → Claim.Goes s i t f) ∧ (t.extractLsb' 0 2 ≠ 0#2 → Claim.Faults s i Cause.misaligned t 0)
    let when (p : Bool) (i : Instr) (len : Nat) (t : Word) : Prop :=
      (p = true → go i t id) ∧ (p = false → exec i s = .next (s.after len id))
    go (.br (.short o23)) (pc + 4 * o23.signExtend 64) id ∧ go (.br (.lit l)) (pc + 4 * l) id ∧
    go (.call (.short o23)) (pc + 4 * o23.signExtend 64) (·.setReg 15 (pc + 4)) ∧
    go (.call (.lit l)) (pc + 4 * l) (·.setReg 15 (pc + 12)) ∧
    when (Claim.cond cc x (s.me.reg b)) (.bc cc b a (.short o12)) 4 (pc + 4 * o12.signExtend 64) ∧
    when (Claim.cond cc x (s.me.reg b)) (.bc cc b a (.lit l)) 12 (pc + 4 * l) ∧
    when (Claim.cond cc x 0) (.bz cc a (.short o12)) 4 (pc + 4 * o12.signExtend 64) ∧
    when (Claim.cond cc x 0) (.bz cc a (.lit l)) 12 (pc + 4 * l) ∧
    go (.jmpr a) x id ∧ go (.ret a) x id ∧ go (.callr d a) x (·.setReg d (pc + 4)) ∧
    (n.toNat ≤ x.toNat → exec (.jtab a n t) s = .next (s.after 12 id)) ∧
    (x.toNat < n.toNat → ∀ e : Nat,
      let p := pc + 4 * t.signExtend 64 + 4 * x
      s.fetchWord s.cur s.me.sta.sup p = .ok e →
        go (.jtab a n t) (pc + 4 * (BitVec.ofNat 32 e).signExtend 64) id) ∧
    (x.toNat < n.toNat → ∀ k : Cause,
      let p := pc + 4 * t.signExtend 64 + 4 * x
      s.fetchWord s.cur s.me.sta.sup p = .error k →
        Claim.Faults s (.jtab a n t) Cause.tableFetch p (k.setWidth 64))

/-- 07 R155: `NOP` is the word 0x0000_007C. It changes nothing but pc, and it takes one issue slot. -/
def Obligations.NopChangesOnlyPc : Prop :=
  decode [0x0000007C] = .ok .nop ∧ (∀ w < 2 ^ 32, decode [w] = .ok .nop → w = 0x7C) ∧
  ∀ s : State, Plain s → exec .nop s = .next (s.modCtx s.cur (fun x => { x with pc := x.pc + 4 }))

/-- 07 R154: `EXIT` ends a thread whose engine, if it has one, has drained: the context is EXITED with the code, and nothing is
published early. One that runs a speculative iteration faults; one whose engine has not drained waits. -/
def Claim.ExitEndsTheThread : Prop :=
  ∀ (s : State) (c : BitVec 8), s.me.sta.pp = false →
    let busy := match engineOf s.me.sta.bindCode with
      | none => false
      | some e => !s.drained (coreOf s.cur) e
    (s.me.sta.spec = true → Claim.Faults s (.exit c) Cause.specLimit 0 0) ∧
    (s.me.sta.spec = false → busy = false → ∃ t, exec (.exit c) s = .next t ∧
      (t.ctx s.cur).slot = .exited ∧ (t.ctx s.cur).code = c ∧ t.mem = s.mem) ∧
    (s.me.sta.spec = false → busy = true → exec (.exit c) s = .next (s.block s.cur .drain 4))

/-- 05 R85, R86, R87: `FMT` puts its fields into `STA.PFX` and sets PP, and does nothing else; while PP = 1 an instruction that takes
no format, a second `FMT` among them, faults with PREFIX_ORPHAN. -/
def Claim.FmtSetsThePrefix : Prop :=
  ∀ (s : State) (sg : BitVec 1) (g : BitVec 2) (f : BitVec 5),
    (Calm s → exec (.fmt sg g f) s = .next (s.after 4 (fun x => { x with sta := { x.sta with pp := true, pfx := sg ++ g ++ f } }))) ∧
    (s.me.sta.pp = true → ∀ i ∈ ([.fmt sg g f, .nop, .exit 0, .ldi 1 (.short 0), .br (.short 0), .trap 0, .brk 0, .sysrd 0 1,
        .pause, .mxwaitAll, .cpwaitAll, .endw, .specc] : List Instr), Claim.Faults s i Cause.prefixOrphan 0 0) ∧
    (s.me.sta.pp = true → s.me.sta.sup = true → ∀ i ∈ ([.eret, .sysrd 1 1, .dtraceSync, .tlbinv 1 2] : List Instr),
      Claim.Faults s i Cause.prefixOrphan 0 0)

/-- The two together: `Claim.ExitEndsTheThread` and `Claim.FmtSetsThePrefix`. -/
def Obligations.ExitAndFmt : Prop := Claim.ExitEndsTheThread ∧ Claim.FmtSetsThePrefix

/-! ## Exceptions -/

/-- 17 R392: delivery enters the handler in the same context, whatever the cause. -/
def Obligations.EntrySavesAndJumps : Prop :=
  ∀ (s : State) (c kind : Nat) (epc : Word) (e : Exc) (w : Nat), kind < 3 →
    let x := s.ctx c
    s.fetchWord c true (x.hvec + BitVec.ofNat 64 (64 * e.code.toNat)) = .ok w →
    let t := s.enter c kind epc e
    let y := t.ctx c
    y.esta = x.sta.toWord ∧ y.epc = epc ∧
    y.ecause = (BitVec.ofBool x.ih ++ 0#3 ++ BitVec.ofNat 2 kind ++ e.code).setWidth 64 ∧ y.eaddr = e.addr ∧ y.einfo = e.info ∧
    y.sta = { x.sta with pp := false, pfx := 0, ss := false, sup := true } ∧ y.ih = true ∧
    y.pc = x.hvec + BitVec.ofNat 64 (64 * e.code.toNat) ∧
    y.x = x.x ∧ y.tags = x.tags ∧ y.buf = x.buf ∧ y.slot = .ready ∧ t.mem = s.mem ∧ SameOthers c s t

/-- 17 R395, R397: a delivery whose vector cannot be fetched ends the context with code 254, and the service context and the management
controller, or for the service context itself the controller alone, receive MACHINE_CHECK; where the context has entries in its
buffer, it first stays BLOCKED until they have been written. -/
def Claim.UndeliverableEndsTheContext : Prop :=
  ∀ (s : State) (c kind : Nat) (epc : Word) (e : Exc) (k : Cause),
    let x := s.ctx c
    let sc := s.serviceCtx x.part
    s.fetchWord c true (x.hvec + BitVec.ofNat 64 (64 * e.code.toNat)) = .error k →
    let t := s.enter c kind epc e
    let mc : Exc := { code := Cause.machineCheck, info := BitVec.ofNat 64 (c + e.code.toNat * 2 ^ 16 + 1 * 2 ^ 22) }
    t.mem = s.mem ∧ (t.ctx c).buf = x.buf ∧
    (x.buf = [] → (t.ctx c).slot = .exited ∧ (t.ctx c).code = 254 ∧
      t.pkg.controller = s.pkg.controller ++ [(mc.code, mc.addr, mc.info)] ∧ (c ≠ sc → (t.ctx sc).held = insEvent mc (s.ctx sc).held)) ∧
    (x.buf ≠ [] → (t.ctx c).slot = .blocked ∧ (t.ctx c).wait = some { why := .lost 254 mc } ∧ t.pkg = s.pkg) ∧
    (∀ u : State, (u.ctx c).wait = some { why := .lost 254 mc } → (u.clu (cluOf c)).recal = false →
      u.heldBack c 2 (entriesOf (u.ctx c).buf) = false → exec (.tagArrival c) u = .next ((u.drainAll c).endLost c 254 mc))

/-- 17 R394: of the events that a context holds, MACHINE_CHECK goes first and the rest in ascending code; events of one cause stay in
the order in which they came. -/
def Claim.EventsInDeliveryOrder : Prop :=
  ∀ (l : List Exc) (e : Exc),
    let key (x : Exc) : Nat := if x.code = Cause.machineCheck then 0 else 1 + x.code.toNat
    l.Pairwise (fun a b => key a ≤ key b) →
      (insEvent e l).Pairwise (fun a b => key a ≤ key b) ∧ (insEvent e l).Perm (e :: l) ∧
      (insEvent e l).filter (fun x => decide (key x = key e)) = l.filter (fun x => decide (key x = key e)) ++ [e]

/-- The two together: `Claim.UndeliverableEndsTheContext` and `Claim.EventsInDeliveryOrder`. -/
def Obligations.DeliveryOfEvents : Prop := Claim.UndeliverableEndsTheContext ∧ Claim.EventsInDeliveryOrder

/-- 17 R398: `TRAP` completes and then traps with SOFTWARE_TRAP, and `BRK` faults with BREAKPOINT; each gives its code in EINFO.
Other LEN encodings of the two are illegal, and A and D are reserved. -/
def Obligations.TrapAndBreakpoint : Prop :=
  (∀ c : BitVec 15, encode (.trap c) = [c.toNat * 2 ^ 17 + 0x75 * 4] ∧ encode (.brk c) = [c.toNat * 2 ^ 17 + 0x76 * 4] ∧
    decode [c.toNat * 2 ^ 17 + 0x75 * 4] = .ok (.trap c) ∧ decode [c.toNat * 2 ^ 17 + 0x76 * 4] = .ok (.brk c)) ∧
  (∀ w : Nat, w / 4 % 128 = 0x75 ∨ w / 4 % 128 = 0x76 → w % 4 ≠ 0 → ∀ r, 4 ≤ r.length → decode (w :: r) = .error .illegalOpcode) ∧
  (∀ w : Nat, w < 2 ^ 32 → w / 4 % 128 = 0x75 ∨ w / 4 % 128 = 0x76 → w % 4 = 0 → w / 2 ^ 9 % 256 ≠ 0 →
    ∀ r, decode (w :: r) = .error .reservedBits) ∧
  ∀ (s : State) (c : BitVec 15),
    (s.me.sta.pp = true → Claim.Faults s (.trap c) Cause.prefixOrphan 0 0 ∧ Claim.Faults s (.brk c) Cause.prefixOrphan 0 0) ∧
    (Calm s → exec (.trap c) s = .next ((s.after 4 id).enter s.cur 1 (s.me.pc + 4) { code := Cause.softwareTrap, info := c.setWidth 64 }) ∧
      Claim.Faults s (.brk c) Cause.breakpoint 0 (c.setWidth 64) ∧
      (s.me.vpart = none → s.me.hops = none →
        exec (.brk c) s = .next (s.enter s.cur 0 s.me.pc { code := Cause.breakpoint, info := c.setWidth 64 })))

/-- 17 R400: `ERET`. The handler of a directory overflow event ends with it (10 R236): that changes no register, and the full-empty
requests that waited for the event's line, where there are any, are then served. -/
def Obligations.EretReturns : Prop :=
  decode [0x000001E4] = .ok .eret ∧
  (∀ w : Nat, w / 4 % 128 = 0x79 → w % 4 ≠ 0 → ∀ r, 4 ≤ r.length → decode (w :: r) = .error .illegalOpcode) ∧
  (∀ w : Nat, w < 2 ^ 32 → w / 4 % 128 = 0x79 → w % 4 = 0 → w ≠ 0x1E4 → ∀ r, decode (w :: r) = .error .reservedBits) ∧
  ∀ s : State,
    (s.me.sta.sup = false → Claim.Faults s .eret Cause.privileged 0 0) ∧
    (Calm s → s.me.sta.sup = true → s.me.epc.extractLsb' 0 2 ≠ 0#2 → Claim.Faults s .eret Cause.misaligned s.me.epc 0) ∧
    (Calm s → s.me.sta.sup = true → s.me.epc.extractLsb' 0 2 = 0#2 → ∃ t, exec .eret s = .next t ∧ (t.ctx s.cur).pc = s.me.epc) ∧
    (Calm s → s.me.sta.sup = true → s.me.epc.extractLsb' 0 2 = 0#2 →
      s.me.handling = none ∨ s.me.ecause.getLsbD 11 = true ∨ (∀ q ∈ s.clus, q.2.retry = []) → ∃ t, exec .eret s = .next t ∧
      (let y := t.ctx s.cur
       let old := Sta.ofWord s.me.esta
       y.pc = s.me.epc ∧ y.ih = s.me.ecause.getLsbD 11 ∧
       y.sta = { old with bind := s.me.sta.bind, port := s.me.sta.port, spec := s.me.sta.spec } ∧
       y.x = s.me.x ∧ y.tags = s.me.tags ∧ y.buf = s.me.buf ∧ t.mem = s.mem ∧ t.clus = s.clus))

/-- 17 R399, R391: an instruction that completes while SS = 1 in user mode traps with SINGLE_STEP at the next instruction; one that
faults takes its fault instead. Where the spec leaves the matter open it follows the model's choices and readings of log 63. -/
def Obligations.SingleStepTraps : Prop :=
  ∀ (s : State) (len k : Nat) (u : State) (pc : Word) (e : Exc), s.me.sta.ss = true → s.me.sta.sup = false →
    let stop (t : State) (pc : Word) : State :=
      (t.modCtx s.cur (fun x => { x with pc := pc })).enter s.cur 1 pc { code := Cause.singleStep }
    s.finish s.cur len (.done u) = stop u (s.me.pc + BitVec.ofNat 64 len) ∧
    s.finish s.cur len (.jump u pc k) = stop (u.branchTrace s.cur k s.me.pc pc) pc ∧
    s.finish s.cur len (.fault e) = s.takeFault s.cur e ∧
    (s.me.sta.pp = false → exec .nop s = .next (stop s (s.me.pc + 4)))

/-- 05 R81, R82; 16 R367, R369; 02 R29: which fault comes first. In user mode the supervisor's instructions fault with PRIVILEGED even
when a prefix is pending; without its binding an engine's instruction faults with NO_BINDING; the fault leaves everything else of the
thread as it was until the entry of 17 R392. -/
def Obligations.OrderOfChecks : Prop :=
  ∀ (s : State) (a b d : Reg) (v : VReg) (q p : PReg),
    (s.me.sta.sup = false → ∀ i ∈ ([.eret, .tlbinv a b, .htset a b, .cget d a b, .syswr 0x100 a, .syswr 0x101 a, .syswr 0x102 a,
        .syswr 0x103 a, .syswr 0x001 a, .syswr 0x040 a, .syswr 0x180 a, .syswr 0x300 a, .sysrd 0x001 d, .sysrd 0x100 d,
        .sysrd 0x200 d, .sysrd 0x301 d, .htbaseWrite a, .htlenWrite a, .ptrootWrite a, .capepochWrite a, .pcapwhyWrite a,
        .tracectlWrite a, .traceptrWrite a, .qregRegister a, .qregUnregister a, .dtraceSync] : List Instr),
      Claim.Faults s i Cause.privileged 0 0) ∧
    (s.me.sta.pp = false → s.me.sta.bind ≠ 1 → ∀ i ∈ ([.vadd 0 0 q v v v, .vand 0 q v v v, .vcmp 0 0 q p v v, .vred 0 q v v,
        .vbcast 0 q v v a, .vmovx 0 v v a, .vsort 0 0 q v v, .plog 0 0 p p v, .vcfg d, .rep 0 1 a] : List Instr),
      Claim.Faults s i Cause.noBinding 0 0) ∧
    (s.me.sta.pp = false → s.me.sta.bind ≠ 2 → ∀ i ∈ ([.mxq d a, .mxwait a, .mxwaitAll, .mxstat d a, .mxstatResume] : List Instr),
      Claim.Faults s i Cause.noBinding 0 0) ∧
    Claim.Faults s .illegalOpcode Cause.illegalOpcode 0 0

/-! ## System registers -/

/-- A non-scalar effect of the running thread completes: `u` is the machine with the effect, and the pc then moves past the
instruction. -/
def Claim.Ends (s : State) (i : Instr) (len : Nat) (u : State) : Prop :=
  exec i s = .next (u.modCtx s.cur (fun x => { x with pc := s.me.pc + BitVec.ofNat 64 len }))

/-- 16 R368; 06 R109: where the fields of `STA` stand, and that the word says all of them. -/
def Obligations.StatusLayout : Prop :=
  ∀ t : Sta,
    let w := t.toWord
    w.extractLsb' 25 39 = 0#39 ∧ w.getLsbD 24 = t.spec ∧ w.extractLsb' 22 2 = t.port ∧ w.extractLsb' 19 3 = t.bind ∧
    w.getLsbD 18 = t.ss ∧ w.getLsbD 17 = t.sup ∧ w.extractLsb' 12 5 = t.flags ∧ w.extractLsb' 9 3 = t.rm ∧
    w.extractLsb' 1 8 = t.pfx ∧ w.getLsbD 0 = t.pp ∧ Sta.ofWord w = t

/-- 16 R369, R370, R365, R389; 14 R294; 15 R331; 18 R427: what `SYSRD` reads, by register number; any other number faults with
RESERVED_BITS. -/
def Claim.SystemReads : Prop :=
  ∀ (s : State) (n : BitVec 12) (d : Reg), Calm s →
    let k := n.toNat
    s.me.sta.sup = true ∨ ¬ ((1 ≤ k ∧ k ≤ 6) ∨ (0x100 ≤ k ∧ k ≤ 0x103) ∨ (0x200 ≤ k ∧ k ≤ 0x207) ∨ k = 0x300 ∨ k = 0x301) →
    let x := s.me
    let p := s.part x.part
    let reads (v : Word) : Prop := Claim.Puts s (.sysrd n d) 4 d v
    match n.toNat with
    | 0x000 => reads x.sta.toWord
    | 0x001 => reads x.epc
    | 0x002 => reads x.esta
    | 0x003 => reads x.ecause
    | 0x004 => reads x.eaddr
    | 0x005 => reads x.einfo
    | 0x006 => reads x.hvec
    | 0x010 => reads x.wid
    | 0x011 => reads (BitVec.ofNat 64 s.cur)
    | 0x012 => reads (BitVec.ofNat 64 (p.wlim % 2 ^ 16 * 2 ^ 48 + p.rlim % 2 ^ 16 * 2 ^ 32 + p.node % 2 ^ 11 * 2 ^ 18 +
        p.width % 16 * 2 ^ 14 + p.rank % 8 * 2 ^ 8 + x.part % 16))
    | 0x020 => reads (s.instantOf s.cur)
    | 0x021 => reads (s.domainWord s.cur)
    | 0x030 => reads (BitVec.ofNat 64 (s.mat (s.cur / 16)).progWord)
    | 0x040 => reads (BitVec.ofNat 64 p.queues.length)
    | 0x100 => reads p.htbase
    | 0x101 => reads p.htlen
    | 0x102 => reads p.ptroot
    | 0x103 => reads p.epoch
    | 0x180 => reads p.pcapwhy
    | 0x181 => reads (BitVec.ofNat 64 (p.fmhz % 2 ^ 16 * 2 ^ 16 + p.vmv % 2 ^ 12 * 2 ^ 4 + p.blvl % 16))
    | 0x300 => reads p.trace
    | 0x301 => reads p.traceptr
    | k => if 0x200 ≤ k ∧ k ≤ 0x207 then reads (SMap.at {} s.oports (k - 0x200)).word
           else Claim.Faults s (.sysrd n d) Cause.reservedBits 0 0

/-- 16 R370, R105: a `SYSWR` to `STA`, or the step of its own, writes bits [18:9] and nothing else; a reserved bit and a rounding
mode above 4 fault with RESERVED_BITS; in user mode a changed SUP or SS faults with PRIVILEGED. -/
def Claim.StatusWrites : Prop :=
  ∀ (s : State) (a : Reg), Calm s →
    let v := s.me.reg a
    let t := s.me.sta
    let bad := v.extractLsb' 25 39 ≠ 0#39 ∨ 4 < (v.extractLsb' 9 3).toNat
    let raised := t.sup = false ∧ (v.getLsbD 17 ≠ t.sup ∨ v.getLsbD 18 ≠ t.ss)
    ∀ i ∈ ([.syswr 0 a, .staWrite a] : List Instr),
      (raised → Claim.Faults s i Cause.privileged 0 0) ∧ (bad → ¬ raised → Claim.Faults s i Cause.reservedBits 0 0) ∧
      (¬ bad → ¬ raised → exec i s = .next (s.after 4 (fun x => { x with sta := { x.sta with
        ss := v.getLsbD 18, sup := v.getLsbD 17, flags := v.extractLsb' 12 5, rm := v.extractLsb' 9 3 } })))

/-- 17 R393; 16 R370: writes of the exception registers in supervisor mode; a reserved bit faults with RESERVED_BITS and writes
nothing. -/
def Claim.ExceptionRegisterWrites : Prop :=
  ∀ (s : State) (a : Reg), Calm s → s.me.sta.sup = true →
    let v := s.me.reg a
    let puts (n : BitVec 12) (bad : Prop) (f : Ctx → Ctx) : Prop :=
      ∀ i ∈ ([.syswr n a] ++ (if n = 2 ∨ n = 3 ∨ n = 6 then [.ecauseWrite n a] else []) : List Instr),
        (bad → Claim.Faults s i Cause.reservedBits 0 0) ∧ (¬ bad → exec i s = .next (s.after 4 f))
    puts 1 False (fun x => { x with epc := v }) ∧
    puts 2 (v.extractLsb' 25 39 ≠ 0#39 ∨ 4 < (v.extractLsb' 9 3).toNat) (fun x => { x with esta := v }) ∧
    puts 3 (v.extractLsb' 12 52 ≠ 0#52 ∨ v.extractLsb' 8 3 ≠ 0#3 ∨ v.extractLsb' 6 2 = 3#2) (fun x => { x with ecause := v }) ∧
    puts 4 False (fun x => { x with eaddr := v }) ∧ puts 5 False (fun x => { x with einfo := v }) ∧
    puts 6 (v.extractLsb' 0 12 ≠ 0#12) (fun x => { x with hvec := v })

/-- The two together: `Claim.StatusWrites` and `Claim.ExceptionRegisterWrites`. -/
def Claim.ContextRegisterWrites : Prop := Claim.StatusWrites ∧ Claim.ExceptionRegisterWrites

/-- 16 R369, R384, R386, R388; 17 R411, R412; 15 R331: writes of the partition's registers in supervisor mode. `PCAPWHY` clears the
SEEN bits written as one; a write of `TRACECTL` never sets DIV; `TRACEPTR` takes a ring in a privileged DRAM object; the window of
`CAPEPOCH` moves by at most one, its floor never passes its current epoch, and the write waits for the requests accepted under an
epoch that it excludes; a register that has no write column, or a number of none, faults. -/
def Claim.PartitionRegisterWrites : Prop :=
  ∀ (s : State) (a : Reg), Calm s → s.me.sta.sup = true →
    let v := s.me.reg a
    let n := s.me.part
    let p := s.part n
    let puts (l : List Instr) (bad : Prop) (f : Part → Part) : Prop := ∀ i ∈ l,
      (bad → Claim.Faults s i Cause.reservedBits 0 0) ∧ (¬ bad → Claim.Ends s i 4 (s.modPart n f))
    let cur := (p.epoch.extractLsb' 0 8).toNat
    let floor := (p.epoch.extractLsb' 8 8).toNat
    let cur1 := (v.extractLsb' 0 8).toNat
    let floor1 := (v.extractLsb' 8 8).toNat
    let past (x y : Nat) : Nat := (x + 256 - y) % 256
    puts [.syswr 0x180 a, .pcapwhyWrite a] False (fun p => { p with pcapwhy := p.pcapwhy &&& ~~~(v &&& 0x1F00) }) ∧
    puts [.syswr 0x300 a, .tracectlWrite a]
      (v.extractLsb' 8 24 ≠ 0#24 ∨ v.getLsbD 6 = true ∨ v.getLsbD 0 = true ∨ v.extractLsb' 1 2 = 3#2)
      (fun p => { p with trace := (v &&& 0x3E) ||| (if p.trace.getLsbD 7 && !v.getLsbD 7 then 0x80 else 0) }) ∧
    puts [.syswr 0x301 a, .traceptrWrite a]
      (¬ (v.toNat % 64 = 0 ∧ ∃ (e : HEntry) (o : Nat),
        s.resolve { s.who s.cur with sup := true } v 64 0 = .ok (.table e o) ∧ e.space = 1 ∧ e.priv = true))
      (fun p => { p with traceptr := v }) ∧
    (let outside := v.extractLsb' 16 48 ≠ 0#48 ∨ (cur1 ≠ cur ∧ cur1 ≠ (cur + 1) % 256) ∨ past cur1 floor < past floor1 floor ∨
       past cur1 floor1 = 255
     (s.epochOpen n v = false → puts [.syswr 0x103 a, .capepochWrite a] outside (fun p => { p with epoch := v })) ∧
     (s.epochOpen n v = true → ∀ i ∈ ([.syswr 0x103 a, .capepochWrite a] : List Instr),
       (outside → Claim.Faults s i Cause.reservedBits 0 0) ∧ (¬ outside → exec i s = .next (s.block s.cur .reply 4)))) ∧
    (∀ m : BitVec 12, m ∈ ([0x010, 0x011, 0x012, 0x020, 0x021, 0x030, 0x181, 0x200, 0x007, 0xFFF] : List (BitVec 12)) →
      Claim.Faults s (.syswr m a) Cause.reservedBits 0 0)

/-- What an invalidation waits for is done: the thread's release has ended (`u` is the machine after it), no request that used a
dropped entry is still on its way, and no buffer holds a store through a dropped PEER entry. -/
def Claim.Settled (s : State) (scope : Nat) (d : Drop) (u : State) : Prop :=
  s.release s.cur (if scope = 3 then 3 else 2) = (u, true) ∧ u.invBusy u.cur scope d = false ∧ u.invStores u.cur scope d = []

/-- 16 R371, R374, R376, R377: `TLBINV`, and the writes of `HTBASE`, `HTLEN` and `PTROOT`, which end as a `TLBINV` of KIND 1 and SCOPE
2. A reserved bit faults and writes nothing. -/
def Claim.InvalidationCompletes : Prop :=
  ∀ (s u : State) (a b : Reg), Calm s → s.me.sta.sup = true →
    let v := s.me.reg a
    let m := s.me.reg b
    let scope := (m.extractLsb' 2 2).toNat
    let kind := (m.extractLsb' 0 2).toNat
    (m.extractLsb' 4 60 ≠ 0#60 ∨ scope = 0 → Claim.Faults s (.tlbinv a b) Cause.reservedBits 0 0) ∧
    (m.extractLsb' 4 60 = 0#60 → scope ≠ 0 → Claim.Settled s scope ⟨kind, v.toNat⟩ u →
      Claim.Ends s (.tlbinv a b) 4 (u.invalidateFor u.cur scope ⟨kind, v.toNat⟩)) ∧
    (let puts (l : List Instr) (bad : Prop) (f : Part → Part) : Prop := ∀ i ∈ l,
       (bad → Claim.Faults s i Cause.reservedBits 0 0) ∧
       (¬ bad → Claim.Settled s 2 ⟨1, 0⟩ u → Claim.Ends s i 4 ((u.modPart u.myPart f).invalidateFor u.cur 2 ⟨1, 0⟩))
     puts [.syswr 0x100 a, .htbaseWrite a] (v.extractLsb' 57 7 ≠ 0#7 ∨ v.extractLsb' 0 5 ≠ 0#5) (fun p => { p with htbase := v }) ∧
     puts [.syswr 0x101 a, .htlenWrite a] (v ≠ 0 ∧ (v.toNat < 16 ∨ 4096 < v.toNat)) (fun p => { p with htlen := v }) ∧
     puts [.syswr 0x102 a, .ptrootWrite a] (v.extractLsb' 52 12 ≠ 0#12 ∨ v.extractLsb' 0 12 ≠ 0#12) (fun p => { p with ptroot := v }))

/-- 16 R374, R377: what an invalidation drops from a cluster, its matrix units and the walk caches: of the partition, every translation
and handle entry (KIND 1), every translation that covers the address (KIND 0), every copy of one handle (KIND 2), or nothing (KIND
3); of other partitions nothing. -/
def Claim.InvalidationDropsWhatItNames : Prop :=
  (∀ (s : State) (ks : List Nat) (scope p x : Nat) (kind : Fin 4),
    let t := s.dropWalks ks scope p ⟨kind, x⟩
    (∀ (m : Nat) (e : Tlb), e ∈ (t.mat m).tlb ↔ e ∈ (s.mat m).tlb ∧
      (m / 4 ∈ ks → e.part = p → kind ≠ 1 ∧ (kind = 0 → e.vpn ≠ x % 2 ^ 57 / 2 ^ e.shift))) ∧
    (∀ e : WalkEnt, e ∈ t.walks ↔ e ∈ s.walks ∧
      (2 ≤ scope → e.part = p → kind ≠ 1 ∧ (kind = 0 → e.pre ≠ ptPrefix e.lv (x % 2 ^ 57)))) ∧
    t.mem = s.mem ∧ t.ctxs = s.ctxs ∧ t.clus = s.clus) ∧
  ∀ (k : Cluster) (p x : Nat) (kind : Fin 4),
    let u := k.drop p ⟨kind, x⟩
    (∀ e : Tlb, e ∈ u.tlb ↔ e ∈ k.tlb ∧ (e.part = p → kind ≠ 1 ∧ (kind = 0 → e.vpn ≠ x % 2 ^ 57 / 2 ^ e.shift))) ∧
    (∀ e : Nat × Nat × BitVec 256, e ∈ u.hcache ↔ e ∈ k.hcache ∧ (e.1 = p → kind ≠ 1 ∧ (kind = 2 → e.2.1 ≠ x % 4096))) ∧
    (∀ e : Nat × Nat × Option (BitVec 128), e ∈ u.pcaps ↔ e ∈ k.pcaps ∧ (e.1 = p → kind ≠ 1 ∧ (kind = 2 → e.2.1 ≠ x % 4096))) ∧
    u.cache = k.cache ∧ u.bankmode = k.bankmode ∧ u.inbox = k.inbox

/-- The two together: `Claim.InvalidationCompletes` and `Claim.InvalidationDropsWhatItNames`. -/
def Claim.Invalidation : Prop := Claim.InvalidationCompletes ∧ Claim.InvalidationDropsWhatItNames

/-- 16 R378; 03 R40: `HTSET` writes an entry of the handle table as one 32-byte unit and then drops the cached copies; x0 as the
image's register writes an empty entry. An index outside the table and a bad field fault, and write nothing. -/
def Claim.HandleEntryWrites : Prop :=
  ∀ (s : State) (a b : Reg), Calm s → s.me.sta.sup = true →
    let h := (s.me.reg a).toNat
    let p := s.part s.me.part
    let va := p.htbase.toNat + 32 * h
    (h < 16 ∨ p.htlen.toNat ≤ h → Claim.Faults s (.htset a b) Cause.handleInvalid 0 0) ∧
    (16 ≤ h → h < p.htlen.toNat → s.me.reg b = 0 → ∀ (segs : List (Nat × Nat)) (u : State),
      s.xlateRange (cluOf s.cur) s.me.part false true needW va 32 = .ok segs → Claim.Settled s 2 ⟨2, h⟩ u →
        Claim.Ends s (.htset a b) 4
          ((u.place (writerOf u.cur) ((spanAll segs).zip (List.replicate 32 0))).invalidateFor u.cur 2 ⟨2, h⟩)) ∧
    (16 ≤ h → h < p.htlen.toNat → s.me.reg b ≠ 0 → (s.me.reg b).toNat % 32 ≠ 0 →
      Claim.Faults s (.htset a b) Cause.misaligned (s.me.reg b) 0) ∧
    (16 ≤ h → h < p.htlen.toNat → s.me.reg b ≠ 0 → (s.me.reg b).toNat % 32 = 0 →
      (∀ (src : List (Nat × Nat)) (keep : Bool) (sp : Nat),
        s.access s.cur (s.me.reg b) 32 needR 32 .plain false true = .ok (.mem src keep sp) →
        s.readsHeld (cluOf s.cur) (s.fetched s.cur (spanAll src)) = false →
          let n := s.coreStream (s.me.reg b)
          s.ownBytes (s.me.reg b) 32 s = .ok (n.2.loadBytes s.cur (spanAll src) (keep && !n.1))) ∧
      (∀ e, s.ownBytes (s.me.reg b) 32 s = .error (.exc e) → exec (.htset a b) s = .next (s.takeFault s.cur e)) ∧
      (∀ (bs : List Byte) (v : State), s.ownBytes (s.me.reg b) 32 s = .ok (bs, v) →
        let img := BitVec.ofNat 256 (leNat bs)
        (∀ o, entryBad img = some o → Claim.Faults s (.htset a b) Cause.reservedBits 0 (BitVec.ofNat 64 o)) ∧
        (entryBad img = none → ∀ (segs : List (Nat × Nat)) (u : State),
          v.xlateRange (cluOf v.cur) v.myPart false true needW ((v.part v.myPart).htbase.toNat + 32 * h) 32 = .ok segs →
          Claim.Settled v 2 ⟨2, h⟩ u →
            Claim.Ends s (.htset a b) 4
              ((u.place (writerOf u.cur) ((spanAll segs).zip (leBytes 32 img.toNat))).invalidateFor u.cur 2 ⟨2, h⟩))))

/-- The two together: `Claim.Invalidation` and `Claim.HandleEntryWrites`.
Where the spec leaves the matter open it follows the model's choices and readings of logs 26 and 32. -/
def Obligations.InvalidationAndHandleWrites : Prop := Claim.Invalidation ∧ Claim.HandleEntryWrites

/-- 16 R379, R380, R382: capabilities in registers. `CDERIV` narrows, and keeps node, partition, handle and epoch; `CGET` mints one of
an entry of the table, or of a fixed handle, with the rights that the entry has; `CCLR` takes a tag away and reports it. -/
def Claim.CapabilityResults : Prop :=
  ∀ (s : State) (a b d : Reg), Calm s →
    let x := s.me
    let c := x.pair a
    let off := (x.reg b).toNat
    let w := x.reg (b + 1)
    let len := (w.extractLsb' 0 40).toNat
    let mask := w.extractLsb' 40 8
    (x.tagOf a = false → Claim.Faults s (.cderiv d a b) Cause.capTag 0 0) ∧
    (x.tagOf a = true → w.extractLsb' 48 16 ≠ 0#16 → Claim.Faults s (.cderiv d a b) Cause.reservedBits 0 0) ∧
    (x.tagOf a = true → w.extractLsb' 48 16 = 0#16 → capLen c < off + len → Claim.Faults s (.cderiv d a b) Cause.capBounds 0 0) ∧
    (x.tagOf a = true → w.extractLsb' 48 16 = 0#16 → off + len ≤ capLen c → ∃ n : BitVec 128,
      Claim.Ends s (.cderiv d a b) 4 (s.setPair d n true) ∧ capLen n = len ∧ capBase n = (capBase c + off) % 2 ^ 40 ∧
      capPerm n = capPerm c &&& mask.toNat ∧ capNode n = capNode c ∧ capPart n = capPart c ∧ capHidx n = capHidx c ∧
      capEpoch n = capEpoch c) ∧
    (d.toNat / 2 = a.toNat / 2 → Claim.Faults s (.cclr d a) Cause.reservedBits 0 0) ∧
    (d.toNat / 2 ≠ a.toNat / 2 →
      exec (.cclr d a) s = .next (s.after 4 (fun x => (x.untag a).setReg d (if x.tagOf a then 1 else 0)))) ∧
    (x.sta.sup = true →
      let h := (x.reg a).toNat
      let p := s.part x.part
      let m := (x.reg b).toNat
      let minted (n : BitVec 128) (len allowed : Nat) : Prop :=
        Claim.Ends s (.cget d a b) 4 (s.setPair d n true) ∧ capHidx n = h % 4096 ∧ capBase n = 0 ∧
          capLen n = min len (2 ^ 40 - 1) % 2 ^ 40 ∧ capEpoch n = p.epoch.toNat % 256 ∧ capPerm n = (m &&& allowed) % 256 ∧
          capPart n = x.part % 32 ∧ capNode n = p.node % 2 ^ 11
      (4096 ≤ h ∨ 256 ≤ m → Claim.Faults s (.cget d a b) Cause.reservedBits 0 0) ∧
      (h < 4096 → m < 256 → h = 0 ∨ (4 ≤ h ∧ h < 16) ∨ (16 ≤ h ∧ p.htlen.toNat ≤ h) → Claim.Faults s (.cget d a b) Cause.handleInvalid 0 0) ∧
      (h = 1 → m < 256 → ∃ n, minted n (65536 * (banksOf 1 (s.clu (cluOf s.cur)).bankmode).length) 0x7F) ∧
      (h = 2 → m < 256 → ∃ n, minted n 0x2000 0x4F) ∧
      (h = 3 → m < 256 → s.domainOf s.cur = none → Claim.Faults s (.cget d a b) Cause.handleInvalid 0 0) ∧
      (h = 3 → m < 256 → ∀ l g, s.domainOf s.cur = some (l, g) → ∃ n, minted n (0x1000 + 8 * g.nsig) 0x0D) ∧
      (16 ≤ h → h < 4096 → h < p.htlen.toNat → m < 256 → ∀ raw : BitVec 256,
        s.handleRaw (cluOf s.cur) x.part h = .ok raw →
        let e := HEntry.ofNat raw.toNat
        (e.valid = false → Claim.Faults s (.cget d a b) Cause.handleInvalid 0 0) ∧
        (e.valid = true → e.priv = true → Claim.Faults s (.cget d a b) Cause.handlePerm 0 0) ∧
        (e.valid = true → e.priv = false → ∃ n, minted n e.len (capAllowed e))))

/-- 17 R417: the trace instructions. In user mode `mark` needs UM and `bon` and `boff` need UB; `sync` waits until every record begun is
in the ring, and then releases at device scope. -/
def Claim.TraceInstructions : Prop :=
  ∀ (s : State) (a : Reg), Calm s →
    let p := s.part s.me.part
    (s.me.sta.sup = false → p.trace.getLsbD 3 = false → Claim.Faults s (.dtraceMark a) Cause.privileged 0 0) ∧
    (s.me.sta.sup = false → p.trace.getLsbD 4 = false →
      Claim.Faults s .dtraceBon Cause.privileged 0 0 ∧ Claim.Faults s .dtraceBoff Cause.privileged 0 0) ∧
    (s.me.sta.sup = true ∨ p.trace.getLsbD 3 = true → p.traceMode ≠ 1 → exec (.dtraceMark a) s = .next (s.after 4 id)) ∧
    (s.me.sta.sup = true ∨ p.trace.getLsbD 3 = true → p.traceMode = 1 →
      Claim.Ends s (.dtraceMark a) 4 ((s.beginTrace s.cur 5 0 s.cur (s.me.reg a).toNat 0).flushTrace s.me.part)) ∧
    (s.me.sta.sup = true ∨ p.trace.getLsbD 4 = true →
      exec .dtraceBon s = .next (s.after 4 (fun x => { x with btrace := true })) ∧
      exec .dtraceBoff s = .next (s.after 4 (fun x => { x with btrace := false }))) ∧
    (s.me.sta.sup = true → p.traceq ≠ [] → exec .dtraceSync s = .next (s.block s.cur .trace 4)) ∧
    (s.me.sta.sup = true → p.traceq = [] → ∀ u, s.release s.cur 2 = (u, true) → Claim.Ends s .dtraceSync 4 u)

/-- The two together: `Claim.SystemReads` and `Claim.TraceInstructions`.
Where the spec leaves the matter open it follows the model's choices and readings of logs 15 and 37. -/
def Obligations.SystemReadsAndTrace : Prop := Claim.SystemReads ∧ Claim.TraceInstructions

/-- 15 R331: `QREG` registers a queue for its partition, behind those registered before, or takes one off. A reserved bit; a pointer whose
object does not admit R and W over header and slots; L outside 1 to 20; an affinity that the partition does not have; a kind mask
with a reserved bit; a queue registered already; a 65th queue; and taking off an unregistered queue fault with RESERVED_BITS. -/
def Claim.QueueRegistration : Prop :=
  ∀ (s : State) (a : Reg), Calm s → s.me.sta.sup = true →
    let v := s.me.reg a
    let hdr : Word := v &&& ~~~63#64
    let bad := v.extractLsb' 1 5 ≠ 0#5
    let p := s.me.part
    let w := { s.who s.cur with sup := true }
    let lg (h : List Nat) : Nat := s.queueLog h
    let fit (h : List Nat) : Prop :=
      (∃ e o, s.resolve w hdr 64 3 = .ok (.table e o)) ∧ (∃ o, s.resolve w hdr (64 + 64 * 2 ^ lg h) 3 = .ok o) ∧
      1 ≤ lg h ∧ lg h ≤ 20 ∧ affinityOk (s.part p) (s.queueAff h) = true ∧ s.queueKinds h < 32 ∧
      (∀ q ∈ (s.part p).queues, q.hdr ≠ hdr) ∧ (s.part p).queues.length < 64
    (∀ i ∈ ([.qregRegister a] ++ (if v.getLsbD 0 then [] else [.syswr 0x040 a]) : List Instr),
      (bad ∨ s.headerLoc p hdr = none → Claim.Faults s i Cause.reservedBits 0 0) ∧
      (∀ h, s.headerLoc p hdr = some h → ¬ fit h → Claim.Faults s i Cause.reservedBits 0 0) ∧
      (∀ h, s.headerLoc p hdr = some h → fit h → ¬ bad →
        Claim.Ends s i 4 (s.modPart p (fun x => { x with queues := x.queues ++ [⟨hdr, s.cur⟩] })))) ∧
    (∀ i ∈ ([.qregUnregister a] ++ (if v.getLsbD 0 then [.syswr 0x040 a] else []) : List Instr),
      (bad ∨ (∀ q ∈ (s.part p).queues, q.hdr ≠ hdr) → Claim.Faults s i Cause.reservedBits 0 0) ∧
      (¬ bad → (∃ q ∈ (s.part p).queues, q.hdr = hdr) → ∃ u, Claim.Ends s i 4 u ∧ u.mem = s.mem ∧
        (u.part p).queues = (s.part p).queues.filter (fun q => decide (q.hdr ≠ hdr))))

/-- The two together: `Claim.PartitionRegisterWrites` and `Claim.QueueRegistration`. -/
def Claim.PartitionRegistersAndQueues : Prop := Claim.PartitionRegisterWrites ∧ Claim.QueueRegistration

/-- The two together: `Claim.ContextRegisterWrites` and `Claim.PartitionRegistersAndQueues`.
Where the spec leaves the matter open it follows the model's choices and readings of logs 13 and 28. -/
def Obligations.RegisterWritesAndQueues : Prop := Claim.ContextRegisterWrites ∧ Claim.PartitionRegistersAndQueues

/-! ## Memory -/

/-- 03 R41: the checks of a pointer that names an entry of the handle table, in order, and the object it names. -/
def Claim.PointerChecks : Prop :=
  ∀ (s : State) (w : Who) (ptr : Word) (size need : Nat),
    let h := (ptr.extractLsb' 52 12).toNat
    let off := (ptr.extractLsb' 0 52).toNat
    let stops (c : Cause) : Prop := s.resolve w ptr size need = .error { code := c, addr := ptr }
    (h = 0 ∨ (4 ≤ h ∧ h < 16) → stops Cause.handleInvalid) ∧
    (16 ≤ h → (s.part w.part).htlen.toNat ≤ h → stops Cause.handleInvalid) ∧
    (16 ≤ h → h < (s.part w.part).htlen.toNat → ∀ raw : BitVec 256, s.handleRaw w.clu w.part h = .ok raw →
      let e := HEntry.ofNat raw.toNat
      (raw.getLsbD 176 = false → stops Cause.handleInvalid) ∧
      (raw.getLsbD 176 = true → raw.getLsbD 177 = true → w.sup = false → stops Cause.handlePerm) ∧
      (raw.getLsbD 176 = true → (raw.getLsbD 177 = false ∨ w.sup = true) →
        ((raw.extractLsb' 168 8).toNat &&& need ≠ need → stops Cause.handlePerm) ∧
        ((raw.extractLsb' 168 8).toNat &&& need = need →
          ((raw.extractLsb' 64 52).toNat < off + size → stops Cause.handleBounds) ∧
          (off + size ≤ (raw.extractLsb' 64 52).toNat → s.resolve w ptr size need = .ok (.table e off))))) ∧
    (16 ≤ h → h < (s.part w.part).htlen.toNat → ∀ k, s.handleRaw w.clu w.part h = .error k →
      s.resolve w ptr size need = .error { code := Cause.handleInvalid, addr := ptr, info := k.setWidth 64 })

/-- 16 R372, R373, R49: a walk of five valid entries ends at a page of 64 KiB; the leaf's rights and its U bit decide. -/
def Claim.FiveLevelWalk : Prop :=
  ∀ (s : State) (clu p need va : Nat) (host sup : Bool) (t0 t1 t2 t3 t4 : Nat) (leaf : Nat),
    let at_ (t : Nat) (i : Nat) : Nat := s.peekN (dramBase p + (t + 8 * i)) 8
    let isTable (e t : Nat) : Prop := e = t + 1 ∧ t % 4096 = 0 ∧ t < 2 ^ 52
    s.tlbOf clu = [] → s.walks = [] → s.poison = [] → s.ecc = [] → (s.part p).ptroot.toNat = t0 →
    (dramLimit (s.part p) ≤ t0 + 8 * (va / 2 ^ 48 % 512) → s.xlate clu p host sup need va = .error Cause.walkError) ∧
    (
    (∀ t ∈ [t0, t1, t2, t3, t4], t + 4096 ≤ dramLimit (s.part p)) →
    isTable (at_ t0 (va / 2 ^ 48 % 512)) t1 → isTable (at_ t1 (va / 2 ^ 39 % 512)) t2 → isTable (at_ t2 (va / 2 ^ 30 % 512)) t3 →
    isTable (at_ t3 (va / 2 ^ 21 % 512)) t4 → at_ t4 (va / 2 ^ 16 % 32) = leaf →
    leaf % 4 = 3 → leaf / 4 % 2 = 0 → leaf / 2 ^ 7 % 2 = 0 → leaf / 2 ^ 8 % 2 ^ 8 = 0 → leaf < 2 ^ 52 →
    let pa := leaf / 2 ^ 16 * 2 ^ 16 + va % 2 ^ 16
    let may := covers (leaf / 8 % 8) (pageNeed need) = true ∧ (sup = true ∨ leaf / 2 ^ 6 % 2 = 1)
    (host = false → dramLimit (s.part p) ≤ pa → s.xlate clu p host sup need va = .error Cause.walkError) ∧
    (host = true ∨ pa < dramLimit (s.part p) →
      (¬ may → s.xlate clu p host sup need va = .error Cause.pagePerm) ∧
      (may → s.xlate clu p host sup need va = .ok (if host then hostBase + pa else dramBase p + pa))))

/-- 03 R48, R49: the offset of a line in its channel; a partition's DRAM fills its channels of 192 MiB; the hash, the channel and the
offset say the physical address again. -/
def Claim.ChannelOffsets : Prop :=
  ∀ (p : Part) (w a b : Nat), 4 ≤ w → w ≤ 9 → a < 2 ^ 39 → b < 2 ^ 39 →
    channelOffset w a = (a >>> (9 + w)) <<< 7 + a % 128 ∧
    (p.width = w → (a < dramLimit p ↔ channelOffset w a < 192 * 2 ^ 20)) ∧
    (sliceHash w a = sliceHash w b → channelOf a = channelOf b → channelOffset w a = channelOffset w b → a = b)

/-- The three together: `Claim.PointerChecks`, `Claim.FiveLevelWalk` and `Claim.ChannelOffsets`.
Where the spec leaves the matter open it follows the model's choices and readings of log 26. -/
def Obligations.PointersAndTranslation : Prop := Claim.PointerChecks ∧ Claim.FiveLevelWalk ∧ Claim.ChannelOffsets

/-- The checks of an access pass, and it reaches memory at the bytes of `segs` (10 R217). -/
def Claim.Reaches (s : State) (ptr : Word) (size need al : Nat) (r : Reach) (wr rd : Bool) (segs : List (Nat × Nat)) (keep : Bool) : Prop :=
  ∃ space, s.access s.cur ptr size need al r wr rd = .ok (.mem segs keep space) ∧ (spanAll segs).length = size

/-- The bytes of a size code, and the register's value of a loaded number (10 R219). -/
def Claim.widen (z : BitVec 3) (v : Nat) : Word :=
  match z.toNat with
  | 0 => (BitVec.ofNat 8 v).signExtend 64
  | 1 => (BitVec.ofNat 8 v).setWidth 64
  | 2 => (BitVec.ofNat 16 v).signExtend 64
  | 3 => (BitVec.ofNat 16 v).setWidth 64
  | 4 => (BitVec.ofNat 32 v).signExtend 64
  | 5 => (BitVec.ofNat 32 v).setWidth 64
  | _ => BitVec.ofNat 64 v

/-- What a completed memory instruction leaves of its thread: only the register `d`, with its pair's tag, and the pc have changed. -/
def Claim.Loads (s t : State) (len : Nat) (d : Reg) (v : Word) : Prop :=
  let y := t.ctx s.cur
  (∀ r, y.reg r = if r = 0 then 0 else if r = d then v else s.me.reg r) ∧ y.pc = s.me.pc + BitVec.ofNat 64 len ∧
    y.sta = s.me.sta ∧ y.buf = s.me.buf ∧ t.mem = s.mem ∧ t.empties = s.empties ∧ t.mtags = s.mtags

/-- 10 R209, R212, R213, R219; 11 R240: a load takes each byte from the thread's own buffer, else from what its core may read, else
from the cluster's copy or its home; the value is extended by its type, and memory is unchanged. An acquire load applies the inbox
first; a cluster may have applied it at any other load too.
Where the spec leaves the matter open it follows the model's choices and readings of logs 5, 6, 45, 50 and 53. -/
def Obligations.LoadReturnsView : Prop :=
  ∀ (s : State) (scp o : BitVec 2) (z : BitVec 3) (d a : Reg) (p : Imm 8) (segs : List (Nat × Nat)) (keep : Bool),
    Calm s → z.toNat < 7 → o.toNat < 2 →
    let n := szBytes z.toNat
    let ptr := s.me.reg a + dispW n p
    let u := if o = 1 then s.acquire s.cur scp.toNat else s
    Claim.Reaches u ptr n needR (if o = 1 then n else 1) .plain false true segs keep →
    u.readsHeld (cluOf s.cur) (u.fetched s.cur (spanAll segs)) = false →
    ∃ t w : State, (w = u ∨ w = u.applyInbox (cluOf s.cur)) ∧ exec (.ld scp o z d a p) s = .next t ∧
      Claim.Loads s t (immLen p) d (Claim.widen z (leNat ((spanAll segs).map (w.viewByte s.cur))))

/-- The entries of the running thread's store buffer: those that it alone reads, and those that a core-scope release has made readable
to its core (10 R209, R211). -/
def Claim.entries (s : State) : Nat :=
  (entriesOf s.me.buf).length + ((s.core (coreOf s.cur)).shared.filter (fun p => decide (p.1 = s.cur))).length

/-- 10 R209, R219, R221: a plain, non-temporal or write-combining store enters the thread's buffer: the thread then sees its bytes, and
sees every other byte as before; no byte of memory has changed. -/
def Claim.StoreEntersTheBuffer : Prop :=
  ∀ (s : State) (scp o : BitVec 2) (z : BitVec 3) (d a : Reg) (p : Imm 8) (segs : List (Nat × Nat)) (keep : Bool),
    Calm s → z.toNat < 7 → o.toNat ≠ 1 →
    let n := szBytes z.toNat
    Claim.Reaches s (s.me.reg a + dispW n p) n needW 1 .plain true false segs keep → (spanAll segs).Nodup →
    Claim.entries s + (linesOf (spanAll segs)).length ≤ 8 →
    ∃ t, exec (.st scp o z d a p) s = .next t ∧
      (∀ q ∈ (spanAll segs).zip (leBytes n (s.me.reg d).toNat), ownByte (t.ctx s.cur).buf q.1 = some q.2) ∧
      (∀ l, l ∉ spanAll segs → ownByte (t.ctx s.cur).buf l = ownByte s.me.buf l) ∧
      (t.ctx s.cur).x = s.me.x ∧ (t.ctx s.cur).tags = s.me.tags ∧ (t.ctx s.cur).sta = s.me.sta ∧
      (t.ctx s.cur).pc = s.me.pc + BitVec.ofNat 64 (immLen p) ∧ t.mem = s.mem

/-- 10 R210, R219: a release store puts its marker into the buffer and its bytes behind it, and does not wait. -/
def Claim.ReleaseStoreStandsBehindItsMarker : Prop :=
  ∀ (s : State) (scp : BitVec 2) (z : BitVec 3) (d a : Reg) (p : Imm 8) (l : Nat) (keep : Bool), Calm s → z.toNat < 7 →
    let n := szBytes z.toNat
    Claim.Reaches s (s.me.reg a + dispW n p) n needW n .plain true false [(l, n)] keep → l % 128 + n ≤ 128 →
    Claim.entries s < 8 →
    ∃ (t : State) (e : BufEntry), exec (.st scp 1 z d a p) s = .next t ∧
      (t.ctx s.cur).buf = s.me.buf ++ [.marker scp, .entry e] ∧ e.rel = some scp ∧
      e.bytes = (span l n).zip (leBytes n (s.me.reg d).toNat) ∧
      (t.ctx s.cur).x = s.me.x ∧ (t.ctx s.cur).pc = s.me.pc + BitVec.ofNat 64 (immLen p) ∧ t.mem = s.mem

/-- The two together: `Claim.StoreEntersTheBuffer` and `Claim.ReleaseStoreStandsBehindItsMarker`.
Where the spec leaves the matter open it follows the model's choices and readings of logs 12, 45 and 53. -/
def Obligations.Stores : Prop := Claim.StoreEntersTheBuffer ∧ Claim.ReleaseStoreStandsBehindItsMarker

/-- 10 R209, R216: a buffered write arrives at its home, or a write-through at its: memory takes exactly its bytes. -/
def Claim.WritesArriveAtTheirPlaces : Prop :=
  ∀ (s : State) (c clu k : Nat) (e : BufEntry), (∀ q ∈ s.clus, q.2.retry = []) →
    let puts (i : Instr) (left : State → Prop) : Prop := ∃ t, exec i s = .next t ∧ left t ∧
      (∀ q ∈ e.bytes, t.mem.read q.1 = q.2) ∧ SameMem (e.bytes.map (·.1)) s t
    (s.nextOut c = some e → s.lockedFor e.line c = false → (s.core (coreOf c)).shared = [] → isPeer (e.line * 128) = false →
      (∀ x ∈ (s.clu (cluOf c)).throughs, s.sameHome x.line e.line = false) →
      puts (.homeWrite (.buffer c)) (fun t => (t.ctx c).buf = (s.ctx c).buf.erase (.entry e))) ∧
    ((s.clu clu).throughs[k]? = some e → s.lockedFor e.line (s.throughCtx clu e.line) = false →
      (∀ x ∈ (s.clu clu).throughs.take k, s.sameHome x.line e.line = false) →
      puts (.homeWrite (.through clu k)) (fun t => (t.clu clu).throughs = (s.clu clu).throughs.eraseIdx k))

/-- 10 R210, R211: a release marker completes once no line before it is held back and no acknowledgement is missing: at core scope
the entries before it become readable to the core, and at device and system scope they are in memory; the entries behind it stay. -/
def Claim.ReleaseMarkersComplete : Prop :=
  ∀ (s : State) (c : Nat) (sc : BitVec 2) (es : List BufEntry) (rest : List BufItem), (∀ q ∈ s.clus, q.2.retry = []) →
    (s.ctx c).buf = es.map .entry ++ .marker sc :: rest → s.heldBack c sc.toNat es = false →
    s.vecAhead c = false → (s.ctx c).acks = 0 →
    (∀ e ∈ entriesAhead rest, e.rel = none) → (∀ i ∈ rest, ∀ m, i ≠ .msg m) →
    (sc = 0 → ∃ t, exec (.releaseMarkerComplete c) s = .next t ∧ (t.ctx c).buf = rest ∧ t.mem = s.mem ∧
      ∀ e ∈ es, (c, { e with level := 1 }) ∈ (t.core (coreOf c)).shared) ∧
    (2 ≤ sc.toNat → (∀ e ∈ es, isPeer (e.line * 128) = false) → s.peerOut (s.ctx c).tid = false →
      (∀ e ∈ es, ∀ q ∈ e.bytes, s.dirAt (lineOf q.1) = {}) → (es.map (·.line)).Nodup →
      (s.core (coreOf c)).shared = [] → (s.clu (cluOf c)).throughs = [] →
      ∃ t, exec (.releaseMarkerComplete c) s = .next t ∧ (t.ctx c).buf = rest ∧
        (∀ e ∈ es, ∀ q ∈ e.bytes, t.mem.read q.1 = q.2) ∧ SameMem (es.flatMap (fun e => e.bytes.map (·.1))) s t)

/-- The two together: `Claim.WritesArriveAtTheirPlaces` and `Claim.ReleaseMarkersComplete`.
Where the spec leaves the matter open it follows the model's choices and readings of logs 45, 51 and 60. -/
def Obligations.WritesAndMarkersArrive : Prop := Claim.WritesArriveAtTheirPlaces ∧ Claim.ReleaseMarkersComplete

/-- The checks of a maintenance access pass, through a GRID handle too, and it reaches the line of `segs` (10 R217, R232). -/
def Claim.ReachesLine (s : State) (ptr : Word) (need : Nat) (wr rd : Bool) (segs : List (Nat × Nat)) (keep : Bool) : Prop :=
  ∃ space, s.reachLine ptr need wr rd = .ok (.mem segs keep space)

/-- 10 R222, R232: fences place and take, and touch no memory; cache maintenance moves copies, and loses no data.
Where the spec leaves the matter open it follows the model's choices and readings of logs 45, 50 and 53. -/
def Obligations.FencesAndCacheMaintenance : Prop :=
  ∀ (s : State) (scp : BitVec 2) (d a : Reg) (p : Imm 4) (segs : List (Nat × Nat)) (keep : Bool), Calm s →
    let ptr := s.me.reg a + dispW 1 p
    let k := cluOf s.cur
    let line := lineOf (segs.headD (0, 0)).1
    Claim.Ends s (.fence scp 1) 4 (s.acquire s.cur scp.toNat) ∧
    Claim.Ends s (.fence scp 2) 4 (s.pushMarker s.cur scp) ∧
    Claim.Ends s (.fence scp 3) 4 ((s.pushMarker s.cur scp).acquire s.cur scp.toNat) ∧
    (∀ e, s.reachLine ptr needR false true = .error e → exec (.pref scp a p) s = .next (s.after (immLen p) id)) ∧
    (Claim.ReachesLine s ptr needR false true segs keep → s.readsHeld k [line] = false →
      let v := s.coreStream ptr
      Claim.Ends s (.pref scp a p) (immLen p) (if scp.toNat < 2 then v.2.fillLine k line (keep && !v.1) else v.2)) ∧
    (Claim.ReachesLine s ptr needW true false segs keep → Claim.Ends s (.clean 0 a p) (immLen p) s) ∧
    (Claim.ReachesLine s ptr needW true false segs keep → 2 ≤ scp.toNat →
      ∀ u, s.flushLines s.cur [line] = some u → Claim.Ends s (.clean scp a p) (immLen p) u) ∧
    (Claim.ReachesLine s ptr needR false false segs keep → (∀ e ∈ (s.clu k).throughs, e.line ≠ line) →
      ∃ t, exec (.inval scp a p) s = .next t ∧ t.mem = s.mem ∧ (t.clu k).cache = SMap.del (s.clu k).cache line ∧
        (t.ctx s.cur) = { s.me with pc := s.me.pc + BitVec.ofNat 64 (immLen p) }) ∧
    (s.me.sta.sup = false → Claim.Faults s (.invalCluster scp d a p) Cause.privileged 0 0) ∧
    (s.me.sta.sup = true → Claim.ReachesLine s ptr needR false false segs keep →
      let other := (s.me.reg d).toNat % 512
      (other ∉ (s.part s.me.part).clusters → Claim.Faults s (.invalCluster scp d a p) Cause.partitionViolation ptr 0) ∧
      (other ∈ (s.part s.me.part).clusters → Claim.Ends s (.invalCluster scp d a p) (immLen p) (s.invalidate other line)))

/-- An operation that executes at a place has got there: its checks pass, its release is done, no release marker stands before a write
(11 R242), the thread's own bytes of the line are written, its detector has seen the access, the reply's mark and the cluster's copy
are seen to, and the line is not held back from it; `u` is the machine then, and `ls` are its locations (03 R51; 10 R216, R217; 11
R252). -/
def Claim.AtPlace (s : State) (ptr : Word) (size need al : Nat) (r : Reach) (wr rd : Bool) (rel : Option Nat) (u : State)
    (ls : List Nat) : Prop :=
  ∃ (segs : List (Nat × Nat)) (keep : Bool) (s1 s2 : State), Claim.Reaches s ptr size need al r wr rd segs keep ∧ ls = spanAll segs ∧
    (match rel with | none => s1 = s | some k => s.release s.cur k = (s1, true)) ∧
    (wr = true → hasMarker (s1.ctx s1.cur).buf = false) ∧
    s1.flushLines s1.cur (linesOf ls) = some s2 ∧ u = (s2.coreStream ptr).2.placeReply (cluOf s.cur) (lineOf (ls.headD 0)) ls ∧ (wr = true → u.lockedFor (lineOf (ls.headD 0)) u.cur = false)

/-- The new value of an atomic by its operation number (10 R223). -/
def Claim.atomic (op : Nat) {k : Nat} (x y : BitVec k) : BitVec k :=
  match op with
  | 0 => x + y
  | 1 => x &&& y
  | 2 => x ||| y
  | 3 => x ^^^ y
  | 4 => y
  | 5 => if x.toInt ≤ y.toInt then x else y
  | 6 => if x.toInt ≤ y.toInt then y else x
  | 7 => if x.toNat ≤ y.toNat then x else y
  | _ => if x.toNat ≤ y.toNat then y else x

/-- 10 R216, R223, R224; 17 R414: atomics at their place: the old value, extended by its type, goes to the register, and the new value
to memory; `CAS` writes only where the old value is the expected one.
Where the spec leaves the matter open it follows the model's choices and readings of log 5. -/
def Claim.AtomicForms : Prop :=
  ∀ (s u v : State) (ls : List Nat) (scp o : BitVec 2) (z : BitVec 3) (d a b : Reg) (p : Imm 4) (q : Imm 32), Calm s →
    4 ≤ z.toNat → z.toNat < 7 →
    let n := szBytes z.toNat
    let rel := if 2 ≤ o.toNat then some scp.toNat else none
    let acq := decide (o.toNat % 2 = 1)
    let old := v.valueAt ls
    let x : BitVec (8 * n) := BitVec.ofNat (8 * n) old
    (Claim.AtPlace s (s.me.reg a + dispW n p) n needA n .atomic true true rel u ls →
      ∀ t ∈ ([(0, .amoAdd scp o z d a p), (1, .amoAnd scp o z d a p), (2, .amoOr scp o z d a p), (3, .amoXor scp o z d a p),
          (4, .amoSwap scp o z d a p), (5, .amoMin scp o z d a p), (6, .amoMax scp o z d a p), (7, .amoMinn scp o z d a p),
          (8, .amoMaxn scp o z d a p)] : List (Nat × Instr)),
        (if t.1 = 4 ∨ d ≠ 0 then u.ordered u.cur 0x25 (ls.headD 0) = some v else v = u) →
          Claim.Ends s t.2 (immLen p) (((v.writeAt ls (Claim.atomic t.1 x ((s.me.reg d).setWidth (8 * n))).toNat).setReg d
            (Claim.widen z old)).acqIf acq scp.toNat)) ∧
    (Claim.AtPlace s (s.me.reg a + dispW 1 q) n needA n .atomic true true rel u ls → u.ordered u.cur 0x26 (ls.headD 0) = some v →
      (x = (s.me.reg b).setWidth (8 * n) → Claim.Ends s (.cas z scp o d a b q) (immLenX q)
        (((v.writeAt ls ((s.me.reg d).setWidth (8 * n)).toNat).setReg d (Claim.widen z old)).acqIf acq scp.toNat)) ∧
      (x ≠ (s.me.reg b).setWidth (8 * n) → Claim.Ends s (.cas z scp o d a b q) (immLenX q)
        (((v.dropCopy (ls.headD 0)).setReg d (Claim.widen z old)).acqIf acq scp.toNat)))

/-- Nothing of the running thread's is on its way: its buffer and its port's memory accesses are done, its writes are acknowledged, its
core and its cluster hold no write back, no full-empty request waits, and no trace record is due. -/
structure Claim.Quiet (s : State) : Prop where
  buf : s.me.buf = []
  acks : s.me.acks = 0
  port : s.vstQueued s.cur = false
  shared : (s.core (coreOf s.cur)).shared = []
  throughs : (s.clu (cluOf s.cur)).throughs = []
  retry : ∀ q ∈ s.clus, q.2.retry = []
  replay : s.replayOf s.cur = 0

/-- 10 R225: where `LR` and `SC` complete: the access passes, nothing of the thread's is on its way, and its line is free. -/
def Claim.ReservationsComplete : Prop :=
  ∀ (s : State) (segs : List (Nat × Nat)) (keep : Bool) (scp o : BitVec 2) (z : BitVec 3) (d a : Reg) (p : Imm 8),
    Calm s → Claim.Quiet s → WellKept s → 4 ≤ z.toNat → z.toNat < 7 → o.toNat < 2 → (spanAll segs).Nodup →
    let n := szBytes z.toNat
    let ptr := s.me.reg a + dispW n p
    let ls := spanAll segs
    let line := lineOf (ls.headD 0)
    let next := s.me.pc + BitVec.ofNat 64 (immLen p)
    (Claim.Reaches (if o = 1 then s.acquire s.cur scp.toNat else s) ptr n needA n .atomic false true segs keep →
      hasNat s.me.scFailed line = false →
      ∃ t, exec (.lr scp o z d a p) s = .next t ∧ (t.ctx s.cur).resv = some ⟨line, ptr, n⟩ ∧ (t.ctx s.cur).pc = next ∧ t.mem = s.mem ∧
        (t.ctx s.cur).reg d = if d = 0 then 0 else Claim.widen z (leNat (s.bytesAt ls))) ∧
    (Claim.Reaches s ptr n needA n .atomic true false segs keep → s.lockedFor line s.cur = false →
      (s.me.resv = some ⟨line, ptr, n⟩ → ∃ t, exec (.sc scp o z d a p) s = .next t ∧ (t.ctx s.cur).reg d = 0 ∧ (t.ctx s.cur).resv = none ∧
        (t.ctx s.cur).pc = next ∧ t.bytesAt ls = leBytes n (s.me.reg d).toNat ∧ SameMem ls s t) ∧
      (s.me.resv ≠ some ⟨line, ptr, n⟩ → ∃ t, exec (.sc scp o z d a p) s = .next t ∧
        (t.ctx s.cur).reg d = (if d = 0 then 0 else 1) ∧ (t.ctx s.cur).resv = none ∧ (t.ctx s.cur).pc = next ∧ t.mem = s.mem))

/-- The machine in which the request of a waiting context has come to its place: that context is at its instruction again. -/
def Claim.arrived (s : State) (c : Nat) : State :=
  ({ s with cur := c } : State).modCtx c (fun x => { x with slot := .ready, wait := none })

/-- 10 R216, R226: a request that waits for its place is performed there, once nothing holds it back, as its instruction would be: an
atomic completes with its old value, its write and its acquire; whatever the instruction is, the request does what the
instruction does. -/
def Claim.RequestsArriveAtTheirPlaces : Prop :=
  ∀ (s u v : State) (ls : List Nat) (c l : Nat) (scp o : BitVec 2) (z : BitVec 3) (d a : Reg) (p : Imm 4),
    let t := Claim.arrived s c
    (s.ctx c).slot = .blocked →
    (∀ i w, (s.ctx c).wait = some w → w.why = .place l → w.reply = none → s.nextInstr c = .ok i → (placeBody i).isSome = true →
      exec (.atomicAtPlace c) s = exec i t) ∧
    (Calm t → 4 ≤ z.toNat → z.toNat < 7 →
      let n := szBytes z.toNat
      let x : BitVec (8 * n) := BitVec.ofNat (8 * n) (v.valueAt ls)
      Claim.AtPlace t (t.me.reg a + dispW n p) n needA n .atomic true true (if 2 ≤ o.toNat then some scp.toNat else none) u ls →
      ∀ i ∈ ([(0, .amoAdd scp o z d a p), (1, .amoAnd scp o z d a p), (2, .amoOr scp o z d a p), (3, .amoXor scp o z d a p),
          (4, .amoSwap scp o z d a p), (5, .amoMin scp o z d a p), (6, .amoMax scp o z d a p), (7, .amoMinn scp o z d a p),
          (8, .amoMaxn scp o z d a p)] : List (Nat × Instr)),
        (s.ctx c).wait = some { why := .place l, len := immLen p } → s.nextInstr c = .ok i.2 →
        (if i.1 = 4 ∨ d ≠ 0 then u.ordered u.cur 0x25 (ls.headD 0) = some v else v = u) →
        exec (.atomicAtPlace c) s = .next ((((v.writeAt ls (Claim.atomic i.1 x ((t.me.reg d).setWidth (8 * n))).toNat).setReg d
          (Claim.widen z (v.valueAt ls))).acqIf (decide (o.toNat % 2 = 1)) scp.toNat).modCtx c (fun y =>
            { y with pc := t.me.pc + BitVec.ofNat 64 (immLen p) })))

/-- The three together: `Claim.AtomicForms`, `Claim.ReservationsComplete` and `Claim.RequestsArriveAtTheirPlaces`.
Where the spec leaves the matter open it follows the model's choices and readings of logs 5 and 13. -/
def Obligations.AtomicResults : Prop :=
  Claim.AtomicForms ∧ Claim.ReservationsComplete ∧ Claim.RequestsArriveAtTheirPlaces

/-- 10 R225, R226: `LR` reads at the place and sets the reservation; `SC` writes and answers 0 when the reservation is intact and was
set with the same pointer and size, and otherwise answers 1 and writes nothing; either way the reservation ends. -/
def Claim.ReservationResults : Prop :=
  ∀ (s u u1 v : State) (ls : List Nat) (scp o : BitVec 2) (z : BitVec 3) (d a : Reg) (p : Imm 8), Calm s →
    4 ≤ z.toNat → z.toNat < 7 → o.toNat < 2 →
    let n := szBytes z.toNat
    let ptr := s.me.reg a + dispW n p
    let line := lineOf (ls.headD 0)
    let acq (t : State) : State := if o = 1 then t.acquire t.cur scp.toNat else t
    (Claim.AtPlace (if o = 1 then s.acquire s.cur scp.toNat else s) ptr n needA n .atomic false true none u ls →
      u.lrTurn u.cur line = (true, u1) → u1.ordered u1.cur 0x23 (ls.headD 0) = some v →
      Claim.Ends s (.lr scp o z d a p) (immLen p)
        (acq (((v.dropCopy (ls.headD 0)).modCtx v.cur (fun x => { x with resv := some ⟨line, ptr, n⟩ })).setReg d
          (Claim.widen z (v.valueAt ls))))) ∧
    (Claim.AtPlace s ptr n needA n .atomic true false (if o = 1 then some scp.toNat else none) u ls →
      u.ordered u.cur 0x24 (ls.headD 0) = some v → v.cur = s.cur → v.reg d = s.me.reg d →
      let held := (v.ctx v.cur).resv = some ⟨line, ptr, n⟩
      let after (w : State) (ok : Bool) : State :=
        ((if (v.dirAt line).lock = some s.cur then w.unlock line else w).modCtx s.cur (fun x =>
          { x with resv := none, scFailed := if ok then delNat x.scFailed line else addNat x.scFailed line })).setReg d
            (if ok then 0 else 1)
      (held → Claim.Ends s (.sc scp o z d a p) (immLen p) (after (v.writeAt ls (s.me.reg d).toNat) true)) ∧
      (¬ held → Claim.Ends s (.sc scp o z d a p) (immLen p) (after (v.dropCopy (ls.headD 0)) false)))

/-- 10 R225, R227, R216: a write at a place ends every reservation of its line, and drops the watches of the line, whose threads get
the word as it then is. -/
def Claim.WritesEndReservations : Prop :=
  ∀ (s : State) (wr : Writer) (bs : List (Nat × Byte)), (∀ q ∈ s.clus, q.2.retry = []) → (bs.map (·.1)).Nodup → WellKept s →
    let t := s.place wr bs
    (∀ q ∈ bs, t.mem.read q.1 = q.2) ∧ SameMem (bs.map (·.1)) s t ∧
    (∀ c, ∀ r, (t.ctx c).resv = some r → r.line ∉ linesOf (bs.map (·.1))) ∧
    (∀ q ∈ bs, (t.dirAt (lineOf q.1)).watches = [] ∧ t.isFull q.1 = true ∧ hasNat t.mtags (q.1 / 16) = false)

/-- The two together: `Claim.ReservationResults` and `Claim.WritesEndReservations`.
Where the spec leaves the matter open it follows the model's choices and readings of log 13. -/
def Obligations.Reservations : Prop := Claim.ReservationResults ∧ Claim.WritesEndReservations

/-- 10 R227, R228, R229; 06 R113, R114: a wait on a line, a contribution to an exact sum cell, and a reading of one. -/
def Claim.LineWaitsAndCells : Prop :=
  ∀ (s u : State) (ls : List Nat) (scp o : BitVec 2) (z : BitVec 3) (k : BitVec 1) (f : BitVec 5) (d a b : Reg) (p : Imm 8)
      (q : Imm 32), Calm s → 4 ≤ z.toNat → z.toNat < 7 → o.toNat < 2 →
    let n := szBytes z.toNat
    let val := u.valueAt ls
    let cell : BitVec 512 := BitVec.ofNat 512 val
    let acq (t : State) : State := if o = 1 then t.acquire t.cur scp.toNat else t
    (Claim.AtPlace s (s.me.reg a + dispW n p) n needR n .fe false true none u ls →
      (val ≠ (s.me.reg d).toNat % 2 ^ (8 * n) ∨ 64 ≤ u.watchCount (ls.headD 0) → u.cur = s.cur → u.reg d = s.me.reg d →
        Claim.Ends s (.waitrs scp o z d a p) (immLen p) (acq ((u.dropCopy (ls.headD 0)).setReg d (Claim.widen z val)))) ∧
      (val = (s.me.reg d).toNat % 2 ^ (8 * n) → u.watchCount (ls.headD 0) < 64 → u.cur = s.cur → u.reg d = s.me.reg d →
        exec (.waitrs scp o z d a p) s = .next ((u.modDir (lineOf (ls.headD 0)) (fun e =>
          { e with watches := e.watches ++ [{ ctx := s.cur, loc := ls.headD 0, z := z.toNat, d := d }] })).block s.cur
            (.watch (ls.headD 0)) (immLen p)))) ∧
    (Claim.AtPlace s (s.me.reg a + dispW 1 q) 64 needA 64 .cell true true (if o = 1 then some scp.toNat else none) u ls →
      u.cur = s.cur → u.reg b = s.me.reg b →
      (∀ w, xsAdd cell (elemValue f.toNat (s.me.reg b).toNat) f.toNat = some w →
        Claim.Ends s (.red f scp o a b q) (immLenX q) (u.writeAt ls w.toNat)) ∧
      (xsAdd cell (elemValue f.toNat (s.me.reg b).toNat) f.toNat = none →
        Claim.Faults s (.red f scp o a b q) Cause.xcellFormat (s.me.reg a + dispW 1 q) 0)) ∧
    (Claim.AtPlace (if o = 1 then s.acquire s.cur scp.toNat else s) (s.me.reg a + dispW 1 q) 64
        (if k = 1 then needR + needW else needR) 64 .cell (decide (k = 1)) true none u ls →
      let r := xsRead cell f.toNat (u.ctx u.cur).sta.rm.toNat
      let w := if k = 1 then u.writeAt ls 0 else u.dropCopy (ls.headD 0)
      Claim.Ends s (.xsrd k f scp o d a q) (immLenX q)
        (acq ((w.setReg d (placeCode f.toNat r.1)).modCtx u.cur (·.raise r.2))))

/-- 06 R112 to R115: an exact sum does not depend on the order of its contributions. -/
def Claim.ExactSumsAreOrderFree : Prop :=
  ∀ (c c1 c2 d1 d2 : BitVec 512) (v w : FVal) (f : Nat), xsCount c + 2 < 2 ^ 48 →
    xsAdd c v f = some c1 → xsAdd c1 w f = some c2 → xsAdd c w f = some d1 → xsAdd d1 v f = some d2 → c2 = d2

/-- The two together: `Claim.LineWaitsAndCells` and `Claim.ExactSumsAreOrderFree`. -/
def Claim.LineWaitsAndReductionCells : Prop := Claim.LineWaitsAndCells ∧ Claim.ExactSumsAreOrderFree

/-- 10 R230, R216: what each full-empty mode does at the place to a word that no other request waits for. -/
def Claim.FullEmptyModes : Prop :=
  ∀ (s : State) (wr : Writer) (l : Nat) (v : Word), l % 8 = 0 → WellKept s →
    let old : Word := BitVec.ofNat 64 (s.peekN l 8)
    let is (m : FeMode) (full : Bool) (new : Word) : Prop :=
      let r := s.fePerform wr l m v
      r.1 = old ∧ r.2.isFull l = full ∧ BitVec.ofNat 64 (r.2.peekN l 8) = new ∧ SameMem (span l 8) s r.2
    is .read (s.isFull l) old ∧ is .take false old ∧ is .put true v ∧ is .fill true v ∧ is .clear false old ∧
    (∀ m : FeMode, m.ready true = decide (m ≠ .put) ∧ m.ready false = decide (m = .put ∨ m = .fill ∨ m = .clear))

/-- 10 R230, R231: a full-empty instruction at its place: performed at once when the word's state allows, with the waiters of the word
served after it; otherwise it waits at the end of the slice's retry list, and where the list is full it waits to be sent again. -/
def Claim.FullEmptyInstructions : Prop :=
  ∀ (s u v : State) (ls : List Nat) (scp : BitVec 2) (d a : Reg) (p : Imm 4), Calm s →
    ∀ t ∈ ([(.read, .ldfeRead scp d a p), (.take, .ldfeTake scp d a p), (.put, .stfePut scp d a p), (.fill, .stfeFill scp d a p)] ++
        (if d = 0 then [(.clear, .stfeClear scp a p)] else []) : List (FeMode × Instr)),
      let m := t.1
      let loads := decide (m = .read ∨ m = .take)
      let l := ls.headD 0
      let k := u.placeClu l
      Claim.AtPlace s (s.me.reg a + dispW 8 p) 8 needF 8 .fe (decide (m ≠ .read)) loads (if loads then none else some scp.toNat) u ls →
      let r := v.fePerform (writerOf v.cur) l m (s.me.reg d)
      let w := r.2.serveWords [l]
      let y := (w.dropCopy l).setReg d r.1
      let q : FeReq := { ctx := u.cur, loc := l, mode := m, data := s.me.reg d, reg := if loads then d else 0,
                         tag := u.phaseOf u.cur }
      (m.ready (u.isFull l) = true → u.ordered u.cur (if loads then 0x2A else 0x2B) l = some v →
        (loads = true → Claim.Ends s t.2 (immLen p) (y.acquire y.cur scp.toNat)) ∧
        (loads = false → Claim.Ends s t.2 (immLen p) w)) ∧
      (m.ready (u.isFull l) = false → (u.clu k).retry.length < 256 →
        exec t.2 s = .next ((u.modClu k (fun c => { c with retry := c.retry ++ [q] })).block s.cur (.retry l) (immLen p))) ∧
      (m.ready (u.isFull l) = false → 256 ≤ (u.clu k).retry.length →
        exec t.2 s = .next (u.block s.cur (.retry l) (immLen p)))

/-- The two together: `Claim.FullEmptyModes` and `Claim.FullEmptyInstructions`. -/
def Claim.FullEmptyOperations : Prop := Claim.FullEmptyModes ∧ Claim.FullEmptyInstructions

/-- The two together: `Claim.LineWaitsAndReductionCells` and `Claim.FullEmptyOperations`.
Where the spec leaves the matter open it follows the model's choices and readings of logs 5, 13 and 30. -/
def Obligations.LineWaitsCellsAndFullEmpty : Prop := Claim.LineWaitsAndReductionCells ∧ Claim.FullEmptyOperations

/-- 16 R380, R381: a capability load brings the pair and the tag of its granule; a capability store enters the buffer with the tag of
its pair. -/
def Claim.CapabilityLoadsAndStores : Prop :=
  ∀ (s u : State) (scp o : BitVec 2) (d a : Reg) (p : Imm 8) (segs : List (Nat × Nat)) (keep : Bool), Calm s → o.toNat < 2 →
    let ptr := s.me.reg a + dispW 16 p
    let ls := spanAll segs
    let l := ls.headD 0
    (Claim.Reaches s ptr 16 (needR + needL) 16 .cap false true segs keep → s.flushLines s.cur [lineOf l] = some u →
      let v := (u.coreStream ptr).2.placeReply (cluOf s.cur) (lineOf l) ls
      let u1 := if o = 1 then v.acquire v.cur scp.toNat else v
      let w := u1.setPair d (BitVec.ofNat 128 (leNat (u1.bytesAt ls))) (hasNat u1.mtags (l / 16) && !hasNat u1.poison (l / 16))
      Claim.Ends s (.ldc scp o d a p) (immLen p) (if o = 1 then w.acquire w.cur scp.toNat else w)) ∧
    (Claim.Reaches s ptr 16 (needW + needS) 16 .cap true false segs keep →
      let v := s.coreStream ptr
      v.2.storeAt (ls.zip (leBytes 16 (s.me.pair d).toNat)) o.toNat scp (keep && !v.1) = .done u →
      Claim.Ends s (.stc scp o d a p) (immLen p) (u.tagEntry u.cur l (s.me.tagOf d)))

/-- The two together: `Claim.CapabilityResults` and `Claim.CapabilityLoadsAndStores`.
Where the spec leaves the matter open it follows the model's choices and readings of logs 26 and 53. -/
def Obligations.Capabilities : Prop := Claim.CapabilityResults ∧ Claim.CapabilityLoadsAndStores

/-- 10 R233 to R235; 18 R428: a remote operation that passes the egress leaves as one request with the next sequence number of its
target, and the thread waits for the reply; one that writes waits for the release markers before it (11 R242); a failing check faults with
nothing sent. Where the spec leaves the matter open it follows the model's choices and readings of logs 30 and 39. -/
def Obligations.RemoteOperationsLeave : Prop :=
  ∀ (s : State) (m : BitVec 4) (z : BitVec 3) (d a b : Reg) (p : Imm 32), Calm s → z.toNat < 7 → s.replayOf s.cur = 0 →
    let x := s.me
    let cap := x.pair a
    let off := x.reg b + dispW 1 p
    let n := szBytes z.toNat
    let low : BitVec 128 := BitVec.ofNat 128 ((x.reg d).toNat % 2 ^ (8 * n))
    let seq := SMap.at 0 s.pkg.eseqs (capNode cap)
    let sends (i : Instr) (perm opc : Nat) (opnd : BitVec 128) (reg : Reg) : Prop :=
      (∀ e, s.egress cap (x.tagOf a) off.toNat n perm (opBits opc m.toNat) none = some e →
        exec i s = .next (s.takeFault s.cur e)) ∧
      (s.egress cap (x.tagOf a) off.toNat n perm (opBits opc m.toNat) none = none → opc ≠ opcRld ∨ m ≠ 0 → hasMarker x.buf = true →
        exec i s = .next (s.block s.cur .marker (immLenX p))) ∧
      (s.egress cap (x.tagOf a) off.toNat n perm (opBits opc m.toNat) none = none → hasMarker x.buf = false ∨ (opc = opcRld ∧ m = 0) →
        x.eseq = none →
        (s.pkg.outst.filter (fun o => decide (o.pkt.tgtNode = capNode cap))).length < 1024 →
        ∃ t q, exec i s = .next t ∧ t.pkg.outbox = s.pkg.outbox ++ [q] ∧ q.opc = opc ∧ q.mop = m.toNat ∧ q.sz = z.toNat ∧
          q.cap = cap ∧ q.off = off ∧ q.eseq = seq ∧ q.tgtNode = capNode cap ∧ q.tgtPart = capPart cap ∧ q.opnd = opnd ∧
          (∃ o, t.pkg.outst = s.pkg.outst ++ [o] ∧ o.ctx = some s.cur ∧ o.reg = reg ∧ o.sz = z.toNat ∧ o.pkt = q) ∧
          SMap.at 0 t.pkg.eseqs (capNode cap) = (seq + 1) % 2 ^ 32 ∧
          (t.ctx s.cur).slot = .blocked ∧ (t.ctx s.cur).wait = some { why := .remote seq, len := immLenX p } ∧
          (t.ctx s.cur).x = x.x ∧ (t.ctx s.cur).pc = x.pc ∧ t.mem = s.mem)
    sends (.rld m 0 z d a b p) (if m = 0 then 1 else 9) opcRld 0 d ∧ sends (.rld m 1 z d a b p) (if m = 0 then 1 else 9) opcRld 0 d ∧
    sends (.rst m 0 z d a b p) (if m = 0 then 2 else 10) opcRst low 0 ∧
    sends (.ramo 0 z m d a b p) 4 opcRamo low d ∧ sends (.ramo 1 z m d a b p) 4 opcRamo low d

/-! ## Threads, channels and speculation -/

/-- The running thread waits: the context is BLOCKED and nothing else has happened (02 R32). -/
def Claim.Waits (s : State) (i : Instr) (len : Nat) (w : Why) : Prop := exec i s = .next (s.block s.cur w len)

/-- A release at `scope` that the instruction makes is complete, and leaves `u` (10 R210, R211). -/
def Claim.Released (s : State) (scope : Nat) (u : State) : Prop := s.release s.cur scope = (u, true)

/-- What holds no thread and no arrival, has no sender waiting and no stream open to it. -/
def Claim.Vacant (s : State) (c : Nat) : Prop :=
  (s.ctx c).slot = .free ∧ (s.core (coreOf c)).arrivals = [] ∧ (s.chan c).waiting = [] ∧ (s.chan c).stream = none ∧ (s.core (coreOf c)).engHeld = []

/-- 15 R341 to R343: `SPAWN` starts a thread in a FREE slot of the issuer's block, as the rule lists it; `REAP` takes an EXITED record,
waits for a LIVE one, and faults on an ABSENT one; both fault outside slot 0 of a core that runs its block. -/
def Claim.SpawnAndReap : Prop :=
  ∀ (s : State) (k : BitVec 3) (c d a b : Reg), Calm s →
    let core := coreOf s.cur
    let t := 16 * core + c.toNat
    let x := s.me.reg a
    let entry := x
    let free := c ≠ 0 ∧ s.slotFree t = true ∧ (s.core core).reapOf c.toNat = .absent
    let i := x.toNat
    (s.isManager s.cur = false → Claim.Faults s (.spawn k c a b) Cause.spawnInvalid 0 0 ∧
      Claim.Faults s (.reap d a) Cause.spawnInvalid 0 0 ∧ Claim.Faults s (.reapAny d) Cause.spawnInvalid 0 0) ∧
    (s.isManager s.cur = true → c = 0 ∨ s.slotFree t = false ∨ (s.core core).reapOf c.toNat ≠ .absent →
      Claim.Faults s (.spawn k c a b) Cause.spawnInvalid 0 0) ∧
    (s.isManager s.cur = true → free → (∀ e, engineOf k.toNat = some e → s.engineUser core e = none) →
      (entry.toNat % 4 ≠ 0 → Claim.Faults s (.spawn k c a b) Cause.misaligned entry 0) ∧
      (entry.toNat % 4 = 0 → Claim.Vacant s t → s.me.buf = [] → s.vstQueued s.cur = false →
        ∃ u, exec (.spawn k c a b) s = .next u ∧
          (let y := u.ctx t
           y.slot = .ready ∧ y.pc = entry ∧ (∀ r, y.reg r = if r = 1 then s.me.reg b else 0) ∧ y.tags = 0 ∧
             y.sta = { bind := bindField k.toNat, port := portField k.toNat, rm := s.me.sta.rm } ∧ y.wid = s.me.wid ∧
             y.part = s.me.part ∧ y.ticket = 0 ∧ y.tickets = [] ∧ y.buf = [] ∧ u.chan t = {}) ∧
          (u.core core).reapOf c.toNat = .live ∧ (u.ctx s.cur).x = s.me.x ∧ (u.ctx s.cur).sta = s.me.sta ∧
          (u.ctx s.cur).pc = s.me.pc + 4 ∧ u.mem = s.mem)) ∧
    (s.isManager s.cur = true → (i = 0 ∨ 15 < i) → Claim.Faults s (.reap d a) Cause.spawnInvalid 0 0) ∧
    (s.isManager s.cur = true → 1 ≤ i → i ≤ 15 →
      ((s.core core).reapOf i = .absent → Claim.Faults s (.reap d a) Cause.spawnInvalid 0 0) ∧
      ((s.core core).reapOf i = .live → Claim.Waits s (.reap d a) 4 (.reap i)) ∧
      (∀ code, (s.core core).reapOf i = .exited code →
        Claim.Ends s (.reap d a) 4 ((s.takeReap i).setReg d (code.setWidth 64)))) ∧
    (s.isManager s.cur = true →
      ((∀ j, 1 ≤ j → j ≤ 15 → (s.core core).reapOf j = .absent) → Claim.Puts s (.reapAny d) 4 d (BitVec.allOnes 64)) ∧
      (∀ j code, 1 ≤ j → j ≤ 15 → (s.core core).reapOf j = .exited code →
        (∀ h, 1 ≤ h → h < j → ∀ e, (s.core core).reapOf h ≠ .exited e) →
        Claim.Ends s (.reapAny d) 4 ((s.takeReap j).setReg d (BitVec.ofNat 64 (j * 256 + code.toNat)))))

/-- 15 R342, R344, R345: taking a reap record makes it ABSENT and frees the slot; `BIND` takes a free engine fresh; the semaphore
operations. -/
def Claim.BindingAndSemaphores : Prop :=
  ∀ (s : State) (k : BitVec 3) (d a : Reg), Calm s →
    let core := coreOf s.cur
    let n := (s.me.reg a).toNat
    let set (u : State) (v : Nat) : State := u.modCore core (fun q => { q with sems := SMap.put q.sems n v })
    (∀ i c, s.reapSlot core i = some c → Claim.Vacant { s with ctxs := SMap.put s.ctxs c { slot := .free } } c → isDsc c = false →
      ((s.takeReap i).core core).reapOf i = .absent ∧ ((s.takeReap i).ctx c).slot = .free) ∧
    (k.toNat = s.me.sta.bindCode → exec (.bind k) s = .next (s.after 4 id)) ∧
    (k.toNat ≤ 6 → k.toNat ≠ s.me.sta.bindCode →
      (k.toNat = 6 → s.isManager s.cur = false ∧ s.me.declared = [] ∧ s.me.regions = [] ∧ s.me.sta.spec = false) →
      (∀ e, engineOf s.me.sta.bindCode = some e → s.drained core e = false → Claim.Waits s (.bind k) 4 .drain) ∧
      ((∀ e, engineOf s.me.sta.bindCode = some e → s.drained core e = true) → (s.core core).engHeld = [] → (s.core core).engWait = [] →
        (∀ e, engineOf k.toNat = some e → s.engineUser core e = none) →
        ∃ u, exec (.bind k) s = .next u ∧
          u.ctx s.cur = { s.me with pc := s.me.pc + 4, sta := { s.me.sta with bind := bindField k.toNat, port := portField k.toNat } } ∧
          (∀ p, p < 4 → k.toNat = p + 1 → u.port core p = {}) ∧ (k.toNat = 5 → u.mat core = {}) ∧ u.mem = s.mem)) ∧
    (k.toNat = 6 → s.me.sta.bindCode ≠ 6 →
      (slotOf s.cur = 0 ∧ s.isManager s.cur = true) ∨ s.me.declared ≠ [] ∨ s.me.regions ≠ [] ∨ s.me.sta.spec = true →
      Claim.Faults s (.bind k) Cause.migrationRefused 0 0) ∧
    (16 ≤ n → Claim.Faults s (.semP a) Cause.semaphoreRange 0 0 ∧ Claim.Faults s (.semV a) Cause.semaphoreRange 0 0 ∧
      Claim.Faults s (.semTry d a) Cause.semaphoreRange 0 0) ∧
    (n < 16 →
      (0 < s.semCount n →
        Claim.Ends s (.semP a) 4 (set s (s.semCount n - 1)) ∧ Claim.Ends s (.semTry d a) 4 ((set s (s.semCount n - 1)).setReg d 1)) ∧
      (s.semCount n = 0 → Claim.Puts s (.semTry d a) 4 d 0 ∧
        exec (.semP a) s = .next ((s.setSemQueue n (s.semQueue n ++ [s.cur])).block s.cur (.sem n) 4)) ∧
      (s.semQueue n = [] → s.semCount n = 2 ^ 32 - 1 → Claim.Faults s (.semV a) Cause.semaphoreRange 0 0) ∧
      (∀ u, Claim.Released s 0 u →
        (u.semQueue n = [] → s.semQueue n = [] → s.semCount n ≠ 2 ^ 32 - 1 → Claim.Ends s (.semV a) 4 (u.setSem n (u.semCount n + 1))) ∧
        (∀ c r, s.semQueue n ≠ [] → u.semQueue n = c :: r → Claim.Ends s (.semV a) 4 ((u.setSemQueue n r).giveReply c {}))))

/-- The iteration that has the baton once a thread has named the base `b` to a cluster (15 R357). -/
def Claim.baton (s : State) (clu b : Nat) : Nat :=
  match (s.clu clu).group with
  | some q => if q.1 = b then q.2 else b
  | none => b

/-- The tagged lines of the running thread's iteration (15 R359). -/
def Claim.lines (s : State) (clu : Nat) : List SpecLine := (s.clu clu).spec.filter (fun t => decide (t.ctx = s.cur))

/-- 15 R356, R357, R359; 02 R35: where the instructions of the work list, of an iteration and the balancing interval complete. -/
def Claim.ListsAndIterationsComplete : Prop :=
  ∀ (s : State) (d a b : Reg) (c : Nat),
    let core := coreOf s.cur
    let k := s.core core
    let clu := cluOf s.cur
    let n := (s.me.reg a).toNat
    let bs := (s.me.reg b).toNat
    (Calm s → k.list.length + k.promised < 256 → ∃ t, exec (.llpush d a) s = .next t ∧ (t.core core).list = s.me.reg a :: k.list ∧
      (t.ctx s.cur).reg d = (if d = 0 then 0 else 1) ∧ (t.ctx s.cur).pc = s.me.pc + 4 ∧ t.mem = s.mem) ∧
    (∀ v r, Calm s → k.list = v :: r → ∃ t, exec (.llpop d b) s = .next t ∧ (t.core core).list = r ∧
      (d ≠ b → (t.ctx s.cur).reg d = if d = 0 then 0 else v) ∧ (t.ctx s.cur).reg b = (if b = 0 then 0 else 1) ∧
      (t.ctx s.cur).pc = s.me.pc + 4 ∧ t.mem = s.mem) ∧
    (Plain s → Claim.Quiet s → s.me.spec = none → s.me.sta.spec = false → s.me.sta.bind = 0 → (s.clu clu).hasCache = true →
      (∀ g, (s.clu clu).group = some g → g.1 = bs ∨ s.iterations clu = []) → Claim.baton s clu bs ≤ n → n < Claim.baton s clu bs + 64 →
      n ∉ s.iterations clu →
      ∃ t, exec (.specb a b) s = .next t ∧ (t.ctx s.cur).spec = some ⟨s.me.x, s.me.tags, s.me.sta, s.me.pc + 4, n, bs⟩ ∧
        (t.ctx s.cur).sta = { s.me.sta with spec := true } ∧ (t.ctx s.cur).pc = s.me.pc + 4 ∧ t.mem = s.mem) ∧
    (∀ q, Plain s → Claim.Quiet s → s.me.spec = some q → s.holdsBaton s.cur = true →
      (∀ t ∈ Claim.lines s clu, s.lockedFor t.line s.cur = false) →
      s.me.sta.ss = false → ∃ t, exec .specc s = .next t ∧ (t.ctx s.cur).spec = none ∧ (t.ctx s.cur).sta = { s.me.sta with spec := false } ∧
        SameMem ((Claim.lines s clu).flatMap (fun t => (maskedBytes t.line t.mask t.data).map (·.1))) s t) ∧
    (∃ t, exec (.loadLevellingInterval c) s = .next t ∧ t.mem = s.mem ∧ (∀ j, j ≠ c → (t.core j).list = (s.core j).list) ∧
      ∃ m, (t.core c).list = (s.core c).list.take m)

/-- The three together: `Claim.SpawnAndReap`, `Claim.BindingAndSemaphores` and `Claim.ListsAndIterationsComplete`.
Where the spec leaves the matter open it follows the model's choices and readings of logs 2 and 10. -/
def Obligations.ThreadsBindingAndSemaphores : Prop :=
  Claim.SpawnAndReap ∧ Claim.BindingAndSemaphores ∧ Claim.ListsAndIterationsComplete

/-- 15 R346 to R349: sending to a channel, streams, wakes, and what `RECV` and `TRYRECV` take. -/
def Claim.ChannelsAndStreams : Prop :=
  ∀ (s : State) (d a b : Reg), Calm s →
    let core := coreOf s.cur
    let v := s.me.reg a
    let w := s.me.reg b
    let t := v.toNat
    let ok := t ≤ 32767 ∧ cluOf t ∈ (s.part s.me.part).clusters
    let h := s.chan s.cur
    let own := s.modCtx s.cur (fun x => { x with owner := true })
    let word (c : Nat) (stream : Bool) : State :=
      ({ s with nextMsg := s.nextMsg + 1 }).sendMsg s.cur (s.newMsg s.cur c (.word w stream))
    let open_ (n : Nat) : State :=
      (s.modCore core (fun q => { q with streams := SMap.put q.streams n (s.cur, t) })).modChan t (fun q => { q with stream := some s.cur })
    (32767 < t → ∀ i ∈ [Instr.send a b, .openS d a, .wake a b], Claim.Faults s i Cause.reservedBits 0 0) ∧
    (t ≤ 32767 → cluOf t ∉ (s.part s.me.part).clusters → ∀ i ∈ [Instr.send a b, .openS d a, .wake a b],
      Claim.Faults s i Cause.partitionViolation 0 0) ∧
    (ok → (s.chan t).waiting = [] →
      ((s.chan t).words.length + s.inFlight t < 8 → ((s.chan t).stream = none ∨ (s.chan t).stream = some s.cur) →
        Claim.Ends s (.send a b) 4 (word t false)) ∧
      (∀ n < 4, (s.core core).streams.all (fun p => decide (p.1 ≠ n)) = true →
        (∀ m < n, (s.core core).streams.any (fun p => decide (p.1 = m)) = true) → (s.chan t).stream = none →
        hasMarker s.me.buf = false → Claim.Ends s (.openS d a) 4 ((open_ n).setReg d (BitVec.ofNat 64 n)))) ∧
    (ok → hasMarker s.me.buf = true → Claim.Waits s (.openS d a) 4 .marker) ∧
    (ok → hasMarker s.me.buf = false → (∀ m < 4, (s.core core).streams.any (fun p => decide (p.1 = m)) = true) →
      Claim.Waits s (.openS d a) 4 (.openS t)) ∧
    (ok → Claim.Ends s (.wake a b) 4 (s.post s.cur t (.wake w))) ∧
    (s.ownStream v = none → Claim.Faults s (.sendS a b) Cause.reservedBits 0 0 ∧ Claim.Faults s (.close a) Cause.reservedBits 0 0) ∧
    (∀ c, s.ownStream v = some c →
      Claim.Ends s (.close a) 4 ((s.post s.cur c .close).modCore core (fun q => { q with streams := SMap.del q.streams t })) ∧
      ((s.chan c).waiting = [] → (s.chan c).words.length + s.inFlight c < 8 → (s.chan c).stream = some s.cur →
        Claim.Ends s (.sendS a b) 4 (word c true))) ∧
    (h.wake = true → ∀ i ∈ [Instr.recv d b, .tryrecv d b],
      Claim.Ends s i 4 (((own.modChan s.cur (fun q => { q with wake := false, cell := 0 })).setReg d h.cell).setReg b 2)) ∧
    (h.wake = false → h.words = [] → exec (.recv d b) s = .next (own.block s.cur .recv 4) ∧
      Claim.Ends s (.tryrecv d b) 4 ((own.setReg d 0).setReg b 0)) ∧
    (∀ p r, h.wake = false → h.words = p :: r → h.waiting = [] → s.replayOf s.cur = 0 →
      ∀ i ∈ [Instr.recv d b, .tryrecv d b], ∃ u, exec i s = .next u ∧ (u.chan s.cur).words = r ∧
        (d ≠ b → (u.ctx s.cur).reg d = if d = 0 then 0 else p.1) ∧ ((u.ctx s.cur).reg b = if b = 0 then 0 else 1) ∧
        (u.ctx s.cur).pc = s.me.pc + 4 ∧ u.mem = s.mem)

/-- 15 R346, R348, R350, R343: what a message does where it arrives: a word joins the channel's words, a wake joins its cell, a
closing marker ends the stream; what arrives for a FREE slot is discarded; an arrival at a barrier takes the phase and turns it
when the count is reached; an exit notice fills a reap record. -/
def Claim.MessagesArrive : Prop :=
  ∀ (s : State) (m : Msg), s.msgAt m.id = some m →
    let t := s.takeMsg m
    let arrives (i : Instr) (u : State) : Prop := exec i s = .next u
    (∀ v stream, m.body = .word v stream → (s.ctx m.dst).slot ≠ .free →
      arrives (.channelWordArrival m.id) (t.modChan m.dst (fun h => { h with words := h.words ++ [(v, m.ident)] }))) ∧
    (∀ v stream, m.body = .word v stream → (s.ctx m.dst).slot = .free → (s.chan m.dst).waiting = [] →
      arrives (.channelWordArrival m.id) t) ∧
    (∀ v, m.body = .wake v → (s.ctx m.dst).slot ≠ .free →
      arrives (.channelWordArrival m.id) (t.modChan m.dst (fun h => { h with cell := h.cell ||| v, wake := true }))) ∧
    (m.body = .close → (s.chan m.dst).stream = some m.src → (s.chan m.dst).waiting = [] →
      arrives (.channelWordArrival m.id) (t.modChan m.dst (fun h => { h with stream := none }))) ∧
    (∀ l bar count d, m.body = .barrier l bar count d →
      let b := s.barrier l m.src bar
      let put (b : Barrier) : State := (t.setBarrier l m.src bar b).giveReply m.src { writes := [(d, boolW (s.barrier l m.src bar).phase)] }
      (count = 0 ∨ (b.count ≠ 0 ∧ b.count ≠ count) →
        arrives (.barrierArrival m.id) (t.giveReply m.src { exc := some { code := Cause.reservedBits } })) ∧
      (0 < count → (b.count = 0 ∨ b.count = count) →
        (b.arrived + 1 ≠ count → arrives (.barrierArrival m.id) (put ⟨count, b.arrived + 1, b.phase⟩)) ∧
        (b.arrived + 1 = count → arrives (.barrierArrival m.id) (put ⟨count, 0, !b.phase⟩)))) ∧
    (∀ k slot l b code, m.body = .exitNotice k slot l b code → (s.core k).running = true → (s.core k).launch = l → (s.core k).block = b →
      arrives (.exitNotice m.id) (t.modCore k (fun q => { q with reaps := SMap.put q.reaps slot (.exited code) }))) ∧
    (∀ k l, m.body = .entries k l → arrives (.llEntriesArrive m.id)
      (t.modCore k (fun q => { q with list := q.list ++ l, promised := q.promised - l.length })))

/-- 15 R350 to R355: barriers, remote calls and their replies, and moving a COURIER thread. A call by a capability (C = 1) makes a
release at system scope and goes to the peer as a request. -/
def Claim.BarriersCallsAndMigration : Prop :=
  ∀ (s : State) (d a b : Reg) (bar : BitVec 4) (n : BitVec 16) (off : BitVec 32), Calm s →
    let ptr := s.me.reg a + off.signExtend 64
    let args := (List.range 6).map (fun i => s.me.reg (BitVec.ofNat 4 (i + 1)))
    (∀ u, Claim.Released s 2 u →
      exec (.bara d bar n) s = .next ((u.post u.cur (u.barHome u.cur) (.barrier (u.ctx u.cur).launch bar.toNat n.toNat d)).block s.cur
        .barArr 12)) ∧
    ((s.barrier s.me.launch s.cur bar.toNat).phase ≠ (s.me.reg a).getLsbD 0 → Claim.Ends s (.barw a bar) 12 (s.applyInbox (cluOf s.cur))) ∧
    ((s.barrier s.me.launch s.cur bar.toNat).phase = (s.me.reg a).getLsbD 0 →
      Claim.Waits s (.barw a bar) 12 (.barrier bar.toNat ((s.me.reg a).getLsbD 0))) ∧
    (∀ e, s.homeOfPtr ptr Cause.rpcTarget = .error e → Claim.Faults s (.rcall a b 0 off) e.code e.addr e.info) ∧
    (∀ core u, s.homeOfPtr ptr Cause.rpcTarget = .ok core → Claim.Released s 2 u → (u.ctx s.cur).x = s.me.x → u.cur = s.cur →
      let tok := u.pkg.nextToken
      exec (.rcall a b 0 off) s = .next (((u.modPkg (fun g => { g with nextToken := tok + 1 })).post s.cur (16 * core)
        (.rcall core (u.ctx s.cur).part (s.me.reg b) args tok 2 none)).block s.cur (.rcall tok) 12)) ∧
    (let cap := s.me.pair a
     let o : Word := off.signExtend 64
     let seq := SMap.at 0 s.pkg.eseqs (capNode cap)
     let bars := s.egress cap (s.me.tagOf a) o.toNat 1 1 (opBits 0x06 0) none
     (∀ e, bars = some e → exec (.rcall a b 1 off) s = .next (s.takeFault s.cur e)) ∧
     (∀ u, bars = none → s.release s.cur 3 = (u, false) → exec (.rcall a b 1 off) s = .next (u.block s.cur .marker 12)) ∧
     (∀ u, bars = none → Claim.Released s 3 u → u.cur = s.cur → u.pkg = s.pkg → (u.ctx s.cur).eseq = none →
        (s.pkg.outst.filter (fun r => decide (r.pkt.tgtNode = capNode cap))).length < 1024 →
        ∃ t q, exec (.rcall a b 1 off) s = .next t ∧ t.pkg.outbox = s.pkg.outbox ++ [q] ∧ q.opc = 0x06 ∧ q.cap = cap ∧ q.off = o ∧
          q.eseq = seq ∧ q.tgtNode = capNode cap ∧ q.tgtPart = capPart cap ∧
          q.data = (args ++ [s.me.reg b]).flatMap (fun v => leBytes 8 v.toNat) ∧
          (∃ r, t.pkg.outst = s.pkg.outst ++ [r] ∧ r.ctx = some s.cur ∧ r.acq = true ∧ r.pkt = q) ∧
          (t.ctx s.cur).slot = .blocked ∧ (t.ctx s.cur).wait = some { why := .remote seq, len := 12 } ∧
          (t.ctx s.cur).x = (u.ctx s.cur).x ∧ t.mem = u.mem)) ∧
    (s.me.call = none → Claim.Faults s (.rreply a) Cause.rpcTarget 0 0) ∧
    (∀ k, s.me.call = some k → (s.me.reg a).toNat ≠ k.token → Claim.Faults s (.rreply a) Cause.rpcTarget 0 0) ∧
    (∀ k u, s.me.call = some k → (s.me.reg a).toNat = k.token → Claim.Released s k.scope u → u.cur = s.cur → (u.ctx s.cur).x = s.me.x →
      let v := (u.replyCall s.cur k (u.ctx s.cur).part args none).modCtx s.cur (fun x => { x with call := none })
      v.cur = s.cur → exec (.rreply a) s = .next ((v.closeThread s.cur).freeSlot s.cur)) ∧
    (let p := s.me.reg a
     let stays := s.me.sta.bind ≠ 3 ∨ s.me.owner = true ∨ s.streamsOf s.cur ≠ [] ∨ s.me.declared ≠ [] ∨ s.me.regions ≠ [] ∨
       s.me.sta.spec = true
     (∀ e, s.resolve (s.who s.cur) p 1 needR = .error e → Claim.Faults s (.migrate a) e.code e.addr e.info) ∧
     (∀ o, s.resolve (s.who s.cur) p 1 needR = .ok o → stays → Claim.Faults s (.migrate a) Cause.migrationRefused p 0) ∧
     (¬ stays → ∀ e, s.homeOfPtr p Cause.migrationRefused = .error e → Claim.Faults s (.migrate a) e.code e.addr e.info) ∧
     (¬ stays → ∀ core, s.homeOfPtr p Cause.migrationRefused = .ok core →
        (core = coreOf s.cur → exec (.migrate a) s = .next (s.after 4 id)) ∧
        (core ≠ coreOf s.cur → (s.clu (core / 4)).retired = false → s.me.buf = [] → (∀ m ∈ s.net, m.src ≠ s.cur) → (s.core (coreOf s.cur)).shared = [] →
          (s.clu (cluOf s.cur)).throughs = [] → (s.chan s.cur).waiting = [] →
          ∃ u m, exec (.migrate a) s = .next u ∧ u.net = s.net ++ [m] ∧ m.body = .migrate ∧ m.dst = 16 * core ∧
            (u.ctx s.cur).slot.live = false ∧ SMap.at {} u.moving m.id = { s.me with slot := .blocked, wait := none, resv := none } ∧
            u.mem = s.mem)))

/-- The two together: `Claim.ChannelsAndStreams` and `Claim.BarriersCallsAndMigration`.
Where the spec leaves the matter open it follows the model's choices and readings of logs 20 and 64. -/
def Obligations.ChannelsBarriersAndCalls : Prop := Claim.ChannelsAndStreams ∧ Claim.BarriersCallsAndMigration

/-- 15 R351, R354, R361: a migrating thread, or a call, that arrives at a core with a FREE slot and an empty arrival queue takes the
highest-numbered such slot; it waits in the queue while no slot is FREE, and is refused when eight wait; the answer to a call
reaches the thread that waits for it, in whatever slot it stands, or spilled. -/
def Claim.ArrivalsAtACore : Prop :=
  ∀ (s : State) (m : Msg), s.msgAt m.id = some m → s.net.find? (fun q => decide (q.id = m.id)) = some m →
    let core := coreOf m.dst
    let t := s.takeMsg m
    let y := SMap.at {} s.moving m.id
    let answered (x : Ctx) (tok : Nat) (r : Reply) : Ctx :=
      if x.wait.map (·.why) = some (.rcall tok) then { x with wait := x.wait.map (fun w => { w with reply := some r }) } else x
    (m.body = .migrate → (s.clu (core / 4)).retired = false → ∀ i ∈ [Instr.migrationArrival m.id, .migrationResend m.id],
      (∀ c, (s.core core).arrivals = [] → s.topFree core = some c → (s.chan c).waiting = [] → (s.chan c).stream = none →
        (s.clu (cluOf c)).inbox = [] → ∃ u,
        exec i s = .next u ∧ u.ctx c = { y with slot := .ready, wait := none, lastIssue := (s.ctx c).lastIssue } ∧ u.chan c = {} ∧ u.mem = s.mem) ∧
      (s.topFree core = none → (s.core core).arrivals.length < 8 →
        exec i s = .next (t.modCore core (fun k => { k with arrivals := k.arrivals ++ [m] }))) ∧
      (8 ≤ (s.core core).arrivals.length → exec i s = .next s)) ∧
    (∀ k part entry args tok scope rem, m.body = .rcall k part entry args tok scope rem → (s.clu (k / 4)).retired = false →
      (8 ≤ (s.core k).arrivals.length → exec (.rcallArrival m.id) s = .next s) ∧
      (s.topFree k = none → (s.core k).arrivals.length < 8 →
        exec (.rcallArrival m.id) s = .next (t.modCore k (fun q => { q with arrivals := q.arrivals ++ [m] }))) ∧
      (∀ c v, (s.core k).arrivals = [] → s.topFree k = some c → (s.chan c).waiting = [] → (s.clu (cluOf c)).inbox = [] →
        s.fetchWord c false entry = .ok v → (s.ctx c).launch = none → (s.ctx c).part = part → ∃ u, exec (.rcallArrival m.id) s = .next u ∧
          (u.ctx c).slot = .ready ∧ (u.ctx c).pc = entry ∧ (u.ctx c).sta = {} ∧ (u.ctx c).wid = 0 ∧ (u.ctx c).launch = none ∧
          (∀ r : Reg, (u.ctx c).reg r = if 1 ≤ r.toNat ∧ r.toNat ≤ 6 then args.getD (r.toNat - 1) 0
            else if r = 7 then BitVec.ofNat 64 tok else 0))) ∧
    (∀ tok args cause, m.body = .rreply tok args cause →
      let r : Reply := match cause with
        | none => { writes := (List.range 6).map (fun i => (BitVec.ofNat 4 (i + 1), args.getD i 0)), acq := true }
        | some e => { exc := some { code := Cause.rpcTarget, info := e.setWidth 64 } }
      ∃ u, exec (.rcallArrival m.id) s = .next u ∧ (∀ c, u.ctx c = answered (s.ctx c) tok r) ∧
        u.spilled = s.spilled.map (fun p => (p.1, { p.2 with ctx := answered p.2.ctx tok r })) ∧ u.net = s.net.erase m ∧ u.mem = s.mem)

/-- The two together: `Claim.MessagesArrive` and `Claim.ArrivalsAtACore`.
Where the spec leaves the matter open it follows the model's choices and readings of log 20. -/
def Obligations.MessagesAndArrivals : Prop := Claim.MessagesArrive ∧ Claim.ArrivalsAtACore

/-- 15 R356; 02 R35; 01 R9: the work list, and what a core ships in a balancing interval to its least-loaded neighbour, the lowest
number of equals: half the difference, at most a quarter of the neighbour's room, never its last entry, from the bottom; the interval's
first cycle fixes it for the cores of the partition, and the next interval begins once this one has run its length. -/
def Claim.WorkLists : Prop :=
  ∀ (s : State) (d a b : Reg), Calm s →
    let core := coreOf s.cur
    let k := s.core core
    (k.list.length + k.promised < 256 →
      Claim.Ends s (.llpush d a) 4 ((s.modCore core (fun q => { q with list := s.me.reg a :: q.list })).setReg d 1)) ∧
    (256 ≤ k.list.length + k.promised → Claim.Puts s (.llpush d a) 4 d 0) ∧
    (k.list = [] → Claim.Puts s (.llpop d b) 4 b 0) ∧
    (∀ v r, k.list = v :: r → Claim.Ends s (.llpop d b) 4 (((s.modCore core (fun q => { q with list := r })).setReg d v).setReg b 1)) ∧
    (∀ (c p : Nat), s.partOf (c / 4) = some p → c / 4 ∈ (s.part p).clusters →
      let occ (j : Nat) : Nat := (s.core j).list.length
      let near := ((s.part p).clusters.filter (fun q => meshNear (c / 4) q && !(s.clu q).retired)).map (fun q => 4 * q + c % 4)
      let ended := (s.part p).llAt + (s.part p).interval ≤ s.refCycle
      let i := Instr.loadLevellingInterval c
      let ships (u : State) (t n : Nat) : Prop := (u.core c).list = (s.core c).list.take (occ c - n) ∧
        (u.core t).list = (s.core t).list ∧ (0 < n → ∃ m, u.net = s.net ++ [m] ∧ m.body = .entries t ((s.core c).list.drop (occ c - n)))
      ((s.part p).llTodo = [] → ¬ ended → exec i s = .next s) ∧
      (ended → (s.part p).llTodo = [] → s.llPlan (s.part p) c = none →
        ∃ u, exec i s = .next u ∧ (∀ j, (u.core j).list = (s.core j).list) ∧ u.net = s.net ∧ (u.part p).llAt = s.refCycle) ∧
      (∀ t ∈ near, t ≠ c → (s.part p).llTodo = [] → (∀ q ∈ near, occ t < occ q ∨ (occ t = occ q ∧ t ≤ q)) →
        let n := min (min ((occ c - occ t) / 2) ((256 - (occ t + (s.core t).promised)) / 4)) (occ c - 1)
        s.llPlan (s.part p) c = (if n = 0 then none else some (t, n)) ∧
        (ended → 0 < n → ∃ u, exec i s = .next u ∧ ships u t n ∧ (s.core t).promised + n ≤ (u.core t).promised)) ∧
      (∀ t n, t ≠ c → (s.part p).llTodo.find? (fun e => decide (e.1 = c)) = some (c, t, n) →
        ∃ u, exec i s = .next u ∧ ships u t (min n (occ c - 1)) ∧
          (u.core t).promised = (s.core t).promised - (n - min n (occ c - 1))))

/-- 15 R357, R359, R361: `SPECB` begins an iteration with its checkpoint, or faults: outside the 64 from the baton, for an iteration that
another thread of the cluster holds, and for another base while others speculate; `SPECC` of the holder of the baton publishes the
iteration's lines and passes the baton on. -/
def Claim.SpeculativeIterations : Prop :=
  ∀ (s : State) (a b : Reg), Plain s →
    let k := cluOf s.cur
    let g := s.clu k
    let n := (s.me.reg a).toNat
    let bs := (s.me.reg b).toNat
    (s.me.spec = none →
      (s.me.sta.spec = true ∨ s.me.sta.bind ≠ 0 ∨ g.hasCache = false → Claim.Faults s (.specb a b) Cause.specLimit 0 0) ∧
      (s.me.sta.spec = false → s.me.sta.bind = 0 → g.hasCache = true →
        let baton := Claim.baton s k bs
        (n < baton ∨ baton + 64 ≤ n ∨ n ∈ s.iterations k → Claim.Faults s (.specb a b) Cause.specLimit 0 0) ∧
        (∀ q, g.group = some q → q.1 ≠ bs → s.iterations k ≠ [] → Claim.Faults s (.specb a b) Cause.specLimit 0 0) ∧
        ((∀ q, g.group = some q → q.1 = bs ∨ s.iterations k = []) → baton ≤ n → n < baton + 64 → n ∉ s.iterations k → ∀ u, Claim.Released s 1 u → (u.ctx s.cur).x = s.me.x → (u.ctx s.cur).sta = s.me.sta →
          (u.ctx s.cur).pc = s.me.pc → (u.ctx s.cur).tags = s.me.tags →
          Claim.Ends s (.specb a b) 4 ((u.modClu k (fun q => { q with group := some (bs, baton) })).modCtx s.cur (fun x =>
            { x with spec := some ⟨s.me.x, s.me.tags, s.me.sta, s.me.pc + 4, n, bs⟩, sta := { x.sta with spec := true }, readSet := [] })))) ∧
      Claim.Faults s .specc Cause.specLimit 0 0) ∧
    (∀ q, s.me.spec = some q →
      (s.holdsBaton s.cur = false → Claim.Waits s .specc 4 .baton) ∧
      (s.holdsBaton s.cur = true → (∀ t ∈ Claim.lines s k, s.lockedFor t.line s.cur = false) → s.me.sta.ss = false →
        ∀ u, Claim.Released s 2 u → u.holdsBaton s.cur = true → (∀ q ∈ u.clus, q.2.retry = []) →
          ((Claim.lines s k).map (·.line)).Nodup →
        ∃ v, exec .specc s = .next v ∧ (v.ctx s.cur).spec = none ∧ (v.ctx s.cur).sta = { (u.ctx s.cur).sta with spec := false } ∧
          (v.ctx s.cur).readSet = [] ∧ (v.clu k).group = some (q.base, q.iter + 1) ∧ (∀ t ∈ (v.clu k).spec, t.ctx ≠ s.cur) ∧
          (∀ t ∈ Claim.lines s k, ∀ e ∈ maskedBytes t.line t.mask t.data, v.mem.read e.1 = e.2) ∧
          SameMem ((Claim.lines s k).flatMap (fun t => (maskedBytes t.line t.mask t.data).map (·.1))) u v))

/-- The two together: `Claim.WorkLists` and `Claim.SpeculativeIterations`.
Where the spec leaves the matter open it follows the model's choices and readings of logs 2, 14 and 55. -/
def Obligations.WorkListsAndSpeculation : Prop := Claim.WorkLists ∧ Claim.SpeculativeIterations

/-! ## Instants and signals -/

/-- 14 R314: the instructions of a member fault with NO_BINDING for any other context, those of the gaffer likewise, and an operand that
names no signal faults with RESERVED_BITS and says which. -/
def Claim.RolesAndOperands : Prop :=
  ∀ (s : State) (k : BitVec 2) (k1 : BitVec 1) (n : BitVec 16) (p : BitVec 32) (d a b : Reg), Calm s →
    (s.domainOf s.cur = none ∨ s.me.role ≠ .member →
      ∀ i ∈ [Instr.emit k a b, .test k d a, .testv k d a, .renounce a, .emits k a b, .abortw a p, .suspw a, .endw],
        Claim.Faults s i Cause.noBinding 0 0) ∧
    (s.domainOf s.cur = none ∨ s.me.role ≠ .gaffer →
      ∀ i ∈ [Instr.sigforce k a b, .lehrw k1 n d a], Claim.Faults s i Cause.noBinding 0 0) ∧
    (∀ l q, s.domainOf s.cur = some (l, q) → s.me.role = .member → q.nsig ≤ (s.me.reg a).toNat →
      ∀ i ∈ [Instr.emit k a b, .test k d a, .testv k d a, .renounce a, .abortw a p, .suspw a],
        Claim.Faults s i Cause.reservedBits 0 (BitVec.ofNat 64 ((s.me.reg a).toNat % 4096)))

/-- 14 R294, R315, R320: the instant's number, `PAUSE` of a member and of any other context, and the stack of regions. -/
def Claim.InstantsAndRegions : Prop :=
  ∀ (s : State) (p : BitVec 32) (d a : Reg), Calm s →
    let n := (s.me.reg a).toNat
    let push (g : Region) : State := s.modCtx s.cur (fun x => { x with regions := x.regions ++ [g] })
    Claim.Puts s (.instn d) 4 d (match s.domainOf s.cur with
      | none => 0
      | some q => q.2.instant) ∧
    (s.me.role ≠ .member → Claim.Ends s .pause 4 (s.pushMarker s.cur 2)) ∧
    (s.me.role = .member → ∃ t, exec .pause s = .next t ∧ (t.ctx s.cur).slot = .blocked ∧ (t.ctx s.cur).paused = true ∧
      (t.ctx s.cur).settled = true ∧ (t.ctx s.cur).wait = some { why := .pause } ∧ (t.ctx s.cur).x = s.me.x ∧ t.mem = s.mem ∧
      (s.me.launch.isSome = true → ∀ g ∈ s.me.declared, g ∈ (t.ctx s.cur).released)) ∧
    (∀ l q, s.domainOf s.cur = some (l, q) → s.me.role = .member →
      (s.me.regions = [] → Claim.Faults s .endw Cause.reservedBits 0 0) ∧
      (s.me.regions ≠ [] → Claim.Ends s .endw 12 (s.modCtx s.cur (fun x => { x with regions := x.regions.dropLast }))) ∧
      (n < q.nsig →
        (p = 0 → Claim.Faults s (.abortw a p) Cause.reservedBits 0 0) ∧
        (8 ≤ s.me.regions.length → Claim.Faults s (.suspw a) Cause.reservedBits 0 0 ∧ Claim.Faults s (.abortw a p) Cause.reservedBits 0 0) ∧
        (s.me.regions.length < 8 → Claim.Ends s (.suspw a) 12 (push ⟨false, n, 0⟩) ∧
          (p ≠ 0 → Claim.Ends s (.abortw a p) 12 (push ⟨true, n, s.me.pc + 4 * p.signExtend 64⟩)))))

/-- The two together: `Claim.RolesAndOperands` and `Claim.InstantsAndRegions`. -/
def Claim.RolesInstantsAndRegions : Prop := Claim.RolesAndOperands ∧ Claim.InstantsAndRegions

/-- 14 R295: what an absent signal reads as. -/
def Claim.absent (comb : Nat) : Word :=
  match comb with
  | 3 => BitVec.allOnes 64
  | 4 => 0x7FFFFFFFFFFFFFFF
  | 5 => 0x8000000000000000
  | _ => 0

/-- 14 R316 to R319: emitting, asking, renouncing and declaring signals. -/
def Claim.SignalInstructions : Prop :=
  ∀ (s : State) (q : BitVec 2) (d a b : Reg) (l : Nat) (dom : Domain), Calm s → s.domainOf s.cur = some (l, dom) → s.me.role = .member →
    let n := (s.me.reg a).toNat
    let v := s.me.reg b
    let g := dom.sig n
    let answer (v : Word) : State := (s.setReg d v).acquire s.cur q.toNat
    let emitted (u : State) : State := u.post s.cur (u.sigHome l n) (.emit l n v)
    (n < dom.nsig →
      (n ∉ s.me.declared ∨ n ∈ s.me.renounced ∨ n ∈ s.me.late →
        Claim.Faults s (.emit q a b) Cause.emitUndeclared 0 (BitVec.ofNat 64 n)) ∧
      (n ∈ s.me.declared → n ∉ s.me.renounced → n ∉ s.me.late →
        Claim.Ends s (.emit 0 a b) 4 (emitted s) ∧
        (q ≠ 0 → Claim.Ends s (.emit q a b) 4 (emitted (s.pushMarker s.cur q)))) ∧
      (s.sigPending s.cur = false →
        (g.st = .present ∨ g.st = .final → Claim.Ends s (.test q d a) 4 (answer 1)) ∧
        (g.st = .absent ∨ g.st = .forced → Claim.Ends s (.test q d a) 4 (answer 0) ∧
          Claim.Ends s (.testv q d a) 4 (answer (Claim.absent g.comb))) ∧
        (g.st = .final → g.comb = 0 → Claim.Ends s (.testv q d a) 4 (answer 1)) ∧
        (g.st = .final → 2 ≤ g.comb → Claim.Ends s (.testv q d a) 4 (answer g.acc)) ∧
        (g.st = .final → g.comb = 1 → Claim.Ends s (.testv q d a) 4 (answer (BitVec.ofNat 64 (xsRead g.cell 7 0).1))) ∧
        (g.st = .unknown → Claim.Waits s (.test q d a) 4 (.test n)) ∧
        (g.st = .unknown ∨ g.st = .present → Claim.Waits s (.testv q d a) 4 (.testv n))) ∧
      (s.sigPending s.cur = true → Claim.Waits s (.test q d a) 4 (.test n) ∧ Claim.Waits s (.testv q d a) 4 (.testv n)) ∧
      (n ∈ s.me.declared → hasNat s.me.released n = false →
        Claim.Ends s (.renounce a) 4 ((({ s with nextMsg := s.nextMsg + 1 }).sendMsg s.cur (s.newMsg s.cur (s.sigHome l n) (.release l n s.me.tid))).modCtx s.cur
          (fun x => { x with settled := true, released := addNat x.released n, renounced := addNat x.renounced n }))) ∧
      (n ∉ s.me.declared → Claim.Ends s (.renounce a) 4 (s.modCtx s.cur (fun x => { x with settled := true })))) ∧
    (n % 64 ≠ 0 ∨ dom.nsig ≤ n → Claim.Faults s (.emits q a b) Cause.reservedBits 0 (BitVec.ofNat 64 (n % 4096))) ∧
    (n % 64 = 0 → n < dom.nsig → (∀ k < 64, v.getLsbD k = true → n + k < dom.nsig) →
      (s.sigPending s.cur = true → Claim.Waits s (.emits q a b) 12 .homes) ∧
      (s.sigPending s.cur = false → ∃ t, exec (.emits q a b) s = .next t ∧ (t.ctx s.cur).settled = true ∧
        (t.ctx s.cur).dslots[q.toNat]? = some (n, v) ∧ (t.ctx s.cur).pc = s.me.pc + 12 ∧ (t.ctx s.cur).x = s.me.x ∧ t.mem = s.mem ∧
        ∀ k < 64, v.getLsbD k = true → n + k ∉ s.me.declared →
          ((dom.sig (n + k)).st.decided = true → n + k ∈ (t.ctx s.cur).late) ∧
          ((dom.sig (n + k)).st.decided = false → s.me.tid ∈ ((t.dom l).sig (n + k)).pend)))

/-- The two together: `Claim.RolesInstantsAndRegions` and `Claim.SignalInstructions`.
Where the spec leaves the matter open it follows the model's choices and readings of logs 22 and 24. -/
def Obligations.DomainAndSignalInstructions : Prop := Claim.RolesInstantsAndRegions ∧ Claim.SignalInstructions

/-- 14 R295, R299, R300: what reaches the home of a signal: an emission makes it PRESENT and is combined; a release takes the emitter
from the pending ones and the home decides once the domain is settled; a waiting question is answered. -/
def Claim.SignalsAtTheirHomes : Prop :=
  ∀ (s : State) (m : Msg) (l n : Nat) (d : Domain), (s.launch l).dom = some d →
    let g := d.sig n
    (∀ v, s.msgAt m.id = some m → m.body = .emit l n v → ∃ t, exec (.signalEmission m.id) s = .next t ∧ t.net = s.net.erase m ∧
      (let h := (t.dom l).sig n
       (∀ k, k ≠ n → (t.dom l).sig k = d.sig k) ∧ (g.st.decided = true → h = g) ∧
       (g.st.decided = false → h.st = .present ∧ h.pend = g.pend ∧ h.comb = g.comb ∧
         (g.comb = 0 → h.value = 1) ∧
         (2 ≤ g.comb → g.comb ≤ 5 → h.value = if g.st = .unknown then v else match g.comb with
           | 2 => g.acc ||| v
           | 3 => g.acc &&& v
           | 4 => if g.acc.sle v then g.acc else v
           | _ => if g.acc.sle v then v else g.acc) ∧
         (g.comb = 1 → g.st = .unknown → h.value = v)))) ∧
    (∀ tid, s.msgAt m.id = some m → m.body = .release l n tid → ∃ t, exec (.signalRelease m.id) s = .next t ∧ t.net = s.net.erase m ∧
      (let h := (t.dom l).sig n
       h.pend = g.pend.filter (fun x => decide (x ≠ tid)) ∧ h.acc = g.acc ∧ h.cell = g.cell ∧
       h.st = if d.settled = true ∧ d.awaiting = false ∧ h.pend = [] then (match g.st with
         | .present => .final
         | .unknown => .absent
         | x => x) else g.st)) ∧
    (∀ c q r a, s.domainOf c = some (l, d) → (s.ctx c).wait.map (·.why) = some (.test n) → s.nextInstr c = .ok (.test q r a) →
      s.sigPending c = false →
      (g.st = .present ∨ g.st = .final → exec (.signalQuery c) s = .next (s.giveReply c { writes := [(r, 1)], acq := decide (q = 2) })) ∧
      (g.st = .absent ∨ g.st = .forced → exec (.signalQuery c) s = .next (s.giveReply c { writes := [(r, 0)], acq := decide (q = 2) })) ∧
      (g.st = .unknown → exec (.signalQuery c) s = .next s))

/-- The machine as a decision on a launch's instant finds it: where a member's request stands at a peer, what the peer holds is free
(log 6). -/
def Claim.looked (s : State) (l : Nat) : State :=
  if (s.members l).any (fun c => (s.ctx c).wait.any (fun w => match w.why with
    | .remote n => (s.outOf c n).any (fun o => o.sent)
    | _ => false)) then { s with fresh := s.fresh + 1 } else s

/-- 14 R304, R307 to R309; 09 R206: the decisions on an instant: no boundary while traffic is in flight, a boundary once every member is
done, an event when members only wait and none has an external feeder, commands that wait for the other parts of their gang left
aside; an instant over its limit freezes. -/
def Claim.LehrDecisions : Prop :=
  ∀ (s : State) (l : Nat) (d : Domain), (s.launch l).dom = some d → (s.launch l).st = .running → d.ended = none →
    let r := Claim.looked s l
    let n (k : LehrSt) : Nat := r.countLehr l k
    let waiting := (r.members l).filter (fun c => decide (r.lehrState c = .test ∨ r.lehrState c = .chan))
    let decides (t : State) : Prop := exec (.lehrDecide l) s = .next t
    (d.ending = true → decides (r.endDomain l).1) ∧
    (d.ending = false → d.frozen.isSome = true ∨ d.awaiting = true → decides r) ∧
    (d.ending = false → d.frozen = none → d.awaiting = false → d.settled = true →
      (0 < n .running ∨ 0 < n .req ∨ r.inMotion l = true → decides r) ∧
      (n .running = 0 → n .req = 0 → n .test = 0 → n .chan = 0 →
        (r.inTraffic l = true → decides r) ∧
        (r.inTraffic l = false → r.canBound l = true → decides (r.boundary l)) ∧
        (r.inTraffic l = false → r.canBound l = false → decides (r.askBound l))) ∧
      (n .running = 0 → n .req = 0 → r.inMotion l = false →
        (∀ c ∈ waiting, ∀ w, (r.ctx c).wait = some w → r.fed l c w.why = false) →
          (0 < n .test → decides (r.freeze l Cause.causality waiting)) ∧
          (n .test = 0 → 0 < n .chan → decides (r.freeze l Cause.channelDeadlock waiting)))) ∧
    (d.ending = false → d.frozen = none → d.awaiting = false → d.settled = false → r.anyUnsettled l = false → 0 < n .running →
      decides (r.modDom l Domain.settle)) ∧
    (d.frozen = none → d.awaiting = true → s.spilledOf l = [] → s.gafferGone l = false →
      exec (.instantLimit l) s = .next (s.modDom l (fun d => { d with frozen := some { cause := Cause.instantLimit, instant := d.instant } }))) ∧
    (d.frozen = none → d.awaiting = false → s.spilledOf l = [] →
      exec (.instantLimit l) s = .next (s.freeze l Cause.instantLimit ((s.members l).filter (fun c =>
        decide (s.lehrState c ∉ [LehrSt.paused, .held, .exited, .stopped]))) ((s.movingOf l).map (·.1))))

/-- The two together: `Claim.SignalsAtTheirHomes` and `Claim.LehrDecisions`. -/
def Claim.HomesAndDecisions : Prop := Claim.SignalsAtTheirHomes ∧ Claim.LehrDecisions

/-- 14 R300, R305, R306, R296: a boundary begins the next instant with every signal UNKNOWN, PAUSED members run on, those in a region
that suspends are held; the last boundary ends the domain; the frame of an awaited instant starts it and is marked consumed. -/
def Claim.BoundariesAndFrames : Prop :=
  ∀ (s : State) (l : Nat) (d : Domain), (s.launch l).dom = some d →
    (s.lastBoundary l = true → ((s.boundary l).dom l).ended = some d.instant) ∧
    (s.lastBoundary l = false → d.free = false →
      let t := s.boundary l
      (t.dom l).instant = d.instant + 1 ∧ (t.dom l).settled = false ∧ (t.dom l).awaiting = true ∧
      (∀ n, ((t.dom l).sig n).st = .unknown) ∧
      (∀ c ∈ s.members l, (s.ctx c).paused = true →
        ((s.ctx c).regions = [] → (t.ctx c).paused = false ∧ (t.ctx c).suspended = false) ∧
        (∀ n h r, (s.ctx c).regions = ⟨false, n, h⟩ :: r → (d.sig n).st = .present ∨ (d.sig n).st = .final →
          (t.ctx c).paused = false ∧ (t.ctx c).suspended = true))) ∧
    (∀ ls u p, d.awaiting = true → d.frozen = none → d.ended = none → s.frameLocs l d.instant.toNat = some ls →
      leNat ((s.bytesAt ls).take 8) = d.instant.toNat → (ls.drop 12).take 4 = span p 4 → (∀ q ∈ u.clus, q.2.retry = []) →
      s.frameLogged l d.instant.toNat (crc32 ((s.bytesAt ls).take (16 + 16 * min (leNat (((s.bytesAt ls).drop 8).take 4)) 255))) = some u →
      (u.launch l).dom = some d →
      ∃ t, exec (.frameApply l) s = .next t ∧ (t.dom l).awaiting = false ∧ (t.dom l).instant = d.instant ∧
        t.peekN p 4 = 1 ∧ SameMem (span p 4) u t)

/-- 14 R321 to R324; 03 R51: the gaffer closes signals, thaws an instant, ends the domain, and is told its news in a record. -/
def Claim.TheGaffer : Prop :=
  ∀ (s : State) (k : BitVec 2) (k1 : BitVec 1) (lim : BitVec 16) (r a b : Reg) (l : Nat) (d : Domain), Calm s →
    s.domainOf s.cur = some (l, d) → s.me.role = .gaffer →
    let g := (s.me.reg a).toNat
    let m := s.me.reg b
    (k.toNat < 2 → g % 64 = 0 → g < d.nsig → (∀ i < 64, m.getLsbD i = true → g + i < d.nsig) →
      (d.frozen = none → Claim.Faults s (.sigforce k a b) Cause.reservedBits 0 0) ∧
      (d.frozen.isSome = true → ∃ t, exec (.sigforce k a b) s = .next t ∧ (t.ctx s.cur).pc = s.me.pc + 12 ∧
        ((∀ q ∈ s.spilled, ∀ i < 64, q.2.ctx.tid ∉ (d.sig (g + i)).pend) → t.mem = s.mem) ∧
        (∀ i < 64, m.getLsbD i = true → ((t.dom l).sig (g + i)).st = match (d.sig (g + i)).st with
          | .unknown => .forced
          | .present => .final
          | x => x) ∧
        (∀ n, (∀ i < 64, m.getLsbD i = true → n ≠ g + i) → (t.dom l).sig n = d.sig n) ∧
        (k = 0 → (t.dom l).frozen = d.frozen) ∧
        (k = 1 → (t.dom l).frozen = none ∧ ∀ c, (s.ctx c).launch = some l → (t.ctx c).stopped = false))) ∧
    (k = 2 → (a ≠ 0 ∨ b ≠ 0 → Claim.Faults s (.sigforce k a b) Cause.reservedBits 0 0) ∧
      (a = 0 → b = 0 → d.ended.isSome = true → exec (.sigforce k a b) s = .next (s.after 12 id)) ∧
      (a = 0 → b = 0 → d.ended = none → (s.stopMembers l).canBound l = false →
        exec (.sigforce k a b) s = .next ((((s.stopMembers l).askBound l).modDom l (fun d => { d with ending := true })).block s.cur
          .reply 12)) ∧
      (a = 0 → b = 0 → d.ended = none → (s.stopMembers l).canBound l = true → ∃ t, exec (.sigforce k a b) s = .next t ∧
        (t.dom l).ended = some d.instant ∧ (t.dom l).frozen = none ∧ (t.ctx s.cur).pc = s.me.pc + 12)) ∧
    (∀ segs keep space, s.access s.cur (s.me.reg a) (64 + 8 * lim.toNat) needW 8 .plain true false = .ok (.mem segs keep space) →
      let newer := k1 = 1 ∧ (s.me.lastInst.getD 0).toNat < d.instant.toNat
      let na := s.coreStream (s.me.reg a)
      let put (inst : Word) (kind : Nat) (listed : List (Nat × Word)) : Prop :=
        ∀ u, na.2.bufferBytes s.cur ((spanAll segs).zip (leBytes 8 inst.toNat ++ leBytes 4 kind ++ leBytes 4 listed.length ++
            List.replicate 48 0 ++ (listed.take lim.toNat).flatMap (fun e => leBytes 8 e.2.toNat))) false false (keep && !na.1) = some u →
          Claim.Ends s (.lehrw k1 lim r a) 12
            (((u.modCtx u.cur (fun x => { x with lastInst := some d.instant })).setReg r (BitVec.ofNat 64 kind)).acquire u.cur 2)
      (∀ f, d.frozen = some f → put f.instant f.cause.toNat f.listed) ∧
      (∀ e, d.frozen = none → d.ended = some e → put e 1 []) ∧
      (d.frozen = none → d.ended = none → newer → put (d.instant - 1) 0 []) ∧
      (d.frozen = none → d.ended = none → ¬ newer → Claim.Waits s (.lehrw k1 lim r a) 12 .lehr))

/-- The two together: `Claim.BoundariesAndFrames` and `Claim.TheGaffer`. -/
def Claim.BoundariesAndTheGaffer : Prop := Claim.BoundariesAndFrames ∧ Claim.TheGaffer

/-- The two together: `Claim.HomesAndDecisions` and `Claim.BoundariesAndTheGaffer`.
Where the spec leaves the matter open it follows the model's choices and readings of logs 22 and 24. -/
def Obligations.HomesDecisionsAndBoundaries : Prop := Claim.HomesAndDecisions ∧ Claim.BoundariesAndTheGaffer

/-! ## Vectors -/

/-- The running thread may issue to its vector port: bound to one, not speculative, not stepped, and no trap is due (05 R82; 15 R340). -/
structure Claim.Ported (s : State) : Prop where
  bind : s.me.sta.bind = 1
  spec : s.me.spec = none
  step_ : s.me.sta.ss = false ∨ s.me.sta.sup = true
  due : s.me.dueTrap = none

/-- The running thread's port. -/
def Claim.port (s : State) : Port := s.port (coreOf s.cur) s.me.sta.port.toNat

/-- The format and the saturation in force: those of a pending prefix, else the port's defaults (05 R85; 08 R158). -/
def Claim.format (s : State) : Nat × Bool :=
  let w : Word := if s.me.sta.pp then s.me.sta.pfx.setWidth 64 else (Claim.port s).cfg
  (w.toNat % 32, w.getLsbD 7)

/-- The machine with `e` put behind the entries of the running thread's port: a pending prefix is used up, and the pc moves on. -/
def Claim.queued (s : State) (e : VEntry) : State :=
  (s.modPort (coreOf s.cur) s.me.sta.port.toNat (fun q => { q with queue := q.queue ++ [e] })).modCtx s.cur (fun x =>
    { x with sta := { x.sta with pp := false, pfx := 0 }, pc := s.me.pc + 4 })

/-- 08 R159, R161, R162; 05 R86: an instruction of the port enters its queue with its format and its scalar operands fixed, waits while
eight stand there, and faults without a port, or on a reserved format or operand.
Where the spec leaves the matter open it follows the model's choices and readings of log 12. -/
def Claim.PortIssue : Prop :=
  ∀ (s : State) (sg h m o : BitVec 1) (f : BitVec 4) (qp pd pa : PReg) (d a b : VReg) (r : Reg),
    let port := [Instr.vadd sg f qp d a b, .vsub sg f qp d a b, .vmul sg f qp d a b, .vfma sg f qp d a b, .vmin sg qp d a b,
      .vmax sg qp d a b, .vand sg qp d a b, .vor sg qp d a b, .vxor sg qp d a b, .vshl sg qp d a b, .vshr sg f qp d a b,
      .vcmp sg f qp pd a b, .vsel sg qp d a b, .vcvt sg f qp d a b, .vapx f qp d a, .vabs qp d a, .vneg qp d a, .vred f qp d a,
      .vscan f qp d a, .vperm qp d a b, .vbcast o qp d a r, .vmovx 1 d a r, .vmovx 3 d a r, .vsort m o qp d a, .vmerge h m o qp d a b,
      .vtopk m qp d a r]
    let log := Instr.plog sg f pd pa b
    let fm := Claim.format s
    let xs (i : Instr) : List Word := (vScalars i).map s.me.reg
    let rm (i : Instr) : Nat := rrMode (BitVec.ofNat 3 ((Claim.port s).cfg.toNat / 256)) (vRound i)
    (s.me.spec = none → s.me.sta.bind ≠ 1 → (∀ i ∈ port, Claim.Faults s i Cause.noBinding 0 0) ∧
      (s.me.sta.pp = false → Claim.Faults s log Cause.noBinding 0 0)) ∧
    (s.me.spec = none → s.me.sta.pp = true → Claim.Faults s log Cause.prefixOrphan 0 0) ∧
    (Claim.Ported s → ∀ i, i ∈ port ∨ (i = log ∧ s.me.sta.pp = false) →
      (vBad i fm.1 (xs i) (Claim.port s).cfg = true → Claim.Faults s i Cause.reservedBits 0 0) ∧
      (vBad i fm.1 (xs i) (Claim.port s).cfg = false →
        (8 ≤ (Claim.port s).queue.length → Claim.Waits s i 4 .drain) ∧
        ((Claim.port s).queue.length < 8 →
          exec i s = .next (Claim.queued s { ins := i, fmt := fm.1, sat := fm.2, rm := rm i, xs := xs i }))))

/-- 08 R158, R165, R166, R180 to R182: where the memory forms, the configuration, a repetition and its passes complete: the port has
drained, and every active element passes its checks and lies in memory. -/
def Claim.VectorFormsComplete : Prop :=
  ∀ (s : State) (sg : BitVec 1) (sh pt t3 : BitVec 3) (l4 : BitVec 4) (qp : PReg) (d b vi : VReg) (x a : Reg) (disp : BitVec 32) (es : List VElem),
    Claim.Ported s → (Claim.port s).queue = [] → (Claim.port s).rep = none →
    let q := Claim.port s
    let fm := Claim.format s
    let w := codeBits fm.1
    let c := min (lanes fm.1) 32
    let straight := ((List.range (lanes fm.1)).filter (q.active qp.toNat)).map (fun k =>
      (k, s.me.reg a + (if sg = 1 then BitVec.ofNat 64 k * s.me.reg (b.setWidth 4) else BitVec.ofNat 64 (k * w / 8))))
    let indexed := ((List.range c).filter (fun j => q.active qp.toNat (pt.toNat * c + j))).map (fun j =>
      (pt.toNat * c + j, s.me.reg a + disp.signExtend 64 + BitVec.ofNat 64 (lane (q.vreg vi.toNat) 32 j * 2 ^ sh.toNat)))
    let ls := (es.filterMap VElem.mem?).flatMap (·.2)
    let reach (need : Nat) (wr : Bool) (ps : List (Nat × Word)) : Prop := s.vecElems (elemBytes fm.1) need wr ps = .ok es ∧
      (∀ e ∈ es, e.mem?.isSome = true) ∧ s.waterHold s.me.part ls = none ∧ ls.find? (s.bankKept s.cur) = none ∧
      (wr = false → ∀ k ∈ linesOf ls, s.copyBusy (cluOf s.cur) k = false)
    let done (i : Instr) (len : Nat) (good : Port → Prop) : Prop := ∃ t, exec i s = .next t ∧ good (Claim.port t) ∧
      (t.ctx s.cur).pc = s.me.pc + BitVec.ofNat 64 len ∧ t.mem = s.mem
    let entered (i : Instr) (p : Port) : Prop := ∃ e, p.queue = [e] ∧ e.ins = i ∧ e.fmt = fm.1
    (fmtAll fm.1 = true → (sg = 1 → w ≠ 4) →
      (reach needR false straight → done (.vld sg qp d a b) 4 (entered (.vld sg qp d a b))) ∧
      (reach needW true straight → done (.vst sg qp d a b) 4 (entered (.vst sg qp d a b)))) ∧
    (vBad (.vgath a sh pt qp vi d disp) fm.1 [s.me.reg a] q.cfg = false → reach needR false indexed →
      s.readsHeld (cluOf s.cur) (s.fetched s.cur ls) = false →
      done (.vgath a sh pt qp vi d disp) 12 (fun p => ∀ n, n ≠ d.toNat → p.vreg n = q.vreg n)) ∧
    (vBad (.vscat a sh pt qp vi d disp) fm.1 [s.me.reg a] q.cfg = false → reach needW true indexed → w ≠ 4 → q.vpoison = 0 → q.qpoison = 0 →
      s.me.buf = [] → Claim.entries s + (linesOf ls).length ≤ 8 → done (.vscat a sh pt qp vi d disp) 12 (fun p => p = q)) ∧
    (s.me.sta.pp = false →
      done (.vcfg x) 4 (fun p => p = q) ∧
      done (.vcfgClr x) 4 (fun p => ∀ i < 64, p.cfg.getLsbD i = (decide (i < 16 ∨ 21 ≤ i) && q.cfg.getLsbD i)) ∧
      ((s.me.reg a).toNat / 2 ^ 21 % 2 ^ 11 = 0 → (s.me.reg a).toNat / 2 ^ 11 % 32 = 0 → (s.me.reg a).toNat / 2 ^ 8 % 8 ≤ 4 →
        (s.me.reg a).toNat / 32 % 4 ≠ 3 → fmtAll ((s.me.reg a).toNat % 32) = true → done (.vcfgWr x a) 4 (fun p => p.cfg = s.me.reg a)) ∧
      (∀ body next, (s.me.reg a).toNat ≤ 65535 → q.repBuf = [] →
        s.capture s.me q.cfg (2 * (l4.toNat + 1) + 1) (l4.toNat + 1) (s.me.pc + 4) none = .ok (body, next) →
        ∃ t, exec (.rep t3 l4 a) s = .next t ∧ (Claim.port t).repBuf = body ∧ (t.ctx s.cur).pc = next ∧ t.mem = s.mem))

/-- 08 R166: where a pass of a repetition completes. -/
def Claim.PassesComplete : Prop :=
  ∀ (s : State) (core p c j : Nat) (e : VEntry) (r : List VEntry), (s.port core p).queue = e :: r → (s.port core p).rep = some j →
    s.engineUser core p = some c → s.engKept core p = false →
    ∃ t, exec (.repPass core p) s = .next t ∧ t.mem = s.mem ∧
      ((e.xs.getD 0 0).toNat ≤ j + 1 → (t.port core p).queue = r ∧ (t.port core p).rep = none) ∧
      (j + 1 < (e.xs.getD 0 0).toNat → (t.port core p).queue = e :: r ∧ (t.port core p).rep = some (j + 1))

/-- The three together: `Claim.PortIssue`, `Claim.VectorFormsComplete` and `Claim.PassesComplete`.
Where the spec leaves the matter open it follows the model's choices and readings of logs 12 and 56. -/
def Obligations.VectorIssue : Prop := Claim.PortIssue ∧ Claim.VectorFormsComplete ∧ Claim.PassesComplete

/-- A port whose head entry is `e`, and which nothing holds, executes it and becomes what `good` says; nothing else has changed. -/
def Claim.PortGives (s : State) (core p : Nat) (e : VEntry) (good : Port → Prop) : Prop :=
  ∀ (c : Nat) (r : List VEntry), (s.port core p).queue = e :: r → s.engineUser core p = some c → s.engKept core p = false →
    (s.port core p).rep = none → ∃ q, exec (.portEntryExecute core p) s = .next (s.modPort core p (fun _ => q)) ∧
      q.queue = r ∧ q.rep = none ∧ q.repBuf = (s.port core p).repBuf ∧ good q

/-- The active lanes of register `d` are `f`'s; every other lane and register is as before; `VPCFG` gathers the flags (08 R160). -/
def Claim.Elementwise (q : Port) (e : VEntry) (qp d : Nat) (f : Nat → Nat × BitVec 5) (t : Port) : Prop :=
  let w := codeBits e.fmt
  let n := lanes e.fmt
  (∀ i < n, lane (t.vreg d) w i = if q.active qp i then (f i).1 % 2 ^ w else lane (q.vreg d) w i) ∧
  (∀ r, r ≠ d → t.vreg r = q.vreg r) ∧ (∀ r, t.preg r = q.preg r) ∧
  t.cfg = q.cfg ||| (((List.range n).foldl (fun a i => if q.active qp i then a ||| (f i).2 else a) (0 : BitVec 5)).setWidth 64 <<< 16)

/-- An integer result in its format: saturated, or wrapped (06 R101). -/
def Claim.intLane (f : Nat) (sat_ : Bool) (v : Int) : Nat :=
  ((if sat_ then max (intMin f) (min (intMax f) v) else v) % 2 ^ intBits f).toNat

/-- 08 R168 to R171: elementwise arithmetic, logic, shifts, comparison and selection, lane by lane under the predicate. -/
def Obligations.VectorElements : Prop :=
  ∀ (s : State) (core p : Nat) (e : VEntry) (sg : BitVec 1) (k : BitVec 4) (qp pd : PReg) (d a b : VReg),
    fmtA e.fmt = true ∨ fmtF e.fmt = true →
    let q := s.port core p
    let w := codeBits e.fmt
    let g := codeFmt e.fmt
    let x (i : Nat) : Nat := lane (q.vreg a.toNat) w i
    let y (i : Nat) : Nat := if sg = 1 then (e.xs.getD 0 0).toNat % 2 ^ w else lane (q.vreg b.toNat) w i
    let z (i : Nat) : Nat := lane (q.vreg d.toNat) w i
    let iv := intValue e.fmt
    let act (i : Nat) : Bool := q.active qp.toNat i
    let el (i : Instr) (f : Nat → Nat × BitVec 5) : Prop := e.ins = i → Claim.PortGives s core p e (Claim.Elementwise q e qp.toNat d.toNat f)
    let ar (i : Instr) (fi : Int → Int → Int → Int) (ff : Nat → Nat → Nat → Nat × BitVec 5) : Prop :=
      el i (fun j => if fmtF e.fmt then ff (x j) (y j) (z j) else (Claim.intLane e.fmt e.sat (fi (iv (x j)) (iv (y j)) (iv (z j))), 0))
    let sh (i : Instr) (f : BitVec w → Nat → BitVec w) : Prop :=
      fmtA e.fmt = true → el i (fun j => ((f (BitVec.ofNat w (x j)) (y j % w)).toNat, 0))
    ar (.vadd sg k qp d a b) (fun u v _ => u + v) (fun u v _ => fAdd g e.rm e.sat u v) ∧
    ar (.vsub sg k qp d a b) (fun u v _ => u - v) (fun u v _ => fSub g e.rm e.sat u v) ∧
    (k ≠ 4 → ar (.vmul sg k qp d a b) (fun u v _ => u * v) (fun u v _ => fMul g e.rm e.sat u v)) ∧
    (fmtA e.fmt = true → ar (.vmul sg 4 qp d a b) (fun u v _ => u * v / 2 ^ w) (fun _ _ _ => (0, 0))) ∧
    ar (.vfma sg k qp d a b) (fun u v t => t + u * v) (fun u v t => fMad g e.rm e.sat u v t) ∧
    ar (.vmin sg qp d a b) (fun u v _ => min u v) (fun u v _ => (fPick g false u v, 0)) ∧
    ar (.vmax sg qp d a b) (fun u v _ => max u v) (fun u v _ => (fPick g true u v, 0)) ∧
    (sg = 0 → ar (.vabs qp d a) (fun u _ _ => |u|) (fun u _ _ => (fSign g u false, 0)) ∧
      ar (.vneg qp d a) (fun u _ _ => -u) (fun u _ _ => (fSign g u (!fNegBit g u), 0))) ∧
    el (.vand sg qp d a b) (fun j => (x j &&& y j, 0)) ∧ el (.vor sg qp d a b) (fun j => (x j ||| y j, 0)) ∧
    el (.vxor sg qp d a b) (fun j => (x j ^^^ y j, 0)) ∧
    sh (.vshl sg qp d a b) (fun u c => u <<< c) ∧ sh (.vshr sg 0 qp d a b) (fun u c => u >>> c) ∧
    sh (.vshr sg 1 qp d a b) (fun u c => u.sshiftRight c) ∧ sh (.vshr sg 2 qp d a b) (fun u c => u.rotateRight c) ∧
    (k.toNat < 4 ∨ fmtF e.fmt = true → e.ins = .vcmp sg k qp pd a b → Claim.PortGives s core p e (fun t =>
      (∀ r, t.vreg r = q.vreg r) ∧ (∀ r, r ≠ pd.toNat → t.preg r = q.preg r) ∧ t.cfg = q.cfg ∧
      ∀ i < 256, (t.preg pd.toNat).getLsbD i = (decide (i < lanes e.fmt) && (if act i then
          (if fmtF e.fmt then fCompare g k.toNat (x i) (y i) else match k.toNat with
            | 0 => decide (iv (x i) = iv (y i))
            | 1 => decide (iv (x i) ≠ iv (y i))
            | 2 => decide (iv (x i) < iv (y i))
            | _ => decide (iv (x i) ≤ iv (y i)))
        else (q.preg pd.toNat).getLsbD i)))) ∧
    (e.ins = .vsel sg qp d a b → Claim.PortGives s core p e (fun t =>
      (∀ i < lanes e.fmt, lane (t.vreg d.toNat) w i = if act i then x i else y i) ∧ (∀ r, r ≠ d.toNat → t.vreg r = q.vreg r) ∧
        (∀ r, t.preg r = q.preg r) ∧ t.cfg = q.cfg))

/-- 08 R172 to R179; 06 R119, R122: conversion, approximation, reduction, scan, permutation, broadcast, moves from scalars, and logic
on predicates. -/
def Claim.VectorMovesAndReductions : Prop :=
  ∀ (s : State) (core p : Nat) (e : VEntry) (sg : BitVec 1) (k : BitVec 4) (qp pd pa : PReg) (d a b : VReg) (r : Reg),
    fmtAll e.fmt = true →
    let q := s.port core p
    let w := codeBits e.fmt
    let n := lanes e.fmt
    let x (i : Nat) : Nat := lane (q.vreg a.toNat) w i
    let act (i : Nat) : Bool := q.active qp.toNat i
    let v := (e.xs.getD 0 0).toNat
    let el (i : Instr) (f : Nat → Nat × BitVec 5) : Prop := e.ins = i → Claim.PortGives s core p e (Claim.Elementwise q e qp.toNat d.toNat f)
    let member (h : Nat) : List Nat := ((List.range h).filter act).map x
    let frame (t : Port) : Prop := (∀ j, j ≠ d.toNat → t.vreg j = q.vreg j) ∧ (∀ j, t.preg j = q.preg j)
    (sg = 0 → e.ins = .vcvt 0 k qp d a b →
      let src := cvtSource k.toNat
      let c := cvtLanes src e.fmt
      cvtBad src e.fmt (q.cfg.toNat / 2 ^ 32, 0, 0, 0) = false →
      Claim.PortGives s core p e (fun t => frame t ∧ ∀ i < n, lane (t.vreg d.toNat) w i =
        if i < c ∧ act i = true then (cvtOne src e.fmt e.rm e.sat (q.cfg.toNat / 2 ^ 32) (lane (q.vreg a.toNat) (codeBits src) i)).1 % 2 ^ w
        else lane (q.vreg d.toNat) w i)) ∧
    el (.vapx k qp d a) (fun i => apx k.toNat (codeFmt e.fmt) (x i)) ∧
    (e.ins = .vred k qp d a → Claim.PortGives s core p e (fun t => frame t ∧
      t.vreg d.toNat = BitVec.ofNat 1024 ((vReduce k.toNat e.fmt e.rm e.sat (member n)).1 % 2 ^ w))) ∧
    (k.toNat < 8 → el (.vscan k qp d a) (fun i => vReduce k.toNat e.fmt e.rm e.sat (member (i + 1)))) ∧
    (8 ≤ k.toNat → el (.vscan k qp d a) (fun i => vReduce (k.toNat - 8) e.fmt e.rm e.sat (member i))) ∧
    (fmtA e.fmt = true → ∀ l : List Nat,
      let iv := l.map (intValue e.fmt)
      vReduce 0 e.fmt e.rm e.sat l = (Claim.intLane e.fmt e.sat iv.sum, 0) ∧
      (l ≠ [] → ∃ lo ∈ iv, ∃ hi ∈ iv, (∀ j ∈ iv, lo ≤ j ∧ j ≤ hi) ∧
        vReduce 1 e.fmt e.rm e.sat l = (Claim.intLane e.fmt false lo, 0) ∧ vReduce 2 e.fmt e.rm e.sat l = (Claim.intLane e.fmt false hi, 0))) ∧
    el (.vperm qp d a b) (fun i =>
      let j := lane (q.vreg b.toNat) w i
      (if j < n then x j else 0, 0)) ∧
    el (.vbcast 0 qp d a r) (fun _ => (v, 0)) ∧ (v < n → el (.vbcast 1 qp d a r) (fun _ => (x v, 0))) ∧
    (v < n → e.ins = .vmovx 1 d a r → Claim.PortGives s core p e (fun t => frame t ∧ t.cfg = q.cfg ∧
      ∀ i < n, lane (t.vreg d.toNat) w i = if i = v then (e.xs.getD 1 0).toNat % 2 ^ w else lane (q.vreg d.toNat) w i)) ∧
    (v < 4 → e.ins = .vmovx 3 d a r → Claim.PortGives s core p e (fun t => (∀ j, t.vreg j = q.vreg j) ∧ t.cfg = q.cfg ∧
      (∀ j, j ≠ d.toNat % 8 → t.preg j = q.preg j) ∧
      ∀ i < 4, lane (t.preg (d.toNat % 8)) 64 i = if i = v then (e.xs.getD 1 0).toNat else lane (q.preg (d.toNat % 8)) 64 i)) ∧
    (k.toNat < 8 → e.ins = .plog sg k pd pa b → Claim.PortGives s core p e (fun t => (∀ j, t.vreg j = q.vreg j) ∧ t.cfg = q.cfg ∧
      (∀ j, j ≠ pd.toNat → t.preg j = q.preg j) ∧
      ∀ i < 256,
        let u := (q.preg pa.toNat).getLsbD i
        let v' := (q.preg (b.toNat % 8)).getLsbD i
        (t.preg pd.toNat).getLsbD i = match k.toNat with
          | 0 => u && v'
          | 1 => u || v'
          | 2 => u != v'
          | 3 => u && !v'
          | 4 => !u
          | 5 => true
          | 6 => false
          | _ => decide (i < v)))

/-- 08 R184: sorting, merging and the greatest pairs: the pairs written are those read, in order, and every lane beyond them is as
before. -/
def Claim.VectorSorting : Prop :=
  ∀ (s : State) (core p : Nat) (e : VEntry) (h m o : BitVec 1) (qp : PReg) (d a b : VReg) (r : Reg),
    (1 ≤ e.fmt ∧ e.fmt ≤ 6 ∨ fmtF e.fmt = true) → d.toNat % 2 = 0 →
    let q := s.port core p
    let w := codeBits e.fmt
    let c := min (lanes e.fmt) 32
    let from_ (v : VReg) (base : Nat) : List SortPair := ((List.range c).filter (q.active qp.toNat)).map (fun j =>
      ⟨lane (q.vreg v.toNat) w j, lane (q.vreg (v.toNat + 1)) 32 j, base + j⟩)
    let order (down : Bool) (l : List SortPair) : Prop := l.Pairwise (fun u v => pairBefore e.fmt down (decide (m = 1)) u v = true)
    let put (l : List SortPair) (t : Port) : Prop :=
      (∀ j < c, ∀ u, l[j]? = some u → lane (t.vreg d.toNat) w j = u.key ∧ lane (t.vreg (d.toNat + 1)) 32 j = u.idx) ∧
      (∀ j, l.length ≤ j → j < lanes e.fmt → lane (t.vreg d.toNat) w j = lane (q.vreg d.toNat) w j) ∧
      (∀ j, l.length ≤ j → j < 32 → lane (t.vreg (d.toNat + 1)) 32 j = lane (q.vreg (d.toNat + 1)) 32 j) ∧
      (∀ n, n ≠ d.toNat → n ≠ d.toNat + 1 → t.vreg n = q.vreg n) ∧ (∀ n, t.preg n = q.preg n) ∧ t.cfg = q.cfg
    (e.ins = .vsort m o qp d a → Claim.PortGives s core p e (fun t =>
      ∃ l : List SortPair, l.Perm (from_ a 0) ∧ order (decide (o = 1)) l ∧ put l t)) ∧
    (e.ins = .vmerge h m o qp d a b → Claim.PortGives s core p e (fun t =>
      ∃ l : List SortPair, l.Perm (from_ a 0 ++ from_ b c) ∧ order (decide (o = 1)) l ∧ put ((l.drop (h.toNat * c)).take c) t)) ∧
    (e.ins = .vtopk m qp d a r → (e.xs.getD 0 0).toNat ≤ c → Claim.PortGives s core p e (fun t =>
      ∃ l : List SortPair, l.Perm (from_ a 0) ∧ order true l ∧ put (l.take (e.xs.getD 0 0).toNat) t))

/-- The two together: `Claim.VectorMovesAndReductions` and `Claim.VectorSorting`.
Where the spec leaves the matter open it follows the model's choices and readings of logs 7 and 29. -/
def Obligations.VectorMovesReductionsAndSorting : Prop := Claim.VectorMovesAndReductions ∧ Claim.VectorSorting

/-- The byte that some elements of 4 bits, in ascending order, make of `old`: each replaces its nibble (08 R181). -/
def Claim.nibbles (v : VWord) (l : List (Nat × List Nat)) (x : Nat) (old : Byte) : Byte :=
  (l.filter (fun g => decide (g.2 = [x]))).foldl (fun b g => mergeByte b (nibOf g.1 (lane v 4 g.1)).1 (nibOf g.1 (lane v 4 g.1)).2) old

/-- The byte that some elements of `w` bits, of 8 bits or more, leave at a location: the last element's that holds it. -/
def Claim.lastByte (v : VWord) (f : Nat) (l : List (Nat × List Nat)) (x : Nat) : Option Byte :=
  ((l.flatMap (fun g => g.2.zip (leBytes (elemBytes f) (lane v (codeBits f) g.1)))).reverse.find? (fun z => decide (z.1 = x))).map (·.2)

/-- 08 R180 to R182; 10 R213: a `VLD` or a `VST` whose active elements pass their checks and lie in memory enters the queue with their
locations; a gather and a scatter access memory where they stand. A gather puts the element that the thread sees at each active
location into its lane, and leaves the others. A scatter's bytes enter the buffer, the last element's where two overlap; a lone nibble,
whose byte keeps its other nibble, is written at its place. -/
def Claim.VectorAccesses : Prop :=
  ∀ (s : State) (sg : BitVec 1) (sh pt : BitVec 3) (qp : PReg) (d b vi : VReg) (a : Reg) (disp : BitVec 32) (es : List VElem),
    Claim.Ported s →
    let l := es.filterMap VElem.mem?
    let q := Claim.port s
    let fm := Claim.format s
    let w := codeBits fm.1
    let c := min (lanes fm.1) 32
    let stride : Word := s.me.reg (b.setWidth 4)
    let straight := ((List.range (lanes fm.1)).filter (q.active qp.toNat)).map (fun k =>
      (k, s.me.reg a + (if sg = 1 then BitVec.ofNat 64 k * stride else BitVec.ofNat 64 (k * w / 8))))
    let indexed := ((List.range c).filter (fun j => q.active qp.toNat (pt.toNat * c + j))).map (fun j =>
      (pt.toNat * c + j, s.me.reg a + disp.signExtend 64 + BitVec.ofNat 64 (lane (q.vreg vi.toNat) 32 j * 2 ^ sh.toNat)))
    let free (ls : List Nat) : Prop := s.waterHold s.me.part ls = none ∧ ls.find? (s.bankKept s.cur) = none
    let idle := q.queue = [] ∧ q.rep = none
    (∀ i ∈ [Instr.vld sg qp d a b, .vst sg qp d a b], qp = 0 ∨ idle → q.queue.length < 8 →
      (sg = 1 → w ≠ 4) → fmtAll fm.1 = true →
      (∀ x, s.vecElems (elemBytes fm.1) (if i = .vst sg qp d a b then needW else needR) (decide (i = .vst sg qp d a b)) straight = .error x →
        Claim.Faults s i x.code x.addr x.info) ∧
      (s.vecElems (elemBytes fm.1) (if i = .vst sg qp d a b then needW else needR) (decide (i = .vst sg qp d a b)) straight = .ok es →
        l.length = es.length → free (l.flatMap (·.2)) →
        (i = .vst sg qp d a b ∨ ∀ k ∈ linesOf (l.flatMap (·.2)), s.copyBusy (cluOf s.cur) k = false) →
        ∃ (t : State) (e : VEntry), exec i s = .next t ∧ (Claim.port t).queue = q.queue ++ [e] ∧ e.ins = i ∧
          e.fmt = fm.1 ∧ e.segs = l ∧ (t.ctx s.cur).pc = s.me.pc + 4 ∧ (t.ctx s.cur).x = s.me.x ∧ (t.ctx s.cur).sta.pp = false ∧
          t.mem = s.mem)) ∧
    (idle → vBad (.vgath a sh pt qp vi d disp) fm.1 [s.me.reg a] q.cfg = false →
      (∀ x, s.vecElems (elemBytes fm.1) needR false indexed = .error x → Claim.Faults s (.vgath a sh pt qp vi d disp) x.code x.addr x.info) ∧
      (s.vecElems (elemBytes fm.1) needR false indexed = .ok es → l.length = es.length → free (l.flatMap (·.2)) →
        (∀ k ∈ linesOf (l.flatMap (·.2)), s.copyBusy (cluOf s.cur) k = false) → (∀ g ∈ l, g.2.length = elemBytes fm.1) →
        s.readsHeld (cluOf s.cur) (s.fetched s.cur (l.flatMap (·.2))) = false →
        ∃ t r : State, (r = s ∨ r = s.applyInbox (cluOf s.cur)) ∧ exec (.vgath a sh pt qp vi d disp) s = .next t ∧
          (t.ctx s.cur).pc = s.me.pc + 12 ∧ (t.ctx s.cur).x = s.me.x ∧ t.mem = s.mem ∧
          (∀ n, n ≠ d.toNat → (Claim.port t).vreg n = q.vreg n) ∧
          (∀ g ∈ l, lane ((Claim.port t).vreg d.toNat) w g.1 = elemOf fm.1 g.1 (leNat (g.2.map (r.viewByte s.cur)))) ∧
          (∀ i < lanes fm.1, i ∉ l.map (·.1) → lane ((Claim.port t).vreg d.toNat) w i = lane (q.vreg d.toNat) w i))) ∧
    (idle → vBad (.vscat a sh pt qp vi d disp) fm.1 [s.me.reg a] q.cfg = false →
      (∀ x, s.vecElems (elemBytes fm.1) needW true indexed = .error x → Claim.Faults s (.vscat a sh pt qp vi d disp) x.code x.addr x.info) ∧
      (s.vecElems (elemBytes fm.1) needW true indexed = .ok es → l.length = es.length → free (l.flatMap (·.2)) → q.vpoison = 0 →
        q.qpoison = 0 → s.me.buf = [] → Claim.entries s + (linesOf (l.flatMap (·.2))).length ≤ 8 → (∀ g ∈ l, g.2.length = elemBytes fm.1) →
        let half (x k : Nat) : Prop := ∃ g ∈ l, g.2 = [x] ∧ g.1 % 2 = k
        (w ≠ 4 → ∃ t, exec (.vscat a sh pt qp vi d disp) s = .next t ∧ (t.ctx s.cur).pc = s.me.pc + 12 ∧ (t.ctx s.cur).x = s.me.x ∧
          t.mem = s.mem ∧ Claim.port t = q ∧
          ∀ x, ownByte (t.ctx s.cur).buf x = Claim.lastByte (q.vreg d.toNat) fm.1 l x) ∧
        (w = 4 → (∀ x ∈ l.flatMap (·.2), half x 0 ∧ half x 1) →
          ∃ t, exec (.vscat a sh pt qp vi d disp) s = .next t ∧ (t.ctx s.cur).pc = s.me.pc + 12 ∧ (t.ctx s.cur).x = s.me.x ∧
            t.mem = s.mem ∧ Claim.port t = q ∧
            ∀ x ∈ l.flatMap (·.2), ownByte (t.ctx s.cur).buf x = some (Claim.nibbles (q.vreg d.toNat) l x 0)) ∧
        (w = 4 → ¬ (∀ x ∈ l.flatMap (·.2), half x 0 ∧ half x 1) → (∀ k ∈ linesOf (l.flatMap (·.2)), s.lockedFor k s.cur = false) → (s.core (coreOf s.cur)).shared = [] →
          (s.clu (cluOf s.cur)).throughs = [] → (∀ k ∈ s.clus, k.2.retry = []) →
          ∃ t, exec (.vscat a sh pt qp vi d disp) s = .next t ∧ (t.ctx s.cur).pc = s.me.pc + 12 ∧ (t.ctx s.cur).x = s.me.x ∧
            SameMem (l.flatMap (·.2)) s t ∧ Claim.port t = q ∧
            ∀ x ∈ l.flatMap (·.2), t.mem.read x =
              Claim.nibbles (q.vreg d.toNat) l x ((s.taggedByte s.cur x).getD (s.mem.read x)))))

/-- 08 R158, R165 to R167, R178, R183: the port's configuration once it has drained, the values that `VMOVX` returns, and repetition. -/
def Claim.PortControl : Prop :=
  ∀ (s : State) (t : BitVec 3) (l : BitVec 4) (d a : Reg) (vd va : VReg), Claim.Ported s →
    let q := Claim.port s
    let core := coreOf s.cur
    let p := s.me.sta.port.toNat
    let idle := q.queue = [] ∧ q.rep = none
    let fm := Claim.format s
    let v := s.me.reg a
    let cfg (f : Word → Word) : State := (s.modPort core p (fun q => { q with cfg := f q.cfg })).setReg d q.cfg
    let good := v.toNat / 2 ^ 21 % 2 ^ 11 = 0 ∧ v.toNat / 2 ^ 11 % 32 = 0 ∧ v.toNat / 2 ^ 8 % 8 ≤ 4 ∧ v.toNat / 32 % 4 ≠ 3 ∧
      fmtAll (v.toNat % 32) = true
    (s.me.sta.pp = false →
      (¬ idle → Claim.Waits s (.vcfg d) 4 .drain ∧ Claim.Waits s (.vcfgClr d) 4 .drain ∧ (good → Claim.Waits s (.vcfgWr d a) 4 .drain)) ∧
      (¬ good → Claim.Faults s (.vcfgWr d a) Cause.reservedBits 0 0) ∧
      (idle → Claim.Ends s (.vcfg d) 4 (cfg id) ∧ (good → Claim.Ends s (.vcfgWr d a) 4 (cfg (fun _ => v))) ∧
        ∃ u, exec (.vcfgClr d) s = .next u ∧ (∀ i < 64, (Claim.port u).cfg.getLsbD i = (decide (i < 16 ∨ 21 ≤ i) && q.cfg.getLsbD i)) ∧
          (u.ctx s.cur).reg d = (if d = 0 then 0 else q.cfg) ∧ (u.ctx s.cur).pc = s.me.pc + 4)) ∧
    (fmtAll fm.1 = true → idle →
      let w := codeBits fm.1
      let moved (f : BitVec 2) (x : Nat) (bad : Bool) : Prop :=
        (bad = true → Claim.Faults s (.vmovx f vd va a) Cause.poisonConsumed 0 0) ∧
        (bad = false → ∃ u, exec (.vmovx f vd va a) s = .next u ∧ (u.ctx s.cur).pc = s.me.pc + 4 ∧ (u.ctx s.cur).sta.pp = false ∧
          ∀ r, (u.ctx s.cur).reg r = if r = 0 then 0 else if r = vd.setWidth 4 then BitVec.ofNat 64 x else s.me.reg r)
      (v.toNat < lanes fm.1 → moved 0 (lane (q.vreg va.toNat) w v.toNat) (q.vpoison.getLsbD va.toNat)) ∧
      (v.toNat < 4 → moved 2 (lane (q.preg (va.toNat % 8)) 64 v.toNat) (q.qpoison.getLsbD (va.toNat % 8)))) ∧
    (s.me.sta.pp = false →
      (65535 < v.toNat → Claim.Faults s (.rep t l a) Cause.reservedBits 0 0) ∧
      (∀ body next, v.toNat ≤ 65535 → s.capture s.me q.cfg (2 * (l.toNat + 1) + 1) (l.toNat + 1) (s.me.pc + 4) none = .ok (body, next) →
        (q.repBuf ≠ [] ∨ 8 ≤ q.queue.length → Claim.Waits s (.rep t l a) 4 .drain) ∧
        (q.repBuf = [] → q.queue.length < 8 → ∃ u e, exec (.rep t l a) s = .next u ∧ (Claim.port u).queue = q.queue ++ [e] ∧
          e.ins = .rep t l a ∧ e.xs = [v] ∧ (Claim.port u).repBuf = body ∧ (u.ctx s.cur).pc = next)) ∧
      (∀ e, s.capture s.me q.cfg (2 * (l.toNat + 1) + 1) (l.toNat + 1) (s.me.pc + 4) none = .error e → v.toNat ≤ 65535 →
        Claim.Faults s (.rep t l a) e.code e.addr e.info))

/-- 08 R161, R165, R166, R180; 10 R213: what a port does with a repetition, a load and a store at its head: a load puts the element that
its thread sees at each active location into its lane. -/
def Claim.PortSteps : Prop :=
  ∀ (s : State) (core p c : Nat) (e : VEntry) (r : List VEntry) (t : BitVec 3) (l : BitVec 4) (a : Reg) (sg : BitVec 1) (qp : PReg) (d b : VReg),
    let q := s.port core p
    q.queue = e :: r → s.engineUser core p = some c → s.engKept core p = false →
    let n := (e.xs.getD 0 0).toNat
    let ls := e.segs.flatMap (·.2)
    let free := s.waterHold (s.ctx c).part ls = none ∧ ls.find? (s.bankKept c) = none
    (q.rep = none → e.ins = .rep t l a →
      (e.xs.getD 0 0 = 0 → exec (.portEntryExecute core p) s = .next (s.modPort core p (fun q => { q with queue := r, repBuf := [] }))) ∧
      (e.xs.getD 0 0 ≠ 0 → exec (.portEntryExecute core p) s = .next (s.modPort core p (fun q => { q with rep := some 0 })))) ∧
    (∀ j, q.rep = some j → e.ins = .rep t l a → ∃ q', exec (.repPass core p) s = .next (s.modPort core p (fun _ => q')) ∧
      (let one := q.repBuf.foldl (fun q x => (q.compute x (j * t.toNat)).mark (x.use (j * t.toNat)) (q.marked (x.use (j * t.toNat)))) q
       (∀ v, q'.vreg v = one.vreg v) ∧ (∀ v, q'.preg v = one.preg v) ∧ q'.cfg = one.cfg) ∧
      (n ≤ j + 1 → q'.queue = r ∧ q'.rep = none ∧ q'.repBuf = []) ∧
      (j + 1 < n → q'.queue = e :: r ∧ q'.rep = some (j + 1) ∧ q'.repBuf = q.repBuf)) ∧
    (q.rep = none → e.ins = .vld sg qp d a b → free → s.readsHeld (cluOf c) (s.fetched c ls) = false →
      (∀ k ∈ linesOf ls, s.copyBusy (cluOf c) k = false) →
      ∃ u w : State, (w = s ∨ w = s.applyInbox (cluOf c)) ∧ exec (.portEntryExecute core p) s = .next u ∧
        (u.port core p).queue = r ∧ u.mem = s.mem ∧ (u.ctx c).x = (s.ctx c).x ∧
        (∀ v, v ≠ d.toNat → (u.port core p).vreg v = q.vreg v) ∧
        (fmtAll e.fmt = true → (e.segs.map (·.1)).Nodup → (∀ g ∈ e.segs, g.2.length = elemBytes e.fmt ∧ g.1 < lanes e.fmt) →
          ∀ g ∈ e.segs, lane ((u.port core p).vreg d.toNat) (codeBits e.fmt) g.1 = elemOf e.fmt g.1 (leNat (g.2.map (w.viewByte c)))) ∧
        (fmtAll e.fmt = true → ∀ i < lanes e.fmt, i ∉ e.segs.map (·.1) →
          lane ((u.port core p).vreg d.toNat) (codeBits e.fmt) i = lane (q.vreg d.toNat) (codeBits e.fmt) i)) ∧
    (q.rep = none → e.ins = .vst sg qp d a b → free → q.vpoison = 0 → q.qpoison = 0 → (s.ctx c).buf = [] →
      Claim.entries { s with cur := c } + (linesOf ls).length ≤ 8 → (∀ g ∈ e.segs, g.2.length = elemBytes e.fmt) → 8 ≤ codeBits e.fmt →
      ∃ u, exec (.portEntryExecute core p) s = .next u ∧ u.port core p = { q with queue := r } ∧ u.mem = s.mem ∧ (u.ctx c).x = (s.ctx c).x ∧
        (fmtAll e.fmt = true → 8 ≤ codeBits e.fmt → (e.segs.flatMap (·.2)).Nodup →
          ∀ g ∈ e.segs, ∀ z ∈ g.2.zip (leBytes (elemBytes e.fmt) (lane (q.vreg d.toNat) (codeBits e.fmt) g.1)),
            ownByte (u.ctx c).buf z.1 = some z.2))

/-- The three together: `Claim.VectorAccesses`, `Claim.PortControl` and `Claim.PortSteps`.
Where the spec leaves the matter open it follows the model's choices and readings of logs 12, 35 and 56. -/
def Obligations.VectorMemoryAndControl : Prop := Claim.VectorAccesses ∧ Claim.PortControl ∧ Claim.PortSteps

/-! ## The matrix unit -/

/-- 05 R90; 09 R190 to R195: queueing a command, waiting with an acquire at the widest scope awaited, and the unit's status: the
configurations and the row mask that completed commands have left.
Where the spec leaves the matter open it follows the model's choices and readings of logs 11, 13, 32, 52 and 61. -/
def Obligations.MatrixInstructions : Prop :=
  ∀ (s : State) (d a : Reg) (sr : Nat) (v : Word), Calm s →
    let core := coreOf s.cur
    let u := s.mat core
    let n := (s.me.reg a).toNat
    let widest (k : Nat) : Nat := (u.scopes.take k).foldl max 0
    let all := [Instr.mxq d a, .mxwait a, .mxwaitAll, .mxstat d a, .mxstatResume, .mxstatDrop, .mxstatSdrop, .mxqWindowSubmit sr v]
    let accept (i : Instr) (t : State) (r : BitVec 512) (d : Reg) : Prop := t.cur = s.cur →
      (∀ e, t.mxCheck core r = some e → Claim.Faults s i e.code e.addr e.info) ∧
      (t.mxCheck core r = none →
        (4 ≤ (t.mat core).queue.length → exec i s = .next (t.block s.cur .mxqueue 4)) ∧
        ((t.mat core).queue.length < 4 → ∀ w, t.release t.cur 2 = (w, true) →
          let m := w.mat core
          let x := w.ctx s.cur
          let cmd : MCmd := { record := r, ctx := s.cur, ticket := m.accepted.toNat, part := x.part, launch := x.launch,
                              tag := w.phaseOf s.cur, sup := x.sta.sup }
          Claim.Ends s i 4 ((w.modMat core (fun m => { m with accepted := m.accepted + 1, queue := m.queue ++ [cmd],
                                                              scopes := m.scopes ++ [rscope r] })).setReg d m.accepted)))
    (s.me.sta.bind ≠ 2 → ∀ i ∈ all, Claim.Faults s i Cause.noBinding 0 0) ∧
    (s.me.sta.bind = 2 →
      (∀ e, s.ownRead (s.me.reg a) s = .error (.exc e) → Claim.Faults s (.mxq d a) e.code e.addr e.info) ∧
      (∀ r t, s.ownRead (s.me.reg a) s = .ok (r, t) → accept (.mxq d a) t r d) ∧
      (let r := putBits (SMap.at 0 u.staging (sr % 32)) 0 64 v.toNat
       (∀ e, s.mxCheck core r = some e → Claim.Faults s (.mxqWindowSubmit sr v) e.code e.addr e.info) ∧
       (s.mxCheck core r = none → accept (.mxqWindowSubmit sr v) (s.modMat core (fun m => { m with staging := SMap.put m.staging (sr % 32) r })) r 0)) ∧
      (u.accepted.toNat ≤ n → Claim.Faults s (.mxwait a) Cause.reservedBits 0 0) ∧
      (n < u.accepted.toNat → n < u.done.toNat → Claim.Ends s (.mxwait a) 4 (s.acquire s.cur (widest (n + 1)))) ∧
      (n < u.accepted.toNat → u.done.toNat ≤ n → Claim.Waits s (.mxwait a) 4 (.mxwait n)) ∧
      (u.accepted.toNat ≤ u.done.toNat → Claim.Ends s .mxwaitAll 4 (s.acquire s.cur (widest u.accepted.toNat))) ∧
      (u.done.toNat < u.accepted.toNat → Claim.Waits s .mxwaitAll 4 (.mxwait (u.accepted.toNat - 1))) ∧
      (let busy := if u.queue = [] then 0 else 1
       let put (v : Nat) : Prop := Claim.Puts s (.mxstat d a) 4 d (BitVec.ofNat 64 v)
       (n = 0 → put (busy + u.stop.toNat * 2 + (if u.stop then u.cause.toNat * 4 else 0) + u.queue.length % 16 * 2 ^ 16)) ∧
       (n = 1 → put u.accepted.toNat) ∧ (n = 2 → put u.done.toNat) ∧
       (8 ≤ n → n ≤ 15 →
         let t := SMap.at {} u.shown (n - 8)
         put (t.fmt + t.rows * 2 ^ 6 + t.cols * 2 ^ 16)) ∧
       (n = 3 → put u.progWord) ∧
       (n = 16 → put (u.shownMask.toNat % 2 ^ 64)) ∧ (n = 17 → put (u.shownMask.toNat / 2 ^ 64)) ∧
       (n = 18 → u.project.gang = none → put 0) ∧
       (∀ g, n = 18 → u.project.gang = some g →
         put (g.rows + g.cols * 2 ^ 4 + g.myRow * 2 ^ 8 + g.myCol * 2 ^ 12 + g.base * 2 ^ 16)) ∧
       (3 < n ∧ n < 8 ∨ 18 < n → Claim.Faults s (.mxstat d a) Cause.reservedBits 0 0)) ∧
      (u.stop = true →
        Claim.Ends s .mxstatResume 4 (s.modMat core (fun m => { m with stop := false, cause := 0, stopAddr := 0, stopInfo := 0 })) ∧
        Claim.Ends s .mxstatDrop 4 (s.modMat core (fun m =>
          { m with stop := false, cause := 0, stopAddr := 0, stopInfo := 0, queue := [], done := m.accepted,
                   shown := m.tiles, shownMask := m.mask }))) ∧
      (u.stop = false → exec .mxstatResume s = .next (s.after 4 id) ∧ Claim.Faults s .mxstatDrop Cause.reservedBits 0 0) ∧
      (u.queue = [] → Claim.Ends s .mxstatSdrop 4 (s.modMat core (fun m => { m with scale := [] }))) ∧
      (u.queue ≠ [] → Claim.Waits s .mxstatSdrop 4 (.mxwait (u.accepted.toNat - 1))))

/-- A command's destination lies in its tiles, and each of them fits its rows of 256 bytes (09 R187, R188). -/
def Claim.Fits (u : Mat) (r : BitVec 512) : Prop :=
  let t := u.tile (rfirst r)
  (∀ g ∈ groupTiles r, (u.tile g).rows = t.rows ∧ (u.tile g).cols = t.cols ∧ (u.tile g).fmt = t.fmt) ∧
  0 < t.rows ∧ 0 < t.cols ∧ 0 < codeBits t.fmt ∧ t.cols * codeBits t.fmt ≤ 2048 ∧ rgroup r ≤ 4 ∧
  rmm r ≤ (if rgroup r = 1 then 1 else 2) * t.rows ∧ rn r ≤ (if rgroup r = 4 then 2 else 1) * t.cols

/-- 09 R196 to R200; 06 R116, R117: one chunk of the head command: nothing while the unit is stopped, the unit stopped with an event
where an element fails, else every live element takes its accumulator plus the exact sum of the chunk's products, rounded or
wrapped once, and PROG counts the chunk; a zero code of a grouped operand is summed as +0 (06 R111). -/
def Claim.MatrixChunks : Prop :=
  ∀ (s : State) (k : Nat) (c : MCmd) (rest : List MCmd),
    let u := s.mat k
    let r := c.record
    let g := mxEng k c
    let kind := rcmd r
    let i : Instr := if kind = 1 then .mma k else if kind = 2 then .mmai k else .mmaq k
    u.queue = c :: rest → 1 ≤ kind → kind ≤ 3 → c.finished = false → (∀ h ∈ (s.core k).engHeld, h.1 ≠ 4) →
    (∀ e ∈ rest, e.ticket ≠ c.ticket) →
    (u.stop = true → exec i s = .next s) ∧
    (u.stop = false → c.prog < chunkCount r →
      (∀ cause sub ptr row, s.chunkMeet g u r c.prog = some (.err cause sub ptr row) → ∃ t, exec i s = .next t ∧ (t.mat k).stop = true ∧
        (t.mat k).cause = cause ∧ (t.mat k).queue = u.queue ∧ (t.mat k).tiles = u.tiles ∧ t.mem = s.mem ∧
        ∃ e ∈ (t.ctx (s.mxBound k c.ctx)).held, e.code = cause ∧ e.addr = ptr) ∧
      (s.chunkMeet g u r c.prog = none → u.scaleMisses r c.prog = [] → Claim.Fits u r → ∃ t, exec i s = .next t ∧ t.mem = s.mem ∧
        (t.mat k).queue = { c with prog := c.prog + 1, finished := decide (chunkCount r ≤ c.prog + 1) } :: rest ∧
        ∀ m ∈ u.liveRows r, ∀ n < rn r,
          let v := if c.prog = 0 ∧ rflag r 2 = false then 0 else u.get r m n
          let ks := chunkKs r c.prog
          (kind = 2 → codeBits (u.tile (rfirst r)).fmt = 32 → (t.mat k).get r m n =
            (((v : Int) + (ks.map (fun q => intValue (rafmt r) (s.opA g u r m q) * intValue (rbfmt r) (s.opB g u r q n))).sum) % 2 ^ 32).toNat) ∧
          (kind = 1 → codeBits (u.tile (rfirst r)).fmt = 32 → (t.mat k).get r m n =
            (roundF fF32 0 false (fSum 0 (fF32.value v) (sumOf (ks.map (fun q =>
              fProd ((codeFmt (rafmt r)).value (s.opA g u r m q)) ((codeFmt (rafmt r)).value (s.opB g u r q n))))))).1 % 2 ^ 32) ∧
          (kind = 3 → codeBits (u.tile (rfirst r)).fmt = 32 → ∃ w : Word, (w = s.scaleUse g u r n c.prog) ∧ (t.mat k).get r m n =
            (roundF fF32 0 false (fSum 0 (fF32.value v) (sumOf (ks.map (fun q => codeProd
              (qval (s.opB g u r q n) (w.toNat / 2 ^ 16 % 2 ^ 8) (w.toNat % 2 ^ 16)) ((codeFmt (rafmt r)).value (s.opA g u r m q))))))).1 % 2 ^ 32))) ∧
    (u.stop = false → kind = 3 → c.prog < chunkCount r → s.chunkMeet g u r c.prog = none → ∀ n l segs, u.scaleMisses r c.prog = n :: l →
      s.engSegs g (scalePtr r (scaleBlk r n c.prog)) 4 needR false = .ok segs → s.waterHold c.part (spanAll segs) = none →
      s.errAt (spanAll segs) = none → u.scale.length < 16384 →
      s.mxPeer g (scalePtr r (scaleBlk r n c.prog)) 4 needR = none → (∀ x ∈ spanAll segs, isPeer x = false) →
      exec (.scaleMissFill k) s = .next (((s.correct (spanAll segs)).modMat k (fun u => { u with scale := u.scale ++
        [(scaleHandle r, scaleBlk r n c.prog, BitVec.ofNat 64 (leNat (s.bytesAt (spanAll segs))))] })).matStream k g
          [scalePtr r (scaleBlk r n c.prog)])) ∧
    (∀ a b m e t h, codeProd (.fin a 0 e t) (.fin b m h t) = .fin false 0 0 false) ∧
    (∀ a m e t x, 0 < m → codeProd (.fin a m e t) x = fProd (.fin a m e t) x)

/-- 09 R201 to R205: moving and configuring tiles, the row mask, gangs, and the completion of a command. -/
def Claim.MatrixCommands : Prop :=
  ∀ (s : State) (k : Nat) (c : MCmd) (rest : List MCmd),
    let u := s.mat k
    let r := c.record
    let g := mxEng k c
    let done (f : Mat → Mat) : State := s.modMat k (fun u => { (f u) with queue := { c with finished := true } :: rest })
    let moved (t : State) : Prop :=
      (t.mat k).queue = { c with tile := c.tile + 1, finished := decide (rgroup r ≤ c.tile + 1) } :: rest
    let free (ls : List Nat) : Prop := ∀ l ∈ linesOf ls, s.lockedFor l noCtx = false
    u.queue = c :: rest → u.stop = false → (∀ h ∈ (s.core k).engHeld, h.1 ≠ 4) → (∀ e ∈ rest, e.ticket ≠ c.ticket) →
    (c.finished = false → rcmd r = 6 → exec (.tzero k) s = .next (done (fun u =>
      { u with tiles := (groupTiles r).foldl (fun m t => SMap.put m t { u.tile t with data := [] }) u.tiles }))) ∧
    (c.finished = false → rcmd r = 7 → exec (.tcfg k) s = .next (done (fun u =>
      { u with tiles := (groupTiles r).foldl (fun m t => SMap.put m t { cols := rn r, rows := rmm r, fmt := rcfmt r }) u.tiles }))) ∧
    (c.finished = false → rcmd r = 9 → (∀ p ∈ maskSpots r, s.spotMeet g false 64 needR false p = none) →
      let word (p : Word) : Nat := s.spotBits g 64 ⟨0, p, false⟩
      let m : BitVec 128 := BitVec.ofNat 128 (word (rptr r 16) + 2 ^ 64 * word (rptr r 16 + 8))
      ∃ t, exec (.trow k) s = .next t ∧ (t.mat k).queue = { c with got := m, finished := true } :: rest ∧ (t.mat k).mask = m ∧
        (t.mat k).tiles = u.tiles ∧ t.mem = s.mem) ∧
    (c.finished = false → rcmd r = 4 → Claim.Fits u r →
      (∀ p ∈ moveSpots r, s.spotMeet g true (codeBits (rcfmt r)) needR false p.2 = none) →
      codeBits (u.tile (rfirst r)).fmt = codeBits (rcfmt r) → ∃ t, exec (.tload k) s = .next t ∧ moved t ∧ t.mem = s.mem ∧
        ∀ p ∈ moveSpots r, (t.mat k).get r p.1.1 p.1.2 =
          if (u.place r p.1.1 p.1.2).1 = rfirst r + c.tile then s.spotBits g (codeBits (rcfmt r)) p.2 % 2 ^ codeBits (rcfmt r)
          else u.get r p.1.1 p.1.2) ∧
    (c.finished = false → rcmd r = 5 → (∀ q ∈ s.clus, q.2.retry = []) →
      (∀ p ∈ moveSpots r, s.spotMeet g true (codeBits (rcfmt r)) needW true p.2 = none) →
      let bs := s.tileBytes g u r (rfirst r + c.tile)
      free (bs.map (·.1)) → (∀ q ∈ bs, isPeer q.1 = false) → ∃ t, exec (.tstore k) s = .next t ∧ moved t ∧ (∀ q ∈ bs, t.mem.read q.1 = q.2) ∧ SameMem (bs.map (·.1)) s t) ∧
    (c.finished = false → rcmd r = 8 → rflag r 2 = false → c.started = false →
      (∀ q ∈ s.mats, q.1 ≠ k → ∀ e ∈ q.2.queue, e.started = false) →
      exec (.gangJoin k) s = .next (s.modMat k (fun u => { u with queue := { c with started := true } :: rest }))) ∧
    (c.finished = false → rcmd r = 8 → rflag r 2 = false → c.started = true → rgang r = 0x11 → rb r 44 4 = k →
      exec (.gangJoinComplete k) s = .next (done (fun u => { u with gang := none }))) ∧
    (c.finished = false → rcmd r = 8 → rflag r 2 = false → c.started = false → exec (.gangJoinComplete k) s = .next s) ∧
    (c.finished = false → rcmd r = 8 → rflag r 2 = true → (∀ q ∈ s.clus, q.2.retry = []) → ∀ p l segs w,
      (∀ q ∈ reduceCells r, s.spotMeet g false 512 needA true q.2 = none) → (reduceCells r).drop c.prog = p :: l →
      s.spotSegs g false 512 needA true p.2 = .ok segs → (spanAll segs).length = 64 → (spanAll segs).Nodup → free (spanAll segs) →
      (∀ x ∈ spanAll segs, isPeer x = false) →
      xsAdd (BitVec.ofNat 512 (leNat (s.bytesAt (spanAll segs)))) (elemValue (rcfmt r) (u.get r p.1.1 p.1.2)) (rcfmt r) = some w →
      ∃ t, exec (.gangReduce k) s = .next t ∧ (t.mat k).queue = { c with prog := c.prog + 1, finished := l.isEmpty } :: rest ∧
        t.bytesAt (spanAll segs) = leBytes 64 w.toNat ∧ SameMem (spanAll segs) s t) ∧
    (c.finished = true → s.ackHeld (matKey k) = false → s.peerOut (matKey k) = false →
      let shapes (m : SMap Tile) : SMap Tile := (groupTiles r).foldl (fun m t => SMap.put m t { cols := rn r, rows := rmm r, fmt := rcfmt r }) m
      let left := s.modMat k (fun u => { u with queue := rest, done := u.done + 1, shown := if rcmd r = 7 then shapes u.shown else u.shown,
                                                shownMask := if rcmd r = 9 then c.got else u.shownMask })
      (rflag r 5 = false → exec (.matrixCompletion k) s = .next left) ∧
      (∀ l, rflag r 5 = true → s.syncLoc g (rptr r 48) = some l →
        (s.arriveHeld l = true → exec (.matrixCompletion k) s = .next (s.askWrites {} [lineOf l])) ∧
        (s.arriveHeld l = false → exec (.matrixCompletion k) s = .next (left.arriveAt l (if rcmd r = 4 ∨ rcmd r = 5 then
            (rmm r * rn r * codeBits (rcfmt r) + 7) / 8 else if 1 ≤ rcmd r ∧ rcmd r ≤ 3 then 4 * rmm r * rn r else 64)).1))) ∧
    (c.finished = false → exec (.matrixCompletion k) s = .next s)

/-- 05 R90; 09 R190 to R195: where the instructions of the matrix unit complete, with nothing of the thread's on its way. -/
def Claim.MatrixFormsComplete : Prop :=
  ∀ (s : State) (d a : Reg) (sr : Nat) (v : Word), Calm s → Claim.Quiet s → s.me.sta.bind = 2 →
    let core := coreOf s.cur
    let u := s.mat core
    let n := (s.me.reg a).toNat
    let done (i : Instr) (good : State → Prop) : Prop := ∃ t, exec i s = .next t ∧ (t.ctx s.cur).pc = s.me.pc + 4 ∧ good t
    let enters (l : List MCmd) (r : BitVec 512) (t : State) : Prop := (t.mat core).queue.map (·.record) = l.map (·.record) ++ [r] ∧
      (t.mat core).accepted = u.accepted + 1
    (∀ r t, s.ownRead (s.me.reg a) s = .ok (r, t) → t.mxCheck core r = none → u.queue.length < 4 → done (.mxq d a) (enters u.queue r)) ∧
    (let r := putBits (SMap.at 0 u.staging (sr % 32)) 0 64 v.toNat
     s.mxCheck core r = none → u.queue.length < 4 → done (.mxqWindowSubmit sr v) (enters u.queue r)) ∧
    (n < u.accepted.toNat → n < u.done.toNat → done (.mxwait a) (fun t => t.mem = s.mem)) ∧
    (u.accepted.toNat ≤ u.done.toNat → done .mxwaitAll (fun t => t.mem = s.mem)) ∧
    (n = 1 → done (.mxstat d a) (fun t => (t.ctx s.cur).reg d = if d = 0 then 0 else u.accepted)) ∧
    (n = 2 → done (.mxstat d a) (fun t => (t.ctx s.cur).reg d = if d = 0 then 0 else u.done)) ∧
    (u.stop = true → done .mxstatResume (fun t => (t.mat core).stop = false ∧ (t.mat core).queue = u.queue) ∧
      done .mxstatDrop (fun t => (t.mat core).stop = false ∧ (t.mat core).queue = [] ∧ (t.mat core).done = u.accepted)) ∧
    (u.stop = false → done .mxstatResume (fun t => (t.mat core).stop = false)) ∧
    (u.queue = [] → done .mxstatSdrop (fun t => (t.mat core).scale = []))

/-- The three together: `Claim.MatrixChunks`, `Claim.MatrixCommands` and `Claim.MatrixFormsComplete`.
Where the spec leaves the matter open it follows the model's choices and readings of logs 6, 11, 25, 58 and 61. -/
def Obligations.MatrixChunksAndCommands : Prop :=
  Claim.MatrixChunks ∧ Claim.MatrixCommands ∧ Claim.MatrixFormsComplete

/-! ## Copies, sync words and the mailbox -/

/-- The fields of a sync word with its reserved bits kept (12 R264). -/
def Claim.syncWord (w : BitVec 128) (cnt tgt gen : BitVec 32) (arm ovr : BitVec 1) : Nat :=
  (w.extractLsb' 98 30 ++ ovr ++ arm ++ gen ++ tgt ++ cnt).toNat

/-- 12 R265, R266, R267: arming and resetting a sync word, waiting for a generation to pass, and what an arrival of bytes makes of
the word. -/
def Claim.SyncWords : Prop :=
  (∀ (s u : State) (ls : List Nat) (d a b : Reg), Calm s → u.cur = s.cur → u.reg b = s.me.reg b →
    let ptr := s.me.reg a
    let t := s.me.reg b
    let w : BitVec 128 := BitVec.ofNat 128 (u.valueAt ls)
    let cnt := w.extractLsb' 0 32
    let tgt := w.extractLsb' 32 32
    let gen := w.extractLsb' 64 32
    let ovr := w.extractLsb' 97 1
    let t32 : BitVec 32 := t.setWidth 32
    let makes (i : Instr) (v : Nat) : Prop := Claim.Ends s i 4 (u.writeAt ls v)
    (Claim.AtPlace s ptr 16 needW 16 .sync true true none u ls →
      (2 ^ 32 ≤ t.toNat → Claim.Faults s (.syncw a b) Cause.reservedBits 0 0 ∧ Claim.Faults s (.syncwReset a b) Cause.reservedBits 0 0) ∧
      (t.toNat < 2 ^ 32 →
        makes (.syncwReset a b) (Claim.syncWord w 0 t32 gen (if t = 0 then 0 else 1) 0) ∧
        (t = 0 → makes (.syncw a b) (Claim.syncWord w cnt tgt gen 0 ovr)) ∧
        (t ≠ 0 → ovr = 1 ∨ t.toNat < cnt.toNat → Claim.Faults s (.syncw a b) Cause.syncwordOverrun ptr 0) ∧
        (t ≠ 0 → ovr = 0 → cnt = t32 → makes (.syncw a b) (Claim.syncWord w 0 t32 (gen + 1) 1 0)) ∧
        (t ≠ 0 → ovr = 0 → cnt.toNat < t.toNat → makes (.syncw a b) (Claim.syncWord w cnt t32 gen 1 0)))) ∧
    (Claim.AtPlace s ptr 16 needR 16 .sync false true none u ls →
      (ovr = 1 → Claim.Faults s (.syncwait d a b) Cause.syncwordOverrun ptr 0) ∧
      (ovr = 0 → gen ≠ t32 → Claim.Ends s (.syncwait d a b) 4 ((u.setReg d (gen.setWidth 64)).applyInbox (cluOf s.cur))) ∧
      (ovr = 0 → gen = t32 → exec (.syncwait d a b) s = .next ((u.modDir (lineOf (ls.headD 0)) (fun e =>
        { e with watches := e.watches ++ [{ ctx := s.cur, loc := ls.headD 0, sync := true }] })).block s.cur (.syncword (ls.headD 0)) 4)))) ∧
  (∀ (w : BitVec 128) (n : Nat),
    let cnt := (w.extractLsb' 0 32).toNat
    let tgt := w.extractLsb' 32 32
    let gen := w.extractLsb' 64 32
    let arm := w.extractLsb' 96 1
    let full : Prop := 2 ^ 32 ≤ cnt + n ∨ (arm = 1 ∧ tgt.toNat < cnt + n)
    let sum : BitVec 32 := BitVec.ofNat 32 (cnt + n)
    (w.getLsbD 97 = true → swArrive w.toNat n = (w.toNat, true)) ∧
    (w.getLsbD 97 = false → full → swArrive w.toNat n = (Claim.syncWord w sum tgt gen arm 1, true)) ∧
    (w.getLsbD 97 = false → ¬ full → arm = 1 → cnt + n = tgt.toNat → swArrive w.toNat n = (Claim.syncWord w 0 tgt (gen + 1) 1 0, false)) ∧
    (w.getLsbD 97 = false → ¬ full → ¬ (arm = 1 ∧ cnt + n = tgt.toNat) → swArrive w.toNat n = (Claim.syncWord w sum tgt gen arm 0, false)))

/-- 12 R268: `CPQ` queues a packet: every check comes before the claim; the claim raises the write index, the packet goes to its
slot, and the thread gets its ticket. It waits while the thread holds 32 tickets or the queue is full. -/
def Claim.CopyQueueing : Prop :=
  ∀ (s : State) (d a b : Reg), Calm s →
    let hdr := s.me.reg a
    let pk := s.me.reg b
    let i := Instr.cpq d a b
    (pk.toNat % 64 ≠ 0 → Claim.Faults s i Cause.misaligned pk 0) ∧
    (pk.toNat % 64 = 0 → hdr.toNat % 64 ≠ 0 → Claim.Faults s i Cause.misaligned hdr 0) ∧
    (pk.toNat % 64 = 0 → hdr.toNat % 64 = 0 → ∀ r u h lg mask, s.ownRead pk (s.inTurn 0) = .ok (r, u) →
      u.cpqHeader (u.inTurn 1) hdr = .ok (h, lg, mask) →
      let x := u.ctx u.cur
      (∀ o, u.cpqBad x.part mask r = some o → Claim.Faults s i Cause.copyPacketInvalid pk (BitVec.ofNat 64 o)) ∧
      (u.cpqBad x.part mask r = none → 32 ≤ x.tickets.length → exec i s = .next (u.block s.cur .cpqueue 4)) ∧
      (u.cpqBad x.part mask r = none → x.tickets.length < 32 → ∀ v, u.release u.cur 2 = (v, true) →
        let y := v.ctx v.cur
        let wr := v.queueWr h
        (2 ^ lg ≤ wr - v.queueRd h → exec i s = .next (v.block s.cur .cpqueue 4)) ∧
        (wr - v.queueRd h < 2 ^ lg → ∀ segs keep sp,
          (v.inTurn 2).access v.cur (slotPtrOf hdr lg wr) 64 needW 64 .plain true false = .ok (.mem segs keep sp) →
          let held := v.queueHeld h [spanAll segs]
          (held = true → exec i s = .next ((v.askQueue h [spanAll segs]).block s.cur (.place (h.headD 0)) 4)) ∧
          let t := (v.place (writerOf v.cur) ((h.take 8).zip (leBytes 8 ((wr + 1) % 2 ^ 64)))).place (writerOf v.cur)
            ((spanAll segs).zip (leBytes 64 (qualifyPk (cluOf v.cur) r).toNat))
          let claim : Claim := { part := y.part, queue := hdr.toNat, idx := wr, tid := y.tid, ticket := y.ticket.toNat, clu := cluOf v.cur,
                                 sup := y.sta.sup, launch := y.launch, tag := (v.domainOf v.cur).any (fun p => bitOf p.2.instant 0) }
          (held = false → Claim.Ends s i 4 ((({ t with claims := t.claims ++ [claim] } : State).modCtx v.cur (fun x =>
            { x with ticket := y.ticket + 1, tickets := x.tickets ++ [y.ticket.toNat], hops := none })).setReg d y.ticket)))) ∧
      (u.cpqBad x.part mask r = none → x.tickets.length < 32 → ∀ v, u.release u.cur 2 = (v, false) →
        exec i s = .next (v.block s.cur .marker 4))) ∧
    (pk.toNat % 64 = 0 → hdr.toNat % 64 = 0 → ∀ core, s.ownRead pk (s.inTurn 0) = .error (.move core) →
      exec i s = .next ((s.modCtx s.cur (fun x => { x with hops := some (x.pc, 1) })).depart s.cur core))

/-- 12 R269, R270: waiting for tickets, with the fault of an abandoned one; the mailbox. -/
def Claim.TicketsAndMailbox : Prop :=
  ∀ (s : State) (d a : Reg), Calm s →
    let n := (s.me.reg a).toNat
    let core := coreOf s.cur
    let box := (s.core core).mbox
    let sync := s.applyInbox (cluOf s.cur)
    let drop (t : Nat) : State := s.modCtx s.cur (fun x => { x with abandoned := x.abandoned.filter (fun p => decide (p.1 ≠ t)) })
    (s.me.ticket.toNat ≤ n → Claim.Faults s (.cpwait a) Cause.reservedBits 0 0) ∧
    (n < s.me.ticket.toNat → n ∈ s.me.tickets → Claim.Waits s (.cpwait a) 4 (.cpwait n)) ∧
    (n < s.me.ticket.toNat → n ∉ s.me.tickets →
      ((∀ p ∈ s.me.abandoned, p.1 ≠ n) → Claim.Ends s (.cpwait a) 4 sync) ∧
      (∀ k info, s.me.abandoned.find? (fun p => decide (p.1 = n)) = some (n, k, info) → exec (.cpwait a) s =
        .next ((drop n).takeFault s.cur { code := k, info := info.getD (BitVec.ofNat 64 n) }))) ∧
    (∀ t r, s.me.tickets = t :: r → Claim.Waits s .cpwaitAll 4 (.cpwait t)) ∧
    (s.me.tickets = [] → s.me.abandoned = [] → Claim.Ends s .cpwaitAll 4 sync) ∧
    (∀ t k info r, s.me.tickets = [] → s.me.abandoned = (t, k, info) :: r → exec .cpwaitAll s =
      .next ((drop t).takeFault s.cur { code := k, info := info.getD (BitVec.ofNat 64 t) })) ∧
    (∀ segs keep, Claim.Reaches s (s.me.reg a) 32 needW 32 .plain true false segs keep →
      (box = [] → Claim.Waits s (.mbox d a) 4 .mbox ∧ Claim.Puts s (.mboxTry d a) 4 d (BitVec.allOnes 64)) ∧
      (∀ m rest t, box = m :: rest → s.storeAt ((spanAll segs).zip (leBytes 32 m.toNat)) 0 0 keep = .done t → t.cur = s.cur →
        ∀ i ∈ [Instr.mbox d a, .mboxTry d a], Claim.Ends s i 4
          (((t.modCore core (fun k => { k with mbox := rest })).setReg d (BitVec.ofNat 64 rest.length)).applyInbox (cluOf s.cur)))) ∧
    Claim.Ends s (.mboxSt d) 4 ((s.modCore core (fun k => { k with ovf := false })).setReg d
      (BitVec.ofNat 64 (box.length % 32 + (if (s.core core).ovf then 256 else 0))))

/-- The three together: `Claim.SyncWords`, `Claim.CopyQueueing` and `Claim.TicketsAndMailbox`.
Where the spec leaves the matter open it follows the model's choices and readings of logs 16, 25, 32, 33 and 52. -/
def Obligations.SyncWordsQueuesAndMailbox : Prop := Claim.SyncWords ∧ Claim.CopyQueueing ∧ Claim.TicketsAndMailbox

/-- 12 R254, R255, R261: an engine takes the slot at a queue's read index when it serves the queue and the slot is written: the slot's
KIND byte is zeroed, the index advances, and the packet becomes a card that starts in its turn; a slot that is not written, or of
another kind, stays. -/
def Claim.EnginesTakePackets : Prop :=
  ∀ (s : State) (eng p q : Nat) (h l : List Nat) (g : QReg), (s.part p).queues[q]? = some g → s.headerLoc p g.hdr = some h →
    s.slotLoc p g.hdr (s.queueLog h) (s.queueRd h) = some l → affinityTakes (s.part p) (s.queueAff h) eng = true →
    let kind := s.numIn l 0 1
    let r : BitVec 512 := BitVec.ofNat 512 (s.numIn l 0 64)
    let own := s.claims.find? (fun k => decide (k.part = p ∧ k.queue = g.hdr.toNat ∧ k.idx = s.queueRd h))
    let id := s.nextCard
    let card : CopyPk := {
      part := p, queue := g.hdr.toNat, slotPtr := slotPtrOf g.hdr (s.queueLog h) (s.queueRd h), owner := g.owner, eng := eng, pkt := r,
      issuer := own.map (fun k => (k.tid, k.ticket)), clu := own.map (·.clu), sup := own.any (·.sup), launch := own.bind (·.launch),
      tag := own.any (·.tag), foot := s.pkFoot p r }
    let t := (s.place {} [(l.headD 0, 0)]).place {} (((h.drop 8).take 8).zip (leBytes 8 ((s.queueRd h + 1) % 2 ^ 64)))
    let free : Prop := s.queueHeld h [l] = false
    let taken : State := { t with nextCard := id + 1, packets := SMap.put t.packets id card,
                                  claims := t.claims.filter (fun k => decide (some k ≠ own)) }
    let all : List (Nat × Instr) := [(1, .copy eng p q), (2, .gather eng p q), (3, .scatter eng p q), (4, .fill eng p q),
      (5, .reduce eng p q), (6, .halox eng p q), (9, .rcopy eng p q), (10, .notify eng p q)]
    (∀ e ∈ all, kind = 0 → exec e.2 s = .next s) ∧
    (∀ e ∈ all, e.1 ≠ 1 → kind ≠ e.1 → exec e.2 s = .next s) ∧
    (∀ e ∈ all, kind = e.1 → kind ≠ 0 → s.queueHeld h [l] = true → exec e.2 s = .next (s.askQueue h [l])) ∧
    (kind = 7 → bitOf (BitVec.ofNat 8 (s.queueKinds h)) 3 = true → exec (.copy eng p q) s = .next s) ∧
    (free → ∀ e ∈ all, e.1 ≠ 6 → kind = e.1 → kindAdmitted (s.queueKinds h) kind = true → exec e.2 s = .next (taken.startPk id)) ∧
    (free → kind = 6 → kindAdmitted (s.queueKinds h) kind = true →
      (∀ k, taken.pkCheck card = some k → exec (.halox eng p q) s = .next (taken.abandonPk id k)) ∧
      (∀ gid part, taken.pkCheck card = none → taken.haloxSpot card = some (gid, part) →
        exec (.halox eng p q) s = .next (({ taken with
            fills := SMap.put taken.fills taken.nextFill { grid := gid, dst := part, kind := 2, step := pkAux r, pk := some id },
            nextFill := taken.nextFill + 1 } : State).modPk id
          (fun c => { c with fill := some taken.nextFill, foot := taken.haloFoot (taken.grid gid) part (pkAux r) })))) ∧
    (free → kind = 10 ∨ kind = 1 → kindAdmitted (s.queueKinds h) kind = false →
      exec (if kind = 1 then .copy eng p q else .notify eng p q) s = .next (taken.abandonPk id Cause.copyPacketInvalid))

/-- 11 R248; 12 R261, R263: when a taken packet may start by the earlier cards of its queue: an abandoned card with an edge to it
abandons it with its own cause; an unfinished one with an edge, or any under FENCE, keeps it waiting. -/
def Claim.PacketsStartInTurn : Prop :=
  ∀ (s : State) (id : Nat),
    let c := s.pk id
    let me : Card := ⟨id, false, c.foot, none⟩
    let early := (s.cardsOf c.part c.queue).filter (fun k => decide (k.id < id))
    c.fate = none → c.started = false → pkKind c.pkt ≠ 6 →
    (∀ k cause, early.find? (fun k => k.fate.isSome && k.edge me) = some k → k.fate = some cause → s.startPk id = s.abandonPk id cause) ∧
    (early.find? (fun k => k.fate.isSome && k.edge me) = none →
      ((∃ k ∈ early, k.fate = none ∧ (pkFence c.pkt = true ∨ k.edge me = true)) → s.startPk id = s) ∧
      ((∀ k ∈ early, k.fate = none → pkFence c.pkt = false ∧ k.edge me = false) → ∀ cause, s.pkCheck c = some cause →
        s.startPk id = s.abandonPk id cause) ∧
      ((∀ k ∈ early, k.fate = none → pkFence c.pkt = false ∧ k.edge me = false) → s.pkCheck c = none → s.pkCount c.pkt = 0 →
        s.startPk id = s.modPk id (fun c => { c with started := true, moved := true }))) ∧
    (∀ a b : Card, (a.every = true ∨ b.every = true) → a.edge b = true) ∧
    (∀ a b : Card, a.every = false → b.every = false →
      (a.edge b = true ↔ ∃ x ∈ a.foot, ∃ y ∈ b.foot, x.space = y.space ∧ x.va < y.va + y.len ∧ y.va < x.va + x.len ∧
        (x.wr = true ∨ y.wr = true)))

/-- 12 R257; 17 R408; 03 R51: what one element's move writes, once the errors that the device can correct are corrected and the engine's
detector has seen its accesses: for COPY, GATHER and SCATTER the bytes at its source, for FILL the low bytes of srcptr,
for NOTIFY all eight, and for REDUCE the exact sum of its cell and the element; an address of an index list is a row. -/
def Claim.ElementsMove : Prop :=
  ∀ (s : State) (id k : Nat) (c : CopyPk) (i : Nat) (il src dst : List Nat),
    let r := c.pkt
    let g := pkEng s c
    let kind := pkKind r
    let seen (b : Bool) (p : Word) (u : State) : State := if b then u.engStream c.eng g p else u
    let noted (sl : List Nat) : State := seen true (s.pkDst r k i) (seen (decide (kind ≠ 4 ∧ kind ≠ 10)) (s.pkSrc r k i)
      (seen (decide (kind = 2 ∨ kind = 3)) (idxPtr r ((s.pkIndex r k).getD 1 0)) (s.correct (il ++ sl ++ if kind = 5 then dst else []))))
    let at_ (sl : List Nat) (v : List Byte) : State := (noted sl).place { key := some (pkKey id) } (dst.zip v)
    ((kind ≠ 2 ∧ kind ≠ 3 ∧ i = 0 ∧ il = []) ∨ ((kind = 2 ∨ kind = 3) ∧
      s.engAt g id (idxPtr r ((s.pkIndex r k).getD 1 0)) 4 needR false true = .ok il ∧ i = leNat (s.bytesAt il))) →
    s.engAt g id (s.pkDst r k i) (pkDstSize r) (pkDstNeed r) true (decide (kind = 5)) = .ok dst →
    (kind = 4 → s.moveOne id c k = .ok (at_ [] (leBytes (pkSize r) (pkSrcPtr r).toNat))) ∧
    (kind = 10 → s.moveOne id c k = .ok (at_ [] (leBytes 8 (pkSrcPtr r).toNat))) ∧
    (kind ≠ 4 → kind ≠ 10 → s.engAt g id (s.pkSrc r k i) (pkSize r) needR false true = .ok src →
      (kind ≠ 5 → s.moveOne id c k = .ok (at_ src (s.bytesAt src))) ∧
      (kind = 5 → ∀ w, xsAdd (BitVec.ofNat 512 (leNat (s.bytesAt dst))) (elemValue (pkAux r % 256) (leNat (s.bytesAt src))) (pkAux r % 256)
          = some w → s.moveOne id c k = .ok (at_ src (leBytes 64 w.toNat))))

/-- The three together: `Claim.EnginesTakePackets`, `Claim.PacketsStartInTurn` and `Claim.ElementsMove`. -/
def Claim.EnginesTakeAndMovePackets : Prop :=
  Claim.EnginesTakePackets ∧ Claim.PacketsStartInTurn ∧ Claim.ElementsMove

/-- 12 R259, R260, R262, R263, R269: the next element of a STREAM packet raises its watermark; a CLIP packet's message joins a mailbox
that holds fewer than 16, and is discarded with OVF and an event when the wait limit finds it full; a packet that is done arrives at
its sync word, ends its ticket and goes; a hold that outlasts the limit abandons its packet. -/
def Claim.PacketsEnd : Prop :=
  ∀ (s : State) (id : Nat),
    let c := s.pk id
    let k := clipCore c.pkt
    (c.started = true → pkStream c.pkt = true → c.fate = none → c.moved = false → c.hold = none → c.written < s.pkCount c.pkt →
      ∀ t, s.moveOne id c c.written = .ok t → ∃ u, exec (.watermarkAdvance id) s = .next u ∧ u.mem = t.mem ∧
        u.waters = t.waters.map (fun w => if w.pk = id then { w with w := (c.written + 1) * pkSize c.pkt } else w) ∧
        (u.pk id).written = c.written + 1 ∧ ((u.pk id).moved = true ↔ s.pkCount c.pkt ≤ c.written + 1)) ∧
    (pkStream c.pkt = false → exec (.watermarkAdvance id) s = .next s) ∧
    (c.fate = none → c.moved = true → pkClip c.pkt = true → c.posted = false →
      ((s.core k).mbox.length < 16 →
        exec (.mailboxPost id) s = .next ((s.modCore k (fun u => { u with mbox := u.mbox ++ [s.clipMessage c.pkt] })).modPk id
          (fun c => { c with posted := true })) ∧ exec (.mailboxTimeout id) s = .next s) ∧
      (16 ≤ (s.core k).mbox.length → exec (.mailboxPost id) s = .next s ∧
        ∃ u, exec (.mailboxTimeout id) s = .next u ∧ (u.core k).ovf = true ∧ (u.core k).mbox = (s.core k).mbox ∧ (u.pk id).posted = true ∧
          (u.ctx (16 * k)).held = insEvent { code := Cause.mailboxOverflow } (s.ctx (16 * k)).held ∧ u.mem = s.mem)) ∧
    (s.pkIdle id = false → exec (.copyPacketComplete id) s = .next s) ∧
    (∀ l, s.pkIdle id = true → pkSync c.pkt ≠ 0 → s.syncLoc (pkEng s c) (pkSync c.pkt) = some l → s.lockedFor (lineOf l) noCtx = true →
      exec (.copyPacketComplete id) s = .next (s.askWrite {} (lineOf l))) ∧
    (s.pkDone id = true → (∀ x ∈ s.launches, x.2.part ≠ c.part) →
      (pkSync c.pkt = 0 → ∃ u, exec (.copyPacketComplete id) s = .next u ∧ (∀ p ∈ u.packets, p.1 ≠ id) ∧ (∀ w ∈ u.waters, w.pk ≠ id) ∧
        u.mem = s.mem ∧ ∀ tid t, c.issuer = some (tid, t) → ∀ x, (u.ctx x).tid = tid → t ∉ (u.ctx x).tickets) ∧
      (∀ l, pkSync c.pkt ≠ 0 → s.syncLoc (pkEng s c) (pkSync c.pkt) = some l → (swArrive (s.peekN l 16) c.bytes).2 = false →
        ∃ u, exec (.copyPacketComplete id) s = .next u ∧ (∀ p ∈ u.packets, p.1 ≠ id) ∧
          u.mem = (s.placeN {} l 16 (swArrive (s.peekN l 16) c.bytes).1).mem)) ∧
    (c.hold = none → exec (.copyHoldTimeout id) s = .next s) ∧
    (∀ cause ptr, c.hold = some (cause, ptr) → (∀ x ∈ s.launches, x.2.part ≠ c.part) →
      exec (.copyHoldTimeout id) s = .next (s.abandonPk id cause)) ∧
    (c.fate = none → ∀ cause, (∀ w ∈ s.waters, w.pk = id → ∀ q ∈ s.packets, s.pkHeldOn q.1 w = false) →
      let u := s.abandonPk id cause
      (u.pk id).fate = some cause ∧ (u.pk id).pkt = c.pkt ∧ (u.pk id).foot = c.foot ∧ (∀ w ∈ u.waters, w.pk ≠ id) ∧ u.mem = s.mem ∧
        { code := cause, addr := c.slotPtr } ∈ (u.ctx c.owner).held)

/-- The two together: `Claim.EnginesTakeAndMovePackets` and `Claim.PacketsEnd`.
Where the spec leaves the matter open it follows the model's choices and readings of logs 6, 8, 11, 17, 18, 33 and 51. -/
def Obligations.PacketsMoveAndEnd : Prop := Claim.EnginesTakeAndMovePackets ∧ Claim.PacketsEnd

/-! ## Grids -/

/-- The checks of a grid instruction pass: the machine with its checked grid, the grid, the part, and the cell (13 R282). -/
def Claim.Opens (s : State) (ptr : Word) (need : Nat) (disp : Int) (u : State) (gid p : Nat) (l : Coord) : Prop :=
  (∀ go, s.gridOpen ptr need disp go = go u gid p l) ∧ u.cur = s.cur ∧ u.me = s.me

/-- The grid instruction ends in a fault whose check of the grid stands (13 R282). -/
def Claim.GridFaults (s u : State) (i : Instr) (c : Cause) (addr info : Word) : Prop :=
  exec i s = .next (u.takeFault s.cur { code := c, addr := addr, info := info })

/-- 13 R283, R284: a read of a cell at the step that its part or its band stands at, and what else it meets: a wait for the fill,
GRID_STALE with both steps, or a lost peer; a write of a cell at the next step, and at no other, which every thread of
the core can read before the count of its band's cells, or the tag that the last of them gives, says so. -/
def Claim.GridAccesses : Prop :=
  ∀ (s u : State) (gid p : Nat) (l : Coord) (d a b : Reg) (q : BitVec 32), Calm s →
    let ptr := s.me.reg a
    let n := (s.me.reg b).toNat
    let g := u.grid gid
    let bd := bandOf g.desc p l
    let sp := g.ptr (cellOff g.desc p (g.level n) (cellIdx g.desc l))
    let stale (v : Nat) : Word := BitVec.ofNat 64 (n + v * 2 ^ 32)
    (2 ^ 32 - 1 ≤ n → Claim.Faults s (.gld d a b q) Cause.reservedBits 0 0 ∧ Claim.Faults s (.gst d a b q) Cause.reservedBits 0 0) ∧
    (n < 2 ^ 32 - 1 → Claim.Opens s ptr needR q.toInt u gid p l →
      let reads (v : State) : Prop := ∀ segs keep, Claim.Reaches v sp (dSize g.desc) needR 1 .plain false true segs keep →
        v.readsHeld (cluOf s.cur) (v.fetched s.cur (spanAll segs)) = false →
        ∃ t w : State, (w = v ∨ w = v.applyInbox (cluOf s.cur)) ∧ exec (.gld d a b q) s = .next t ∧
          Claim.Loads v t 12 d (placeCode (dFmt g.desc) (leNat ((spanAll segs).map (w.viewByte s.cur))))
      (bd = none → (g.step p = some n → reads u) ∧
        (g.step p ≠ some n → Claim.GridFaults s u (.gld d a b q) Cause.gridStale ptr (stale ((g.step p).getD (2 ^ 32 - 1))))) ∧
      (∀ w, bd = some w →
        (u.bandDecide gid p w n = .read → reads (if g.bandPeer p w then u.acquire s.cur 3 else u.acquire s.cur 2)) ∧
        (u.bandDecide gid p w n = .wait → exec (.gld d a b q) s = .next (u.block s.cur (.grid gid) 12)) ∧
        (∀ v, u.bandDecide gid p w n = .stale v → Claim.GridFaults s u (.gld d a b q) Cause.gridStale ptr (stale v)) ∧
        (∀ c, u.bandDecide gid p w n = .lost c → Claim.GridFaults s u (.gld d a b q) Cause.haloPeerLost ptr (c.setWidth 64)))) ∧
    (n < 2 ^ 32 - 1 → Claim.Opens s ptr needW q.toInt u gid p l →
      let lv := g.level n
      ((∀ m, g.step p = some m → n ≠ m + 1) →
        (bd = none → Claim.GridFaults s u (.gst d a b q) Cause.gridStale ptr (stale ((g.step p).getD (2 ^ 32 - 1)))) ∧
        (∀ w, bd = some w → Claim.GridFaults s u (.gst d a b q) Cause.gridStale ptr (stale ((g.band p w lv).tag.getD (2 ^ 32 - 1))))) ∧
      (∀ m, g.step p = some m → n = m + 1 → ∀ segs keep,
        Claim.Reaches (u.coreStream sp).2 sp (dSize g.desc) needW 1 .plain true false segs keep →
        ∀ v, (u.coreStream sp).2.release u.cur 0 = (v, true) →
        let t := v.coreWrite v.cur (lineOf ((spanAll segs).headD 0)) ((spanAll segs).zip (leBytes (dSize g.desc) (s.me.reg d).toNat))
          (keep && !(u.coreStream sp).1)
        (bd = none → Claim.Ends s (.gst d a b q) 12 t) ∧
        (∀ w, bd = some w → isRuleBand g.desc p w = false → g.full n = false → u.fillsInto gid p false lv = [] →
          Claim.Ends s (.gst d a b q) 12 (t.modGrid gid (fun g => { g with
            bands := SMap.put g.bands (bandKey p w lv) ((g.band p w lv).count n (bandCells g.desc p w).length) })))) ∧
      (∀ m w, g.step p = some m → n = m + 1 → bd = some w → isRuleBand g.desc p w = false → g.full n = false →
        let into := u.fillsInto gid p false lv
        let here (f : HFill) : Option Cause := (f.gone.find? (fun e => decide (g.level e.1 = lv))).map (·.2)
        (∀ c, into.findSome? here = some c → Claim.GridFaults s u (.gst d a b q) Cause.haloPeerLost ptr (c.setWidth 64)) ∧
        (into ≠ [] → (∀ f ∈ into, here f = none) → exec (.gst d a b q) s = .next (u.block s.cur (.grid gid) 12))) ∧
      (∀ m w, g.step p = some m → n = m + 1 → bd = some w → (isRuleBand g.desc p w = true ∨ g.full n = true) →
        Claim.GridFaults s u (.gst d a b q) Cause.handlePerm ptr 0))

/-- 13 R286, R287: a part is bound at the grid's first step and published step by step; the waits for a step's bands and for the fills
that read a part. -/
def Claim.GridSteps : Prop :=
  ∀ (s u : State) (gid p : Nat) (l : Coord) (a b : Reg), Calm s →
    let ptr := s.me.reg a
    let n := (s.me.reg b).toNat
    let g := u.grid gid
    let stale : Word := BitVec.ofNat 64 (n + (g.step p).getD (2 ^ 32 - 1) * 2 ^ 32)
    (2 ^ 32 - 1 ≤ n → ∀ i ∈ [Instr.gstep a b, .gwait a b, .gwaitOut a b], Claim.Faults s i Cause.reservedBits 0 0) ∧
    (n < 2 ^ 32 - 1 → Claim.Opens s ptr needR 0 u gid p l →
      let scope := if g.peerNear p then 3 else 2
      let before : Int := (n : Int) + 1 - dLevels g.desc
      (g.step p = none → n ≠ dStep0 g.desc → Claim.GridFaults s u (.gstep a b) Cause.gridStale ptr stale) ∧
      (∀ m, g.step p = some m → n ≠ m → n ≠ m + 1 → Claim.GridFaults s u (.gstep a b) Cause.gridStale ptr stale) ∧
      (g.step p = some n → u.outFills gid p before = .ok true → Claim.Ends s (.gstep a b) 12 u) ∧
      (g.step p = some n → u.outFills gid p before = .ok false → exec (.gstep a b) s = .next (u.block s.cur (.grid gid) 12)) ∧
      (∀ v, u.release s.cur scope = (v, true) → v.cur = s.cur →
        (∀ m, g.step p = some m → n = m + 1 → v.grid gid = g →
          let t := v.publishStep gid p n
          (t.outFills gid p ((n : Int) + 1 - dLevels (t.grid gid).desc) = .ok true → Claim.Ends s (.gstep a b) 12 t) ∧
          (t.grid gid).step p = some n ∧ t.mem = v.mem) ∧
        (g.step p = none → n = dStep0 g.desc → v.grid gid = g →
          let t := ((v.modGrid gid (fun g => { g with claimed := SMap.put g.claimed p (coreOf s.cur) })).bindFills gid p).publishStep gid p n
          (t.outFills gid p ((n : Int) + 1 - dLevels (t.grid gid).desc) = .ok true → Claim.Ends s (.gstep a b) 12 t) ∧
          (t.grid gid).step p = some n)) ∧
      (let bands := (bandsOf g.desc).filter (fun w => (g.full n || isRuleBand g.desc p w) && !(bandCells g.desc p w).isEmpty)
       ((∀ w ∈ bands, u.bandDecide gid p w n = .read) → Claim.Ends s (.gwait a b) 12 (u.applyInbox (cluOf s.cur))) ∧
       ((∀ w ∈ bands, u.bandDecide gid p w n = .read ∨ u.bandDecide gid p w n = .wait) → (∃ w ∈ bands, u.bandDecide gid p w n = .wait) →
         exec (.gwait a b) s = .next (u.block s.cur (.grid gid) 12))) ∧
      (u.outFills gid p n = .ok true → Claim.Ends s (.gwaitOut a b) 12 u) ∧
      (u.outFills gid p n = .ok false → exec (.gwaitOut a b) s = .next (u.block s.cur (.grid gid) 12)) ∧
      (∀ c, u.outFills gid p n = .error c → Claim.GridFaults s u (.gwaitOut a b) Cause.haloPeerLost ptr (c.setWidth 64)))

/-- 13 R281, R290: an abandoned fill keeps its step and cause; the record ends with it, unless its next step lies at a level into
which no fill has been abandoned: then it goes on there. -/
def Claim.abandoned (g : GridSt) (f : HFill) (cause : Cause) : HFill :=
  let gone := f.gone ++ [(f.step, cause)]
  let next := f.step + (if f.kind = 1 then 1 else dDepth g.desc)
  if f.kind ≠ 2 ∧ ∀ e ∈ gone, g.level e.1 ≠ g.level next then
    { f with gone := gone, remote := [], started := false, left := 0, step := next }
  else { f with gone := gone, lost := some cause, remote := [] }

/-- 13 R281, R290: where a fill starts, completes and is abandoned, and where a published step arrives. -/
def Claim.FillsComplete : Prop :=
  ∀ (s : State) (k : Nat) (cause : BitVec 6) (m : Msg) (p gid t : Nat),
    let f := s.hfill k
    let g := s.grid f.grid
    (f.pk = none → f.heldOn = none → s.fillReady k = true → g.peers f.dst = false →
      ∃ u, exec (.haloFillStart k) s = .next u ∧ (u.hfill k).started = true ∧ u.mem = s.mem) ∧
    (f.pk = none → f.heldOn = none → f.started = true → f.lost = none → f.left = 0 → g.peers f.dst = false → f.kind ≠ 2 →
      ∀ cells v, s.nearCells g f = .ok cells → (s.fillCorrect g f).putFill k g f cells = .ok v →
      ∃ u, exec (.haloFillComplete k) s = .next u ∧ (u.hfill k).started = false ∧ u.mem = v.mem ∧
        ∀ b ∈ g.fillBands f, ((u.grid f.grid).band f.dst b (g.level f.step)).tag = some f.step) ∧
    ((∃ q ∈ s.fills, q.1 = k) → f.lost = none → f.pk = none →
      ∃ u, exec (.haloFillAbandon k cause) s = .next u ∧ u.hfill k = Claim.abandoned g f cause ∧ u.mem = s.mem) ∧
    (s.msgAt m.id = some m → m.body = .sigma p gid t →
      ∃ u, exec (.sigmaUpdate m.id) s = .next u ∧ u.net = s.net.erase m ∧ SMap.at 0 (u.grid gid).known p = max t (SMap.at 0 (s.grid gid).known p))

/-- The three together: `Claim.GridAccesses`, `Claim.GridSteps` and `Claim.FillsComplete`.
Where the spec leaves the matter open it follows the model's choices and readings of logs 34 and 62. -/
def Obligations.GridInstructions : Prop := Claim.GridAccesses ∧ Claim.GridSteps ∧ Claim.FillsComplete

/-- 13 R281, R290: a fill starts when its conditions hold; when every cell that peers push has come, it writes the cells of its own
package, tags its bands with its step and moves on; a fill whose peer is lost keeps the cause; a published step reaches the
neighbours' engines. Where the spec leaves the matter open it follows the model's choices and readings of logs 34 and 62. -/
def Obligations.HaloFills : Prop :=
  ∀ (s : State) (k : Nat) (cause : BitVec 6) (m : Msg),
    let f := s.hfill k
    let g := s.grid f.grid
    let there := ∃ q ∈ s.fills, q.1 = k
    let mine := (g.cellsOf f).filter (fun l => !g.fromPeer f.dst l)
    (f.pk = none → s.fillReady k = false → exec (.haloFillStart k) s = .next s) ∧
    (f.pk = none → s.fillReady k = true → f.heldOn = none → g.peers f.dst = false → ∃ t, exec (.haloFillStart k) s = .next t ∧ (t.hfill k).started = true ∧
      (t.hfill k).left = ((g.cellsOf f).filter (fun l => g.fromPeer f.dst l)).length ∧ t.mem = s.mem) ∧
    (f.pk = none → s.fillReady k = true → ∀ id, f.heldOn = some id → (s.pk id).fate ≠ none →
      exec (.haloFillStart k) s = .next (s.abandonFill k Cause.watermarkRange)) ∧
    (f.pk = none → s.fillReady k = true → f.heldOn = none → g.peers f.dst = true → (∀ l ∈ mine, ∃ v, s.fillValue g f l = .ok v) →
      exec (.haloFillStart k) s = .next ((s.fillCorrect g f).modFill k (fun f => { f with started := true, remote := s.pushes g f }))) ∧
    (∀ id, f.pk = some id → s.haloxTurn f = .ok false → exec (.haloFillStart k) s = .next s) ∧
    ((f.started = false ∨ f.lost ≠ none ∨ f.left ≠ 0) → exec (.haloFillComplete k) s = .next s) ∧
    (f.started = true → f.lost = none → f.left = 0 → g.peers f.dst = false → f.pk = none → f.kind ≠ 2 → f.heldOn = none →
      ∀ val : Coord → Nat, (∀ l ∈ mine, s.fillValue g f l = .ok (val l)) →
      let put := (s.fillCorrect g f).putFill k g f (mine.map (fun l => (cellIdx g.desc l, val l)))
      (∀ ls, put = .error (.held ls) → ∃ t, exec (.haloFillComplete k) s = .next t ∧ t.mem = s.mem ∧ (t.grid f.grid).bands = g.bands) ∧
      (∀ v, put = .ok v → ∃ t, exec (.haloFillComplete k) s = .next t ∧ t.mem = v.mem ∧
        (t.hfill k).step = f.step + (if f.kind = 1 then 1 else dDepth g.desc) ∧ (t.hfill k).started = false ∧
        ((t.hfill k).lost ≠ none ↔ ∃ e ∈ f.gone, g.level e.1 = g.level (t.hfill k).step) ∧
        ∀ b ∈ g.fillBands f, ((t.grid f.grid).band f.dst b (g.level f.step)).tag = some f.step)) ∧
    (there → f.lost = none → f.pk = none →
      exec (.haloFillAbandon k cause) s = .next (s.modFill k (fun f => Claim.abandoned g f cause))) ∧
    (there → f.lost = none → ∀ id, f.pk = some id →
      exec (.haloFillAbandon k cause) s = .next ((s.modFill k (fun f => Claim.abandoned g f cause)).abandonPk id Cause.haloPeerLost)) ∧
    (∀ p gid t, s.msgAt m.id = some m → m.body = .sigma p gid t →
      exec (.sigmaUpdate m.id) s = .next ((s.takeMsg m).modGrid gid (fun g => { g with known := SMap.put g.known p (max t (SMap.at 0 g.known p)) })))

/-! ## Launches -/

/-- 15 R325, R330, R332: the scheduler takes the two slots at a queue's read index when both are written and the first is a launch; it
checks the packet, and abandons it with the offset of its first bad field, or keeps it as a waiting launch. -/
def Claim.LaunchTaking : Prop :=
  ∀ (s : State) (p q : Nat) (h a b : List Nat) (g : QReg), (s.part p).queues[q]? = some g → s.headerLoc p g.hdr = some h →
    let lg := s.queueLog h
    let i := s.queueRd h
    s.slotLoc p g.hdr lg i = some a → s.slotLoc p g.hdr lg (i + 1) = some b →
    let ok := bitOf (BitVec.ofNat 8 (s.queueKinds h)) 3 = true ∧ s.numIn a 0 1 = 7 ∧ s.numIn b 0 1 ≠ 0
    let r : LPkt := BitVec.ofNat 1024 (s.numIn a 0 64 + s.numIn b 0 64 * 2 ^ 512)
    let foot := s.launchList p (r.ptr 40) (r.at 48 4)
    let feed := s.launchList p (r.ptr 104) (r.at 112 1)
    let taken (f : List (List Byte)) : State :=
      let t := ((s.place {} [(a.headD 0, 0)]).place {} [(b.headD 0, 0)]).place {} (((h.drop 8).take 8).zip (leBytes 8 ((i + 2) % 2 ^ 64)))
      let x : Launch := { part := p, queue := g.hdr.toNat, slotIdx := i, slotPtr := slotPtrOf g.hdr lg i, pkt := r, foot := s.launchFoot p f }
      { t with nextCard := s.nextCard + 1, launches := SMap.put t.launches s.nextCard x }
    (¬ ok → exec (.launch p q) s = .next (s.readyLaunches p)) ∧
    (ok → s.queueHeld h [a, b] = true → exec (.launch p q) s = .next ((s.askQueue h [a, b]).readyLaunches p)) ∧
    (ok → s.queueHeld h [a, b] = false → ∀ f e, foot = .ok f → feed = .ok e →
      (∀ o, s.launchBad p r = some o → exec (.launch p q) s =
        .next (((taken f).abandonLaunch s.nextCard Cause.copyPacketInvalid (BitVec.ofNat 64 o)).readyLaunches p)) ∧
      (s.launchBad p r = none → ((taken f).part p).traceMode = 0 → exec (.launch p q) s =
        .next (((taken f).modLaunch s.nextCard (fun x =>
          { x with replay := 0, lcnt := 0, feeders := e.map (s.feederKey p) })).readyLaunches p)))

/-- 15 R332; 05 R69: a waiting launch becomes ready when no earlier card of its queue holds it (one that lists no ranges declares every
byte); its code, its shape record and its arguments are memory as it then stands. -/
def Claim.LaunchesBecomeReady : Prop :=
  ∀ (s : State) (l : Nat),
    let x := s.launch l
    let me : Card := ⟨l, decide (bitsAt x.pkt 384 32 = 0), x.foot, none⟩
    let early := (s.cardsOf x.part x.queue).filter (fun k => decide (k.id < l))
    (x.st ≠ .waiting → s.tryReady l = s) ∧
    (x.st = .waiting → early.find? (fun k => k.fate.isSome && k.edge me) = none →
      ((∃ k ∈ early, k.fate = none ∧ (LPkt.fence x.pkt = true ∨ k.edge me = true)) → s.tryReady l = s) ∧
      ((∀ k ∈ early, k.fate = none → LPkt.fence x.pkt = false ∧ k.edge me = false) → LPkt.reactive x.pkt = false →
        s.tryReady l = s.modLaunch l (fun x =>
          { x with st := .ready, readyAt := s.refCycle, code := some s.mem, dom := none,
                   shape := s.record256 x.part (LPkt.ptr x.pkt 80), args := s.record256 x.part (LPkt.ptr x.pkt 16) }))) ∧
    (∀ k c, x.st = .waiting → early.find? (fun k => k.fate.isSome && k.edge me) = some k → k.fate = some c →
      s.tryReady l = s.abandonLaunch l c 0)

/-- 15 R333 to R337; 02 R19 to R24: the first launch in the order of the offers that places its next block at a core takes it there; every
context of the block starts with its registers zero, its entry, its WID and its binding. -/
def Claim.BlocksStart : Prop :=
  ∀ (s : State) (p core l : Nat),
    let x := s.launch l
    let r : LPkt := x.pkt
    let b := x.nextBlock
    ((∀ k ∈ s.offers p, s.dispatchTo k core = none) → exec (.blockDispatch p core) s = .next s) ∧
    (∀ rest k, s.offers p = l :: rest → x.replay = 0 → s.nextPlace l = some (core, k) →
      exec (.blockDispatch p core) s = .next (s.startBlock l core)) ∧
    (∀ k, (s.coreFits x.part x.pkt (4 * k + r.coreIdx b % 4) = true → s.placeCore l b k = some (4 * k + r.coreIdx b % 4)) ∧
      (∀ c, s.coreFits x.part x.pkt (4 * k + r.coreIdx b % 4) = false → s.placeCore l b k = some c →
        s.coreFits x.part x.pkt c = true ∧ 4 * k ≤ c ∧ c < 4 * k + 4 ∧ ∀ d, 4 * k ≤ d → d < c → s.coreFits x.part x.pkt d = false)) ∧
    (r.reactive = false → 1 ≤ r.ctxs → r.ctxs ≤ 15 → (s.core core).engHeld = [] → (s.clu (core / 4)).bankHeld = [] →
      (∀ c < r.ctxs, (s.chan (16 * core + c)).waiting = []) →
      let u := s.startBlock l core
      (∀ c < r.ctxs,
        let y := u.ctx (16 * core + c)
        y.slot = .ready ∧ y.pc = r.ptr 8 ∧ y.wid = r.wid b c ∧ (∀ k, y.reg k = 0) ∧ y.tags = 0 ∧
          y.sta = { bind := bindField (r.bindOf c), port := portField (r.bindOf c) } ∧ y.launch = some l ∧ y.block = b ∧ y.part = x.part ∧
          y.role = .outside ∧ u.chan (16 * core + c) = { stream := (s.chan (16 * core + c)).stream }) ∧
      (∀ j, 1 ≤ j → (u.core core).reapOf j = if j < r.ctxs then .live else .absent) ∧
      (u.core core).running = true ∧ (u.core core).launch = some l ∧ (u.core core).block = b ∧ (u.core core).sems = [] ∧
      (u.launch l).nextBlock = b + 1 ∧ (u.launch l).cores = x.cores ++ [core] ∧ (u.launch l).st = .running ∧ u.mem = s.mem)

/-- 15 R333, R338; 10 R214: the whole epochs since it became ready count for every launch that waits to be placed; a launch that is done publishes its writes,
arrives at its sync word and is complete. -/
def Claim.EpochsAndCompletion : Prop :=
  ∀ (s : State) (p l : Nat),
    let x := s.launch l
    let r : LPkt := x.pkt
    let t := (s.publishClusters x.clus).dropGrids (some l)
    let end_ (u : State) : State := (u.modLaunch l (fun x => { x with st := .complete, code := none })).readyLaunches x.part
    exec (.schedulerEpoch p) s = .next { s with launches := s.launches.map (fun y =>
      (y.1, if y.2.part = p ∧ (y.2.st = .ready ∨ y.2.st = .running) ∧ y.2.nextBlock < LPkt.blocks y.2.pkt then
        { y.2 with epochs := (s.refCycle - y.2.readyAt) / 940000 } else y.2)) } ∧
    (s.launchDone l = false → exec (.launchComplete l) s = .next s) ∧
    (s.launchDone l = true → s.clustersHeld x.clus = true → exec (.launchComplete l) s = .next (s.askClusters x.clus)) ∧
    (s.launchDone l = true → s.clustersHeld x.clus = false → (∀ b, s.launchSync l = some b → s.lockedFor (lineOf b) noCtx = false) →
      (r.ptr 24 = 0 → exec (.launchComplete l) s = .next (end_ t)) ∧
      (∀ a, r.ptr 24 ≠ 0 → t.syncLoc { clu := t.firstClu x.part, part := x.part, sup := false } (r.ptr 24) = some a →
        exec (.launchComplete l) s = .next (end_ (t.placeN {} a 16 (swArrive (t.peekN a 16) 64).1)))) ∧
    (s.launchDone l = true ↔ (x.st = .ready ∨ x.st = .running) ∧ LPkt.blocks r ≤ x.ended ∧ (∀ d, x.dom = some d → d.ended.isSome = true) ∧
      s.gridBusy (some l) = false)

/-- The four together: `Claim.LaunchTaking`, `Claim.LaunchesBecomeReady`, `Claim.BlocksStart` and `Claim.EpochsAndCompletion`.
Where the spec leaves the matter open it follows the model's choices and readings of logs 21, 23, 49 and 57. -/
def Obligations.Launches : Prop :=
  Claim.LaunchTaking ∧ Claim.LaunchesBecomeReady ∧ Claim.BlocksStart ∧ Claim.EpochsAndCompletion

/-! ## Waits -/

/-- 02 R32; 10 R216, R226, R231; 03 R51; 17 R416: the awaited tag makes a BLOCKED context READY, with the reply's registers and flags,
its fault, or its instruction to issue again; a request that waited for its place is performed there as its instruction says; a
full-empty request arrives again or reaches its limit; a lock and an idle stream end; an unmatched replay record turns replay off.
Where the spec leaves the matter open it follows the model's choices and readings of logs 5, 8 and 39. -/
def Obligations.WaitsEnd : Prop :=
  ∀ (s : State) (c line unit k p : Nat),
    let x := s.ctx c
    let up : Ctx := { x with slot := .ready, wait := none, readyFrom := s.acycle x.part + 1 }
    (x.wait = none ∨ (s.clu (cluOf c)).recal = true → exec (.tagArrival c) s = .next s) ∧
    (∀ w r, (s.clu (cluOf c)).recal = false → x.wait = some w → w.reply = some r →
      (∀ e, r.exc = some e → exec (.tagArrival c) s = .next ((s.setCtx c up).takeFault c e)) ∧
      (r.exc = none → r.again = true → exec (.tagArrival c) s = .next (s.setCtx c up)) ∧
      (r.exc = none → r.again = false → r.tagged = none → r.pc = none → (x.sta.ss = false ∨ x.sta.sup = true) → x.traced = none →
        x.dueTrap = none →
        let t := s.setCtx c ((up.setRegs r.writes).raise r.flags)
        exec (.tagArrival c) s = .next ((if r.acq then t.applyInbox (cluOf c) else t).modCtx c (fun y =>
          { y with pc := x.pc + BitVec.ofNat 64 w.len })))) ∧
    (∀ w, (s.clu (cluOf c)).recal = false → x.wait = some w → w.reply = none →
      (s.canGo c w.why = false → exec (.tagArrival c) s = .next s) ∧
      ((∀ code e, w.why ≠ .lost code e) → s.canGo c w.why = true →
        (x.heldFault = none → exec (.tagArrival c) s = .next (s.setCtx c up)) ∧
        (∀ e, x.heldFault = some e → exec (.tagArrival c) s =
          .next (((s.setCtx c up).modCtx c (fun y => { y with heldFault := none })).takeFault c e))) ∧
      (∀ code e, w.why = .lost code e → s.heldBack c 2 (entriesOf x.buf) = false →
        exec (.tagArrival c) s = .next ((s.drainAll c).endLost c code e))) ∧
    (∀ l len i, x.slot = .blocked → x.wait = some { why := .place l, len := len, reply := none } → s.nextInstr c = .ok i →
      (placeBody i).isSome = true → exec (.atomicAtPlace c) s = exec i (({ s with cur := c } : State).modCtx c (fun x =>
        { x with slot := .ready, wait := none }))) ∧
    (s.feWaiting c = none → (∀ q ∈ s.clus, q.2.retry = []) → exec (.feResend c) s = .next s ∧ exec (.feLimit c) s = .next s) ∧
    (∀ m scp d a q l, s.feWaiting c = some (m, scp, d, a, q, l) →
      let home := s.placeClu l
      let load := decide (m = .read ∨ m = .take)
      let req : FeReq := { ctx := c, loc := l, mode := m, data := x.reg d, reg := if load then d else 0, tag := s.phaseOf c }
      exec (.feLimit c) s = .next ((s.modClu home (fun u =>
        { u with retry := u.retry.filter (fun r => !(decide (r.ctx = c) && r.remote.isNone)) })).giveReply c
          { exc := some { code := Cause.feLimit, addr := x.reg a + dispW 8 q } }) ∧
      (s.inRetry c l = true → (∀ r ∈ (s.clu home).retry, s.mustLog r = false) → exec (.feResend c) s = .next s) ∧
      (s.inRetry c l = false → m.ready (s.isFull l) = false →
        exec (.feResend c) s = .next (if (s.clu home).retry.length < 256 then s.modClu home (fun u => { u with retry := u.retry ++ [req] }) else s)) ∧
      (s.inRetry c l = false → m.ready (s.isFull l) = true → (m ≠ .read → s.lockedFor (lineOf l) c = false) → s.bankBusy l = false →
        s.channelBusy l = false → s.mustLog req = false →
        let done := s.fePerform (writerOf c) l m (x.reg d)
        exec (.feResend c) s = .next (((done.2.serveWords [l]).placeReply (cluOf c) (lineOf l) [l]).giveReply c { writes := if load then [(d, done.1)] else [], acq := load }))) ∧
    ((s.dirAt line).lock = none → (∀ q, (s.dirAt line).lrq.head? = some q → q ≤ noCtx) → exec (.lrLockExpiry line) s = .next s) ∧
    (∀ q rest, (s.dirAt line).lock = none → (s.dirAt line).lrq = q :: rest → noCtx < q →
      exec (.lrLockExpiry line) s = .next (s.modDir line (fun d => { d with lrq := rest }))) ∧
    ((s.dirAt line).lock ≠ none → exec (.lrLockExpiry line) s = .next ((s.modDir line (fun d => { d with lock := none })).serveWords
      (span (line * 128) 128))) ∧
    (unit < 2048 → ∀ t, (s.core unit).detectors[k]? = some t →
      exec (.streamIdleEnd unit k) s = .next (s.modCore unit (fun u =>
        { u with detectors := if t.last + 1024 ≤ s.unitCycle unit then u.detectors.erase t else u.detectors }))) ∧
    (2048 ≤ unit → unit < 4096 → ∀ t, (s.mat (unit - 2048)).detectors[k]? = some t →
      exec (.streamIdleEnd unit k) s = .next (s.modMat (unit - 2048) (fun u =>
        { u with detectors := if t.last + 1024 ≤ s.unitCycle unit then u.detectors.erase t else u.detectors }))) ∧
    (4096 ≤ unit → ∀ t, (SMap.at [] s.engDet (unit - 4096))[k]? = some t →
      let l := SMap.at [] s.engDet (unit - 4096)
      let rest := if t.last + 1024 ≤ s.unitCycle unit then l.erase t else l
      exec (.streamIdleEnd unit k) s = .next { s with engDet := SMap.put s.engDet (unit - 4096) rest }) ∧
    (s.readRecord p = none → exec (.replayWaitTimeout p) s = .next s) ∧
    (∀ i r l y, s.readRecord p = some (i, r) →
      s.launches.find? (fun l => decide (l.2.part = p ∧ l.2.replay = 2 ∧ l.2.lcnt % 2 ^ 16 = bitsAt r 16 16)) = some (l, y) →
      exec (.replayWaitTimeout p) s = .next (((s.modPart p (fun q => { q with trace := q.trace ||| 0x80 })).raiseService p
        { code := Cause.replayDivergence, info := BitVec.ofNat 64 i }).modLaunch l (fun y => { y with replay := 0 }))) ∧
    (∀ i r, s.readRecord p = some (i, r) →
      s.launches.find? (fun l => decide (l.2.part = p ∧ l.2.replay = 2 ∧ l.2.lcnt % 2 ^ 16 = bitsAt r 16 16)) = none →
      exec (.replayWaitTimeout p) s = .next ((s.modPart p (fun q => { q with trace := q.trace ||| 0x80 })).raiseService p
        { code := Cause.replayDivergence, info := BitVec.ofNat 64 i }))

/-! ## Banks and FIFO ports -/

/-- 03 R44, R45, R46: a store to `BANKMODE` starts the change of the banks whose field it changes, and changes nothing when a field is
0b11; when the change ends the bank's bytes are zero and full, and accesses that wait at its port fault; a FIFO bank takes and gives
words in order, and serves those who wait first.
Where the spec leaves the matter open it follows the model's choices and readings of log 15. -/
def Obligations.BanksAndFifos : Prop :=
  ∀ (s : State) (k b : Nat) (v : Word), b < 32 →
    let u := s.clu k
    let locs (l : Nat) : Prop := sramLoc k b 0 ≤ l ∧ l < sramLoc k b 0 + 65536
    ((∃ j < 32, bitsAt v (2 * j) 2 = 3) → exec (.bankmodeWrite k v) s = .next s) ∧
    ((∀ j < 32, bitsAt v (2 * j) 2 ≠ 3) → ∃ t, exec (.bankmodeWrite k v) s = .next t ∧ (t.clu k).bankmode = v ∧
      ((∀ h ∈ u.bankHeld, u.mode h.bank = bitsAt v (2 * h.bank) 2) → t.mem = s.mem) ∧
      ((t.clu k).busyBank b = true ↔ u.busyBank b = true ∨ u.mode b ≠ bitsAt v (2 * b) 2)) ∧
    (u.busyBank b = false → exec (.bankModeChangeDone k b) s = .next s) ∧
    (u.busyBank b = true →
      let old := SMap.at (u.mode b) u.pend b
      (old = u.mode b → u.waiters b = [] → u.retry = [] → ∃ t, exec (.bankModeChangeDone k b) s = .next t ∧ (t.clu k).busyBank b = false ∧
        (t.clu k).bankmode = u.bankmode ∧ (t.clu k).words b = u.words b ∧ t.mem = s.mem ∧ t.empties = s.empties) ∧
      (WellKept s → old ≠ u.mode b → old ≠ 0 → (u.mode b = 2 → u.waiters b = []) → u.retry = [] → ∃ t, exec (.bankModeChangeDone k b) s = .next t ∧ (t.clu k).busyBank b = false ∧
        (t.clu k).bankmode = u.bankmode ∧ (t.clu k).words b = [] ∧ (∀ l, locs l → t.mem.read l = 0 ∧ t.isFull l = true ∧ hasNat t.mtags (l / 16) = false) ∧
        (∀ l, ¬ locs l → t.mem.read l = s.mem.read l ∧ t.isFull l = s.isFull l) ∧
        (old = 2 → ∀ w ∈ u.waiters b, (t.ctx w.1).wait = (s.ctx w.1).wait.map (fun y =>
          { y with reply := some { exc := some { code := Cause.handleBounds, addr := BitVec.ofNat 64 (2 * 2 ^ 52 + 0xD00 + 8 * b) } } })))) ∧
    (u.canPush b = false → exec (.fifoPush k b v) s = .next s) ∧
    (u.canPush b = true →
      (u.waiters b = [] → exec (.fifoPush k b v) s = .next (s.modClu k (fun k => { k with fifo := SMap.put k.fifo b (u.words b ++ [v]) }))) ∧
      (∀ c d rest, u.waiters b = (c, d, none) :: rest → u.words b = [] → (s.ctx c).vpart = none → ∃ t, exec (.fifoPush k b v) s = .next t ∧ (t.clu k).words b = [] ∧
        (t.clu k).waiters b = rest ∧ (t.ctx c).wait = (s.ctx c).wait.map (fun y => { y with reply := some { writes := [(d, v)] } }) ∧
        t.mem = s.mem)) ∧
    (u.canPop b = false → exec (.fifoPop k b) s = .next s) ∧
    (u.canPop b = true →
      (u.waiters b = [] → exec (.fifoPop k b) s = .next (s.modClu k (fun k => { k with fifo := SMap.put k.fifo b ((u.words b).drop 1) }))) ∧
      (∀ c d w rest, u.waiters b = (c, d, some w) :: rest → (u.words b).length = 8192 → (s.ctx c).vpart = none → ∃ t, exec (.fifoPop k b) s = .next t ∧
        (t.clu k).words b = (u.words b).drop 1 ++ [w] ∧ (t.clu k).waiters b = rest ∧
        (t.ctx c).wait = (s.ctx c).wait.map (fun y => { y with reply := some {} }) ∧ t.mem = s.mem)) ∧
    (u.canPush b = true ↔ u.mode b = 2 ∧ u.busyBank b = false ∧ (u.words b).length < 8192 ∧ ∀ w ∈ u.waiters b, w.2.2 = none)

/-! ## Walks, events and soft errors -/

/-- 16 R373, R374; 17 R394, R395, R408 to R410: a walk that ends caches its translation, a failed one nothing; an event is delivered to a
context that can take it, at its next instruction or at the one it waits in; a handler that runs too long is reported once; the scrubber
turns an uncorrectable error into poison; lost control state ends its context with code 253. -/
def Claim.WalksEventsAndErrors : Prop :=
  ∀ (s : State) (k p va c g : Nat) (host : Bool),
    let x := s.ctx c
    (let v := s.correct (s.walkReads k p va)
     let from_ := v.walkStart (dieOfUnit k) p va
     ((∀ e ∈ s.walks, e.part ≠ p) → v.walkFor k p va = v.walkFrom p va 5 0 (s.part p).ptroot.toNat) ∧
     (∀ e, v.walkFor k p va = .error e → exec (.pageWalk k p host va) s = .next v) ∧
     (∀ leaf sh, v.walkFor k p va = .ok (leaf, sh) →
      (host = true ∨ leaf.toNat % 2 ^ 52 / 2 ^ 8 * 2 ^ 8 + va % 2 ^ sh < dramLimit (s.part p)) →
      (va < (s.part p).htbase.toNat ∨ (s.part p).htbase.toNat + 32 * (s.part p).htlen.toNat ≤ va) →
      let t : Tlb := { part := p, shift := sh, vpn := va / 2 ^ sh, leaf := leaf }
      let put (l : List Tlb) (n : Nat) : List Tlb :=
        let r := l.filter (fun e => decide (e ≠ t))
        (if n ≤ r.length then r.drop 1 else r) ++ [t]
      ∃ u, exec (.pageWalk k p host va) s = .next u ∧ u.mem = s.mem ∧ u.ctxs = s.ctxs ∧
        (k < 1024 → (u.clu k).tlb = put (s.clu k).tlb 256) ∧
        (1024 ≤ k → k < 4096 → (u.mat (k - 1024)).tlb = put (s.mat (k - 1024)).tlb 64 ∧ u.clus = s.clus) ∧
        (4096 ≤ k → u.clus = s.clus ∧ u.mats = s.mats) ∧
        (∀ b ∈ v.walkTables p va (5 - from_.1) from_.1 from_.2,
          ({ die := dieOfUnit k, part := p, lv := b.1, pre := ptPrefix b.1 va, table := b.2 } : WalkEnt) ∈ u.walks))) ∧
    ((s.nextEvent c = none ∨ s.canTake c = false) → exec (.eventDelivery c) s = .next s) ∧
    (∀ e r, isDsc c = false → x.held = e :: r → x.ih = false → x.stopped = false →
      (x.slot = .ready → exec (.eventDelivery c) s = .next ((s.modCtx c (fun x => { x with held := r })).enter c 2 x.pc e)) ∧
      (∀ w, x.slot = .blocked → (s.clu (cluOf c)).recal = false → x.wait = some w → w.reply = none → s.canWithdraw c w.why = true →
        (∀ n, w.why ≠ .remote n) →
        exec (.eventDelivery c) s = .next (((s.withdraw c).modCtx c (fun x => { x with held := r })).enter c 2 x.pc e))) ∧
    (∀ j o r, x.slot = .ready → x.ih = false → x.stopped = false → x.held = [] → s.slicesOf c = [j] → (s.clu j).dirq = o :: r →
      exec (.eventDelivery c) s = .next (((s.modClu j (fun u => { u with dirq := r })).modCtx c (fun x => { x with handling := some o })).enter c 2
        x.pc { code := Cause.directoryOverflow, addr := BitVec.ofNat 64 (o.line * 128 % 2 ^ 40),
               info := BitVec.ofNat 64 (o.clu % 2 ^ 10 + o.write.toNat * 2 ^ 63) })) ∧
    (let late := x.ih = true ∧ x.slot.live = true ∧ x.handlerSince.isSome = true
     let t := s.modCtx c (fun x => { x with handlerSince := none })
     let e : Exc := { code := Cause.watchdog, info := BitVec.ofNat 64 c }
     (¬ late → exec (.watchdog c) s = .next s) ∧
     (late → c ≠ s.serviceCtx x.part → exec (.watchdog c) s = .next (t.raiseService x.part e)) ∧
     (late → c = s.serviceCtx x.part → exec (.watchdog c) s = .next (t.report e))) ∧
    (hasNat s.poison g = true → exec (.patrolScrub g) s = .next (s.modPkg (fun k => { k with scrubPoison := k.scrubPoison + 1 }))) ∧
    (hasNat s.poison g = false → hasNat s.ecc g = true → exec (.patrolScrub g) s =
      .next (({ s with ecc := delNat s.ecc g, poison := addNat s.poison g } : State).modPkg (fun k => { k with scrubPoison := k.scrubPoison + 1 }))) ∧
    (hasNat s.poison g = false → hasNat s.ecc g = false → ∃ t, exec (.patrolScrub g) s = .next t ∧ t.mem = s.mem ∧ t.poison = s.poison ∧
      t.ecc = s.ecc ∧ (∀ j, j ∈ t.soft ↔ j ∈ s.soft ∧ j ≠ g) ∧
      t.pkg = { s.pkg with corrected := s.pkg.corrected + (s.soft.filter (fun j => decide (j = g))).length }) ∧
    (c < 2 ^ 15 → x.slot.live = false → exec (.controlStateError c) s = .next s) ∧
    (c < 2 ^ 15 → x.slot.live = true →
      let e : Exc := { code := Cause.machineCheck, info := BitVec.ofNat 64 (c + 2 * 2 ^ 22) }
      (x.buf = [] → ∃ t, exec (.controlStateError c) s = .next t ∧ (t.ctx c).slot = .exited ∧ (t.ctx c).code = 253 ∧
        (t.ctx c).wait = none ∧ (t.ctx c).x = x.x ∧ t.mem = s.mem ∧ t.pkg.controller = s.pkg.controller ++ [(e.code, e.addr, e.info)] ∧
        (c ≠ s.serviceCtx x.part → (t.ctx (s.serviceCtx x.part)).held = insEvent e (s.ctx (s.serviceCtx x.part)).held)) ∧
      (x.buf ≠ [] → ∃ t, exec (.controlStateError c) s = .next t ∧ (t.ctx c).slot = .blocked ∧
        (t.ctx c).wait = some { why := .lost 253 e } ∧ (t.ctx c).buf = x.buf ∧ t.mem = s.mem ∧ t.pkg = s.pkg)) ∧
    (2 ^ 15 ≤ c → (∀ l ∈ s.launches, l.2.part ≠ c - 2 ^ 15) → exec (.controlStateError c) s =
      .next ((s.modPart (c - 2 ^ 15) (fun q => { q with retire := true })).report { code := Cause.machineCheck }))

/-! ## Pre-emption -/

/-- 17 R401 to R407: a request is refused with its reason, or done: SPILL takes a thread that stands at a boundary out of its slot into
its record, RESTORE brings a record's thread into a FREE slot with the registers of the record, and SAVE writes what is held for a
record. A request that cannot proceed yet stays. -/
def Claim.SpillingAndRestoring : Prop :=
  ∀ (s t : State) (p : Nat) (r : BitVec 512), State.cullAll p 1024 s = t → (t.part p).cull = [r] →
    let c := Cull.ctx r
    let rec_ := Cull.record r
    let key := regionKey p rec_
    let x := t.ctx c
    let none_ (u : State) : State := u.modPart p (fun q => { q with cull := [] })
    let keep (u : State) : State := u.modPart p (fun q => { q with cull := [r] })
    let status (u : State) (st why : Nat) : State :=
      if u.areaLen p < rec_ + 1024 then u else u.areaWrite p (rec_ + 0x3F8) (leBytes 8 (st + why * 2 ^ 8))
    (Cull.op r = 1 →
      exec (.restore p) s = .next (keep t) ∧ exec (.save p) s = .next (keep t) ∧
      (∀ why, t.spillBad p r = some why → exec (.spill p) s = .next (none_ (status t 2 why))) ∧
      (t.spillBad p r = none → (t.nextEvent c = none ∨ t.canTake c = false) → t.spillReady c = false →
        exec (.spill p) s = .next (keep (t.askHeld c 2 (entriesOf x.buf)))) ∧
      (t.spillBad p r = none → (t.nextEvent c = none ∨ t.canTake c = false) → t.spillReady c = true → x.slot = .ready → x.wait = none → x.spec = none →
        ∃ u, exec (.spill p) s = .next u ∧ (SMap.at { ctx := {}, at_ := 0 } u.spilled key).ctx = { (t.drainAll c).ctx c with resv := none } ∧
          (SMap.at { ctx := {}, at_ := 0 } u.spilled key).from_ = c ∧
          (t.streamsOf c = [] → x.owner = false → ((t.drainAll c).ctx c).owner = false → (t.drainAll c).streamsOf c = [] →
            (t.core (coreOf c)).arrivals = [] → (t.chan c).waiting = [] → u.ctx c = { slot := .free, part := x.part, lastIssue := ((t.drainAll c).ctx c).lastIssue }))) ∧
    (Cull.op r = 3 →
      exec (.spill p) s = .next (keep t) ∧ exec (.restore p) s = .next (keep t) ∧
      (t.recOk p rec_ = false → exec (.save p) s = .next (none_ (status t 2 2))) ∧
      (t.recOk p rec_ = true → t.statusOf p rec_ ≠ 1 → exec (.save p) s = .next (none_ (status t 2 4))) ∧
      (t.recOk p rec_ = true → t.statusOf p rec_ = 1 → exec (.save p) s = .next (none_ (status (t.saveRecord p rec_) 4 0)))) ∧
    (Cull.op r = 2 →
      exec (.spill p) s = .next (keep t) ∧ exec (.save p) s = .next (keep t) ∧
      (∀ why, t.restoreBad p r = some why → exec (.restore p) s = .next (none_ (status t 2 why))) ∧
      (let bytes : BitVec 8192 := BitVec.ofNat 8192 (t.areaN p rec_ 1024)
       let flag (i : Nat) : Bool := bitOf bytes (8 * 0x091 + i)
       t.restoreBad p r = none → flag 1 = false → flag 2 = false → flag 3 = false → flag 4 = false → Cull.notify r = false →
        x.slot = .free → (t.core (coreOf c)).arrivals = [] → (t.chan c).waiting = [] →
        (∀ h, t.spilledFor p rec_ (recAt bytes 0x092 2) = some h → h.2.ctx.wait = none ∧ h.2.ctx.dueTrap = none ∧ h.2.again = false) →
        ∃ u, exec (.restore p) s = .next u ∧ (u.ctx c).slot = .ready ∧ (u.ctx c).pc = recW bytes 0x080 ∧
          (u.ctx c).sta = Sta.ofWord (recW bytes 0x088) ∧ (∀ k : Reg, (u.ctx c).reg k = if k = 0 then 0 else recW bytes (8 * k.toNat)) ∧
          (u.ctx c).hvec = recW bytes 0x0C0 ∧ (u.ctx c).wid = recW bytes 0x0D8 ∧ (u.ctx c).part = p))

/-- The two together: `Claim.WalksEventsAndErrors` and `Claim.SpillingAndRestoring`.
Where the spec leaves the matter open it follows the model's choices and readings of logs 2, 6, 13, 19, 26, 28, 36, 40 and 45. -/
def Obligations.WalksEventsErrorsAndSpills : Prop := Claim.WalksEventsAndErrors ∧ Claim.SpillingAndRestoring

/-! ## The links and the fabric -/

/-- 18 R424 to R427: flits are accepted in order and with a good CRC only; an acknowledgement frees what it names and a NAK has the rest
sent again; lanes that fail, and where retraining leads; a service retrain. -/
def Claim.LinksDeliverInOrder : Prop :=
  ∀ (s : State) (port : Nat) (lseq last : BitVec 16) (nak : Bool) (lanes whole : BitVec 16) (bytes : List Byte),
    let o := s.oport port
    let num (a n : Nat) : Nat := leNat ((bytes.drop a).take n)
    let good := bytes.length = 72 ∧ num 68 4 = crc32 (bytes.take 68)
    let ty := num 66 1
    let ahead := (num 64 2 + 2 ^ 16 - o.expect) % 2 ^ 16
    let rx := if ty = 1 then [bytes.take 64] else if o.rx = [] then [] else o.rx ++ [bytes.take 64]
    let want := 1 + leNat (((rx.headD []).drop 4).take 1) / 16
    let refuse : State := s.modOport port (fun o => { o with nak := true, ctl := some ((o.expect + 2 ^ 16 - 1) % 2 ^ 16, true), owed := 0 })
    let took (l : List (List Byte)) : State := s.draw.2.modOport port (fun o => { o.accepted s.draw.1 with rx := l })
    (∀ soon, (o.accepted soon).expect = (o.expect + 1) % 2 ^ 16 ∧ (o.accepted soon).nak = false ∧
      (soon = true ∨ 15 ≤ o.owed → (o.accepted soon).owed = 0 ∧ (o.accepted soon).ctl = some (((o.expect + 1) % 2 ^ 16 + 2 ^ 16 - 1) % 2 ^ 16, false)) ∧
      (soon = false → o.owed < 15 → (o.accepted soon).owed = o.owed + 1 ∧ (o.accepted soon).ctl = o.ctl)) ∧
    (¬ good → exec (.flitReceive port bytes) s = .next refuse) ∧
    (good → ty ≠ 1 → ty ≠ 2 → exec (.flitReceive port bytes) s = .next s) ∧
    (good → (ty = 1 ∨ ty = 2) → o.expect < 2 ^ 16 →
      (2 ^ 15 ≤ ahead → exec (.flitReceive port bytes) s = .next s) ∧
      (0 < ahead → ahead < 2 ^ 15 → exec (.flitReceive port bytes) s = .next refuse) ∧
      (ahead = 0 → rx.length ≠ want → exec (.flitReceive port bytes) s = .next (took rx)) ∧
      (ahead = 0 → rx.length = want → exec (.flitReceive port bytes) s =
        .next ((took []).packetIn port (pktOfFlits (rx.headD []) (rx.drop 1).flatten)))) ∧
    (o.up = false → exec (.linkAckReceive port lseq nak) s = .next s) ∧
    (o.up = true → nak = false → exec (.linkAckReceive port lseq nak) s = .next ((s.modOport port (fun o => o.ack lseq.toNat)).modOport port OPort.pump)) ∧
    (o.up = true → nak = true → (o.ack lseq.toNat).replay.fails < 4 → exec (.linkAckReceive port lseq nak) s =
      .next (s.modOport port (fun o => (o.ack lseq.toNat).replay.pump))) ∧
    (o.up = true → nak = true → 4 ≤ (o.ack lseq.toNat).replay.fails → ∃ t, exec (.linkAckReceive port lseq nak) s = .next t ∧
      ((t.oport port).state = 1 ∨ (t.oport port).state = o.state) ∧ (t.oport port).unacked = (o.ack lseq.toNat).unacked ∧ t.mem = s.mem) ∧
    (∀ k, 1 ≤ k → k ≤ o.unacked.length → o.unacked.length ≤ 2048 → o.next < 2 ^ 16 →
      (o.ack ((o.next + 2 ^ 16 - o.unacked.length + k - 1) % 2 ^ 16)).unacked = o.unacked.drop k) ∧
    exec (.laneLossOfSignal port lanes) s = .next (s.modOport port (fun o =>
      { o with dead := o.dead ||| lanes, state := if o.up = true ∧ lanes ≠ 0 then 1 else o.state })) ∧
    (s.hasPeer s.pkg.node port = false → exec (.serviceRetrain port whole) s = .next s ∧ exec (.osellTrainingEnd port whole) s = .next s) ∧
    (s.hasPeer s.pkg.node port = true →
      exec (.serviceRetrain port whole) s = .next (s.modOport port (fun o => { o with state := 1, dead := ~~~whole, service := true })) ∧
      (o.state ≠ 0 → exec (.osellTrainingEnd port whole) s = .next s) ∧
      (o.state = 0 → exec (.osellTrainingEnd port whole) s = .next ((s.modOport port (fun o => { o with dead := ~~~whole })).settleLink port
        (widest (~~~whole)).1 (widest (~~~whole)).2))) ∧
    (o.state ≠ 1 → exec (.retrainComplete port ⟨last, whole⟩) s = .next s) ∧
    (o.state = 1 →
      let t := if o.service then widest (~~~whole) else retrained o.lanes (~~~whole)
      let v := (s.modOport port (fun o => { o.ack last.toNat with dead := ~~~whole })).settleLink port t.1 t.2
      (t.1 ≠ 0 → exec (.retrainComplete port ⟨last, whole⟩) s = .next v) ∧
      (t.1 = 0 → exec (.retrainComplete port ⟨last, whole⟩) s = .next (v.modOport port (fun o =>
        { o with next := (last.toNat + 1) % 2 ^ 16, lseq := last.toNat }))))

/-- 18 R426: the state and the lanes that retraining leads to, and the event of a change. -/
def Claim.RetrainingOutcomes : Prop :=
  (∀ dead : BitVec 16,
    let lowBad := dead &&& 0x00FF ≠ 0
    let highBad := dead &&& 0xFF00 ≠ 0
    (dead = 0 → retrained 0xFFFF dead = (2, 0xFFFF) ∧ widest dead = (2, 0xFFFF)) ∧
    (lowBad → ¬ highBad → retrained 0xFFFF dead = (4, 0xFF00) ∧ widest dead = (4, 0xFF00) ∧ retrained 0xFF00 dead = (4, 0xFF00)) ∧
    (highBad → ¬ lowBad → retrained 0xFFFF dead = (3, 0x00FF) ∧ widest dead = (3, 0x00FF) ∧ retrained 0x00FF dead = (3, 0x00FF)) ∧
    (lowBad → highBad → ∀ used ∈ [(0xFFFF : BitVec 16), 0x00FF, 0xFF00],
      (dead &&& 0x000F = 0 → retrained used dead = (5, 0x000F)) ∧
      (dead &&& 0x000F ≠ 0 → dead &&& 0x00F0 = 0 → retrained used dead = (5, 0x00F0)) ∧
      (dead &&& 0x000F ≠ 0 → dead &&& 0x00F0 ≠ 0 → dead &&& 0x0F00 = 0 → retrained used dead = (5, 0x0F00)) ∧
      (dead &&& 0x000F ≠ 0 → dead &&& 0x00F0 ≠ 0 → dead &&& 0x0F00 ≠ 0 → dead &&& 0xF000 = 0 → retrained used dead = (5, 0xF000)) ∧
      (dead &&& 0x000F ≠ 0 → dead &&& 0x00F0 ≠ 0 → dead &&& 0x0F00 ≠ 0 → dead &&& 0xF000 ≠ 0 → retrained used dead = (0, 0)))) ∧
  (∀ (s : State) (port st : Nat) (lanes : BitVec 16), st ≠ 0 →
    let t := s.settleLink port st lanes
    (t.oport port).state = st ∧ (t.oport port).lanes = lanes ∧ t.mem = s.mem ∧
      (laneState (s.oport port).lanes = 0 → (t.oport port).told = SMap.put s.pkg.revs s.pkg.node s.ownRev) ∧
      (st = laneState (s.oport port).lanes → t.pkg.controller = s.pkg.controller) ∧
      (st ≠ laneState (s.oport port).lanes → t.pkg.controller = s.pkg.controller ++
        [(Cause.linkDegraded, 0, (t.oport port).word ||| BitVec.ofNat 64 (port % 8 * 2 ^ 16))]))

/-- The two together: `Claim.LinksDeliverInOrder` and `Claim.RetrainingOutcomes`.
Where the spec leaves the matter open it follows the model's choices and readings of logs 6 and 37. -/
def Obligations.Links : Prop := Claim.LinksDeliverInOrder ∧ Claim.RetrainingOutcomes

/-- 18 R420, R421, R428, R429, R431; 10 R234, R235; 16 R385: a request is filtered, checked and performed once, and answered; a packet for
another node moves on, or its source learns that no way leads there; an answer ends the request that it names; a request is sent again
until the remote limit ends it. -/
def Claim.RequestsAndAnswers : Prop :=
  ∀ (s : State) (q a : FabPkt) (n inPort node : Nat) (rev : BitVec 32) (ops : BitVec 16) (fmts : BitVec 32),
    let here := q.tgtNode = s.pkg.node ∧ q.cls ≠ 1
    let own := s.ownRev
    let i := Instr.fabricRequestIngress q
    let m := s.mark q.srcNode q.eseq 1 q
    (¬ here → exec i s = .next s) ∧
    (here → s.filter q.srcNode q.eseq = .drop → exec i s = .next s) ∧
    (∀ b, here → s.filter q.srcNode q.eseq = .again b → exec i s = .next ((s.pkg.kept.filter (fun a =>
      decide (a.tgtNode = q.srcNode ∧ a.eseq = q.eseq))).foldl (fun u a => u.emitPkt a) (s.emitPkt b))) ∧
    (here → s.filter q.srcNode q.eseq = .perform →
      (q.rev ≠ own.rev → exec i s = .next (s.rejectPkt q Cause.remoteOpUnsupported
        (BitVec.ofNat 128 (own.rev.toNat + own.ops.toNat * 2 ^ 32 + own.fmts.toNat * 2 ^ 48)))) ∧
      (q.rev = own.rev → epochValid (s.part q.tgtPart).epoch (capEpoch q.cap) = false → exec i s = .next (s.rejectPkt q Cause.capRevoked)) ∧
      (q.rev = own.rev → epochValid (s.part q.tgtPart).epoch (capEpoch q.cap) = true →
        (∀ t d, m.perform q = .ok t d → exec i s = .next (t.emitPkt (t.answerTo q 0 d))) ∧
        (∀ t, m.perform q = .kept t → exec i s = .next t) ∧
        (∀ k met, m.perform q = .bad k met → exec i s = .next ((m.errMet met).rejectPkt q k)) ∧
        (∀ t, m.perform q = .later t → exec i s = .next (t.notYet q)))) ∧
    (q.eseq < 2 ^ 32 → (∀ e ∈ s.pkg.seen, e.1 ≠ q.srcNode) → s.filter q.srcNode q.eseq = .perform ∧
      m.filter q.srcNode q.eseq = .drop ∧ (m.mark q.srcNode q.eseq 2 a).filter q.srcNode q.eseq = .again a) ∧
    (8 ≤ inPort → q ∉ s.pkg.outbox → exec (.fabricForward inPort q) s = .next s) ∧
    (8 ≤ inPort → q ∈ s.pkg.outbox → q.cls ≠ 1 → isTree q = false → q.tgtNode ≠ s.pkg.node →
      let v := s.modPkg (fun g => { g with outbox := g.outbox.erase q, outst := g.outst.map (fun o => if o.pkt = q then { o with sent := true } else o) })
      ∀ p d, v.wayFrom s.pkg.node q.tgtNode q.detour = some (p, d) → exec (.fabricForward inPort q) s = .next (v.modOport p (fun o =>
        ({ o with sendq := o.sendq ++ [{ q with detour := d, vc := v.vcOn s.pkg.node 8 p q.vc }] } : OPort).pump))) ∧
    (inPort < 8 → isTree q = false → q ∉ (s.oport inPort).held → q.tgtNode ≠ s.pkg.node →
      (∀ p d, s.wayFrom s.pkg.node q.tgtNode q.detour = some (p, d) → exec (.fabricForward inPort q) s = .next (s.modOport p (fun o =>
        ({ o with sendq := o.sendq ++ [{ q with detour := d, vc := s.vcOn s.pkg.node inPort p q.vc }] } : OPort).pump))) ∧
      (s.wayFrom s.pkg.node q.tgtNode q.detour = none → q.cls = 1 → exec (.fabricForward inPort q) s = .next s)) ∧
    (inPort < 8 → q ∉ (s.oport inPort).held → q.tgtNode = s.pkg.node → isTree q = false →
      (q.cls ≠ 1 → exec (.fabricForward inPort q) s = exec i s) ∧ (q.cls = 1 → exec (.fabricForward inPort q) s = exec (.fabricResponse q) s)) ∧
    (inPort < 8 → q ∉ (s.oport inPort).held → isTree q = true →
      let ports := s.treePorts q
      (∀ p ∈ ports, s.portDown s.pkg.node p = false) →
      ((∃ p ∈ ports, (s.oport p).slotFree (s.vcOn s.pkg.node inPort p q.vc) = false) → exec (.fabricForward inPort q) s =
        .next (s.modOport inPort (fun o => { o with held := o.held ++ [q] }))) ∧
      ((∀ p ∈ ports, (s.oport p).slotFree (s.vcOn s.pkg.node inPort p q.vc) = true) →
        let v := ports.foldl (fun u p => u.sendOn inPort p false q) s
        (v.pkg.node ∉ mcastMembers q → exec (.fabricForward inPort q) s = .next v) ∧
        (v.pkg.node ∈ mcastMembers q → exec (.fabricForward inPort q) s = .next (v.ingress { q with tgtNode := v.pkg.node })))) ∧
    (a.tgtNode ≠ s.pkg.node → a.opc = 0x15 →
      (a.srcNode = s.pkg.node → exec (.fabricResponse a) s = .next (s.emitPkt { a with
        cls := 1, cur := BitVec.ofNat 8 (s.part a.srcPart).epoch.toNat, floor := BitVec.ofNat 8 ((s.part a.srcPart).epoch.toNat / 2 ^ 8), opnd := 0,
        data := [] })) ∧
      (a.srcNode ≠ s.pkg.node → exec (.fabricResponse a) s = .next (s.learn a))) ∧
    (a.tgtNode = s.pkg.node → a.cls = 1 →
      let v := s.learn a
      let found := v.pkg.outst.find? (fun o => decide (o.eseq = a.eseq ∧ o.pkt.tgtNode = a.srcNode))
      (a.opc = 0x15 ∨ a.opc = 0x13 → exec (.fabricResponse a) s = .next v) ∧
      (isCallAck a = true → exec (.fabricResponse a) s = .next (v.modPkg (fun g =>
        { g with kept := g.kept.filter (fun k => !decide (k.tgtNode = a.srcNode ∧ k.eseq = a.eseq)) }))) ∧
      (isCallAck a = false → found = none → exec (.fabricResponse a) s = .next v) ∧
      (∀ o, isCallAck a = false → a.opc ≠ 0x15 → a.opc ≠ 0x13 → found = some o →
        (o.pkt.opc = 0x06 → a.opc = 0x11 → exec (.fabricResponse a) s = .next (v.modPkg (fun g =>
          { g with outst := g.outst.map (fun p => if p = o then { p with acked := true } else p) }))) ∧
        (∀ c w, ¬ (o.pkt.opc = 0x06 ∧ a.opc = 0x11) → o.ctx = some c → c < 2 ^ 20 → (v.ctx c).wait = some w → w.why = .remote o.eseq →
          w.reply = none →
          let u := if o.pkt.opc = 0x06 ∧ o.acked = true then v.emitPkt (v.callAck a) else v
          let done (u : State) : State := (u.modPkg (fun g => { g with outst := g.outst.erase o })).ownCopyGone o
          (o.elem = none → exec (.fabricResponse a) s = .next ((done u).giveReply c (threadReply o a (u.waitPtr c)))) ∧
          (∀ k, o.elem = some k → a.opc ≠ 0x12 → a.opc ≠ 0x14 → o.pkt.opc ≠ 0x06 → exec (.fabricResponse a) s =
            .next ((done (u.noteElem c k (a.opnd.toNat % 2 ^ (8 * szBytes o.sz)) false)).giveReply c { again := true }))))) ∧
    (s.pkg.outst[n]? = none → exec (.e2eResend n) s = .next s ∧ exec (.remoteTimeout n) s = .next s) ∧
    (∀ o, s.pkg.outst[n]? = some o →
      (isTree o.pkt = false → exec (.e2eResend n) s = .next (if o.acked = true ∨ o.pkt ∈ s.pkg.outbox then s
        else s.modPkg (fun g => { g with outbox := g.outbox ++ [o.pkt] }))) ∧
      (∀ c w, o.ctx = some c → c < 2 ^ 20 → (s.ctx c).wait = some w → w.why = .remote o.eseq → w.reply = none → ∃ t, exec (.remoteTimeout n) s = .next t ∧
        t.pkg.outst = s.pkg.outst.erase o ∧ o.pkt ∉ t.pkg.outbox ∧ (t.ctx c).eseq = some ((s.ctx c).pc, o.pkt.tgtNode, o.eseq, (s.ctx c).ih) ∧
        (t.ctx c).wait = some { w with reply := some { exc := some { code := Cause.remoteTimeout, info := BitVec.ofNat 64 (o.eseq % 2 ^ 32) } } } ∧
        t.mem = s.mem)) ∧
    ∃ u, exec (.revisionExchange node rev ops fmts) s = .next u ∧ u.pkg = { s.pkg with revs := SMap.put s.pkg.revs node ⟨rev, ops, fmts⟩ } ∧
      u.mem = s.mem ∧ u.oports = s.oports.map (fun o => (o.1, if o.2.up then { o.2 with told := SMap.put o.2.told node ⟨rev, ops, fmts⟩ } else o.2))

/-- 18 R435 to R437, R421: a contribution is counted once; one that its object does not admit is refused; a round that fails answers
every contributor that has come and leaves the object's cells alone; a change of the link-state table. -/
def Claim.Reductions : Prop :=
  ∀ (s : State) (c : Contribution) (p node port : Nat) (h : BitVec 12) (up : Bool),
    let k := c.hidx.toNat
    let mine := (c.who.map (·.1)).foldl (fun m n => m ||| 2 ^ n) 0
    (c.who.all (fun w => decide (s.filter w.1 w.2.2 = .perform)) = true →
      let pkt (w : Nat × Nat × Nat) : FabPkt := s.sharePkt c.part k w c.epoch
      let t := c.who.foldl (fun u w => u.mark w.1 w.2.2 1 (pkt w)) s
      (c.rev ≠ s.ownRev.rev → exec (.reductionContribution c) s =
        .next (c.who.foldl (fun u w => u.rejectPkt (pkt w) Cause.remoteOpUnsupported s.revOpnd) s)) ∧
      (c.rev = s.ownRev.rev → epochValid (s.part c.part).epoch c.epoch = false → exec (.reductionContribution c) s =
        .next (c.who.foldl (fun u w => u.rejectPkt (pkt w) Cause.capRevoked) s)) ∧
      (c.rev = s.ownRev.rev → epochValid (s.part c.part).epoch c.epoch = true → exec (.reductionContribution c) s =
        .next ((State.contributeAll ((t.roundOf c.part k).waiting.length + 2) t [c]).roundCheck c.part k))) ∧
    (s.redN p h.toNat 8 1 / 2 % 2 = 1 → (∃ n ∈ s.missing p h.toNat, s.reaches 80 n s.pkg.node false = false) →
      s.roundCheck p h.toNat = s.failRound p h.toNat) ∧
    (∀ w a, c.who = [w] → s.filter w.1 w.2.2 = .again a → exec (.reductionContribution c) s = .next (s.emitPkt a)) ∧
    (∀ w, c.who = [w] → s.filter w.1 w.2.2 = .drop → exec (.reductionContribution c) s = .next s) ∧
    (s.redN c.part k 10 2 < c.first + c.cells.length ∨ mine &&& s.redN c.part k 64 256 ≠ mine →
      s.contributeOne c = (s.refuseShares c.part k c.who Cause.handleBounds 0, [])) ∧
    (s.redN p h.toNat 8 1 / 2 % 2 = 0 → exec (.reductionRoundFail p h) s = .next s) ∧
    (let r := s.roundOf p h.toNat
     let want := s.redN p h.toNat 64 256
     let t := (((s.redPut p h.toNat 576 256 (want ^^^ (want &&& s.redN p h.toNat 320 256))).redPut p h.toNat 320 256 0).redPut p h.toNat 8 1 1).setRound
       { r with came := [], waiting := [] }
     s.redN p h.toNat 8 1 / 2 % 2 = 1 → r.waiting = [] → exec (.reductionRoundFail p h) s =
      .next (t.refuseShares p h.toNat r.came Cause.reductionIncomplete (t.missInfo p h.toNat))) ∧
    (s.pkg.rounds = [] → exec (.linkStateUpdate node port up) s = .next (s.modPkg (fun g => { g with linkDown :=
      let l := g.linkDown.filter (fun e => decide (e ≠ (node, port)))
      if up = true ∨ port < 4 ∨ 8 ≤ port then l else l ++ [(node, port)] }))) ∧
    (∀ d e : BitVec 512, xsTag d = xsTag e → bitsAt d 496 8 < 8 → bitsAt e 496 8 < 8 → xsCount d + xsCount e < 2 ^ 48 →
      ∃ w, xsMerge d e = some w ∧ xsMerge e d = some w)

/-- The two together: `Claim.RequestsAndAnswers` and `Claim.Reductions`.
Where the spec leaves the matter open it follows the model's choices and readings of logs 2, 30, 31, 34, 37 and 38. -/
def Obligations.Fabric : Prop := Claim.RequestsAndAnswers ∧ Claim.Reductions

/-! ## Service -/

/-- 16 R387, R388; 19 R448, R449: the clock of a partition is the lowest that a limit asks for, with the limit's code; POWER_EVENT is
raised when the code changes; which cap frames count. -/
def Claim.LimitsAndFrames : Prop :=
  ∀ (s : State) (f : List Byte) (n key : Nat) (p : Part),
    let q := s.clocked p
    (∃ j ≤ 40, q.fmhz = 940 - 20 * j ∧ (∀ code, 1 ≤ code → code ≤ 5 → s.limitStep p code ≤ j) ∧ (j = 0 ↔ bitsAt q.pcapwhy 0 3 = 0) ∧
      (j ≠ 0 → s.limitStep p (bitsAt q.pcapwhy 0 3) = j ∧ ∀ code, bitsAt q.pcapwhy 0 3 < code → code ≤ 5 → s.limitStep p code < j)) ∧
    (q.fmhz = 940 → q.vmv = 675) ∧ q.vmv ≤ 675 ∧ bitsAt q.pcapwhy 32 16 = s.pkg.capSeq % 2 ^ 16 ∧
    (s.pkg.thermal = false → s.limitStep p 4 = 0) ∧ (s.pkg.current = false → s.limitStep p 5 = 0) ∧
    (s.pkg.capApplied = false ∨ p.rank < s.pkg.capRank → s.limitStep p 3 = 0) ∧
    (let t := s.modPart n (fun _ => s.clocked (s.part n))
     let e : Exc := { code := Cause.powerEvent, info := (s.clocked (s.part n)).pcapwhy }
     s.setClock n = if bitsAt (s.clocked (s.part n)).pcapwhy 0 3 = bitsAt (s.part n).pcapwhy 0 3 then t else (t.raiseService n e).report e) ∧
    (s.frameGood f = false → exec (.capFrame f) s = .next (s.modPkg (fun g => { g with badFrames := g.badFrames + 1 }))) ∧
    (s.frameGood f = true → s.pkg.capApplied = true → leNat ((f.drop 4).take 8) ≤ s.pkg.capSeq → exec (.capFrame f) s = .next s) ∧
    (s.frameGood f = true → s.pkg.capApplied = false ∨ s.pkg.capSeq < leNat ((f.drop 4).take 8) → exec (.capFrame f) s =
      .next (s.modPkg (fun g =>
        { g with capApplied := true, capSeq := leNat ((f.drop 4).take 8), capRank := (f.getD 12 0).toNat, capLevel := (f.getD 13 0).toNat })).setClocks) ∧
    exec .thermalLimit s = .next (s.modPkg (fun g => { g with thermal := true })).setClocks ∧
    exec .thermalLimitRelease s = .next (s.modPkg (fun g => { g with thermal := false })).setClocks ∧
    exec .currentLimit s = .next (s.modPkg (fun g => { g with current := true })).setClocks ∧
    exec .currentLimitRelease s = .next (s.modPkg (fun g => { g with current := false })).setClocks ∧
    exec .thermalTrip s = .next ((s.modPkg (fun g => { g with tripped := true })).report { code := Cause.machineCheck }) ∧
    (s.agenda = [] → s.pkg.tripped = true → step s = .fault .corePowerOff) ∧
    (∀ k r, s.agenda = .issue k :: r → s.pkg.tripped = true → step s = .next { s with agenda := r }) ∧
    exec (.hallKeyProvision key) s = .next (s.modPkg (fun g => { g with hallKey := some key }))

/-- 19 R440, R442 to R445: bring-up by its phases, firmware, and attestation. -/
def Claim.BringUp : Prop :=
  ∀ (s : State) (image : List Byte) (v : Word) (failed bad sizes : List Nat) (rack : Bool),
    let signed := imageSigned image
    (signed = true ↔ Config.imageEcdsa image = true ∧ Config.imageLms image = true) ∧
    (∃ t, exec (.powerUp image) s = .next t ∧ t.ctxs = [] ∧ t.parts = [] ∧ t.mem = s.mem.filter (fun p => isHost p.1) ∧ t.pkg.ready = false ∧ t.pkg.hallKey = s.pkg.hallKey ∧
      (signed = true → t.pkg.phase = 1 ∧ t.pkg.image = image ∧ t.pkg.fwrev = Config.imageRev image) ∧ (signed = false → t.pkg.phase = 4)) ∧
    (s.pkg.phase ≠ 4 → exec (.fwptrWrite v) s = .next (s.modPkg (fun g => { g with fwptr := v }))) ∧
    (s.pkg.phase = 4 →
      let new := s.peek (hostBase + bitsAt v 12 52 * 4096) (bitsAt v 0 12 * 4096)
      (imageSigned new = false → exec (.fwptrWrite v) s = .next (s.modPkg (fun g => { g with fwptr := v, phase := 4 }))) ∧
      (imageSigned new = true → exec (.fwptrWrite v) s = .next (s.modPkg (fun g =>
        { g with fwptr := v, image := new, fwrev := Config.imageRev new, phase := 1 })))) ∧
    (s.pkg.phase ≠ 1 → exec (.calibrationDone failed bad sizes) s = .next s) ∧
    (s.pkg.phase = 1 → ∃ t, exec (.calibrationDone failed bad sizes) s = .next t ∧ t.mem = s.mem ∧
      (∀ k < 512, (t.clu k).retired = (decide (k ∈ failed) || (s.clu k).retired)) ∧ t.pkg.badChannels = bad ∧
      (sizesOk sizes = true → t.pkg.sizes = sizes.take 4 ∧ t.pkg.node = sizes.getD 4 s.pkg.node) ∧
      (sizesOk sizes = false → t.pkg.sizes = s.pkg.sizes ∧ t.pkg.node = s.pkg.node) ∧
      ((∃ k < 512, k ∉ failed) → t.pkg.phase = 2 ∧ t.pkg.failed = false) ∧ ((∀ k < 512, k ∈ failed) → t.pkg.phase = 7 ∧ t.pkg.failed = true)) ∧
    (s.agenda = [] → s.pkg.tripped = false → s.pkg.failed = true → step s = .fault .bringUpFailed) ∧
    (s.pkg.phase ≠ 2 → exec .memoryInitDone s = .next s) ∧
    (s.pkg.phase = 2 → ∃ t, exec .memoryInitDone s = .next t ∧ (∀ l, isHost l = false → t.mem.read l = 0 ∧ t.isFull l = true ∧ hasNat t.mtags (l / 16) = false) ∧
      t.poison = [] ∧ t.ecc = [] ∧ (∀ k, (t.clu k).bankmode = 0) ∧ t.pkg.phase = 3 ∧ t.pkg.ready = true) ∧
    exec (.liveFirmwareUpdate image) s = .next (if signed then s.modPkg (fun g => { g with image := image, fwrev := Config.imageRev image }) else s) ∧
    exec (.attestationRequest rack) s = .next (s.modPkg (fun g =>
      let r := Config.attestation s.attested s.pkg.image
      if rack then { g with rackReport := r } else { g with attest := r }))

/-- The two together: `Claim.LimitsAndFrames` and `Claim.BringUp`.
Where the spec leaves the matter open it follows the model's choices and readings of logs 9, 41, 42 and 43. -/
def Obligations.LimitsAndBringUp : Prop := Claim.LimitsAndFrames ∧ Claim.BringUp

/-- 11 R253; 19 R439, R441, R446, R447; 16 R363; 02 R26: what the host writes and reads, service of a running part, the retirement of a
cluster, and the creation of a partition.
Where the spec leaves the matter open it follows the model's choices and readings of logs 27, 43, 44, 46 and 64. -/
def Obligations.HostAndService : Prop :=
  ∀ (s : State) (p k ch pa n : Nat) (v : Word) (on : Bool) (bs : List Byte) (q : PartSpec),
    ((s.part p).live = false ∨ (∃ e ∈ (s.ctx (s.serviceCtx p)).held, e.code = Cause.hostRequest) → exec (.hreqWrite p v) s = .next s) ∧
    ((s.part p).live = true → (∀ e ∈ (s.ctx (s.serviceCtx p)).held, e.code ≠ Cause.hostRequest) →
      exec (.hreqWrite p v) s = .next (s.raiseService p { code := Cause.hostRequest, addr := 0, info := v })) ∧
    (∀ op, s.hostOpen p op = false → exec (.cxlMemRequest p op) s = .next (s.modPkg (fun g => { g with cxl := some { error := true } }))) ∧
    (∀ op, s.hostOpen p op = true → s.hostReady p op = false → exec (.cxlMemRequest p op) s = .next s) ∧
    (s.hostReady p (.write pa bs) = true →
      let to_ := span (p * 2 ^ 40 + pa) bs.length
      ((∀ l ∈ linesOf to_, s.lockedFor l noCtx = false) → exec (.cxlMemRequest p (.write pa bs)) s =
        .next ((s.place {} (to_.zip bs)).modPkg (fun g => { g with cxl := some { error := false } }))) ∧
      ((∃ l ∈ linesOf to_, s.lockedFor l noCtx = true) → exec (.cxlMemRequest p (.write pa bs)) s = .next (s.askWrites {} (linesOf to_)))) ∧
    (∃ t, exec (.cxlMemRequest p (.read pa n)) s = .next t ∧ t.mem = s.mem ∧ t.ctxs = s.ctxs ∧
      (s.hostReady p (.read pa n) = true → (∃ d, t.pkg.cxl = some d ∧ d.error = false ∧ d.data = (span (p * 2 ^ 40 + pa) n).map s.mem.read) ∧
        (WellKept s → ∀ l ∈ span (p * 2 ^ 40 + pa) n, hasNat s.ecc (l / 16) = true → hasNat t.poison (l / 16) = true))) ∧
    (s.pkg.retrainChannels = [] → ch < 2048 → exec (.dramChannelRetrain ch true) s = .next (s.modPkg (fun g => { g with retrainChannels := [ch] }))) ∧
    (s.pkg.retrainChannels ≠ [] ∨ 2048 ≤ ch → exec (.dramChannelRetrain ch true) s = .next s) ∧
    ((∀ u ∈ s.clus, u.2.retry = []) → exec (.dramChannelRetrain ch false) s =
      .next (s.modPkg (fun g => { g with retrainChannels := delNat g.retrainChannels ch }))) ∧
    exec (.clusterRecalibration k on) s = .next (s.modClu k (fun u => { u with recal := on })) ∧
    (∀ c, cluOf c = k → (s.clu k).recal = true ∨ (s.clu k).retired = true → s.eligible c = false) ∧
    ((s.clu k).retired = true ∨ (s.clu k).retiring = true → exec (.clusterRetire k) s = .next s) ∧
    ((s.clu k).retired = false → (s.clu k).retiring = false →
      let t := s.modClu k (fun u => { u with retiring := true })
      (t.partOfClu k = none → exec (.clusterRetire k) s = .next t) ∧
      (∀ j, t.partOfClu k = some j → exec (.clusterRetire k) s =
        .next (t.raiseService j { code := Cause.hostRequest, addr := 1, info := BitVec.ofNat 64 (2 ^ 56 + k % 512) }))) ∧
    ((s.clu k).retiring = false ∨ (s.clu k).retired = true → exec (.clusterRetireFinish k) s = .next s) ∧
    ((s.clu k).retiring = true → (s.clu k).retired = false → (s.clu k).bankHeld = [] → (∀ c ∈ s.ctxs, cluOf c.1 = k → (s.ctx c.1).slot.live = false) →
      (∀ i < 4, (s.core (4 * k + i)).arrivals = []) → (∀ m ∈ s.net, m.dst / 64 ≠ k) → WellKept s → ∃ t, exec (.clusterRetireFinish k) s = .next t ∧ (t.clu k).retired = true ∧ (t.clu k).retiring = false ∧
        t.pkg.retired = s.pkg.retired + 1 ∧ ∀ l, t.mem.read l = if sramLoc k 0 0 ≤ l ∧ l < sramLoc (k + 1) 0 0 then 0 else s.mem.read l) ∧
    (q.remove = false → s.partOk q = false → exec (.partitionCreate q) s = .next s) ∧
    (q.remove = false → s.partOk q = true → (s.part q.num).live = false → ∃ t, exec (.partitionCreate q) s = .next t ∧ t.mem = s.mem ∧
      (let x := t.part q.num
       x.live = true ∧ x.clusters = q.clusters.foldl addNat [] ∧ x.interval = q.interval ∧ x.width = q.width ∧ x.table = q.table ∧ x.rank = q.rank ∧ x.node = q.node ∧ x.wlim = q.wlim ∧
         x.rlim = q.rlim ∧ x.budget = q.budget ∧ x.htlen = 0 ∧ x.ptroot = 0 ∧ x.epoch = 0) ∧
      ∀ j ∈ q.clusters, let y := t.ctx (64 * j + 15)
        y.part = q.num ∧ y.pc = q.entry ∧ y.hvec = q.hvec ∧ y.sta = { sup := true } ∧ y.slot = (if q.entry = 0 then .reserved else .ready)) ∧
    (s.partOk q = true → q.table.Nodup ∧ q.table.length = 2 ^ q.width ∧ 4 ≤ q.width ∧ q.width ≤ 9 ∧ ∀ k ∈ q.table, k ∈ q.clusters) ∧
    (q.remove = true → ∃ t, exec (.partitionCreate q) s = .next t ∧ (t.part q.num) = {} ∧ t.mem = s.mem ∧
      (∀ c, cluOf c ∈ (s.part q.num).clusters → t.ctx c = { slot := if c % 64 = 15 then .reserved else .free }) ∧ (∀ x ∈ t.launches, x.2.part ≠ q.num) ∧ ∀ x ∈ t.packets, x.2.part ≠ q.num)

/-! ## Encodings, steps, reset and what every step keeps -/

/-- 05 R68 to R78, R89: words written out from the encodings stand for their instructions. A major that is not assigned is
illegal, and a set reserved bit is rejected (R81). -/
def Obligations.WordsDecode : Prop :=
  decode [0x00042604] = .ok (.add 0 3 1 2) ∧ decode [0x07C42604] = .ok (.adds 3 3 1 2) ∧
  decode [0x0000063D, 0x89ABCDEF, 0x01234567] = .ok (.ldi 3 (.lit 0x0123456789ABCDEF)) ∧
  decode [0x020C6880] = .ok (.ld 0 0 6 4 3 (.short 2)) ∧ decode [0x000601D4] = .ok (.trap 3) ∧
  decode [0x000001E4] = .ok .eret ∧ decode [0x00801108] = .ok (.vmul 0 0 0 8 0 16) ∧
  decode [0x00042000] = .error .illegalOpcode ∧ decode [0x08042604] = .error .illegalOpcode ∧
  decode [0x0000027C] = .error .reservedBits ∧ decode [0x0002063D, 0, 0] = .error .reservedBits

/-- 05 R68 to R80: decoding the words of a well-formed instruction gives it back, at every value of every operand, whatever
follows them. -/
def Obligations.DecodeOfEncode : Prop :=
  ∀ (i : Instr) (r : List Nat), i.wf = true → i.encodable = true → decode (encode i ++ r) = .ok i

/-- 05 R82 and 17 R391: an issue slot runs the instruction that stands at the chosen context's pc; where none can be
fetched or decoded, that context faults with the cause of the check that failed. An instruction of variable latency leaves its
context BLOCKED until its tag arrives (02 R32). A device step on the agenda runs as
it stands. The agenda is the model's own (log 2). -/
def Obligations.StepRunsTheDecodedInstruction : Prop :=
  ∀ (s : State) (k c : Nat) (i : Instr) (r : List Turn),
    let s1 := ({ s with agenda := r } : State).turnOf k
    (s.agenda = .issue k :: r → s.pkg.tripped = false → s1.pick k = some c →
      let u := s1.takeSlot c
      u.cur = c ∧
      (∀ ws, u.fetch c (u.ctx c).pc = .ok ws → decode ws = .ok i →
        (∀ t, exec i u = .next t → step s = .next (t.blockIssued c i) ∧ (t.variable c i = false → step s = .next t)) ∧
        ((∀ t, exec i u ≠ .next t) → step s = exec i u)) ∧
      (∀ ws, u.fetch c (u.ctx c).pc = .ok ws → decode ws = .error .illegalOpcode →
        step s = .next (u.takeFault c { code := 0x01 })) ∧
      (∀ ws, u.fetch c (u.ctx c).pc = .ok ws → decode ws = .error .reservedBits →
        step s = .next (u.takeFault c { code := 0x02 })) ∧
      (∀ p e, u.fetch c (u.ctx c).pc = .error (p, e) →
        step s = .next (u.takeFault c { code := 0x06, addr := p, info := e.setWidth 64 }))) ∧
    (s.agenda = .device i :: r → (s.pkg.tripped = false ∨ onStandby i = true → step s = exec i { s with agenda := r }) ∧
      (s.pkg.tripped = true → onStandby i = false → step s = .next { s with agenda := r }))

/-- 02 R30, R31: the context that a core issues from is eligible, and is the first such one at or above the core's pointer,
modulo 16; the core has not issued in this cycle, and issues no more in it; taking the slot makes it the running context and moves the pointer past it. When a core's slot comes is the
model's own (log 2). -/
def Obligations.BarrelIssue : Prop :=
  ∀ (s : State) (k c : Nat), s.pick k = some c →
    c / 16 = k ∧ s.eligible c = true ∧ (s.takeSlot c).cur = c ∧
    ((s.takeSlot c).core k).rr = (c % 16 + 1) % 16 ∧ ((s.takeSlot c).ctx c).lastIssue = some (s.coreCycle k) ∧
    ((s.takeSlot c).core k).issued = some (s.coreCycle k) ∧ (s.core k).issued ≠ some (s.coreCycle k) ∧ (s.takeSlot c).pick k = none ∧
    (∀ t, (s.ctx c).lastIssue = some t → t + 8 ≤ s.coreCycle k) ∧ (s.ctx c).readyFrom ≤ s.coreCycle k ∧
    (∀ j, 16 * k ≤ j → j < 16 * k + 16 → s.eligible j = true →
      (c + 16 - (s.core k).rr % 16) % 16 ≤ (j + 16 - (s.core k).rr % 16) % 16)

/-- 19 R442, 01 R12, 06 R109, 08 R165 and 09 R187: after reset the part is in phase 0 with nothing brought up, no thread, no
partition and no launch, and the slot of each cluster's directory service context is RESERVED (02 R26); every byte of memory reads 0; every word is full; no granule is tagged, poisoned or in error. That
memory and the registers hold 0 is the model's choice (logs 3, 4). -/
def Obligations.ResetLeaves : Prop :=
  let s := State.reset
  s.pkg.phase = 0 ∧ s.pkg.ready = false ∧ s.agenda = [] ∧
  (∀ c, (s.ctx c).slot = (if c % 64 = 15 then .reserved else .free) ∧ (s.ctx c).sta = {} ∧ (s.ctx c).pc = 0 ∧ ∀ r, (s.ctx c).reg r = 0) ∧
  (∀ p, (s.part p).live = false) ∧ s.launches = [] ∧ (∀ l, s.mem.read l = 0) ∧ s.empties = [] ∧ s.mtags = [] ∧ s.poison = [] ∧
  s.ecc = [] ∧ s.soft = []

/-- The state after reset is well kept: memory in its canonical form, and the sets of empty, tagged, poisoned and damaged
places as rising lists. These forms are the model's own.
Where the spec leaves the matter open it follows the model's choices and readings of log 3. -/
def Obligations.ResetIsWellKept : Prop := WellKept State.reset

/-- Every step keeps that form, from every state that has it. The form is the model's own; it is what makes equal memories
equal data. Where the spec leaves the matter open it follows the model's choices and readings of log 3. -/
def Obligations.StepsKeepTheForm : Prop :=
  ∀ (s t : State), WellKept s → step s = .next t → WellKept t

/-- The destination register of an instruction that only computes into it, and whether its flags may change: the integer
and floating-point instructions of 07 R128 to R137 and R144 to R154. -/
def Claim.computes : Instr → Option (Reg × Bool)
  | .add _ d _ _ | .sub _ d _ _ | .and _ d _ _ | .or _ d _ _ | .xor _ d _ _ | .andn _ d _ _ | .shl _ d _ _ | .shr _ d _ _
  | .shra _ d _ _ | .rot _ d _ _ | .min _ d _ _ | .max _ d _ _ | .minn _ d _ _ | .maxn _ d _ _ | .adds _ d _ _
  | .subs _ d _ _ | .shiShl _ _ d _ | .shiShr _ _ d _ | .shiShra _ _ d _ | .shiRot _ _ d _ | .addi d _ _ | .andi d _ _
  | .ori d _ _ | .xori d _ _ | .cmp _ d _ _ | .cmpi _ d _ _ | .mul d _ _ | .mulh d _ _ | .mulhn d _ _ | .mad d _ _
  | .div d _ _ | .divn d _ _ | .rem d _ _ | .remn d _ _ | .clz d _ | .ctz d _ | .popc d _ | .brev d _ | .bswap d _
  | .extb _ _ _ d _ | .insb _ _ d _ | .sel _ d _ _ | .lea _ d _ _ | .ldi d _ | .fabs _ _ d _ | .fneg _ _ d _
  | .fcpys _ _ d _ _ | .fclass _ d _ => some (d, false)
  | .fadd _ _ d _ _ | .fsub _ _ d _ _ | .fmul _ _ d _ _ | .fdiv _ _ d _ _ | .fmin _ _ d _ _ | .fmax _ _ d _ _
  | .fsqrt _ _ d _ | .fma _ _ d _ _ | .fcmp _ _ d _ _ | .fcvt _ _ _ d _ | .rcp _ d _ | .rsq _ d _ | .exp2 _ d _
  | .log2 _ d _ | .sinpi _ d _ | .cospi _ d _ | .tanh _ d _ | .sigm _ d _ => some (d, true)
  | _ => none

/-- 07 R124, 06 R109, 16 R380: the frame of the instructions that only compute. Beside the destination register, its pair's tag,
the pc and, for the floating-point ones, sticky flags, nothing changes: no other register or tag, no other bit of the
status word, no special register, no other context, and no byte of memory. -/
def Obligations.ComputingFrame : Prop :=
  ∀ (s t : State) (i : Instr) (d : Reg) (fl : Bool), Plain s → Claim.computes i = some (d, fl) → i.wf = true →
    exec i s = .next t →
      t = s.setCtx s.cur t.me ∧
      t.me = { s.me with x := t.me.x, tags := t.me.tags, pc := t.me.pc, sta := { s.me.sta with flags := t.me.sta.flags } } ∧
      (∀ r, r ≠ d → t.me.reg r = s.me.reg r) ∧
      (∀ r : Reg, r.toNat / 2 ≠ d.toNat / 2 → t.me.tagOf r = s.me.tagOf r) ∧
      (fl = false → t.me.sta.flags = s.me.sta.flags) ∧ s.me.sta.flags &&& t.me.sta.flags = s.me.sta.flags ∧
      (∀ l, t.mem.read l = s.mem.read l)

end
end

