-- ==== Sys2Proof/Laws/State.lean ====
section
/-! SUPPORT. Sys2Proof/Laws/State.lean: what each update of a record of State leaves in every field, and reading a record
back after its update. -/

namespace Sys2Proof.Machine

/-! ## setCtx -/

@[simp] theorem State.setCtx_agenda (s : State) (c : Nat) (x : Ctx) : (s.setCtx c x).agenda = s.agenda := rfl
@[simp] theorem State.setCtx_turn (s : State) (c : Nat) (x : Ctx) : (s.setCtx c x).turn = s.turn := rfl
@[simp] theorem State.setCtx_cur (s : State) (c : Nat) (x : Ctx) : (s.setCtx c x).cur = s.cur := rfl
@[simp] theorem State.setCtx_fresh (s : State) (c : Nat) (x : Ctx) : (s.setCtx c x).fresh = s.fresh := rfl
@[simp] theorem State.setCtx_cycle (s : State) (c : Nat) (x : Ctx) : (s.setCtx c x).cycle = s.cycle := rfl
@[simp] theorem State.setCtx_refCycle (s : State) (c : Nat) (x : Ctx) : (s.setCtx c x).refCycle = s.refCycle := rfl
@[simp] theorem State.setCtx_netCycle (s : State) (c : Nat) (x : Ctx) : (s.setCtx c x).netCycle = s.netCycle := rfl
@[simp] theorem State.setCtx_cores (s : State) (c : Nat) (x : Ctx) : (s.setCtx c x).cores = s.cores := rfl
@[simp] theorem State.setCtx_ports (s : State) (c : Nat) (x : Ctx) : (s.setCtx c x).ports = s.ports := rfl
@[simp] theorem State.setCtx_mats (s : State) (c : Nat) (x : Ctx) : (s.setCtx c x).mats = s.mats := rfl
@[simp] theorem State.setCtx_clus (s : State) (c : Nat) (x : Ctx) : (s.setCtx c x).clus = s.clus := rfl
@[simp] theorem State.setCtx_mem (s : State) (c : Nat) (x : Ctx) : (s.setCtx c x).mem = s.mem := rfl
@[simp] theorem State.setCtx_empties (s : State) (c : Nat) (x : Ctx) : (s.setCtx c x).empties = s.empties := rfl
@[simp] theorem State.setCtx_mtags (s : State) (c : Nat) (x : Ctx) : (s.setCtx c x).mtags = s.mtags := rfl
@[simp] theorem State.setCtx_poison (s : State) (c : Nat) (x : Ctx) : (s.setCtx c x).poison = s.poison := rfl
@[simp] theorem State.setCtx_ecc (s : State) (c : Nat) (x : Ctx) : (s.setCtx c x).ecc = s.ecc := rfl
@[simp] theorem State.setCtx_soft (s : State) (c : Nat) (x : Ctx) : (s.setCtx c x).soft = s.soft := rfl
@[simp] theorem State.setCtx_walks (s : State) (c : Nat) (x : Ctx) : (s.setCtx c x).walks = s.walks := rfl
@[simp] theorem State.setCtx_dir (s : State) (c : Nat) (x : Ctx) : (s.setCtx c x).dir = s.dir := rfl
@[simp] theorem State.setCtx_rresv (s : State) (c : Nat) (x : Ctx) : (s.setCtx c x).rresv = s.rresv := rfl
@[simp] theorem State.setCtx_rfailed (s : State) (c : Nat) (x : Ctx) : (s.setCtx c x).rfailed = s.rfailed := rfl
@[simp] theorem State.setCtx_tiles (s : State) (c : Nat) (x : Ctx) : (s.setCtx c x).tiles = s.tiles := rfl
@[simp] theorem State.setCtx_parts (s : State) (c : Nat) (x : Ctx) : (s.setCtx c x).parts = s.parts := rfl
@[simp] theorem State.setCtx_launches (s : State) (c : Nat) (x : Ctx) : (s.setCtx c x).launches = s.launches := rfl
@[simp] theorem State.setCtx_packets (s : State) (c : Nat) (x : Ctx) : (s.setCtx c x).packets = s.packets := rfl
@[simp] theorem State.setCtx_nextCard (s : State) (c : Nat) (x : Ctx) : (s.setCtx c x).nextCard = s.nextCard := rfl
@[simp] theorem State.setCtx_claims (s : State) (c : Nat) (x : Ctx) : (s.setCtx c x).claims = s.claims := rfl
@[simp] theorem State.setCtx_nextTid (s : State) (c : Nat) (x : Ctx) : (s.setCtx c x).nextTid = s.nextTid := rfl
@[simp] theorem State.setCtx_nextMsg (s : State) (c : Nat) (x : Ctx) : (s.setCtx c x).nextMsg = s.nextMsg := rfl
@[simp] theorem State.setCtx_moving (s : State) (c : Nat) (x : Ctx) : (s.setCtx c x).moving = s.moving := rfl
@[simp] theorem State.setCtx_net (s : State) (c : Nat) (x : Ctx) : (s.setCtx c x).net = s.net := rfl
@[simp] theorem State.setCtx_waters (s : State) (c : Nat) (x : Ctx) : (s.setCtx c x).waters = s.waters := rfl
@[simp] theorem State.setCtx_grids (s : State) (c : Nat) (x : Ctx) : (s.setCtx c x).grids = s.grids := rfl
@[simp] theorem State.setCtx_nextGrid (s : State) (c : Nat) (x : Ctx) : (s.setCtx c x).nextGrid = s.nextGrid := rfl
@[simp] theorem State.setCtx_fills (s : State) (c : Nat) (x : Ctx) : (s.setCtx c x).fills = s.fills := rfl
@[simp] theorem State.setCtx_nextFill (s : State) (c : Nat) (x : Ctx) : (s.setCtx c x).nextFill = s.nextFill := rfl
@[simp] theorem State.setCtx_oports (s : State) (c : Nat) (x : Ctx) : (s.setCtx c x).oports = s.oports := rfl
@[simp] theorem State.setCtx_engDet (s : State) (c : Nat) (x : Ctx) : (s.setCtx c x).engDet = s.engDet := rfl
@[simp] theorem State.setCtx_engImg (s : State) (c : Nat) (x : Ctx) : (s.setCtx c x).engImg = s.engImg := rfl
@[simp] theorem State.setCtx_bankImg (s : State) (c : Nat) (x : Ctx) : (s.setCtx c x).bankImg = s.bankImg := rfl
@[simp] theorem State.setCtx_spilled (s : State) (c : Nat) (x : Ctx) : (s.setCtx c x).spilled = s.spilled := rfl
@[simp] theorem State.setCtx_soloBars (s : State) (c : Nat) (x : Ctx) : (s.setCtx c x).soloBars = s.soloBars := rfl
@[simp] theorem State.setCtx_pkg (s : State) (c : Nat) (x : Ctx) : (s.setCtx c x).pkg = s.pkg := rfl

/-! ## modCtx -/

@[simp] theorem State.modCtx_agenda (s : State) (c : Nat) (f : Ctx → Ctx) : (s.modCtx c f).agenda = s.agenda := rfl
@[simp] theorem State.modCtx_turn (s : State) (c : Nat) (f : Ctx → Ctx) : (s.modCtx c f).turn = s.turn := rfl
@[simp] theorem State.modCtx_cur (s : State) (c : Nat) (f : Ctx → Ctx) : (s.modCtx c f).cur = s.cur := rfl
@[simp] theorem State.modCtx_fresh (s : State) (c : Nat) (f : Ctx → Ctx) : (s.modCtx c f).fresh = s.fresh := rfl
@[simp] theorem State.modCtx_cycle (s : State) (c : Nat) (f : Ctx → Ctx) : (s.modCtx c f).cycle = s.cycle := rfl
@[simp] theorem State.modCtx_refCycle (s : State) (c : Nat) (f : Ctx → Ctx) : (s.modCtx c f).refCycle = s.refCycle := rfl
@[simp] theorem State.modCtx_netCycle (s : State) (c : Nat) (f : Ctx → Ctx) : (s.modCtx c f).netCycle = s.netCycle := rfl
@[simp] theorem State.modCtx_cores (s : State) (c : Nat) (f : Ctx → Ctx) : (s.modCtx c f).cores = s.cores := rfl
@[simp] theorem State.modCtx_ports (s : State) (c : Nat) (f : Ctx → Ctx) : (s.modCtx c f).ports = s.ports := rfl
@[simp] theorem State.modCtx_mats (s : State) (c : Nat) (f : Ctx → Ctx) : (s.modCtx c f).mats = s.mats := rfl
@[simp] theorem State.modCtx_clus (s : State) (c : Nat) (f : Ctx → Ctx) : (s.modCtx c f).clus = s.clus := rfl
@[simp] theorem State.modCtx_mem (s : State) (c : Nat) (f : Ctx → Ctx) : (s.modCtx c f).mem = s.mem := rfl
@[simp] theorem State.modCtx_empties (s : State) (c : Nat) (f : Ctx → Ctx) : (s.modCtx c f).empties = s.empties := rfl
@[simp] theorem State.modCtx_mtags (s : State) (c : Nat) (f : Ctx → Ctx) : (s.modCtx c f).mtags = s.mtags := rfl
@[simp] theorem State.modCtx_poison (s : State) (c : Nat) (f : Ctx → Ctx) : (s.modCtx c f).poison = s.poison := rfl
@[simp] theorem State.modCtx_ecc (s : State) (c : Nat) (f : Ctx → Ctx) : (s.modCtx c f).ecc = s.ecc := rfl
@[simp] theorem State.modCtx_soft (s : State) (c : Nat) (f : Ctx → Ctx) : (s.modCtx c f).soft = s.soft := rfl
@[simp] theorem State.modCtx_walks (s : State) (c : Nat) (f : Ctx → Ctx) : (s.modCtx c f).walks = s.walks := rfl
@[simp] theorem State.modCtx_dir (s : State) (c : Nat) (f : Ctx → Ctx) : (s.modCtx c f).dir = s.dir := rfl
@[simp] theorem State.modCtx_rresv (s : State) (c : Nat) (f : Ctx → Ctx) : (s.modCtx c f).rresv = s.rresv := rfl
@[simp] theorem State.modCtx_rfailed (s : State) (c : Nat) (f : Ctx → Ctx) : (s.modCtx c f).rfailed = s.rfailed := rfl
@[simp] theorem State.modCtx_tiles (s : State) (c : Nat) (f : Ctx → Ctx) : (s.modCtx c f).tiles = s.tiles := rfl
@[simp] theorem State.modCtx_parts (s : State) (c : Nat) (f : Ctx → Ctx) : (s.modCtx c f).parts = s.parts := rfl
@[simp] theorem State.modCtx_launches (s : State) (c : Nat) (f : Ctx → Ctx) : (s.modCtx c f).launches = s.launches := rfl
@[simp] theorem State.modCtx_packets (s : State) (c : Nat) (f : Ctx → Ctx) : (s.modCtx c f).packets = s.packets := rfl
@[simp] theorem State.modCtx_nextCard (s : State) (c : Nat) (f : Ctx → Ctx) : (s.modCtx c f).nextCard = s.nextCard := rfl
@[simp] theorem State.modCtx_claims (s : State) (c : Nat) (f : Ctx → Ctx) : (s.modCtx c f).claims = s.claims := rfl
@[simp] theorem State.modCtx_nextTid (s : State) (c : Nat) (f : Ctx → Ctx) : (s.modCtx c f).nextTid = s.nextTid := rfl
@[simp] theorem State.modCtx_nextMsg (s : State) (c : Nat) (f : Ctx → Ctx) : (s.modCtx c f).nextMsg = s.nextMsg := rfl
@[simp] theorem State.modCtx_moving (s : State) (c : Nat) (f : Ctx → Ctx) : (s.modCtx c f).moving = s.moving := rfl
@[simp] theorem State.modCtx_net (s : State) (c : Nat) (f : Ctx → Ctx) : (s.modCtx c f).net = s.net := rfl
@[simp] theorem State.modCtx_waters (s : State) (c : Nat) (f : Ctx → Ctx) : (s.modCtx c f).waters = s.waters := rfl
@[simp] theorem State.modCtx_grids (s : State) (c : Nat) (f : Ctx → Ctx) : (s.modCtx c f).grids = s.grids := rfl
@[simp] theorem State.modCtx_nextGrid (s : State) (c : Nat) (f : Ctx → Ctx) : (s.modCtx c f).nextGrid = s.nextGrid := rfl
@[simp] theorem State.modCtx_fills (s : State) (c : Nat) (f : Ctx → Ctx) : (s.modCtx c f).fills = s.fills := rfl
@[simp] theorem State.modCtx_nextFill (s : State) (c : Nat) (f : Ctx → Ctx) : (s.modCtx c f).nextFill = s.nextFill := rfl
@[simp] theorem State.modCtx_oports (s : State) (c : Nat) (f : Ctx → Ctx) : (s.modCtx c f).oports = s.oports := rfl
@[simp] theorem State.modCtx_engDet (s : State) (c : Nat) (f : Ctx → Ctx) : (s.modCtx c f).engDet = s.engDet := rfl
@[simp] theorem State.modCtx_engImg (s : State) (c : Nat) (f : Ctx → Ctx) : (s.modCtx c f).engImg = s.engImg := rfl
@[simp] theorem State.modCtx_bankImg (s : State) (c : Nat) (f : Ctx → Ctx) : (s.modCtx c f).bankImg = s.bankImg := rfl
@[simp] theorem State.modCtx_spilled (s : State) (c : Nat) (f : Ctx → Ctx) : (s.modCtx c f).spilled = s.spilled := rfl
@[simp] theorem State.modCtx_soloBars (s : State) (c : Nat) (f : Ctx → Ctx) : (s.modCtx c f).soloBars = s.soloBars := rfl
@[simp] theorem State.modCtx_pkg (s : State) (c : Nat) (f : Ctx → Ctx) : (s.modCtx c f).pkg = s.pkg := rfl

/-! ## modCore -/

@[simp] theorem State.modCore_agenda (s : State) (k : Nat) (f : CoreSt → CoreSt) : (s.modCore k f).agenda = s.agenda := rfl
@[simp] theorem State.modCore_turn (s : State) (k : Nat) (f : CoreSt → CoreSt) : (s.modCore k f).turn = s.turn := rfl
@[simp] theorem State.modCore_cur (s : State) (k : Nat) (f : CoreSt → CoreSt) : (s.modCore k f).cur = s.cur := rfl
@[simp] theorem State.modCore_fresh (s : State) (k : Nat) (f : CoreSt → CoreSt) : (s.modCore k f).fresh = s.fresh := rfl
@[simp] theorem State.modCore_cycle (s : State) (k : Nat) (f : CoreSt → CoreSt) : (s.modCore k f).cycle = s.cycle := rfl
@[simp] theorem State.modCore_refCycle (s : State) (k : Nat) (f : CoreSt → CoreSt) : (s.modCore k f).refCycle = s.refCycle := rfl
@[simp] theorem State.modCore_netCycle (s : State) (k : Nat) (f : CoreSt → CoreSt) : (s.modCore k f).netCycle = s.netCycle := rfl
@[simp] theorem State.modCore_ctxs (s : State) (k : Nat) (f : CoreSt → CoreSt) : (s.modCore k f).ctxs = s.ctxs := rfl
@[simp] theorem State.modCore_ports (s : State) (k : Nat) (f : CoreSt → CoreSt) : (s.modCore k f).ports = s.ports := rfl
@[simp] theorem State.modCore_mats (s : State) (k : Nat) (f : CoreSt → CoreSt) : (s.modCore k f).mats = s.mats := rfl
@[simp] theorem State.modCore_clus (s : State) (k : Nat) (f : CoreSt → CoreSt) : (s.modCore k f).clus = s.clus := rfl
@[simp] theorem State.modCore_mem (s : State) (k : Nat) (f : CoreSt → CoreSt) : (s.modCore k f).mem = s.mem := rfl
@[simp] theorem State.modCore_empties (s : State) (k : Nat) (f : CoreSt → CoreSt) : (s.modCore k f).empties = s.empties := rfl
@[simp] theorem State.modCore_mtags (s : State) (k : Nat) (f : CoreSt → CoreSt) : (s.modCore k f).mtags = s.mtags := rfl
@[simp] theorem State.modCore_poison (s : State) (k : Nat) (f : CoreSt → CoreSt) : (s.modCore k f).poison = s.poison := rfl
@[simp] theorem State.modCore_ecc (s : State) (k : Nat) (f : CoreSt → CoreSt) : (s.modCore k f).ecc = s.ecc := rfl
@[simp] theorem State.modCore_soft (s : State) (k : Nat) (f : CoreSt → CoreSt) : (s.modCore k f).soft = s.soft := rfl
@[simp] theorem State.modCore_walks (s : State) (k : Nat) (f : CoreSt → CoreSt) : (s.modCore k f).walks = s.walks := rfl
@[simp] theorem State.modCore_dir (s : State) (k : Nat) (f : CoreSt → CoreSt) : (s.modCore k f).dir = s.dir := rfl
@[simp] theorem State.modCore_rresv (s : State) (k : Nat) (f : CoreSt → CoreSt) : (s.modCore k f).rresv = s.rresv := rfl
@[simp] theorem State.modCore_rfailed (s : State) (k : Nat) (f : CoreSt → CoreSt) : (s.modCore k f).rfailed = s.rfailed := rfl
@[simp] theorem State.modCore_tiles (s : State) (k : Nat) (f : CoreSt → CoreSt) : (s.modCore k f).tiles = s.tiles := rfl
@[simp] theorem State.modCore_parts (s : State) (k : Nat) (f : CoreSt → CoreSt) : (s.modCore k f).parts = s.parts := rfl
@[simp] theorem State.modCore_launches (s : State) (k : Nat) (f : CoreSt → CoreSt) : (s.modCore k f).launches = s.launches := rfl
@[simp] theorem State.modCore_packets (s : State) (k : Nat) (f : CoreSt → CoreSt) : (s.modCore k f).packets = s.packets := rfl
@[simp] theorem State.modCore_nextCard (s : State) (k : Nat) (f : CoreSt → CoreSt) : (s.modCore k f).nextCard = s.nextCard := rfl
@[simp] theorem State.modCore_claims (s : State) (k : Nat) (f : CoreSt → CoreSt) : (s.modCore k f).claims = s.claims := rfl
@[simp] theorem State.modCore_nextTid (s : State) (k : Nat) (f : CoreSt → CoreSt) : (s.modCore k f).nextTid = s.nextTid := rfl
@[simp] theorem State.modCore_nextMsg (s : State) (k : Nat) (f : CoreSt → CoreSt) : (s.modCore k f).nextMsg = s.nextMsg := rfl
@[simp] theorem State.modCore_moving (s : State) (k : Nat) (f : CoreSt → CoreSt) : (s.modCore k f).moving = s.moving := rfl
@[simp] theorem State.modCore_net (s : State) (k : Nat) (f : CoreSt → CoreSt) : (s.modCore k f).net = s.net := rfl
@[simp] theorem State.modCore_waters (s : State) (k : Nat) (f : CoreSt → CoreSt) : (s.modCore k f).waters = s.waters := rfl
@[simp] theorem State.modCore_grids (s : State) (k : Nat) (f : CoreSt → CoreSt) : (s.modCore k f).grids = s.grids := rfl
@[simp] theorem State.modCore_nextGrid (s : State) (k : Nat) (f : CoreSt → CoreSt) : (s.modCore k f).nextGrid = s.nextGrid := rfl
@[simp] theorem State.modCore_fills (s : State) (k : Nat) (f : CoreSt → CoreSt) : (s.modCore k f).fills = s.fills := rfl
@[simp] theorem State.modCore_nextFill (s : State) (k : Nat) (f : CoreSt → CoreSt) : (s.modCore k f).nextFill = s.nextFill := rfl
@[simp] theorem State.modCore_oports (s : State) (k : Nat) (f : CoreSt → CoreSt) : (s.modCore k f).oports = s.oports := rfl
@[simp] theorem State.modCore_engDet (s : State) (k : Nat) (f : CoreSt → CoreSt) : (s.modCore k f).engDet = s.engDet := rfl
@[simp] theorem State.modCore_engImg (s : State) (k : Nat) (f : CoreSt → CoreSt) : (s.modCore k f).engImg = s.engImg := rfl
@[simp] theorem State.modCore_bankImg (s : State) (k : Nat) (f : CoreSt → CoreSt) : (s.modCore k f).bankImg = s.bankImg := rfl
@[simp] theorem State.modCore_spilled (s : State) (k : Nat) (f : CoreSt → CoreSt) : (s.modCore k f).spilled = s.spilled := rfl
@[simp] theorem State.modCore_soloBars (s : State) (k : Nat) (f : CoreSt → CoreSt) : (s.modCore k f).soloBars = s.soloBars := rfl
@[simp] theorem State.modCore_pkg (s : State) (k : Nat) (f : CoreSt → CoreSt) : (s.modCore k f).pkg = s.pkg := rfl

/-! ## modPort -/

@[simp] theorem State.modPort_agenda (s : State) (k p : Nat) (f : Port → Port) : (s.modPort k p f).agenda = s.agenda := rfl
@[simp] theorem State.modPort_turn (s : State) (k p : Nat) (f : Port → Port) : (s.modPort k p f).turn = s.turn := rfl
@[simp] theorem State.modPort_cur (s : State) (k p : Nat) (f : Port → Port) : (s.modPort k p f).cur = s.cur := rfl
@[simp] theorem State.modPort_fresh (s : State) (k p : Nat) (f : Port → Port) : (s.modPort k p f).fresh = s.fresh := rfl
@[simp] theorem State.modPort_cycle (s : State) (k p : Nat) (f : Port → Port) : (s.modPort k p f).cycle = s.cycle := rfl
@[simp] theorem State.modPort_refCycle (s : State) (k p : Nat) (f : Port → Port) : (s.modPort k p f).refCycle = s.refCycle := rfl
@[simp] theorem State.modPort_netCycle (s : State) (k p : Nat) (f : Port → Port) : (s.modPort k p f).netCycle = s.netCycle := rfl
@[simp] theorem State.modPort_ctxs (s : State) (k p : Nat) (f : Port → Port) : (s.modPort k p f).ctxs = s.ctxs := rfl
@[simp] theorem State.modPort_cores (s : State) (k p : Nat) (f : Port → Port) : (s.modPort k p f).cores = s.cores := rfl
@[simp] theorem State.modPort_mats (s : State) (k p : Nat) (f : Port → Port) : (s.modPort k p f).mats = s.mats := rfl
@[simp] theorem State.modPort_clus (s : State) (k p : Nat) (f : Port → Port) : (s.modPort k p f).clus = s.clus := rfl
@[simp] theorem State.modPort_mem (s : State) (k p : Nat) (f : Port → Port) : (s.modPort k p f).mem = s.mem := rfl
@[simp] theorem State.modPort_empties (s : State) (k p : Nat) (f : Port → Port) : (s.modPort k p f).empties = s.empties := rfl
@[simp] theorem State.modPort_mtags (s : State) (k p : Nat) (f : Port → Port) : (s.modPort k p f).mtags = s.mtags := rfl
@[simp] theorem State.modPort_poison (s : State) (k p : Nat) (f : Port → Port) : (s.modPort k p f).poison = s.poison := rfl
@[simp] theorem State.modPort_ecc (s : State) (k p : Nat) (f : Port → Port) : (s.modPort k p f).ecc = s.ecc := rfl
@[simp] theorem State.modPort_soft (s : State) (k p : Nat) (f : Port → Port) : (s.modPort k p f).soft = s.soft := rfl
@[simp] theorem State.modPort_walks (s : State) (k p : Nat) (f : Port → Port) : (s.modPort k p f).walks = s.walks := rfl
@[simp] theorem State.modPort_dir (s : State) (k p : Nat) (f : Port → Port) : (s.modPort k p f).dir = s.dir := rfl
@[simp] theorem State.modPort_rresv (s : State) (k p : Nat) (f : Port → Port) : (s.modPort k p f).rresv = s.rresv := rfl
@[simp] theorem State.modPort_rfailed (s : State) (k p : Nat) (f : Port → Port) : (s.modPort k p f).rfailed = s.rfailed := rfl
@[simp] theorem State.modPort_tiles (s : State) (k p : Nat) (f : Port → Port) : (s.modPort k p f).tiles = s.tiles := rfl
@[simp] theorem State.modPort_parts (s : State) (k p : Nat) (f : Port → Port) : (s.modPort k p f).parts = s.parts := rfl
@[simp] theorem State.modPort_launches (s : State) (k p : Nat) (f : Port → Port) : (s.modPort k p f).launches = s.launches := rfl
@[simp] theorem State.modPort_packets (s : State) (k p : Nat) (f : Port → Port) : (s.modPort k p f).packets = s.packets := rfl
@[simp] theorem State.modPort_nextCard (s : State) (k p : Nat) (f : Port → Port) : (s.modPort k p f).nextCard = s.nextCard := rfl
@[simp] theorem State.modPort_claims (s : State) (k p : Nat) (f : Port → Port) : (s.modPort k p f).claims = s.claims := rfl
@[simp] theorem State.modPort_nextTid (s : State) (k p : Nat) (f : Port → Port) : (s.modPort k p f).nextTid = s.nextTid := rfl
@[simp] theorem State.modPort_nextMsg (s : State) (k p : Nat) (f : Port → Port) : (s.modPort k p f).nextMsg = s.nextMsg := rfl
@[simp] theorem State.modPort_moving (s : State) (k p : Nat) (f : Port → Port) : (s.modPort k p f).moving = s.moving := rfl
@[simp] theorem State.modPort_net (s : State) (k p : Nat) (f : Port → Port) : (s.modPort k p f).net = s.net := rfl
@[simp] theorem State.modPort_waters (s : State) (k p : Nat) (f : Port → Port) : (s.modPort k p f).waters = s.waters := rfl
@[simp] theorem State.modPort_grids (s : State) (k p : Nat) (f : Port → Port) : (s.modPort k p f).grids = s.grids := rfl
@[simp] theorem State.modPort_nextGrid (s : State) (k p : Nat) (f : Port → Port) : (s.modPort k p f).nextGrid = s.nextGrid := rfl
@[simp] theorem State.modPort_fills (s : State) (k p : Nat) (f : Port → Port) : (s.modPort k p f).fills = s.fills := rfl
@[simp] theorem State.modPort_nextFill (s : State) (k p : Nat) (f : Port → Port) : (s.modPort k p f).nextFill = s.nextFill := rfl
@[simp] theorem State.modPort_oports (s : State) (k p : Nat) (f : Port → Port) : (s.modPort k p f).oports = s.oports := rfl
@[simp] theorem State.modPort_engDet (s : State) (k p : Nat) (f : Port → Port) : (s.modPort k p f).engDet = s.engDet := rfl
@[simp] theorem State.modPort_engImg (s : State) (k p : Nat) (f : Port → Port) : (s.modPort k p f).engImg = s.engImg := rfl
@[simp] theorem State.modPort_bankImg (s : State) (k p : Nat) (f : Port → Port) : (s.modPort k p f).bankImg = s.bankImg := rfl
@[simp] theorem State.modPort_spilled (s : State) (k p : Nat) (f : Port → Port) : (s.modPort k p f).spilled = s.spilled := rfl
@[simp] theorem State.modPort_soloBars (s : State) (k p : Nat) (f : Port → Port) : (s.modPort k p f).soloBars = s.soloBars := rfl
@[simp] theorem State.modPort_pkg (s : State) (k p : Nat) (f : Port → Port) : (s.modPort k p f).pkg = s.pkg := rfl

/-! ## modMat -/

@[simp] theorem State.modMat_agenda (s : State) (k : Nat) (f : Mat → Mat) : (s.modMat k f).agenda = s.agenda := rfl
@[simp] theorem State.modMat_turn (s : State) (k : Nat) (f : Mat → Mat) : (s.modMat k f).turn = s.turn := rfl
@[simp] theorem State.modMat_cur (s : State) (k : Nat) (f : Mat → Mat) : (s.modMat k f).cur = s.cur := rfl
@[simp] theorem State.modMat_fresh (s : State) (k : Nat) (f : Mat → Mat) : (s.modMat k f).fresh = s.fresh := rfl
@[simp] theorem State.modMat_cycle (s : State) (k : Nat) (f : Mat → Mat) : (s.modMat k f).cycle = s.cycle := rfl
@[simp] theorem State.modMat_refCycle (s : State) (k : Nat) (f : Mat → Mat) : (s.modMat k f).refCycle = s.refCycle := rfl
@[simp] theorem State.modMat_netCycle (s : State) (k : Nat) (f : Mat → Mat) : (s.modMat k f).netCycle = s.netCycle := rfl
@[simp] theorem State.modMat_ctxs (s : State) (k : Nat) (f : Mat → Mat) : (s.modMat k f).ctxs = s.ctxs := rfl
@[simp] theorem State.modMat_cores (s : State) (k : Nat) (f : Mat → Mat) : (s.modMat k f).cores = s.cores := rfl
@[simp] theorem State.modMat_ports (s : State) (k : Nat) (f : Mat → Mat) : (s.modMat k f).ports = s.ports := rfl
@[simp] theorem State.modMat_clus (s : State) (k : Nat) (f : Mat → Mat) : (s.modMat k f).clus = s.clus := rfl
@[simp] theorem State.modMat_mem (s : State) (k : Nat) (f : Mat → Mat) : (s.modMat k f).mem = s.mem := rfl
@[simp] theorem State.modMat_empties (s : State) (k : Nat) (f : Mat → Mat) : (s.modMat k f).empties = s.empties := rfl
@[simp] theorem State.modMat_mtags (s : State) (k : Nat) (f : Mat → Mat) : (s.modMat k f).mtags = s.mtags := rfl
@[simp] theorem State.modMat_poison (s : State) (k : Nat) (f : Mat → Mat) : (s.modMat k f).poison = s.poison := rfl
@[simp] theorem State.modMat_ecc (s : State) (k : Nat) (f : Mat → Mat) : (s.modMat k f).ecc = s.ecc := rfl
@[simp] theorem State.modMat_soft (s : State) (k : Nat) (f : Mat → Mat) : (s.modMat k f).soft = s.soft := rfl
@[simp] theorem State.modMat_walks (s : State) (k : Nat) (f : Mat → Mat) : (s.modMat k f).walks = s.walks := rfl
@[simp] theorem State.modMat_dir (s : State) (k : Nat) (f : Mat → Mat) : (s.modMat k f).dir = s.dir := rfl
@[simp] theorem State.modMat_rresv (s : State) (k : Nat) (f : Mat → Mat) : (s.modMat k f).rresv = s.rresv := rfl
@[simp] theorem State.modMat_rfailed (s : State) (k : Nat) (f : Mat → Mat) : (s.modMat k f).rfailed = s.rfailed := rfl
@[simp] theorem State.modMat_tiles (s : State) (k : Nat) (f : Mat → Mat) : (s.modMat k f).tiles = s.tiles := rfl
@[simp] theorem State.modMat_parts (s : State) (k : Nat) (f : Mat → Mat) : (s.modMat k f).parts = s.parts := rfl
@[simp] theorem State.modMat_launches (s : State) (k : Nat) (f : Mat → Mat) : (s.modMat k f).launches = s.launches := rfl
@[simp] theorem State.modMat_packets (s : State) (k : Nat) (f : Mat → Mat) : (s.modMat k f).packets = s.packets := rfl
@[simp] theorem State.modMat_nextCard (s : State) (k : Nat) (f : Mat → Mat) : (s.modMat k f).nextCard = s.nextCard := rfl
@[simp] theorem State.modMat_claims (s : State) (k : Nat) (f : Mat → Mat) : (s.modMat k f).claims = s.claims := rfl
@[simp] theorem State.modMat_nextTid (s : State) (k : Nat) (f : Mat → Mat) : (s.modMat k f).nextTid = s.nextTid := rfl
@[simp] theorem State.modMat_nextMsg (s : State) (k : Nat) (f : Mat → Mat) : (s.modMat k f).nextMsg = s.nextMsg := rfl
@[simp] theorem State.modMat_moving (s : State) (k : Nat) (f : Mat → Mat) : (s.modMat k f).moving = s.moving := rfl
@[simp] theorem State.modMat_net (s : State) (k : Nat) (f : Mat → Mat) : (s.modMat k f).net = s.net := rfl
@[simp] theorem State.modMat_waters (s : State) (k : Nat) (f : Mat → Mat) : (s.modMat k f).waters = s.waters := rfl
@[simp] theorem State.modMat_grids (s : State) (k : Nat) (f : Mat → Mat) : (s.modMat k f).grids = s.grids := rfl
@[simp] theorem State.modMat_nextGrid (s : State) (k : Nat) (f : Mat → Mat) : (s.modMat k f).nextGrid = s.nextGrid := rfl
@[simp] theorem State.modMat_fills (s : State) (k : Nat) (f : Mat → Mat) : (s.modMat k f).fills = s.fills := rfl
@[simp] theorem State.modMat_nextFill (s : State) (k : Nat) (f : Mat → Mat) : (s.modMat k f).nextFill = s.nextFill := rfl
@[simp] theorem State.modMat_oports (s : State) (k : Nat) (f : Mat → Mat) : (s.modMat k f).oports = s.oports := rfl
@[simp] theorem State.modMat_engDet (s : State) (k : Nat) (f : Mat → Mat) : (s.modMat k f).engDet = s.engDet := rfl
@[simp] theorem State.modMat_engImg (s : State) (k : Nat) (f : Mat → Mat) : (s.modMat k f).engImg = s.engImg := rfl
@[simp] theorem State.modMat_bankImg (s : State) (k : Nat) (f : Mat → Mat) : (s.modMat k f).bankImg = s.bankImg := rfl
@[simp] theorem State.modMat_spilled (s : State) (k : Nat) (f : Mat → Mat) : (s.modMat k f).spilled = s.spilled := rfl
@[simp] theorem State.modMat_soloBars (s : State) (k : Nat) (f : Mat → Mat) : (s.modMat k f).soloBars = s.soloBars := rfl
@[simp] theorem State.modMat_pkg (s : State) (k : Nat) (f : Mat → Mat) : (s.modMat k f).pkg = s.pkg := rfl

/-! ## modClu -/

@[simp] theorem State.modClu_agenda (s : State) (k : Nat) (f : Cluster → Cluster) : (s.modClu k f).agenda = s.agenda := rfl
@[simp] theorem State.modClu_turn (s : State) (k : Nat) (f : Cluster → Cluster) : (s.modClu k f).turn = s.turn := rfl
@[simp] theorem State.modClu_cur (s : State) (k : Nat) (f : Cluster → Cluster) : (s.modClu k f).cur = s.cur := rfl
@[simp] theorem State.modClu_fresh (s : State) (k : Nat) (f : Cluster → Cluster) : (s.modClu k f).fresh = s.fresh := rfl
@[simp] theorem State.modClu_cycle (s : State) (k : Nat) (f : Cluster → Cluster) : (s.modClu k f).cycle = s.cycle := rfl
@[simp] theorem State.modClu_refCycle (s : State) (k : Nat) (f : Cluster → Cluster) : (s.modClu k f).refCycle = s.refCycle := rfl
@[simp] theorem State.modClu_netCycle (s : State) (k : Nat) (f : Cluster → Cluster) : (s.modClu k f).netCycle = s.netCycle := rfl
@[simp] theorem State.modClu_ctxs (s : State) (k : Nat) (f : Cluster → Cluster) : (s.modClu k f).ctxs = s.ctxs := rfl
@[simp] theorem State.modClu_cores (s : State) (k : Nat) (f : Cluster → Cluster) : (s.modClu k f).cores = s.cores := rfl
@[simp] theorem State.modClu_ports (s : State) (k : Nat) (f : Cluster → Cluster) : (s.modClu k f).ports = s.ports := rfl
@[simp] theorem State.modClu_mats (s : State) (k : Nat) (f : Cluster → Cluster) : (s.modClu k f).mats = s.mats := rfl
@[simp] theorem State.modClu_mem (s : State) (k : Nat) (f : Cluster → Cluster) : (s.modClu k f).mem = s.mem := rfl
@[simp] theorem State.modClu_empties (s : State) (k : Nat) (f : Cluster → Cluster) : (s.modClu k f).empties = s.empties := rfl
@[simp] theorem State.modClu_mtags (s : State) (k : Nat) (f : Cluster → Cluster) : (s.modClu k f).mtags = s.mtags := rfl
@[simp] theorem State.modClu_poison (s : State) (k : Nat) (f : Cluster → Cluster) : (s.modClu k f).poison = s.poison := rfl
@[simp] theorem State.modClu_ecc (s : State) (k : Nat) (f : Cluster → Cluster) : (s.modClu k f).ecc = s.ecc := rfl
@[simp] theorem State.modClu_soft (s : State) (k : Nat) (f : Cluster → Cluster) : (s.modClu k f).soft = s.soft := rfl
@[simp] theorem State.modClu_walks (s : State) (k : Nat) (f : Cluster → Cluster) : (s.modClu k f).walks = s.walks := rfl
@[simp] theorem State.modClu_dir (s : State) (k : Nat) (f : Cluster → Cluster) : (s.modClu k f).dir = s.dir := rfl
@[simp] theorem State.modClu_rresv (s : State) (k : Nat) (f : Cluster → Cluster) : (s.modClu k f).rresv = s.rresv := rfl
@[simp] theorem State.modClu_rfailed (s : State) (k : Nat) (f : Cluster → Cluster) : (s.modClu k f).rfailed = s.rfailed := rfl
@[simp] theorem State.modClu_tiles (s : State) (k : Nat) (f : Cluster → Cluster) : (s.modClu k f).tiles = s.tiles := rfl
@[simp] theorem State.modClu_parts (s : State) (k : Nat) (f : Cluster → Cluster) : (s.modClu k f).parts = s.parts := rfl
@[simp] theorem State.modClu_launches (s : State) (k : Nat) (f : Cluster → Cluster) : (s.modClu k f).launches = s.launches := rfl
@[simp] theorem State.modClu_packets (s : State) (k : Nat) (f : Cluster → Cluster) : (s.modClu k f).packets = s.packets := rfl
@[simp] theorem State.modClu_nextCard (s : State) (k : Nat) (f : Cluster → Cluster) : (s.modClu k f).nextCard = s.nextCard := rfl
@[simp] theorem State.modClu_claims (s : State) (k : Nat) (f : Cluster → Cluster) : (s.modClu k f).claims = s.claims := rfl
@[simp] theorem State.modClu_nextTid (s : State) (k : Nat) (f : Cluster → Cluster) : (s.modClu k f).nextTid = s.nextTid := rfl
@[simp] theorem State.modClu_nextMsg (s : State) (k : Nat) (f : Cluster → Cluster) : (s.modClu k f).nextMsg = s.nextMsg := rfl
@[simp] theorem State.modClu_moving (s : State) (k : Nat) (f : Cluster → Cluster) : (s.modClu k f).moving = s.moving := rfl
@[simp] theorem State.modClu_net (s : State) (k : Nat) (f : Cluster → Cluster) : (s.modClu k f).net = s.net := rfl
@[simp] theorem State.modClu_waters (s : State) (k : Nat) (f : Cluster → Cluster) : (s.modClu k f).waters = s.waters := rfl
@[simp] theorem State.modClu_grids (s : State) (k : Nat) (f : Cluster → Cluster) : (s.modClu k f).grids = s.grids := rfl
@[simp] theorem State.modClu_nextGrid (s : State) (k : Nat) (f : Cluster → Cluster) : (s.modClu k f).nextGrid = s.nextGrid := rfl
@[simp] theorem State.modClu_fills (s : State) (k : Nat) (f : Cluster → Cluster) : (s.modClu k f).fills = s.fills := rfl
@[simp] theorem State.modClu_nextFill (s : State) (k : Nat) (f : Cluster → Cluster) : (s.modClu k f).nextFill = s.nextFill := rfl
@[simp] theorem State.modClu_oports (s : State) (k : Nat) (f : Cluster → Cluster) : (s.modClu k f).oports = s.oports := rfl
@[simp] theorem State.modClu_engDet (s : State) (k : Nat) (f : Cluster → Cluster) : (s.modClu k f).engDet = s.engDet := rfl
@[simp] theorem State.modClu_engImg (s : State) (k : Nat) (f : Cluster → Cluster) : (s.modClu k f).engImg = s.engImg := rfl
@[simp] theorem State.modClu_bankImg (s : State) (k : Nat) (f : Cluster → Cluster) : (s.modClu k f).bankImg = s.bankImg := rfl
@[simp] theorem State.modClu_spilled (s : State) (k : Nat) (f : Cluster → Cluster) : (s.modClu k f).spilled = s.spilled := rfl
@[simp] theorem State.modClu_soloBars (s : State) (k : Nat) (f : Cluster → Cluster) : (s.modClu k f).soloBars = s.soloBars := rfl
@[simp] theorem State.modClu_pkg (s : State) (k : Nat) (f : Cluster → Cluster) : (s.modClu k f).pkg = s.pkg := rfl

/-! ## modPart -/

@[simp] theorem State.modPart_agenda (s : State) (p : Nat) (f : Part → Part) : (s.modPart p f).agenda = s.agenda := rfl
@[simp] theorem State.modPart_turn (s : State) (p : Nat) (f : Part → Part) : (s.modPart p f).turn = s.turn := rfl
@[simp] theorem State.modPart_cur (s : State) (p : Nat) (f : Part → Part) : (s.modPart p f).cur = s.cur := rfl
@[simp] theorem State.modPart_fresh (s : State) (p : Nat) (f : Part → Part) : (s.modPart p f).fresh = s.fresh := rfl
@[simp] theorem State.modPart_cycle (s : State) (p : Nat) (f : Part → Part) : (s.modPart p f).cycle = s.cycle := rfl
@[simp] theorem State.modPart_refCycle (s : State) (p : Nat) (f : Part → Part) : (s.modPart p f).refCycle = s.refCycle := rfl
@[simp] theorem State.modPart_netCycle (s : State) (p : Nat) (f : Part → Part) : (s.modPart p f).netCycle = s.netCycle := rfl
@[simp] theorem State.modPart_ctxs (s : State) (p : Nat) (f : Part → Part) : (s.modPart p f).ctxs = s.ctxs := rfl
@[simp] theorem State.modPart_cores (s : State) (p : Nat) (f : Part → Part) : (s.modPart p f).cores = s.cores := rfl
@[simp] theorem State.modPart_ports (s : State) (p : Nat) (f : Part → Part) : (s.modPart p f).ports = s.ports := rfl
@[simp] theorem State.modPart_mats (s : State) (p : Nat) (f : Part → Part) : (s.modPart p f).mats = s.mats := rfl
@[simp] theorem State.modPart_clus (s : State) (p : Nat) (f : Part → Part) : (s.modPart p f).clus = s.clus := rfl
@[simp] theorem State.modPart_mem (s : State) (p : Nat) (f : Part → Part) : (s.modPart p f).mem = s.mem := rfl
@[simp] theorem State.modPart_empties (s : State) (p : Nat) (f : Part → Part) : (s.modPart p f).empties = s.empties := rfl
@[simp] theorem State.modPart_mtags (s : State) (p : Nat) (f : Part → Part) : (s.modPart p f).mtags = s.mtags := rfl
@[simp] theorem State.modPart_poison (s : State) (p : Nat) (f : Part → Part) : (s.modPart p f).poison = s.poison := rfl
@[simp] theorem State.modPart_ecc (s : State) (p : Nat) (f : Part → Part) : (s.modPart p f).ecc = s.ecc := rfl
@[simp] theorem State.modPart_soft (s : State) (p : Nat) (f : Part → Part) : (s.modPart p f).soft = s.soft := rfl
@[simp] theorem State.modPart_walks (s : State) (p : Nat) (f : Part → Part) : (s.modPart p f).walks = s.walks := rfl
@[simp] theorem State.modPart_dir (s : State) (p : Nat) (f : Part → Part) : (s.modPart p f).dir = s.dir := rfl
@[simp] theorem State.modPart_rresv (s : State) (p : Nat) (f : Part → Part) : (s.modPart p f).rresv = s.rresv := rfl
@[simp] theorem State.modPart_rfailed (s : State) (p : Nat) (f : Part → Part) : (s.modPart p f).rfailed = s.rfailed := rfl
@[simp] theorem State.modPart_tiles (s : State) (p : Nat) (f : Part → Part) : (s.modPart p f).tiles = s.tiles := rfl
@[simp] theorem State.modPart_launches (s : State) (p : Nat) (f : Part → Part) : (s.modPart p f).launches = s.launches := rfl
@[simp] theorem State.modPart_packets (s : State) (p : Nat) (f : Part → Part) : (s.modPart p f).packets = s.packets := rfl
@[simp] theorem State.modPart_nextCard (s : State) (p : Nat) (f : Part → Part) : (s.modPart p f).nextCard = s.nextCard := rfl
@[simp] theorem State.modPart_claims (s : State) (p : Nat) (f : Part → Part) : (s.modPart p f).claims = s.claims := rfl
@[simp] theorem State.modPart_nextTid (s : State) (p : Nat) (f : Part → Part) : (s.modPart p f).nextTid = s.nextTid := rfl
@[simp] theorem State.modPart_nextMsg (s : State) (p : Nat) (f : Part → Part) : (s.modPart p f).nextMsg = s.nextMsg := rfl
@[simp] theorem State.modPart_moving (s : State) (p : Nat) (f : Part → Part) : (s.modPart p f).moving = s.moving := rfl
@[simp] theorem State.modPart_net (s : State) (p : Nat) (f : Part → Part) : (s.modPart p f).net = s.net := rfl
@[simp] theorem State.modPart_waters (s : State) (p : Nat) (f : Part → Part) : (s.modPart p f).waters = s.waters := rfl
@[simp] theorem State.modPart_grids (s : State) (p : Nat) (f : Part → Part) : (s.modPart p f).grids = s.grids := rfl
@[simp] theorem State.modPart_nextGrid (s : State) (p : Nat) (f : Part → Part) : (s.modPart p f).nextGrid = s.nextGrid := rfl
@[simp] theorem State.modPart_fills (s : State) (p : Nat) (f : Part → Part) : (s.modPart p f).fills = s.fills := rfl
@[simp] theorem State.modPart_nextFill (s : State) (p : Nat) (f : Part → Part) : (s.modPart p f).nextFill = s.nextFill := rfl
@[simp] theorem State.modPart_oports (s : State) (p : Nat) (f : Part → Part) : (s.modPart p f).oports = s.oports := rfl
@[simp] theorem State.modPart_engDet (s : State) (p : Nat) (f : Part → Part) : (s.modPart p f).engDet = s.engDet := rfl
@[simp] theorem State.modPart_engImg (s : State) (p : Nat) (f : Part → Part) : (s.modPart p f).engImg = s.engImg := rfl
@[simp] theorem State.modPart_bankImg (s : State) (p : Nat) (f : Part → Part) : (s.modPart p f).bankImg = s.bankImg := rfl
@[simp] theorem State.modPart_spilled (s : State) (p : Nat) (f : Part → Part) : (s.modPart p f).spilled = s.spilled := rfl
@[simp] theorem State.modPart_soloBars (s : State) (p : Nat) (f : Part → Part) : (s.modPart p f).soloBars = s.soloBars := rfl
@[simp] theorem State.modPart_pkg (s : State) (p : Nat) (f : Part → Part) : (s.modPart p f).pkg = s.pkg := rfl

/-! ## modLaunch -/

@[simp] theorem State.modLaunch_agenda (s : State) (l : Nat) (f : Launch → Launch) : (s.modLaunch l f).agenda = s.agenda := rfl
@[simp] theorem State.modLaunch_turn (s : State) (l : Nat) (f : Launch → Launch) : (s.modLaunch l f).turn = s.turn := rfl
@[simp] theorem State.modLaunch_cur (s : State) (l : Nat) (f : Launch → Launch) : (s.modLaunch l f).cur = s.cur := rfl
@[simp] theorem State.modLaunch_fresh (s : State) (l : Nat) (f : Launch → Launch) : (s.modLaunch l f).fresh = s.fresh := rfl
@[simp] theorem State.modLaunch_cycle (s : State) (l : Nat) (f : Launch → Launch) : (s.modLaunch l f).cycle = s.cycle := rfl
@[simp] theorem State.modLaunch_refCycle (s : State) (l : Nat) (f : Launch → Launch) : (s.modLaunch l f).refCycle = s.refCycle := rfl
@[simp] theorem State.modLaunch_netCycle (s : State) (l : Nat) (f : Launch → Launch) : (s.modLaunch l f).netCycle = s.netCycle := rfl
@[simp] theorem State.modLaunch_ctxs (s : State) (l : Nat) (f : Launch → Launch) : (s.modLaunch l f).ctxs = s.ctxs := rfl
@[simp] theorem State.modLaunch_cores (s : State) (l : Nat) (f : Launch → Launch) : (s.modLaunch l f).cores = s.cores := rfl
@[simp] theorem State.modLaunch_ports (s : State) (l : Nat) (f : Launch → Launch) : (s.modLaunch l f).ports = s.ports := rfl
@[simp] theorem State.modLaunch_mats (s : State) (l : Nat) (f : Launch → Launch) : (s.modLaunch l f).mats = s.mats := rfl
@[simp] theorem State.modLaunch_clus (s : State) (l : Nat) (f : Launch → Launch) : (s.modLaunch l f).clus = s.clus := rfl
@[simp] theorem State.modLaunch_mem (s : State) (l : Nat) (f : Launch → Launch) : (s.modLaunch l f).mem = s.mem := rfl
@[simp] theorem State.modLaunch_empties (s : State) (l : Nat) (f : Launch → Launch) : (s.modLaunch l f).empties = s.empties := rfl
@[simp] theorem State.modLaunch_mtags (s : State) (l : Nat) (f : Launch → Launch) : (s.modLaunch l f).mtags = s.mtags := rfl
@[simp] theorem State.modLaunch_poison (s : State) (l : Nat) (f : Launch → Launch) : (s.modLaunch l f).poison = s.poison := rfl
@[simp] theorem State.modLaunch_ecc (s : State) (l : Nat) (f : Launch → Launch) : (s.modLaunch l f).ecc = s.ecc := rfl
@[simp] theorem State.modLaunch_soft (s : State) (l : Nat) (f : Launch → Launch) : (s.modLaunch l f).soft = s.soft := rfl
@[simp] theorem State.modLaunch_walks (s : State) (l : Nat) (f : Launch → Launch) : (s.modLaunch l f).walks = s.walks := rfl
@[simp] theorem State.modLaunch_dir (s : State) (l : Nat) (f : Launch → Launch) : (s.modLaunch l f).dir = s.dir := rfl
@[simp] theorem State.modLaunch_rresv (s : State) (l : Nat) (f : Launch → Launch) : (s.modLaunch l f).rresv = s.rresv := rfl
@[simp] theorem State.modLaunch_rfailed (s : State) (l : Nat) (f : Launch → Launch) : (s.modLaunch l f).rfailed = s.rfailed := rfl
@[simp] theorem State.modLaunch_tiles (s : State) (l : Nat) (f : Launch → Launch) : (s.modLaunch l f).tiles = s.tiles := rfl
@[simp] theorem State.modLaunch_parts (s : State) (l : Nat) (f : Launch → Launch) : (s.modLaunch l f).parts = s.parts := rfl
@[simp] theorem State.modLaunch_packets (s : State) (l : Nat) (f : Launch → Launch) : (s.modLaunch l f).packets = s.packets := rfl
@[simp] theorem State.modLaunch_nextCard (s : State) (l : Nat) (f : Launch → Launch) : (s.modLaunch l f).nextCard = s.nextCard := rfl
@[simp] theorem State.modLaunch_claims (s : State) (l : Nat) (f : Launch → Launch) : (s.modLaunch l f).claims = s.claims := rfl
@[simp] theorem State.modLaunch_nextTid (s : State) (l : Nat) (f : Launch → Launch) : (s.modLaunch l f).nextTid = s.nextTid := rfl
@[simp] theorem State.modLaunch_nextMsg (s : State) (l : Nat) (f : Launch → Launch) : (s.modLaunch l f).nextMsg = s.nextMsg := rfl
@[simp] theorem State.modLaunch_moving (s : State) (l : Nat) (f : Launch → Launch) : (s.modLaunch l f).moving = s.moving := rfl
@[simp] theorem State.modLaunch_net (s : State) (l : Nat) (f : Launch → Launch) : (s.modLaunch l f).net = s.net := rfl
@[simp] theorem State.modLaunch_waters (s : State) (l : Nat) (f : Launch → Launch) : (s.modLaunch l f).waters = s.waters := rfl
@[simp] theorem State.modLaunch_grids (s : State) (l : Nat) (f : Launch → Launch) : (s.modLaunch l f).grids = s.grids := rfl
@[simp] theorem State.modLaunch_nextGrid (s : State) (l : Nat) (f : Launch → Launch) : (s.modLaunch l f).nextGrid = s.nextGrid := rfl
@[simp] theorem State.modLaunch_fills (s : State) (l : Nat) (f : Launch → Launch) : (s.modLaunch l f).fills = s.fills := rfl
@[simp] theorem State.modLaunch_nextFill (s : State) (l : Nat) (f : Launch → Launch) : (s.modLaunch l f).nextFill = s.nextFill := rfl
@[simp] theorem State.modLaunch_oports (s : State) (l : Nat) (f : Launch → Launch) : (s.modLaunch l f).oports = s.oports := rfl
@[simp] theorem State.modLaunch_engDet (s : State) (l : Nat) (f : Launch → Launch) : (s.modLaunch l f).engDet = s.engDet := rfl
@[simp] theorem State.modLaunch_engImg (s : State) (l : Nat) (f : Launch → Launch) : (s.modLaunch l f).engImg = s.engImg := rfl
@[simp] theorem State.modLaunch_bankImg (s : State) (l : Nat) (f : Launch → Launch) : (s.modLaunch l f).bankImg = s.bankImg := rfl
@[simp] theorem State.modLaunch_spilled (s : State) (l : Nat) (f : Launch → Launch) : (s.modLaunch l f).spilled = s.spilled := rfl
@[simp] theorem State.modLaunch_soloBars (s : State) (l : Nat) (f : Launch → Launch) : (s.modLaunch l f).soloBars = s.soloBars := rfl
@[simp] theorem State.modLaunch_pkg (s : State) (l : Nat) (f : Launch → Launch) : (s.modLaunch l f).pkg = s.pkg := rfl

/-! ## modPkg -/

@[simp] theorem State.modPkg_agenda (s : State) (f : Pkg → Pkg) : (s.modPkg f).agenda = s.agenda := rfl
@[simp] theorem State.modPkg_turn (s : State) (f : Pkg → Pkg) : (s.modPkg f).turn = s.turn := rfl
@[simp] theorem State.modPkg_cur (s : State) (f : Pkg → Pkg) : (s.modPkg f).cur = s.cur := rfl
@[simp] theorem State.modPkg_fresh (s : State) (f : Pkg → Pkg) : (s.modPkg f).fresh = s.fresh := rfl
@[simp] theorem State.modPkg_cycle (s : State) (f : Pkg → Pkg) : (s.modPkg f).cycle = s.cycle := rfl
@[simp] theorem State.modPkg_refCycle (s : State) (f : Pkg → Pkg) : (s.modPkg f).refCycle = s.refCycle := rfl
@[simp] theorem State.modPkg_netCycle (s : State) (f : Pkg → Pkg) : (s.modPkg f).netCycle = s.netCycle := rfl
@[simp] theorem State.modPkg_ctxs (s : State) (f : Pkg → Pkg) : (s.modPkg f).ctxs = s.ctxs := rfl
@[simp] theorem State.modPkg_cores (s : State) (f : Pkg → Pkg) : (s.modPkg f).cores = s.cores := rfl
@[simp] theorem State.modPkg_ports (s : State) (f : Pkg → Pkg) : (s.modPkg f).ports = s.ports := rfl
@[simp] theorem State.modPkg_mats (s : State) (f : Pkg → Pkg) : (s.modPkg f).mats = s.mats := rfl
@[simp] theorem State.modPkg_clus (s : State) (f : Pkg → Pkg) : (s.modPkg f).clus = s.clus := rfl
@[simp] theorem State.modPkg_mem (s : State) (f : Pkg → Pkg) : (s.modPkg f).mem = s.mem := rfl
@[simp] theorem State.modPkg_empties (s : State) (f : Pkg → Pkg) : (s.modPkg f).empties = s.empties := rfl
@[simp] theorem State.modPkg_mtags (s : State) (f : Pkg → Pkg) : (s.modPkg f).mtags = s.mtags := rfl
@[simp] theorem State.modPkg_poison (s : State) (f : Pkg → Pkg) : (s.modPkg f).poison = s.poison := rfl
@[simp] theorem State.modPkg_ecc (s : State) (f : Pkg → Pkg) : (s.modPkg f).ecc = s.ecc := rfl
@[simp] theorem State.modPkg_soft (s : State) (f : Pkg → Pkg) : (s.modPkg f).soft = s.soft := rfl
@[simp] theorem State.modPkg_walks (s : State) (f : Pkg → Pkg) : (s.modPkg f).walks = s.walks := rfl
@[simp] theorem State.modPkg_dir (s : State) (f : Pkg → Pkg) : (s.modPkg f).dir = s.dir := rfl
@[simp] theorem State.modPkg_rresv (s : State) (f : Pkg → Pkg) : (s.modPkg f).rresv = s.rresv := rfl
@[simp] theorem State.modPkg_rfailed (s : State) (f : Pkg → Pkg) : (s.modPkg f).rfailed = s.rfailed := rfl
@[simp] theorem State.modPkg_tiles (s : State) (f : Pkg → Pkg) : (s.modPkg f).tiles = s.tiles := rfl
@[simp] theorem State.modPkg_parts (s : State) (f : Pkg → Pkg) : (s.modPkg f).parts = s.parts := rfl
@[simp] theorem State.modPkg_launches (s : State) (f : Pkg → Pkg) : (s.modPkg f).launches = s.launches := rfl
@[simp] theorem State.modPkg_packets (s : State) (f : Pkg → Pkg) : (s.modPkg f).packets = s.packets := rfl
@[simp] theorem State.modPkg_nextCard (s : State) (f : Pkg → Pkg) : (s.modPkg f).nextCard = s.nextCard := rfl
@[simp] theorem State.modPkg_claims (s : State) (f : Pkg → Pkg) : (s.modPkg f).claims = s.claims := rfl
@[simp] theorem State.modPkg_nextTid (s : State) (f : Pkg → Pkg) : (s.modPkg f).nextTid = s.nextTid := rfl
@[simp] theorem State.modPkg_nextMsg (s : State) (f : Pkg → Pkg) : (s.modPkg f).nextMsg = s.nextMsg := rfl
@[simp] theorem State.modPkg_moving (s : State) (f : Pkg → Pkg) : (s.modPkg f).moving = s.moving := rfl
@[simp] theorem State.modPkg_net (s : State) (f : Pkg → Pkg) : (s.modPkg f).net = s.net := rfl
@[simp] theorem State.modPkg_waters (s : State) (f : Pkg → Pkg) : (s.modPkg f).waters = s.waters := rfl
@[simp] theorem State.modPkg_grids (s : State) (f : Pkg → Pkg) : (s.modPkg f).grids = s.grids := rfl
@[simp] theorem State.modPkg_nextGrid (s : State) (f : Pkg → Pkg) : (s.modPkg f).nextGrid = s.nextGrid := rfl
@[simp] theorem State.modPkg_fills (s : State) (f : Pkg → Pkg) : (s.modPkg f).fills = s.fills := rfl
@[simp] theorem State.modPkg_nextFill (s : State) (f : Pkg → Pkg) : (s.modPkg f).nextFill = s.nextFill := rfl
@[simp] theorem State.modPkg_oports (s : State) (f : Pkg → Pkg) : (s.modPkg f).oports = s.oports := rfl
@[simp] theorem State.modPkg_engDet (s : State) (f : Pkg → Pkg) : (s.modPkg f).engDet = s.engDet := rfl
@[simp] theorem State.modPkg_engImg (s : State) (f : Pkg → Pkg) : (s.modPkg f).engImg = s.engImg := rfl
@[simp] theorem State.modPkg_bankImg (s : State) (f : Pkg → Pkg) : (s.modPkg f).bankImg = s.bankImg := rfl
@[simp] theorem State.modPkg_spilled (s : State) (f : Pkg → Pkg) : (s.modPkg f).spilled = s.spilled := rfl
@[simp] theorem State.modPkg_soloBars (s : State) (f : Pkg → Pkg) : (s.modPkg f).soloBars = s.soloBars := rfl

/-! ## modDir -/

@[simp] theorem State.modDir_agenda (s : State) (l : Nat) (f : DirLine → DirLine) : (s.modDir l f).agenda = s.agenda := rfl
@[simp] theorem State.modDir_turn (s : State) (l : Nat) (f : DirLine → DirLine) : (s.modDir l f).turn = s.turn := rfl
@[simp] theorem State.modDir_cur (s : State) (l : Nat) (f : DirLine → DirLine) : (s.modDir l f).cur = s.cur := rfl
@[simp] theorem State.modDir_fresh (s : State) (l : Nat) (f : DirLine → DirLine) : (s.modDir l f).fresh = s.fresh := rfl
@[simp] theorem State.modDir_cycle (s : State) (l : Nat) (f : DirLine → DirLine) : (s.modDir l f).cycle = s.cycle := rfl
@[simp] theorem State.modDir_refCycle (s : State) (l : Nat) (f : DirLine → DirLine) : (s.modDir l f).refCycle = s.refCycle := rfl
@[simp] theorem State.modDir_netCycle (s : State) (l : Nat) (f : DirLine → DirLine) : (s.modDir l f).netCycle = s.netCycle := rfl
@[simp] theorem State.modDir_ctxs (s : State) (l : Nat) (f : DirLine → DirLine) : (s.modDir l f).ctxs = s.ctxs := rfl
@[simp] theorem State.modDir_cores (s : State) (l : Nat) (f : DirLine → DirLine) : (s.modDir l f).cores = s.cores := rfl
@[simp] theorem State.modDir_ports (s : State) (l : Nat) (f : DirLine → DirLine) : (s.modDir l f).ports = s.ports := rfl
@[simp] theorem State.modDir_mats (s : State) (l : Nat) (f : DirLine → DirLine) : (s.modDir l f).mats = s.mats := rfl
@[simp] theorem State.modDir_clus (s : State) (l : Nat) (f : DirLine → DirLine) : (s.modDir l f).clus = s.clus := rfl
@[simp] theorem State.modDir_mem (s : State) (l : Nat) (f : DirLine → DirLine) : (s.modDir l f).mem = s.mem := rfl
@[simp] theorem State.modDir_empties (s : State) (l : Nat) (f : DirLine → DirLine) : (s.modDir l f).empties = s.empties := rfl
@[simp] theorem State.modDir_mtags (s : State) (l : Nat) (f : DirLine → DirLine) : (s.modDir l f).mtags = s.mtags := rfl
@[simp] theorem State.modDir_poison (s : State) (l : Nat) (f : DirLine → DirLine) : (s.modDir l f).poison = s.poison := rfl
@[simp] theorem State.modDir_ecc (s : State) (l : Nat) (f : DirLine → DirLine) : (s.modDir l f).ecc = s.ecc := rfl
@[simp] theorem State.modDir_soft (s : State) (l : Nat) (f : DirLine → DirLine) : (s.modDir l f).soft = s.soft := rfl
@[simp] theorem State.modDir_walks (s : State) (l : Nat) (f : DirLine → DirLine) : (s.modDir l f).walks = s.walks := rfl
@[simp] theorem State.modDir_rresv (s : State) (l : Nat) (f : DirLine → DirLine) : (s.modDir l f).rresv = s.rresv := rfl
@[simp] theorem State.modDir_rfailed (s : State) (l : Nat) (f : DirLine → DirLine) : (s.modDir l f).rfailed = s.rfailed := rfl
@[simp] theorem State.modDir_tiles (s : State) (l : Nat) (f : DirLine → DirLine) : (s.modDir l f).tiles = s.tiles := rfl
@[simp] theorem State.modDir_parts (s : State) (l : Nat) (f : DirLine → DirLine) : (s.modDir l f).parts = s.parts := rfl
@[simp] theorem State.modDir_launches (s : State) (l : Nat) (f : DirLine → DirLine) : (s.modDir l f).launches = s.launches := rfl
@[simp] theorem State.modDir_packets (s : State) (l : Nat) (f : DirLine → DirLine) : (s.modDir l f).packets = s.packets := rfl
@[simp] theorem State.modDir_nextCard (s : State) (l : Nat) (f : DirLine → DirLine) : (s.modDir l f).nextCard = s.nextCard := rfl
@[simp] theorem State.modDir_claims (s : State) (l : Nat) (f : DirLine → DirLine) : (s.modDir l f).claims = s.claims := rfl
@[simp] theorem State.modDir_nextTid (s : State) (l : Nat) (f : DirLine → DirLine) : (s.modDir l f).nextTid = s.nextTid := rfl
@[simp] theorem State.modDir_nextMsg (s : State) (l : Nat) (f : DirLine → DirLine) : (s.modDir l f).nextMsg = s.nextMsg := rfl
@[simp] theorem State.modDir_moving (s : State) (l : Nat) (f : DirLine → DirLine) : (s.modDir l f).moving = s.moving := rfl
@[simp] theorem State.modDir_net (s : State) (l : Nat) (f : DirLine → DirLine) : (s.modDir l f).net = s.net := rfl
@[simp] theorem State.modDir_waters (s : State) (l : Nat) (f : DirLine → DirLine) : (s.modDir l f).waters = s.waters := rfl
@[simp] theorem State.modDir_grids (s : State) (l : Nat) (f : DirLine → DirLine) : (s.modDir l f).grids = s.grids := rfl
@[simp] theorem State.modDir_nextGrid (s : State) (l : Nat) (f : DirLine → DirLine) : (s.modDir l f).nextGrid = s.nextGrid := rfl
@[simp] theorem State.modDir_fills (s : State) (l : Nat) (f : DirLine → DirLine) : (s.modDir l f).fills = s.fills := rfl
@[simp] theorem State.modDir_nextFill (s : State) (l : Nat) (f : DirLine → DirLine) : (s.modDir l f).nextFill = s.nextFill := rfl
@[simp] theorem State.modDir_oports (s : State) (l : Nat) (f : DirLine → DirLine) : (s.modDir l f).oports = s.oports := rfl
@[simp] theorem State.modDir_engDet (s : State) (l : Nat) (f : DirLine → DirLine) : (s.modDir l f).engDet = s.engDet := rfl
@[simp] theorem State.modDir_engImg (s : State) (l : Nat) (f : DirLine → DirLine) : (s.modDir l f).engImg = s.engImg := rfl
@[simp] theorem State.modDir_bankImg (s : State) (l : Nat) (f : DirLine → DirLine) : (s.modDir l f).bankImg = s.bankImg := rfl
@[simp] theorem State.modDir_spilled (s : State) (l : Nat) (f : DirLine → DirLine) : (s.modDir l f).spilled = s.spilled := rfl
@[simp] theorem State.modDir_soloBars (s : State) (l : Nat) (f : DirLine → DirLine) : (s.modDir l f).soloBars = s.soloBars := rfl
@[simp] theorem State.modDir_pkg (s : State) (l : Nat) (f : DirLine → DirLine) : (s.modDir l f).pkg = s.pkg := rfl

/-! ## Reading back -/

theorem SMap.at_put {α : Type} (d v : α) (m : SMap α) (k j : Nat) :
    SMap.at d (SMap.put m k v) j = if j = k then v else SMap.at d m j := by
  induction m with
  | nil => simp only [SMap.put, SMap.at]; split <;> split <;> first | rfl | omega
  | cons p r ih =>
    obtain ⟨a, x⟩ := p
    simp only [SMap.put]
    split
    · simp only [SMap.at]; split <;> split <;> try split
      all_goals first | rfl | omega
    · split
      · subst_vars; simp only [SMap.at]; split <;> split <;> first | rfl | omega
      · simp only [SMap.at, ih]; split <;> split <;> try split
        all_goals first | rfl | omega

@[simp] theorem State.setCtx_ctx (s : State) (c : Nat) (x : Ctx) (d : Nat) :
    (s.setCtx c x).ctx d = if d = c then x else s.ctx d := SMap.at_put _ _ _ _ _
@[simp] theorem State.modCtx_ctx (s : State) (c : Nat) (f : Ctx → Ctx) (d : Nat) :
    (s.modCtx c f).ctx d = if d = c then f (s.ctx c) else s.ctx d := SMap.at_put _ _ _ _ _
@[simp] theorem State.modCore_core (s : State) (k : Nat) (f : CoreSt → CoreSt) (d : Nat) :
    (s.modCore k f).core d = if d = k then f (s.core k) else s.core d := SMap.at_put _ _ _ _ _
@[simp] theorem State.modMat_mat (s : State) (k : Nat) (f : Mat → Mat) (d : Nat) :
    (s.modMat k f).mat d = if d = k then f (s.mat k) else s.mat d := SMap.at_put _ _ _ _ _
@[simp] theorem State.modClu_clu (s : State) (k : Nat) (f : Cluster → Cluster) (d : Nat) :
    (s.modClu k f).clu d = if d = k then f (s.clu k) else s.clu d := SMap.at_put _ _ _ _ _
@[simp] theorem State.modPart_part (s : State) (k : Nat) (f : Part → Part) (d : Nat) :
    (s.modPart k f).part d = if d = k then f (s.part k) else s.part d := SMap.at_put _ _ _ _ _
@[simp] theorem State.modLaunch_launch (s : State) (k : Nat) (f : Launch → Launch) (d : Nat) :
    (s.modLaunch k f).launch d = if d = k then f (s.launch k) else s.launch d := SMap.at_put _ _ _ _ _
@[simp] theorem State.modDir_dirAt (s : State) (k : Nat) (f : DirLine → DirLine) (d : Nat) :
    (s.modDir k f).dirAt d = if d = k then f (s.dirAt k) else s.dirAt d := SMap.at_put _ _ _ _ _
@[simp] theorem State.modPkg_pkg (s : State) (f : Pkg → Pkg) : (s.modPkg f).pkg = f s.pkg := rfl

/-! ## Records that an update of another record leaves -/

@[simp] theorem State.setCtx_core_of (s : State) (c : Nat) (x : Ctx) (d : Nat) : (s.setCtx c x).core d = s.core d := rfl
@[simp] theorem State.setCtx_mat_of (s : State) (c : Nat) (x : Ctx) (d : Nat) : (s.setCtx c x).mat d = s.mat d := rfl
@[simp] theorem State.setCtx_clu_of (s : State) (c : Nat) (x : Ctx) (d : Nat) : (s.setCtx c x).clu d = s.clu d := rfl
@[simp] theorem State.setCtx_part_of (s : State) (c : Nat) (x : Ctx) (d : Nat) : (s.setCtx c x).part d = s.part d := rfl
@[simp] theorem State.setCtx_launch_of (s : State) (c : Nat) (x : Ctx) (d : Nat) : (s.setCtx c x).launch d = s.launch d := rfl
@[simp] theorem State.setCtx_dirAt_of (s : State) (c : Nat) (x : Ctx) (d : Nat) : (s.setCtx c x).dirAt d = s.dirAt d := rfl
@[simp] theorem State.setCtx_port_of (s : State) (c : Nat) (x : Ctx) (d e : Nat) : (s.setCtx c x).port d e = s.port d e := rfl
@[simp] theorem State.modCtx_core_of (s : State) (c : Nat) (f : Ctx → Ctx) (d : Nat) : (s.modCtx c f).core d = s.core d := rfl
@[simp] theorem State.modCtx_mat_of (s : State) (c : Nat) (f : Ctx → Ctx) (d : Nat) : (s.modCtx c f).mat d = s.mat d := rfl
@[simp] theorem State.modCtx_clu_of (s : State) (c : Nat) (f : Ctx → Ctx) (d : Nat) : (s.modCtx c f).clu d = s.clu d := rfl
@[simp] theorem State.modCtx_part_of (s : State) (c : Nat) (f : Ctx → Ctx) (d : Nat) : (s.modCtx c f).part d = s.part d := rfl
@[simp] theorem State.modCtx_launch_of (s : State) (c : Nat) (f : Ctx → Ctx) (d : Nat) : (s.modCtx c f).launch d = s.launch d := rfl
@[simp] theorem State.modCtx_dirAt_of (s : State) (c : Nat) (f : Ctx → Ctx) (d : Nat) : (s.modCtx c f).dirAt d = s.dirAt d := rfl
@[simp] theorem State.modCtx_port_of (s : State) (c : Nat) (f : Ctx → Ctx) (d e : Nat) : (s.modCtx c f).port d e = s.port d e := rfl
@[simp] theorem State.modCore_ctx_of (s : State) (k : Nat) (f : CoreSt → CoreSt) (d : Nat) : (s.modCore k f).ctx d = s.ctx d := rfl
@[simp] theorem State.modCore_mat_of (s : State) (k : Nat) (f : CoreSt → CoreSt) (d : Nat) : (s.modCore k f).mat d = s.mat d := rfl
@[simp] theorem State.modCore_clu_of (s : State) (k : Nat) (f : CoreSt → CoreSt) (d : Nat) : (s.modCore k f).clu d = s.clu d := rfl
@[simp] theorem State.modCore_part_of (s : State) (k : Nat) (f : CoreSt → CoreSt) (d : Nat) : (s.modCore k f).part d = s.part d := rfl
@[simp] theorem State.modCore_launch_of (s : State) (k : Nat) (f : CoreSt → CoreSt) (d : Nat) : (s.modCore k f).launch d = s.launch d := rfl
@[simp] theorem State.modCore_dirAt_of (s : State) (k : Nat) (f : CoreSt → CoreSt) (d : Nat) : (s.modCore k f).dirAt d = s.dirAt d := rfl
@[simp] theorem State.modCore_port_of (s : State) (k : Nat) (f : CoreSt → CoreSt) (d e : Nat) : (s.modCore k f).port d e = s.port d e := rfl
@[simp] theorem State.modPort_ctx_of (s : State) (k p : Nat) (f : Port → Port) (d : Nat) : (s.modPort k p f).ctx d = s.ctx d := rfl
@[simp] theorem State.modPort_core_of (s : State) (k p : Nat) (f : Port → Port) (d : Nat) : (s.modPort k p f).core d = s.core d := rfl
@[simp] theorem State.modPort_mat_of (s : State) (k p : Nat) (f : Port → Port) (d : Nat) : (s.modPort k p f).mat d = s.mat d := rfl
@[simp] theorem State.modPort_clu_of (s : State) (k p : Nat) (f : Port → Port) (d : Nat) : (s.modPort k p f).clu d = s.clu d := rfl
@[simp] theorem State.modPort_part_of (s : State) (k p : Nat) (f : Port → Port) (d : Nat) : (s.modPort k p f).part d = s.part d := rfl
@[simp] theorem State.modPort_launch_of (s : State) (k p : Nat) (f : Port → Port) (d : Nat) : (s.modPort k p f).launch d = s.launch d := rfl
@[simp] theorem State.modPort_dirAt_of (s : State) (k p : Nat) (f : Port → Port) (d : Nat) : (s.modPort k p f).dirAt d = s.dirAt d := rfl
@[simp] theorem State.modMat_ctx_of (s : State) (k : Nat) (f : Mat → Mat) (d : Nat) : (s.modMat k f).ctx d = s.ctx d := rfl
@[simp] theorem State.modMat_core_of (s : State) (k : Nat) (f : Mat → Mat) (d : Nat) : (s.modMat k f).core d = s.core d := rfl
@[simp] theorem State.modMat_clu_of (s : State) (k : Nat) (f : Mat → Mat) (d : Nat) : (s.modMat k f).clu d = s.clu d := rfl
@[simp] theorem State.modMat_part_of (s : State) (k : Nat) (f : Mat → Mat) (d : Nat) : (s.modMat k f).part d = s.part d := rfl
@[simp] theorem State.modMat_launch_of (s : State) (k : Nat) (f : Mat → Mat) (d : Nat) : (s.modMat k f).launch d = s.launch d := rfl
@[simp] theorem State.modMat_dirAt_of (s : State) (k : Nat) (f : Mat → Mat) (d : Nat) : (s.modMat k f).dirAt d = s.dirAt d := rfl
@[simp] theorem State.modMat_port_of (s : State) (k : Nat) (f : Mat → Mat) (d e : Nat) : (s.modMat k f).port d e = s.port d e := rfl
@[simp] theorem State.modClu_ctx_of (s : State) (k : Nat) (f : Cluster → Cluster) (d : Nat) : (s.modClu k f).ctx d = s.ctx d := rfl
@[simp] theorem State.modClu_core_of (s : State) (k : Nat) (f : Cluster → Cluster) (d : Nat) : (s.modClu k f).core d = s.core d := rfl
@[simp] theorem State.modClu_mat_of (s : State) (k : Nat) (f : Cluster → Cluster) (d : Nat) : (s.modClu k f).mat d = s.mat d := rfl
@[simp] theorem State.modClu_part_of (s : State) (k : Nat) (f : Cluster → Cluster) (d : Nat) : (s.modClu k f).part d = s.part d := rfl
@[simp] theorem State.modClu_launch_of (s : State) (k : Nat) (f : Cluster → Cluster) (d : Nat) : (s.modClu k f).launch d = s.launch d := rfl
@[simp] theorem State.modClu_dirAt_of (s : State) (k : Nat) (f : Cluster → Cluster) (d : Nat) : (s.modClu k f).dirAt d = s.dirAt d := rfl
@[simp] theorem State.modClu_port_of (s : State) (k : Nat) (f : Cluster → Cluster) (d e : Nat) : (s.modClu k f).port d e = s.port d e := rfl
@[simp] theorem State.modPart_ctx_of (s : State) (p : Nat) (f : Part → Part) (d : Nat) : (s.modPart p f).ctx d = s.ctx d := rfl
@[simp] theorem State.modPart_core_of (s : State) (p : Nat) (f : Part → Part) (d : Nat) : (s.modPart p f).core d = s.core d := rfl
@[simp] theorem State.modPart_mat_of (s : State) (p : Nat) (f : Part → Part) (d : Nat) : (s.modPart p f).mat d = s.mat d := rfl
@[simp] theorem State.modPart_clu_of (s : State) (p : Nat) (f : Part → Part) (d : Nat) : (s.modPart p f).clu d = s.clu d := rfl
@[simp] theorem State.modPart_launch_of (s : State) (p : Nat) (f : Part → Part) (d : Nat) : (s.modPart p f).launch d = s.launch d := rfl
@[simp] theorem State.modPart_dirAt_of (s : State) (p : Nat) (f : Part → Part) (d : Nat) : (s.modPart p f).dirAt d = s.dirAt d := rfl
@[simp] theorem State.modPart_port_of (s : State) (p : Nat) (f : Part → Part) (d e : Nat) : (s.modPart p f).port d e = s.port d e := rfl
@[simp] theorem State.modLaunch_ctx_of (s : State) (l : Nat) (f : Launch → Launch) (d : Nat) : (s.modLaunch l f).ctx d = s.ctx d := rfl
@[simp] theorem State.modLaunch_core_of (s : State) (l : Nat) (f : Launch → Launch) (d : Nat) : (s.modLaunch l f).core d = s.core d := rfl
@[simp] theorem State.modLaunch_mat_of (s : State) (l : Nat) (f : Launch → Launch) (d : Nat) : (s.modLaunch l f).mat d = s.mat d := rfl
@[simp] theorem State.modLaunch_clu_of (s : State) (l : Nat) (f : Launch → Launch) (d : Nat) : (s.modLaunch l f).clu d = s.clu d := rfl
@[simp] theorem State.modLaunch_part_of (s : State) (l : Nat) (f : Launch → Launch) (d : Nat) : (s.modLaunch l f).part d = s.part d := rfl
@[simp] theorem State.modLaunch_dirAt_of (s : State) (l : Nat) (f : Launch → Launch) (d : Nat) : (s.modLaunch l f).dirAt d = s.dirAt d := rfl
@[simp] theorem State.modLaunch_port_of (s : State) (l : Nat) (f : Launch → Launch) (d e : Nat) : (s.modLaunch l f).port d e = s.port d e := rfl
@[simp] theorem State.modPkg_ctx_of (s : State) (f : Pkg → Pkg) (d : Nat) : (s.modPkg f).ctx d = s.ctx d := rfl
@[simp] theorem State.modPkg_core_of (s : State) (f : Pkg → Pkg) (d : Nat) : (s.modPkg f).core d = s.core d := rfl
@[simp] theorem State.modPkg_mat_of (s : State) (f : Pkg → Pkg) (d : Nat) : (s.modPkg f).mat d = s.mat d := rfl
@[simp] theorem State.modPkg_clu_of (s : State) (f : Pkg → Pkg) (d : Nat) : (s.modPkg f).clu d = s.clu d := rfl
@[simp] theorem State.modPkg_part_of (s : State) (f : Pkg → Pkg) (d : Nat) : (s.modPkg f).part d = s.part d := rfl
@[simp] theorem State.modPkg_launch_of (s : State) (f : Pkg → Pkg) (d : Nat) : (s.modPkg f).launch d = s.launch d := rfl
@[simp] theorem State.modPkg_dirAt_of (s : State) (f : Pkg → Pkg) (d : Nat) : (s.modPkg f).dirAt d = s.dirAt d := rfl
@[simp] theorem State.modPkg_port_of (s : State) (f : Pkg → Pkg) (d e : Nat) : (s.modPkg f).port d e = s.port d e := rfl
@[simp] theorem State.modDir_ctx_of (s : State) (l : Nat) (f : DirLine → DirLine) (d : Nat) : (s.modDir l f).ctx d = s.ctx d := rfl
@[simp] theorem State.modDir_core_of (s : State) (l : Nat) (f : DirLine → DirLine) (d : Nat) : (s.modDir l f).core d = s.core d := rfl
@[simp] theorem State.modDir_mat_of (s : State) (l : Nat) (f : DirLine → DirLine) (d : Nat) : (s.modDir l f).mat d = s.mat d := rfl
@[simp] theorem State.modDir_clu_of (s : State) (l : Nat) (f : DirLine → DirLine) (d : Nat) : (s.modDir l f).clu d = s.clu d := rfl
@[simp] theorem State.modDir_part_of (s : State) (l : Nat) (f : DirLine → DirLine) (d : Nat) : (s.modDir l f).part d = s.part d := rfl
@[simp] theorem State.modDir_launch_of (s : State) (l : Nat) (f : DirLine → DirLine) (d : Nat) : (s.modDir l f).launch d = s.launch d := rfl
@[simp] theorem State.modDir_port_of (s : State) (l : Nat) (f : DirLine → DirLine) (d e : Nat) : (s.modDir l f).port d e = s.port d e := rfl

end Sys2Proof.Machine
end

