-- ==== Sys2Proof/Laws/Memory.lean ====
section
/-! SUPPORT. Sys2Proof/Laws/Memory.lean: reading after writing, and the canonical form of memory under every operation over
it. -/

namespace Sys2Proof.Machine

/-! ## The canonical form -/

theorem Memory.wfFrom_mono {m : Memory} {lo lo' : Nat} (h : lo' ≤ lo) (w : m.wfFrom lo = true) : m.wfFrom lo' = true := by
  cases m with
  | nil => rfl
  | cons p r =>
    obtain ⟨a, b⟩ := p
    simp only [Memory.wfFrom, Bool.and_eq_true, decide_eq_true_eq] at *
    exact ⟨⟨le_trans h w.1.1, w.1.2⟩, w.2⟩

theorem Memory.write_wfFrom {m : Memory} {lo a : Nat} {v : Byte} (w : m.wfFrom lo = true) (h : lo ≤ a) :
    (m.write a v).wfFrom lo = true := by
  induction m generalizing lo with
  | nil =>
    simp only [Memory.write]
    split
    · rfl
    · simp_all [Memory.wfFrom]
  | cons p r ih =>
    obtain ⟨x, b⟩ := p
    simp only [Memory.wfFrom, Bool.and_eq_true, decide_eq_true_eq] at w
    simp only [Memory.write]
    split
    · split
      · simp_all [Memory.wfFrom]
      · simp only [Memory.wfFrom, Bool.and_eq_true, decide_eq_true_eq]
        exact ⟨⟨h, by assumption⟩, ⟨by omega, w.1.2⟩, w.2⟩
    · split
      · subst_vars
        split
        · exact Memory.wfFrom_mono (by omega) w.2
        · simp only [Memory.wfFrom, Bool.and_eq_true, decide_eq_true_eq]
          exact ⟨⟨h, by assumption⟩, w.2⟩
      · simp only [Memory.wfFrom, Bool.and_eq_true, decide_eq_true_eq]
        exact ⟨w.1, ih w.2 (by omega)⟩

/-- A write of one byte keeps the canonical form. -/
theorem Memory.write_wf {m : Memory} (w : m.wf = true) (a : Nat) (v : Byte) : (m.write a v).wf = true :=
  Memory.write_wfFrom w (Nat.zero_le a)

/-- Writes of bytes keep the canonical form. -/
theorem Memory.writes_wf {m : Memory} (w : m.wf = true) (l : List (Nat × Byte)) : (m.writes l).wf = true := by
  unfold Memory.writes
  induction l generalizing m with
  | nil => exact w
  | cons p r ih => exact ih (Memory.write_wf w p.1 p.2)

theorem Memory.filter_wfFrom {m : Memory} {lo : Nat} (w : m.wfFrom lo = true) (f : Nat × Byte → Bool) :
    Memory.wfFrom lo (m.filter f) = true := by
  induction m generalizing lo with
  | nil => rfl
  | cons p r ih =>
    obtain ⟨a, b⟩ := p
    simp only [Memory.wfFrom, Bool.and_eq_true, decide_eq_true_eq] at w
    by_cases hf : f (a, b) = true
    · rw [List.filter_cons_of_pos hf]
      simp only [Memory.wfFrom, Bool.and_eq_true, decide_eq_true_eq]
      exact ⟨w.1, ih w.2⟩
    · rw [List.filter_cons_of_neg hf]
      exact Memory.wfFrom_mono (by omega) (ih w.2)

/-- Dropping bytes keeps the canonical form. -/
theorem Memory.filter_wf {m : Memory} (w : m.wf = true) (f : Nat × Byte → Bool) : Memory.wf (m.filter f) = true :=
  Memory.filter_wfFrom w f

/-! ## Reading after writing -/

theorem Memory.read_below {m : Memory} {lo a : Nat} (w : m.wfFrom lo = true) (h : a < lo) : m.read a = 0 := by
  cases m with
  | nil => rfl
  | cons p r =>
    obtain ⟨x, b⟩ := p
    simp only [Memory.wfFrom, Bool.and_eq_true, decide_eq_true_eq] at w
    simp only [Memory.read]
    rw [if_pos (by omega)]

/-- A byte that has been written reads back, and every other byte reads as before. -/
theorem Memory.read_write_from {m : Memory} {lo : Nat} (w : m.wfFrom lo = true) (a : Nat) (v : Byte) (b : Nat) :
    (m.write a v).read b = if b = a then v else m.read b := by
  induction m generalizing lo with
  | nil =>
    simp only [Memory.write]
    split
    · simp_all [Memory.read]
    · simp only [Memory.read]
      split
      · rw [if_neg (by omega)]
      · rfl
  | cons p r ih =>
    obtain ⟨x, c⟩ := p
    simp only [Memory.wfFrom, Bool.and_eq_true, decide_eq_true_eq] at w
    simp only [Memory.write]
    split
    · split
      · by_cases hb : b = a
        · subst_vars
          rw [if_pos rfl]
          simp only [Memory.read]
          rw [if_pos (by assumption)]
        · rw [if_neg hb]
      · simp only [Memory.read]
        split
        · rw [if_neg (by omega), if_pos (by omega)]
        · rfl
    · split
      · subst_vars
        split
        · by_cases hb : b < x
          · rw [if_neg (by omega), Memory.read_below w.2 (by omega)]
            simp only [Memory.read]
            rw [if_pos hb]
          · by_cases hx : b = x
            · subst hx
              rw [if_pos rfl, Memory.read_below w.2 (by omega)]
              simp_all
            · rw [if_neg hx]
              simp only [Memory.read]
              rw [if_neg hb, if_neg hx]
        · simp only [Memory.read]
          split
          · rw [if_neg (by omega)]
          · split <;> simp_all
      · simp only [Memory.read]
        split
        · rw [if_neg (by omega)]
        · split
          · rw [if_neg (by omega)]
          · exact ih w.2

/-- A byte that has been written reads back, and every other byte reads as before. -/
theorem Memory.read_write {m : Memory} (w : m.wf = true) (a : Nat) (v : Byte) (b : Nat) :
    (m.write a v).read b = if b = a then v else m.read b := Memory.read_write_from w a v b

/-- Bytes outside some writes read as before. -/
theorem Memory.read_writes_of_notMem {m : Memory} (w : m.wf = true) (l : List (Nat × Byte)) (b : Nat)
    (h : ∀ p ∈ l, p.1 ≠ b) : (m.writes l).read b = m.read b := by
  unfold Memory.writes
  induction l generalizing m with
  | nil => rfl
  | cons p r ih =>
    simp only [List.foldl_cons]
    rw [ih (Memory.write_wf w _ _) (fun q hq => h q (List.mem_cons_of_mem _ hq)), Memory.read_write w]
    rw [if_neg (fun e => h p List.mem_cons_self e.symm)]

end Sys2Proof.Machine
end

