-- ==== Sys2Proof/Laws/PerInstr.lean ====
section
/-! SUPPORT. Sys2Proof/Laws/PerInstr.lean: what holds of every instruction as syntax, one lemma per constructor. -/

namespace Sys2Proof.Laws.Shape

/-- The words of an instruction by the LEN bits of its first word (05 R68): one; three with a literal or two extension
words; five with both. -/
def words (w : Nat) : Nat := if w % 4 = 0 then 1 else if w % 4 = 3 then 5 else 3

/-- 05 R68: an encoded instruction has the words that the LEN bits of its first word say; the device's own steps have no words. -/
def Statement (i : Instr) : Prop :=
  match i.encodable with
  | true => (encode i).length = words ((encode i).headD 0)
  | false => encode i = []

/-- No field stands in the LEN bits. -/
theorem pack_len (base : Nat) (l : List (Nat × Nat)) (h : l.all (fun f => decide (2 ≤ f.2)) = true) : pack base l % 4 = base % 4 := by
  induction l with
  | nil => rfl
  | cons f r ih =>
    simp only [List.all_cons, Bool.and_eq_true, decide_eq_true_eq] at h
    obtain ⟨k, e⟩ := Nat.exists_eq_add_of_le h.1
    have : f.1 * 2 ^ f.2 = f.1 * 2 ^ k * 4 := by rw [e, Nat.pow_add]; ring
    simp only [pack, this, Nat.mul_add_mod_self_right, ih h.2]

theorem words_pack (base : Nat) (l : List (Nat × Nat)) (h : l.all (fun f => decide (2 ≤ f.2)) = true) : words (pack base l) = words base := by
  simp only [words, pack_len base l h]

theorem len (base : Nat) (l : List (Nat × Nat)) (ws : List Nat) (h : l.all (fun f => decide (2 ≤ f.2)) = true) (e : ws.length + 1 = words base) :
    (pack base l :: ws).length = words ((pack base l :: ws).headD 0) := by
  simpa [words_pack base l h] using e

theorem imm_short {n : Nat} (base lo : Nat) (v : BitVec n) (b : base % 4 = 0) (h : 2 ≤ lo) : words (base + v.toNat * 2 ^ lo) = 1 := by
  obtain ⟨k, e⟩ := Nat.exists_eq_add_of_le h
  have : v.toNat * 2 ^ lo = v.toNat * 2 ^ k * 4 := by rw [e, Nat.pow_add]; ring
  simp only [words, this, Nat.add_mul_mod_self_right, b, if_true]

theorem imm {n : Nat} (base lo : Nat) (v : Imm n) (b : base % 4 = 0) (h : 2 ≤ lo) :
    (encImm base lo v).length = words ((encImm base lo v).headD 0) := by
  cases v with
  | short v => exact (imm_short base lo v b h).symm
  | lit v =>
    have : (base + 1) % 4 = 1 := by omega
    simp [encImm, words, this]

theorem ext (base e1 : Nat) (v : Imm 32) (b : base % 4 = 2) : (encX base e1 v).length = words ((encX base e1 v).headD 0) := by
  cases v with
  | short v => simp [encX, words, b]
  | lit v =>
    have : (base + 1) % 4 = 3 := by omega
    simp [encX, words, this]

theorem add (w : BitVec 2) (d : Reg) (a : Reg) (b : Reg) : Statement (.add w d a b) := len 0x00000004 [(w.toNat, 25), (d.toNat, 9), (a.toNat, 13), (b.toNat, 17)] [] rfl rfl

theorem sub (w : BitVec 2) (d : Reg) (a : Reg) (b : Reg) : Statement (.sub w d a b) := len 0x00200004 [(w.toNat, 25), (d.toNat, 9), (a.toNat, 13), (b.toNat, 17)] [] rfl rfl

theorem and (w : BitVec 2) (d : Reg) (a : Reg) (b : Reg) : Statement (.and w d a b) := len 0x00400004 [(w.toNat, 25), (d.toNat, 9), (a.toNat, 13), (b.toNat, 17)] [] rfl rfl

theorem or (w : BitVec 2) (d : Reg) (a : Reg) (b : Reg) : Statement (.or w d a b) := len 0x00600004 [(w.toNat, 25), (d.toNat, 9), (a.toNat, 13), (b.toNat, 17)] [] rfl rfl

theorem xor (w : BitVec 2) (d : Reg) (a : Reg) (b : Reg) : Statement (.xor w d a b) := len 0x00800004 [(w.toNat, 25), (d.toNat, 9), (a.toNat, 13), (b.toNat, 17)] [] rfl rfl

theorem andn (w : BitVec 2) (d : Reg) (a : Reg) (b : Reg) : Statement (.andn w d a b) := len 0x00A00004 [(w.toNat, 25), (d.toNat, 9), (a.toNat, 13), (b.toNat, 17)] [] rfl rfl

theorem shl (w : BitVec 2) (d : Reg) (a : Reg) (b : Reg) : Statement (.shl w d a b) := len 0x00C00004 [(w.toNat, 25), (d.toNat, 9), (a.toNat, 13), (b.toNat, 17)] [] rfl rfl

theorem shr (w : BitVec 2) (d : Reg) (a : Reg) (b : Reg) : Statement (.shr w d a b) := len 0x00E00004 [(w.toNat, 25), (d.toNat, 9), (a.toNat, 13), (b.toNat, 17)] [] rfl rfl

theorem shra (w : BitVec 2) (d : Reg) (a : Reg) (b : Reg) : Statement (.shra w d a b) := len 0x01000004 [(w.toNat, 25), (d.toNat, 9), (a.toNat, 13), (b.toNat, 17)] [] rfl rfl

theorem rot (w : BitVec 2) (d : Reg) (a : Reg) (b : Reg) : Statement (.rot w d a b) := len 0x01200004 [(w.toNat, 25), (d.toNat, 9), (a.toNat, 13), (b.toNat, 17)] [] rfl rfl

theorem min (w : BitVec 2) (d : Reg) (a : Reg) (b : Reg) : Statement (.min w d a b) := len 0x01400004 [(w.toNat, 25), (d.toNat, 9), (a.toNat, 13), (b.toNat, 17)] [] rfl rfl

theorem max (w : BitVec 2) (d : Reg) (a : Reg) (b : Reg) : Statement (.max w d a b) := len 0x01600004 [(w.toNat, 25), (d.toNat, 9), (a.toNat, 13), (b.toNat, 17)] [] rfl rfl

theorem minn (w : BitVec 2) (d : Reg) (a : Reg) (b : Reg) : Statement (.minn w d a b) := len 0x01800004 [(w.toNat, 25), (d.toNat, 9), (a.toNat, 13), (b.toNat, 17)] [] rfl rfl

theorem maxn (w : BitVec 2) (d : Reg) (a : Reg) (b : Reg) : Statement (.maxn w d a b) := len 0x01A00004 [(w.toNat, 25), (d.toNat, 9), (a.toNat, 13), (b.toNat, 17)] [] rfl rfl

theorem adds (w : BitVec 2) (d : Reg) (a : Reg) (b : Reg) : Statement (.adds w d a b) := len 0x01C00004 [(w.toNat, 25), (d.toNat, 9), (a.toNat, 13), (b.toNat, 17)] [] rfl rfl

theorem subs (w : BitVec 2) (d : Reg) (a : Reg) (b : Reg) : Statement (.subs w d a b) := len 0x01E00004 [(w.toNat, 25), (d.toNat, 9), (a.toNat, 13), (b.toNat, 17)] [] rfl rfl

theorem addi (d : Reg) (a : Reg) (i : Imm 15) : Statement (.addi d a i) := imm (pack 0x00000008 [(d.toNat, 9), (a.toNat, 13)]) 17 _ (pack_len _ _ rfl) (by decide)

theorem andi (d : Reg) (a : Reg) (i : Imm 15) : Statement (.andi d a i) := imm (pack 0x0000000C [(d.toNat, 9), (a.toNat, 13)]) 17 _ (pack_len _ _ rfl) (by decide)

theorem ori (d : Reg) (a : Reg) (i : Imm 15) : Statement (.ori d a i) := imm (pack 0x00000010 [(d.toNat, 9), (a.toNat, 13)]) 17 _ (pack_len _ _ rfl) (by decide)

theorem xori (d : Reg) (a : Reg) (i : Imm 15) : Statement (.xori d a i) := imm (pack 0x00000014 [(d.toNat, 9), (a.toNat, 13)]) 17 _ (pack_len _ _ rfl) (by decide)

theorem shiShl (w : BitVec 2) (c : BitVec 6) (d : Reg) (a : Reg) : Statement (.shiShl w c d a) := len 0x00000018 [(w.toNat, 28), (c.toNat, 17), (d.toNat, 9), (a.toNat, 13)] [] rfl rfl

theorem shiShr (w : BitVec 2) (c : BitVec 6) (d : Reg) (a : Reg) : Statement (.shiShr w c d a) := len 0x40000018 [(w.toNat, 28), (c.toNat, 17), (d.toNat, 9), (a.toNat, 13)] [] rfl rfl

theorem shiShra (w : BitVec 2) (c : BitVec 6) (d : Reg) (a : Reg) : Statement (.shiShra w c d a) := len 0x80000018 [(w.toNat, 28), (c.toNat, 17), (d.toNat, 9), (a.toNat, 13)] [] rfl rfl

theorem shiRot (w : BitVec 2) (c : BitVec 6) (d : Reg) (a : Reg) : Statement (.shiRot w c d a) := len 0xC0000018 [(w.toNat, 28), (c.toNat, 17), (d.toNat, 9), (a.toNat, 13)] [] rfl rfl

theorem cmp (c : BitVec 3) (d : Reg) (a : Reg) (b : Reg) : Statement (.cmp c d a b) := len 0x0000001C [(c.toNat, 21), (d.toNat, 9), (a.toNat, 13), (b.toNat, 17)] [] rfl rfl

theorem cmpi (c : BitVec 3) (d : Reg) (a : Reg) (i : Imm 12) : Statement (.cmpi c d a i) := imm (pack 0x00000020 [(c.toNat, 29), (d.toNat, 9), (a.toNat, 13)]) 17 _ (pack_len _ _ rfl) (by decide)

theorem mul (d : Reg) (a : Reg) (b : Reg) : Statement (.mul d a b) := len 0x00000024 [(d.toNat, 9), (a.toNat, 13), (b.toNat, 17)] [] rfl rfl

theorem mulh (d : Reg) (a : Reg) (b : Reg) : Statement (.mulh d a b) := len 0x00200024 [(d.toNat, 9), (a.toNat, 13), (b.toNat, 17)] [] rfl rfl

theorem mulhn (d : Reg) (a : Reg) (b : Reg) : Statement (.mulhn d a b) := len 0x00400024 [(d.toNat, 9), (a.toNat, 13), (b.toNat, 17)] [] rfl rfl

theorem mad (d : Reg) (a : Reg) (b : Reg) : Statement (.mad d a b) := len 0x00600024 [(d.toNat, 9), (a.toNat, 13), (b.toNat, 17)] [] rfl rfl

theorem div (d : Reg) (a : Reg) (b : Reg) : Statement (.div d a b) := len 0x00800024 [(d.toNat, 9), (a.toNat, 13), (b.toNat, 17)] [] rfl rfl

theorem divn (d : Reg) (a : Reg) (b : Reg) : Statement (.divn d a b) := len 0x00A00024 [(d.toNat, 9), (a.toNat, 13), (b.toNat, 17)] [] rfl rfl

theorem rem (d : Reg) (a : Reg) (b : Reg) : Statement (.rem d a b) := len 0x00C00024 [(d.toNat, 9), (a.toNat, 13), (b.toNat, 17)] [] rfl rfl

theorem remn (d : Reg) (a : Reg) (b : Reg) : Statement (.remn d a b) := len 0x00E00024 [(d.toNat, 9), (a.toNat, 13), (b.toNat, 17)] [] rfl rfl

theorem clz (d : Reg) (a : Reg) : Statement (.clz d a) := len 0x00000028 [(d.toNat, 9), (a.toNat, 13)] [] rfl rfl

theorem ctz (d : Reg) (a : Reg) : Statement (.ctz d a) := len 0x00200028 [(d.toNat, 9), (a.toNat, 13)] [] rfl rfl

theorem popc (d : Reg) (a : Reg) : Statement (.popc d a) := len 0x00400028 [(d.toNat, 9), (a.toNat, 13)] [] rfl rfl

theorem brev (d : Reg) (a : Reg) : Statement (.brev d a) := len 0x00600028 [(d.toNat, 9), (a.toNat, 13)] [] rfl rfl

theorem bswap (d : Reg) (a : Reg) : Statement (.bswap d a) := len 0x00800028 [(d.toNat, 9), (a.toNat, 13)] [] rfl rfl

theorem extb (s : BitVec 1) (l : BitVec 6) (p : BitVec 6) (d : Reg) (a : Reg) : Statement (.extb s l p d a) := len 0x0000002C [(s.toNat, 29), (l.toNat, 23), (p.toNat, 17), (d.toNat, 9), (a.toNat, 13)] [] rfl rfl

theorem insb (l : BitVec 6) (p : BitVec 6) (d : Reg) (a : Reg) : Statement (.insb l p d a) := len 0x00000030 [(l.toNat, 23), (p.toNat, 17), (d.toNat, 9), (a.toNat, 13)] [] rfl rfl

theorem sel (c : Reg) (d : Reg) (a : Reg) (b : Reg) : Statement (.sel c d a b) := len 0x00000034 [(c.toNat, 21), (d.toNat, 9), (a.toNat, 13), (b.toNat, 17)] [] rfl rfl

theorem lea (s : BitVec 3) (d : Reg) (a : Reg) (b : Reg) : Statement (.lea s d a b) := len 0x00000038 [(s.toNat, 21), (d.toNat, 9), (a.toNat, 13), (b.toNat, 17)] [] rfl rfl

theorem ldi (d : Reg) (i : Imm 15) : Statement (.ldi d i) := imm (pack 0x0000003C [(d.toNat, 9)]) 17 _ (pack_len _ _ rfl) (by decide)

theorem widf (d : Reg) (a : Reg) : Statement (.widf d a) := len 0x00000040 [(d.toNat, 9), (a.toNat, 13)] [] rfl rfl

theorem shape (d : Reg) (a : Reg) : Statement (.shape d a) := len 0x00200040 [(d.toNat, 9), (a.toNat, 13)] [] rfl rfl

theorem locid (d : Reg) (a : Reg) : Statement (.locid d a) := len 0x00400040 [(d.toNat, 9), (a.toNat, 13)] [] rfl rfl

theorem fadd (f : BitVec 3) (r : BitVec 2) (d : Reg) (a : Reg) (b : Reg) : Statement (.fadd f r d a b) := len 0x00000044 [(f.toNat, 29), (r.toNat, 27), (d.toNat, 9), (a.toNat, 13), (b.toNat, 17)] [] rfl rfl

theorem fsub (f : BitVec 3) (r : BitVec 2) (d : Reg) (a : Reg) (b : Reg) : Statement (.fsub f r d a b) := len 0x00200044 [(f.toNat, 29), (r.toNat, 27), (d.toNat, 9), (a.toNat, 13), (b.toNat, 17)] [] rfl rfl

theorem fmul (f : BitVec 3) (r : BitVec 2) (d : Reg) (a : Reg) (b : Reg) : Statement (.fmul f r d a b) := len 0x00400044 [(f.toNat, 29), (r.toNat, 27), (d.toNat, 9), (a.toNat, 13), (b.toNat, 17)] [] rfl rfl

theorem fdiv (f : BitVec 3) (r : BitVec 2) (d : Reg) (a : Reg) (b : Reg) : Statement (.fdiv f r d a b) := len 0x00600044 [(f.toNat, 29), (r.toNat, 27), (d.toNat, 9), (a.toNat, 13), (b.toNat, 17)] [] rfl rfl

theorem fmin (f : BitVec 3) (r : BitVec 2) (d : Reg) (a : Reg) (b : Reg) : Statement (.fmin f r d a b) := len 0x00800044 [(f.toNat, 29), (r.toNat, 27), (d.toNat, 9), (a.toNat, 13), (b.toNat, 17)] [] rfl rfl

theorem fmax (f : BitVec 3) (r : BitVec 2) (d : Reg) (a : Reg) (b : Reg) : Statement (.fmax f r d a b) := len 0x00A00044 [(f.toNat, 29), (r.toNat, 27), (d.toNat, 9), (a.toNat, 13), (b.toNat, 17)] [] rfl rfl

theorem fsqrt (f : BitVec 3) (r : BitVec 2) (d : Reg) (a : Reg) : Statement (.fsqrt f r d a) := len 0x00C00044 [(f.toNat, 29), (r.toNat, 27), (d.toNat, 9), (a.toNat, 13)] [] rfl rfl

theorem fabs (f : BitVec 3) (r : BitVec 2) (d : Reg) (a : Reg) : Statement (.fabs f r d a) := len 0x00E00044 [(f.toNat, 29), (r.toNat, 27), (d.toNat, 9), (a.toNat, 13)] [] rfl rfl

theorem fneg (f : BitVec 3) (r : BitVec 2) (d : Reg) (a : Reg) : Statement (.fneg f r d a) := len 0x01000044 [(f.toNat, 29), (r.toNat, 27), (d.toNat, 9), (a.toNat, 13)] [] rfl rfl

theorem fcpys (f : BitVec 3) (r : BitVec 2) (d : Reg) (a : Reg) (b : Reg) : Statement (.fcpys f r d a b) := len 0x01200044 [(f.toNat, 29), (r.toNat, 27), (d.toNat, 9), (a.toNat, 13), (b.toNat, 17)] [] rfl rfl

theorem fma (f : BitVec 3) (r : BitVec 2) (d : Reg) (a : Reg) (b : Reg) : Statement (.fma f r d a b) := len 0x00000048 [(f.toNat, 29), (r.toNat, 27), (d.toNat, 9), (a.toNat, 13), (b.toNat, 17)] [] rfl rfl

theorem fcmp (f : BitVec 3) (c : BitVec 3) (d : Reg) (a : Reg) (b : Reg) : Statement (.fcmp f c d a b) := len 0x0000004C [(f.toNat, 29), (c.toNat, 21), (d.toNat, 9), (a.toNat, 13), (b.toNat, 17)] [] rfl rfl

theorem fcvt (r : BitVec 1) (t : BitVec 5) (s : BitVec 5) (d : Reg) (a : Reg) : Statement (.fcvt r t s d a) := len 0x00000050 [(r.toNat, 31), (t.toNat, 26), (s.toNat, 21), (d.toNat, 9), (a.toNat, 13)] [] rfl rfl

theorem fclass (f : BitVec 3) (d : Reg) (a : Reg) : Statement (.fclass f d a) := len 0x00000054 [(f.toNat, 29), (d.toNat, 9), (a.toNat, 13)] [] rfl rfl

theorem rcp (f : BitVec 3) (d : Reg) (a : Reg) : Statement (.rcp f d a) := len 0x00000058 [(f.toNat, 29), (d.toNat, 9), (a.toNat, 13)] [] rfl rfl

theorem rsq (f : BitVec 3) (d : Reg) (a : Reg) : Statement (.rsq f d a) := len 0x00200058 [(f.toNat, 29), (d.toNat, 9), (a.toNat, 13)] [] rfl rfl

theorem exp2 (f : BitVec 3) (d : Reg) (a : Reg) : Statement (.exp2 f d a) := len 0x00400058 [(f.toNat, 29), (d.toNat, 9), (a.toNat, 13)] [] rfl rfl

theorem log2 (f : BitVec 3) (d : Reg) (a : Reg) : Statement (.log2 f d a) := len 0x00600058 [(f.toNat, 29), (d.toNat, 9), (a.toNat, 13)] [] rfl rfl

theorem sinpi (f : BitVec 3) (d : Reg) (a : Reg) : Statement (.sinpi f d a) := len 0x00800058 [(f.toNat, 29), (d.toNat, 9), (a.toNat, 13)] [] rfl rfl

theorem cospi (f : BitVec 3) (d : Reg) (a : Reg) : Statement (.cospi f d a) := len 0x00A00058 [(f.toNat, 29), (d.toNat, 9), (a.toNat, 13)] [] rfl rfl

theorem tanh (f : BitVec 3) (d : Reg) (a : Reg) : Statement (.tanh f d a) := len 0x00C00058 [(f.toNat, 29), (d.toNat, 9), (a.toNat, 13)] [] rfl rfl

theorem sigm (f : BitVec 3) (d : Reg) (a : Reg) : Statement (.sigm f d a) := len 0x00E00058 [(f.toNat, 29), (d.toNat, 9), (a.toNat, 13)] [] rfl rfl

theorem br (o : Imm 23) : Statement (.br o) := imm _ _ _ rfl (by decide)

theorem call (o : Imm 23) : Statement (.call o) := imm _ _ _ rfl (by decide)

theorem bc (c : BitVec 3) (b : Reg) (a : Reg) (o : Imm 12) : Statement (.bc c b a o) := imm (pack 0x00000064 [(c.toNat, 17), (b.toNat, 13), (a.toNat, 9)]) 20 _ (pack_len _ _ rfl) (by decide)

theorem bz (c : BitVec 3) (a : Reg) (o : Imm 12) : Statement (.bz c a o) := imm (pack 0x00000068 [(c.toNat, 17), (a.toNat, 9)]) 20 _ (pack_len _ _ rfl) (by decide)

theorem jmpr (a : Reg) : Statement (.jmpr a) := len 0x00000070 [(a.toNat, 13)] [] rfl rfl

theorem callr (d : Reg) (a : Reg) : Statement (.callr d a) := len 0x00200070 [(d.toNat, 9), (a.toNat, 13)] [] rfl rfl

theorem ret (a : Reg) : Statement (.ret a) := len 0x00400070 [(a.toNat, 13)] [] rfl rfl

theorem jtab (a : Reg) (n : BitVec 32) (t : BitVec 30) : Statement (.jtab a n t) := len 0x00000076 [(a.toNat, 13)] [pack 0 [(n.toNat, 0)], pack 0 [(t.toNat, 2)]] rfl rfl

theorem exit (c : BitVec 8) : Statement (.exit c) := len 0x00000078 [(c.toNat, 17)] [] rfl rfl

theorem nop : Statement .nop := rfl

theorem ld (scp : BitVec 2) (o : BitVec 2) (z : BitVec 3) (d : Reg) (a : Reg) (p : Imm 8) : Statement (.ld scp o z d a p) := imm (pack 0x00000080 [(scp.toNat, 22), (o.toNat, 20), (z.toNat, 17), (d.toNat, 9), (a.toNat, 13)]) 24 _ (pack_len _ _ rfl) (by decide)

theorem st (scp : BitVec 2) (o : BitVec 2) (z : BitVec 3) (d : Reg) (a : Reg) (p : Imm 8) : Statement (.st scp o z d a p) := imm (pack 0x00000084 [(scp.toNat, 22), (o.toNat, 20), (z.toNat, 17), (d.toNat, 9), (a.toNat, 13)]) 24 _ (pack_len _ _ rfl) (by decide)

theorem fence (scp : BitVec 2) (k : BitVec 2) : Statement (.fence scp k) := len 0x00000088 [(scp.toNat, 23), (k.toNat, 21)] [] rfl rfl

theorem lr (scp : BitVec 2) (o : BitVec 2) (z : BitVec 3) (d : Reg) (a : Reg) (p : Imm 8) : Statement (.lr scp o z d a p) := imm (pack 0x0000008C [(scp.toNat, 22), (o.toNat, 20), (z.toNat, 17), (d.toNat, 9), (a.toNat, 13)]) 24 _ (pack_len _ _ rfl) (by decide)

theorem sc (scp : BitVec 2) (o : BitVec 2) (z : BitVec 3) (d : Reg) (a : Reg) (p : Imm 8) : Statement (.sc scp o z d a p) := imm (pack 0x00000090 [(scp.toNat, 22), (o.toNat, 20), (z.toNat, 17), (d.toNat, 9), (a.toNat, 13)]) 24 _ (pack_len _ _ rfl) (by decide)

theorem amoAdd (scp : BitVec 2) (o : BitVec 2) (z : BitVec 3) (d : Reg) (a : Reg) (p : Imm 4) : Statement (.amoAdd scp o z d a p) := imm (pack 0x00000094 [(scp.toNat, 22), (o.toNat, 20), (z.toNat, 17), (d.toNat, 9), (a.toNat, 13)]) 24 _ (pack_len _ _ rfl) (by decide)

theorem amoAnd (scp : BitVec 2) (o : BitVec 2) (z : BitVec 3) (d : Reg) (a : Reg) (p : Imm 4) : Statement (.amoAnd scp o z d a p) := imm (pack 0x10000094 [(scp.toNat, 22), (o.toNat, 20), (z.toNat, 17), (d.toNat, 9), (a.toNat, 13)]) 24 _ (pack_len _ _ rfl) (by decide)

theorem amoOr (scp : BitVec 2) (o : BitVec 2) (z : BitVec 3) (d : Reg) (a : Reg) (p : Imm 4) : Statement (.amoOr scp o z d a p) := imm (pack 0x20000094 [(scp.toNat, 22), (o.toNat, 20), (z.toNat, 17), (d.toNat, 9), (a.toNat, 13)]) 24 _ (pack_len _ _ rfl) (by decide)

theorem amoXor (scp : BitVec 2) (o : BitVec 2) (z : BitVec 3) (d : Reg) (a : Reg) (p : Imm 4) : Statement (.amoXor scp o z d a p) := imm (pack 0x30000094 [(scp.toNat, 22), (o.toNat, 20), (z.toNat, 17), (d.toNat, 9), (a.toNat, 13)]) 24 _ (pack_len _ _ rfl) (by decide)

theorem amoSwap (scp : BitVec 2) (o : BitVec 2) (z : BitVec 3) (d : Reg) (a : Reg) (p : Imm 4) : Statement (.amoSwap scp o z d a p) := imm (pack 0x40000094 [(scp.toNat, 22), (o.toNat, 20), (z.toNat, 17), (d.toNat, 9), (a.toNat, 13)]) 24 _ (pack_len _ _ rfl) (by decide)

theorem amoMin (scp : BitVec 2) (o : BitVec 2) (z : BitVec 3) (d : Reg) (a : Reg) (p : Imm 4) : Statement (.amoMin scp o z d a p) := imm (pack 0x50000094 [(scp.toNat, 22), (o.toNat, 20), (z.toNat, 17), (d.toNat, 9), (a.toNat, 13)]) 24 _ (pack_len _ _ rfl) (by decide)

theorem amoMax (scp : BitVec 2) (o : BitVec 2) (z : BitVec 3) (d : Reg) (a : Reg) (p : Imm 4) : Statement (.amoMax scp o z d a p) := imm (pack 0x60000094 [(scp.toNat, 22), (o.toNat, 20), (z.toNat, 17), (d.toNat, 9), (a.toNat, 13)]) 24 _ (pack_len _ _ rfl) (by decide)

theorem amoMinn (scp : BitVec 2) (o : BitVec 2) (z : BitVec 3) (d : Reg) (a : Reg) (p : Imm 4) : Statement (.amoMinn scp o z d a p) := imm (pack 0x70000094 [(scp.toNat, 22), (o.toNat, 20), (z.toNat, 17), (d.toNat, 9), (a.toNat, 13)]) 24 _ (pack_len _ _ rfl) (by decide)

theorem amoMaxn (scp : BitVec 2) (o : BitVec 2) (z : BitVec 3) (d : Reg) (a : Reg) (p : Imm 4) : Statement (.amoMaxn scp o z d a p) := imm (pack 0x80000094 [(scp.toNat, 22), (o.toNat, 20), (z.toNat, 17), (d.toNat, 9), (a.toNat, 13)]) 24 _ (pack_len _ _ rfl) (by decide)

theorem cas (z : BitVec 3) (scp : BitVec 2) (o : BitVec 2) (d : Reg) (a : Reg) (b : Reg) (p : Imm 32) : Statement (.cas z scp o d a b p) := ext (pack 0x0000009A [(d.toNat, 9), (a.toNat, 13), (b.toNat, 17)]) _ _ (pack_len _ _ rfl)

theorem waitrs (scp : BitVec 2) (o : BitVec 2) (z : BitVec 3) (d : Reg) (a : Reg) (p : Imm 8) : Statement (.waitrs scp o z d a p) := imm (pack 0x0000009C [(scp.toNat, 22), (o.toNat, 20), (z.toNat, 17), (d.toNat, 9), (a.toNat, 13)]) 24 _ (pack_len _ _ rfl) (by decide)

theorem red (f : BitVec 5) (scp : BitVec 2) (o : BitVec 2) (a : Reg) (b : Reg) (p : Imm 32) : Statement (.red f scp o a b p) := ext (pack 0x000000A2 [(a.toNat, 13), (b.toNat, 17)]) _ _ (pack_len _ _ rfl)

theorem xsrd (k : BitVec 1) (f : BitVec 5) (scp : BitVec 2) (o : BitVec 2) (d : Reg) (a : Reg) (p : Imm 32) : Statement (.xsrd k f scp o d a p) := ext (pack 0x000000A6 [(d.toNat, 9), (a.toNat, 13)]) _ _ (pack_len _ _ rfl)

theorem ldfeRead (scp : BitVec 2) (d : Reg) (a : Reg) (p : Imm 4) : Statement (.ldfeRead scp d a p) := imm (pack 0x000C00A8 [(scp.toNat, 22), (d.toNat, 9), (a.toNat, 13)]) 24 _ (pack_len _ _ rfl) (by decide)

theorem ldfeTake (scp : BitVec 2) (d : Reg) (a : Reg) (p : Imm 4) : Statement (.ldfeTake scp d a p) := imm (pack 0x100C00A8 [(scp.toNat, 22), (d.toNat, 9), (a.toNat, 13)]) 24 _ (pack_len _ _ rfl) (by decide)

theorem stfePut (scp : BitVec 2) (d : Reg) (a : Reg) (p : Imm 4) : Statement (.stfePut scp d a p) := imm (pack 0x000C00AC [(scp.toNat, 22), (d.toNat, 9), (a.toNat, 13)]) 24 _ (pack_len _ _ rfl) (by decide)

theorem stfeFill (scp : BitVec 2) (d : Reg) (a : Reg) (p : Imm 4) : Statement (.stfeFill scp d a p) := imm (pack 0x100C00AC [(scp.toNat, 22), (d.toNat, 9), (a.toNat, 13)]) 24 _ (pack_len _ _ rfl) (by decide)

theorem stfeClear (scp : BitVec 2) (a : Reg) (p : Imm 4) : Statement (.stfeClear scp a p) := imm (pack 0x200C00AC [(scp.toNat, 22), (a.toNat, 13)]) 24 _ (pack_len _ _ rfl) (by decide)

theorem pref (scp : BitVec 2) (a : Reg) (p : Imm 4) : Statement (.pref scp a p) := imm (pack 0x000000B0 [(scp.toNat, 22), (a.toNat, 13)]) 24 _ (pack_len _ _ rfl) (by decide)

theorem clean (scp : BitVec 2) (a : Reg) (p : Imm 4) : Statement (.clean scp a p) := imm (pack 0x100000B0 [(scp.toNat, 22), (a.toNat, 13)]) 24 _ (pack_len _ _ rfl) (by decide)

theorem inval (scp : BitVec 2) (a : Reg) (p : Imm 4) : Statement (.inval scp a p) := imm (pack 0x200000B0 [(scp.toNat, 22), (a.toNat, 13)]) 24 _ (pack_len _ _ rfl) (by decide)

theorem invalCluster (scp : BitVec 2) (d : Reg) (a : Reg) (p : Imm 4) : Statement (.invalCluster scp d a p) := imm (pack 0x200000B0 [(scp.toNat, 22), (d.toNat, 9), (a.toNat, 13)]) 24 _ (pack_len _ _ rfl) (by decide)

theorem ldc (scp : BitVec 2) (o : BitVec 2) (d : Reg) (a : Reg) (p : Imm 8) : Statement (.ldc scp o d a p) := imm (pack 0x000C00B4 [(scp.toNat, 22), (o.toNat, 20), (d.toNat, 9), (a.toNat, 13)]) 24 _ (pack_len _ _ rfl) (by decide)

theorem stc (scp : BitVec 2) (o : BitVec 2) (d : Reg) (a : Reg) (p : Imm 8) : Statement (.stc scp o d a p) := imm (pack 0x000C00B8 [(scp.toNat, 22), (o.toNat, 20), (d.toNat, 9), (a.toNat, 13)]) 24 _ (pack_len _ _ rfl) (by decide)

theorem spawn (k : BitVec 3) (c : Reg) (a : Reg) (b : Reg) : Statement (.spawn k c a b) := len 0x000000C0 [(k.toNat, 25), (c.toNat, 21), (a.toNat, 13), (b.toNat, 17)] [] rfl rfl

theorem reap (d : Reg) (a : Reg) : Statement (.reap d a) := len 0x000000C4 [(d.toNat, 9), (a.toNat, 13)] [] rfl rfl

theorem reapAny (d : Reg) : Statement (.reapAny d) := len 0x002000C4 [(d.toNat, 9)] [] rfl rfl

theorem bind (k : BitVec 3) : Statement (.bind k) := len 0x000000C8 [(k.toNat, 21)] [] rfl rfl

theorem semP (a : Reg) : Statement (.semP a) := len 0x000000CC [(a.toNat, 13)] [] rfl rfl

theorem semV (a : Reg) : Statement (.semV a) := len 0x002000CC [(a.toNat, 13)] [] rfl rfl

theorem semTry (d : Reg) (a : Reg) : Statement (.semTry d a) := len 0x004000CC [(d.toNat, 9), (a.toNat, 13)] [] rfl rfl

theorem send (a : Reg) (b : Reg) : Statement (.send a b) := len 0x000000D0 [(a.toNat, 13), (b.toNat, 17)] [] rfl rfl

theorem sendS (a : Reg) (b : Reg) : Statement (.sendS a b) := len 0x020000D0 [(a.toNat, 13), (b.toNat, 17)] [] rfl rfl

theorem openS (d : Reg) (a : Reg) : Statement (.openS d a) := len 0x002000D0 [(d.toNat, 9), (a.toNat, 13)] [] rfl rfl

theorem close (a : Reg) : Statement (.close a) := len 0x004000D0 [(a.toNat, 13)] [] rfl rfl

theorem wake (a : Reg) (b : Reg) : Statement (.wake a b) := len 0x006000D0 [(a.toNat, 13), (b.toNat, 17)] [] rfl rfl

theorem recv (d : Reg) (b : Reg) : Statement (.recv d b) := len 0x000000D4 [(d.toNat, 9), (b.toNat, 17)] [] rfl rfl

theorem tryrecv (d : Reg) (b : Reg) : Statement (.tryrecv d b) := len 0x002000D4 [(d.toNat, 9), (b.toNat, 17)] [] rfl rfl

theorem rcall (a : Reg) (b : Reg) (k : BitVec 1) (p : BitVec 32) : Statement (.rcall a b k p) := len 0x000000DA [(a.toNat, 13), (b.toNat, 17)] [pack 0 [(k.toNat, 0)], pack 0 [(p.toNat, 0)]] rfl rfl

theorem rreply (a : Reg) : Statement (.rreply a) := len 0x002000DA [(a.toNat, 13)] [0, 0] rfl rfl

theorem bara (d : Reg) (bar : BitVec 4) (n : BitVec 16) : Statement (.bara d bar n) := len 0x004000DA [(d.toNat, 9)] [pack 0 [(bar.toNat, 16), (n.toNat, 0)], 0] rfl rfl

theorem barw (a : Reg) (bar : BitVec 4) : Statement (.barw a bar) := len 0x006000DA [(a.toNat, 13)] [pack 0 [(bar.toNat, 16)], 0] rfl rfl

theorem llpush (d : Reg) (a : Reg) : Statement (.llpush d a) := len 0x000000DC [(d.toNat, 9), (a.toNat, 13)] [] rfl rfl

theorem llpop (d : Reg) (b : Reg) : Statement (.llpop d b) := len 0x002000DC [(d.toNat, 9), (b.toNat, 17)] [] rfl rfl

theorem migrate (a : Reg) : Statement (.migrate a) := len 0x004000DC [(a.toNat, 13)] [] rfl rfl

theorem specb (a : Reg) (b : Reg) : Statement (.specb a b) := len 0x006000DC [(a.toNat, 13), (b.toNat, 17)] [] rfl rfl

theorem specc : Statement .specc := rfl

theorem pause : Statement .pause := rfl

theorem instn (d : Reg) : Statement (.instn d) := len 0x002000E0 [(d.toNat, 9)] [] rfl rfl

theorem emit (k : BitVec 2) (a : Reg) (b : Reg) : Statement (.emit k a b) := len 0x000000E4 [(k.toNat, 21), (a.toNat, 13), (b.toNat, 17)] [] rfl rfl

theorem test (q : BitVec 2) (d : Reg) (a : Reg) : Statement (.test q d a) := len 0x000000E8 [(q.toNat, 17), (d.toNat, 9), (a.toNat, 13)] [] rfl rfl

theorem testv (q : BitVec 2) (d : Reg) (a : Reg) : Statement (.testv q d a) := len 0x002000E8 [(q.toNat, 17), (d.toNat, 9), (a.toNat, 13)] [] rfl rfl

theorem renounce (a : Reg) : Statement (.renounce a) := len 0x004000E8 [(a.toNat, 13)] [] rfl rfl

theorem emits (sl : BitVec 2) (a : Reg) (b : Reg) : Statement (.emits sl a b) := len 0x006000EA [(a.toNat, 13), (b.toNat, 17)] [pack 0 [(sl.toNat, 0)], 0] rfl rfl

theorem abortw (a : Reg) (p : BitVec 32) : Statement (.abortw a p) := len 0x000000EE [(a.toNat, 13)] [0, pack 0 [(p.toNat, 0)]] rfl rfl

theorem suspw (a : Reg) : Statement (.suspw a) := len 0x002000EE [(a.toNat, 13)] [0, 0] rfl rfl

theorem endw : Statement .endw := rfl

theorem sigforce (k : BitVec 2) (a : Reg) (b : Reg) : Statement (.sigforce k a b) := len 0x006000EE [(a.toNat, 13), (b.toNat, 17)] [pack 0 [(k.toNat, 0)], 0] rfl rfl

theorem lehrw (k : BitVec 1) (n : BitVec 16) (d : Reg) (a : Reg) : Statement (.lehrw k n d a) := len 0x008000EE [(d.toNat, 9), (a.toNat, 13)] [pack 0 [(k.toNat, 16), (n.toNat, 0)], 0] rfl rfl

theorem rld (m : BitVec 4) (o : BitVec 2) (z : BitVec 3) (d : Reg) (a : Reg) (b : Reg) (p : Imm 32) : Statement (.rld m o z d a b p) := ext (pack 0x000000F2 [(d.toNat, 9), (a.toNat, 13), (b.toNat, 17)]) _ _ (pack_len _ _ rfl)

theorem rst (m : BitVec 4) (o : BitVec 2) (z : BitVec 3) (d : Reg) (a : Reg) (b : Reg) (p : Imm 32) : Statement (.rst m o z d a b p) := ext (pack 0x000000F6 [(d.toNat, 9), (a.toNat, 13), (b.toNat, 17)]) _ _ (pack_len _ _ rfl)

theorem ramo (o : BitVec 2) (z : BitVec 3) (k : BitVec 4) (d : Reg) (a : Reg) (b : Reg) (p : Imm 32) : Statement (.ramo o z k d a b p) := ext (pack 0x000000FA [(d.toNat, 9), (a.toNat, 13), (b.toNat, 17)]) _ _ (pack_len _ _ rfl)

theorem cderiv (d : Reg) (a : Reg) (b : Reg) : Statement (.cderiv d a b) := len 0x000000FC [(d.toNat, 9), (a.toNat, 13), (b.toNat, 17)] [] rfl rfl

theorem cget (d : Reg) (a : Reg) (b : Reg) : Statement (.cget d a b) := len 0x002000FC [(d.toNat, 9), (a.toNat, 13), (b.toNat, 17)] [] rfl rfl

theorem cclr (d : Reg) (a : Reg) : Statement (.cclr d a) := len 0x004000FC [(d.toNat, 9), (a.toNat, 13)] [] rfl rfl

theorem vadd (s : BitVec 1) (f : BitVec 4) (q : PReg) (d : VReg) (a : VReg) (b : VReg) : Statement (.vadd s f q d a b) := len 0x00000100 [(s.toNat, 31), (f.toNat, 27), (q.toNat, 24), (d.toNat, 9), (a.toNat, 14), (b.toNat, 19)] [] rfl rfl

theorem vsub (s : BitVec 1) (f : BitVec 4) (q : PReg) (d : VReg) (a : VReg) (b : VReg) : Statement (.vsub s f q d a b) := len 0x00000104 [(s.toNat, 31), (f.toNat, 27), (q.toNat, 24), (d.toNat, 9), (a.toNat, 14), (b.toNat, 19)] [] rfl rfl

theorem vmul (s : BitVec 1) (f : BitVec 4) (q : PReg) (d : VReg) (a : VReg) (b : VReg) : Statement (.vmul s f q d a b) := len 0x00000108 [(s.toNat, 31), (f.toNat, 27), (q.toNat, 24), (d.toNat, 9), (a.toNat, 14), (b.toNat, 19)] [] rfl rfl

theorem vfma (s : BitVec 1) (f : BitVec 4) (q : PReg) (d : VReg) (a : VReg) (b : VReg) : Statement (.vfma s f q d a b) := len 0x0000010C [(s.toNat, 31), (f.toNat, 27), (q.toNat, 24), (d.toNat, 9), (a.toNat, 14), (b.toNat, 19)] [] rfl rfl

theorem vmin (s : BitVec 1) (q : PReg) (d : VReg) (a : VReg) (b : VReg) : Statement (.vmin s q d a b) := len 0x00000110 [(s.toNat, 31), (q.toNat, 24), (d.toNat, 9), (a.toNat, 14), (b.toNat, 19)] [] rfl rfl

theorem vmax (s : BitVec 1) (q : PReg) (d : VReg) (a : VReg) (b : VReg) : Statement (.vmax s q d a b) := len 0x00000114 [(s.toNat, 31), (q.toNat, 24), (d.toNat, 9), (a.toNat, 14), (b.toNat, 19)] [] rfl rfl

theorem vand (s : BitVec 1) (q : PReg) (d : VReg) (a : VReg) (b : VReg) : Statement (.vand s q d a b) := len 0x00000118 [(s.toNat, 31), (q.toNat, 24), (d.toNat, 9), (a.toNat, 14), (b.toNat, 19)] [] rfl rfl

theorem vor (s : BitVec 1) (q : PReg) (d : VReg) (a : VReg) (b : VReg) : Statement (.vor s q d a b) := len 0x0000011C [(s.toNat, 31), (q.toNat, 24), (d.toNat, 9), (a.toNat, 14), (b.toNat, 19)] [] rfl rfl

theorem vxor (s : BitVec 1) (q : PReg) (d : VReg) (a : VReg) (b : VReg) : Statement (.vxor s q d a b) := len 0x00000120 [(s.toNat, 31), (q.toNat, 24), (d.toNat, 9), (a.toNat, 14), (b.toNat, 19)] [] rfl rfl

theorem vshl (s : BitVec 1) (q : PReg) (d : VReg) (a : VReg) (b : VReg) : Statement (.vshl s q d a b) := len 0x00000124 [(s.toNat, 31), (q.toNat, 24), (d.toNat, 9), (a.toNat, 14), (b.toNat, 19)] [] rfl rfl

theorem vshr (s : BitVec 1) (f : BitVec 4) (q : PReg) (d : VReg) (a : VReg) (b : VReg) : Statement (.vshr s f q d a b) := len 0x00000128 [(s.toNat, 31), (f.toNat, 27), (q.toNat, 24), (d.toNat, 9), (a.toNat, 14), (b.toNat, 19)] [] rfl rfl

theorem vcmp (s : BitVec 1) (f : BitVec 4) (q : PReg) (d : PReg) (a : VReg) (b : VReg) : Statement (.vcmp s f q d a b) := len 0x0000012C [(s.toNat, 31), (f.toNat, 27), (q.toNat, 24), (d.toNat, 9), (a.toNat, 14), (b.toNat, 19)] [] rfl rfl

theorem vsel (s : BitVec 1) (q : PReg) (d : VReg) (a : VReg) (b : VReg) : Statement (.vsel s q d a b) := len 0x00000130 [(s.toNat, 31), (q.toNat, 24), (d.toNat, 9), (a.toNat, 14), (b.toNat, 19)] [] rfl rfl

theorem vcvt (s : BitVec 1) (f : BitVec 4) (q : PReg) (d : VReg) (a : VReg) (b : VReg) : Statement (.vcvt s f q d a b) := len 0x00000134 [(s.toNat, 31), (f.toNat, 27), (q.toNat, 24), (d.toNat, 9), (a.toNat, 14), (b.toNat, 19)] [] rfl rfl

theorem vapx (f : BitVec 4) (q : PReg) (d : VReg) (a : VReg) : Statement (.vapx f q d a) := len 0x00000138 [(f.toNat, 27), (q.toNat, 24), (d.toNat, 9), (a.toNat, 14)] [] rfl rfl

theorem vabs (q : PReg) (d : VReg) (a : VReg) : Statement (.vabs q d a) := len 0x0000013C [(q.toNat, 24), (d.toNat, 9), (a.toNat, 14)] [] rfl rfl

theorem vneg (q : PReg) (d : VReg) (a : VReg) : Statement (.vneg q d a) := len 0x0800013C [(q.toNat, 24), (d.toNat, 9), (a.toNat, 14)] [] rfl rfl

theorem vred (f : BitVec 4) (q : PReg) (d : VReg) (a : VReg) : Statement (.vred f q d a) := len 0x00000140 [(f.toNat, 27), (q.toNat, 24), (d.toNat, 9), (a.toNat, 14)] [] rfl rfl

theorem vscan (f : BitVec 4) (q : PReg) (d : VReg) (a : VReg) : Statement (.vscan f q d a) := len 0x00000144 [(f.toNat, 27), (q.toNat, 24), (d.toNat, 9), (a.toNat, 14)] [] rfl rfl

theorem vperm (q : PReg) (d : VReg) (a : VReg) (b : VReg) : Statement (.vperm q d a b) := len 0x00000148 [(q.toNat, 24), (d.toNat, 9), (a.toNat, 14), (b.toNat, 19)] [] rfl rfl

theorem vbcast (f : BitVec 1) (q : PReg) (d : VReg) (a : VReg) (b : Reg) : Statement (.vbcast f q d a b) := len 0x8000014C [(f.toNat, 27), (q.toNat, 24), (d.toNat, 9), (a.toNat, 14), (b.toNat, 19)] [] rfl rfl

theorem vmovx (f : BitVec 2) (d : VReg) (a : VReg) (b : Reg) : Statement (.vmovx f d a b) := len 0x80000150 [(f.toNat, 27), (d.toNat, 9), (a.toNat, 14), (b.toNat, 19)] [] rfl rfl

theorem vld (s : BitVec 1) (q : PReg) (d : VReg) (a : Reg) (b : VReg) : Statement (.vld s q d a b) := len 0x00000154 [(s.toNat, 31), (q.toNat, 24), (d.toNat, 9), (a.toNat, 14), (b.toNat, 19)] [] rfl rfl

theorem vst (s : BitVec 1) (q : PReg) (d : VReg) (a : Reg) (b : VReg) : Statement (.vst s q d a b) := len 0x00000158 [(s.toNat, 31), (q.toNat, 24), (d.toNat, 9), (a.toNat, 14), (b.toNat, 19)] [] rfl rfl

theorem vgath (a : Reg) (sh : BitVec 3) (p : BitVec 3) (q : PReg) (vi : VReg) (d : VReg) (disp : BitVec 32) : Statement (.vgath a sh p q vi d disp) := len 0x0000015E [(a.toNat, 13)] [pack 0 [(sh.toNat, 16), (p.toNat, 13), (q.toNat, 10), (vi.toNat, 5), (d.toNat, 0)], pack 0 [(disp.toNat, 0)]] rfl rfl

theorem vscat (a : Reg) (sh : BitVec 3) (p : BitVec 3) (q : PReg) (vi : VReg) (d : VReg) (disp : BitVec 32) : Statement (.vscat a sh p q vi d disp) := len 0x00000162 [(a.toNat, 13)] [pack 0 [(sh.toNat, 16), (p.toNat, 13), (q.toNat, 10), (vi.toNat, 5), (d.toNat, 0)], pack 0 [(disp.toNat, 0)]] rfl rfl

theorem vsort (n : BitVec 1) (k : BitVec 1) (q : PReg) (d : VReg) (a : VReg) : Statement (.vsort n k q d a) := len 0x00000164 [(n.toNat, 28), (k.toNat, 27), (q.toNat, 24), (d.toNat, 9), (a.toNat, 14)] [] rfl rfl

theorem vmerge (h : BitVec 1) (n : BitVec 1) (k : BitVec 1) (q : PReg) (d : VReg) (a : VReg) (b : VReg) : Statement (.vmerge h n k q d a b) := len 0x00000168 [(h.toNat, 29), (n.toNat, 28), (k.toNat, 27), (q.toNat, 24), (d.toNat, 9), (a.toNat, 14), (b.toNat, 19)] [] rfl rfl

theorem vtopk (n : BitVec 1) (q : PReg) (d : VReg) (a : VReg) (b : Reg) : Statement (.vtopk n q d a b) := len 0x8000016C [(n.toNat, 27), (q.toNat, 24), (d.toNat, 9), (a.toNat, 14), (b.toNat, 19)] [] rfl rfl

theorem plog (s : BitVec 1) (f : BitVec 4) (d : PReg) (a : PReg) (b : VReg) : Statement (.plog s f d a b) := len 0x00000170 [(s.toNat, 31), (f.toNat, 27), (d.toNat, 9), (a.toNat, 14), (b.toNat, 19)] [] rfl rfl

theorem rep (t : BitVec 3) (l : BitVec 4) (a : Reg) : Statement (.rep t l a) := len 0x00000174 [(t.toNat, 25), (l.toNat, 21), (a.toNat, 13)] [] rfl rfl

theorem vcfg (d : Reg) : Statement (.vcfg d) := len 0x00000178 [(d.toNat, 9)] [] rfl rfl

theorem vcfgWr (d : Reg) (a : Reg) : Statement (.vcfgWr d a) := len 0x00200178 [(d.toNat, 9), (a.toNat, 13)] [] rfl rfl

theorem vcfgClr (d : Reg) : Statement (.vcfgClr d) := len 0x00400178 [(d.toNat, 9)] [] rfl rfl

theorem mxq (d : Reg) (a : Reg) : Statement (.mxq d a) := len 0x00000180 [(d.toNat, 9), (a.toNat, 13)] [] rfl rfl

theorem mxwait (a : Reg) : Statement (.mxwait a) := len 0x00000184 [(a.toNat, 13)] [] rfl rfl

theorem mxwaitAll : Statement .mxwaitAll := rfl

theorem mxstat (d : Reg) (a : Reg) : Statement (.mxstat d a) := len 0x00000188 [(d.toNat, 9), (a.toNat, 13)] [] rfl rfl

theorem mxstatResume : Statement .mxstatResume := rfl

theorem mxstatDrop : Statement .mxstatDrop := rfl

theorem mxstatSdrop : Statement .mxstatSdrop := rfl

theorem cpq (d : Reg) (a : Reg) (b : Reg) : Statement (.cpq d a b) := len 0x000001A0 [(d.toNat, 9), (a.toNat, 13), (b.toNat, 17)] [] rfl rfl

theorem cpwait (a : Reg) : Statement (.cpwait a) := len 0x000001A4 [(a.toNat, 13)] [] rfl rfl

theorem cpwaitAll : Statement .cpwaitAll := rfl

theorem syncw (a : Reg) (b : Reg) : Statement (.syncw a b) := len 0x000001A8 [(a.toNat, 13), (b.toNat, 17)] [] rfl rfl

theorem syncwReset (a : Reg) (b : Reg) : Statement (.syncwReset a b) := len 0x002001A8 [(a.toNat, 13), (b.toNat, 17)] [] rfl rfl

theorem syncwait (d : Reg) (a : Reg) (b : Reg) : Statement (.syncwait d a b) := len 0x000001AC [(d.toNat, 9), (a.toNat, 13), (b.toNat, 17)] [] rfl rfl

theorem mbox (d : Reg) (a : Reg) : Statement (.mbox d a) := len 0x000001B0 [(d.toNat, 9), (a.toNat, 13)] [] rfl rfl

theorem mboxTry (d : Reg) (a : Reg) : Statement (.mboxTry d a) := len 0x002001B0 [(d.toNat, 9), (a.toNat, 13)] [] rfl rfl

theorem mboxSt (d : Reg) : Statement (.mboxSt d) := len 0x004001B0 [(d.toNat, 9)] [] rfl rfl

theorem gld (d : Reg) (a : Reg) (b : Reg) (p : BitVec 32) : Statement (.gld d a b p) := len 0x000001C2 [(d.toNat, 9), (a.toNat, 13), (b.toNat, 17)] [0, pack 0 [(p.toNat, 0)]] rfl rfl

theorem gst (d : Reg) (a : Reg) (b : Reg) (p : BitVec 32) : Statement (.gst d a b p) := len 0x000001C6 [(d.toNat, 9), (a.toNat, 13), (b.toNat, 17)] [0, pack 0 [(p.toNat, 0)]] rfl rfl

theorem gstep (a : Reg) (b : Reg) : Statement (.gstep a b) := len 0x000001CA [(a.toNat, 13), (b.toNat, 17)] [0, 0] rfl rfl

theorem gwait (a : Reg) (b : Reg) : Statement (.gwait a b) := len 0x000001CE [(a.toNat, 13), (b.toNat, 17)] [0, 0] rfl rfl

theorem gwaitOut (a : Reg) (b : Reg) : Statement (.gwaitOut a b) := len 0x002001CE [(a.toNat, 13), (b.toNat, 17)] [0, 0] rfl rfl

theorem fmt (s : BitVec 1) (g : BitVec 2) (f : BitVec 5) : Statement (.fmt s g f) := len 0x000001D0 [(s.toNat, 16), (g.toNat, 14), (f.toNat, 9)] [] rfl rfl

theorem trap (c : BitVec 15) : Statement (.trap c) := len 0x000001D4 [(c.toNat, 17)] [] rfl rfl

theorem brk (c : BitVec 15) : Statement (.brk c) := len 0x000001D8 [(c.toNat, 17)] [] rfl rfl

theorem sysrd (n : BitVec 12) (d : Reg) : Statement (.sysrd n d) := len 0x000001DC [(n.toNat, 17), (d.toNat, 9)] [] rfl rfl

theorem syswr (n : BitVec 12) (a : Reg) : Statement (.syswr n a) := len 0x000001E0 [(n.toNat, 17), (a.toNat, 13)] [] rfl rfl

theorem eret : Statement .eret := rfl

theorem tlbinv (a : Reg) (b : Reg) : Statement (.tlbinv a b) := len 0x000001E8 [(a.toNat, 13), (b.toNat, 17)] [] rfl rfl

theorem htset (a : Reg) (b : Reg) : Statement (.htset a b) := len 0x002001E8 [(a.toNat, 13), (b.toNat, 17)] [] rfl rfl

theorem dtraceMark (a : Reg) : Statement (.dtraceMark a) := len 0x000001EC [(a.toNat, 13)] [] rfl rfl

theorem dtraceBon : Statement .dtraceBon := rfl

theorem dtraceBoff : Statement .dtraceBoff := rfl

theorem dtraceSync : Statement .dtraceSync := rfl

theorem portEntryExecute (core : Nat) (port : Nat) : Statement (.portEntryExecute core port) := rfl

theorem repPass (core : Nat) (port : Nat) : Statement (.repPass core port) := rfl

theorem mxqWindowSubmit (rec : Nat) (v : Word) : Statement (.mxqWindowSubmit rec v) := rfl

theorem mma (core : Nat) : Statement (.mma core) := rfl

theorem mmai (core : Nat) : Statement (.mmai core) := rfl

theorem mmaq (core : Nat) : Statement (.mmaq core) := rfl

theorem tload (core : Nat) : Statement (.tload core) := rfl

theorem tstore (core : Nat) : Statement (.tstore core) := rfl

theorem tzero (core : Nat) : Statement (.tzero core) := rfl

theorem tcfg (core : Nat) : Statement (.tcfg core) := rfl

theorem trow (core : Nat) : Statement (.trow core) := rfl

theorem gangJoin (core : Nat) : Statement (.gangJoin core) := rfl

theorem gangJoinComplete (core : Nat) : Statement (.gangJoinComplete core) := rfl

theorem gangReduce (core : Nat) : Statement (.gangReduce core) := rfl

theorem scaleMissFill (core : Nat) : Statement (.scaleMissFill core) := rfl

theorem matrixCompletion (core : Nat) : Statement (.matrixCompletion core) := rfl

theorem copy (eng : Nat) (part : Nat) (q : Nat) : Statement (.copy eng part q) := rfl

theorem gather (eng : Nat) (part : Nat) (q : Nat) : Statement (.gather eng part q) := rfl

theorem scatter (eng : Nat) (part : Nat) (q : Nat) : Statement (.scatter eng part q) := rfl

theorem fill (eng : Nat) (part : Nat) (q : Nat) : Statement (.fill eng part q) := rfl

theorem reduce (eng : Nat) (part : Nat) (q : Nat) : Statement (.reduce eng part q) := rfl

theorem halox (eng : Nat) (part : Nat) (q : Nat) : Statement (.halox eng part q) := rfl

theorem rcopy (eng : Nat) (part : Nat) (q : Nat) : Statement (.rcopy eng part q) := rfl

theorem notify (eng : Nat) (part : Nat) (q : Nat) : Statement (.notify eng part q) := rfl

theorem copyPacketComplete (pk : Nat) : Statement (.copyPacketComplete pk) := rfl

theorem copyHoldTimeout (pk : Nat) : Statement (.copyHoldTimeout pk) := rfl

theorem watermarkAdvance (pk : Nat) : Statement (.watermarkAdvance pk) := rfl

theorem mailboxPost (pk : Nat) : Statement (.mailboxPost pk) := rfl

theorem mailboxTimeout (pk : Nat) : Statement (.mailboxTimeout pk) := rfl

theorem launch (part : Nat) (q : Nat) : Statement (.launch part q) := rfl

theorem blockDispatch (part : Nat) (core : Nat) : Statement (.blockDispatch part core) := rfl

theorem schedulerEpoch (part : Nat) : Statement (.schedulerEpoch part) := rfl

theorem launchComplete (l : Nat) : Statement (.launchComplete l) := rfl

theorem qregRegister (a : Reg) : Statement (.qregRegister a) := rfl

theorem qregUnregister (a : Reg) : Statement (.qregUnregister a) := rfl

theorem tagArrival (c : Nat) : Statement (.tagArrival c) := rfl

theorem releaseMarkerComplete (c : Nat) : Statement (.releaseMarkerComplete c) := rfl

theorem homeWrite (src : WriteSrc) : Statement (.homeWrite src) := rfl

theorem atomicAtPlace (c : Nat) : Statement (.atomicAtPlace c) := rfl

theorem feResend (c : Nat) : Statement (.feResend c) := rfl

theorem feLimit (c : Nat) : Statement (.feLimit c) := rfl

theorem lrLockExpiry (line : Nat) : Statement (.lrLockExpiry line) := rfl

theorem streamIdleEnd (unit : Nat) (k : Nat) : Statement (.streamIdleEnd unit k) := rfl

theorem bankmodeWrite (clu : Nat) (v : Word) : Statement (.bankmodeWrite clu v) := rfl

theorem bankModeChangeDone (clu : Nat) (bank : Nat) : Statement (.bankModeChangeDone clu bank) := rfl

theorem fifoPush (clu : Nat) (bank : Nat) (v : Word) : Statement (.fifoPush clu bank v) := rfl

theorem fifoPop (clu : Nat) (bank : Nat) : Statement (.fifoPop clu bank) := rfl

theorem haloFillStart (k : Nat) : Statement (.haloFillStart k) := rfl

theorem haloFillComplete (k : Nat) : Statement (.haloFillComplete k) := rfl

theorem sigmaUpdate (m : Nat) : Statement (.sigmaUpdate m) := rfl

theorem haloFillAbandon (k : Nat) (cause : BitVec 6) : Statement (.haloFillAbandon k cause) := rfl

theorem lehrDecide (l : Nat) : Statement (.lehrDecide l) := rfl

theorem instantLimit (l : Nat) : Statement (.instantLimit l) := rfl

theorem frameApply (l : Nat) : Statement (.frameApply l) := rfl

theorem signalEmission (m : Nat) : Statement (.signalEmission m) := rfl

theorem signalRelease (m : Nat) : Statement (.signalRelease m) := rfl

theorem signalQuery (c : Nat) : Statement (.signalQuery c) := rfl

theorem channelWordArrival (m : Nat) : Statement (.channelWordArrival m) := rfl

theorem exitNotice (m : Nat) : Statement (.exitNotice m) := rfl

theorem barrierArrival (m : Nat) : Statement (.barrierArrival m) := rfl

theorem migrationArrival (m : Nat) : Statement (.migrationArrival m) := rfl

theorem migrationResend (m : Nat) : Statement (.migrationResend m) := rfl

theorem rcallArrival (m : Nat) : Statement (.rcallArrival m) := rfl

theorem loadLevellingInterval (core : Nat) : Statement (.loadLevellingInterval core) := rfl

theorem llEntriesArrive (m : Nat) : Statement (.llEntriesArrive m) := rfl

theorem pageWalk (clu : Nat) (part : Nat) (host : Bool) (va : Nat) : Statement (.pageWalk clu part host va) := rfl

theorem staWrite (a : Reg) : Statement (.staWrite a) := rfl

theorem htbaseWrite (a : Reg) : Statement (.htbaseWrite a) := rfl

theorem htlenWrite (a : Reg) : Statement (.htlenWrite a) := rfl

theorem ptrootWrite (a : Reg) : Statement (.ptrootWrite a) := rfl

theorem capepochWrite (a : Reg) : Statement (.capepochWrite a) := rfl

theorem pcapwhyWrite (a : Reg) : Statement (.pcapwhyWrite a) := rfl

theorem tracectlWrite (a : Reg) : Statement (.tracectlWrite a) := rfl

theorem traceptrWrite (a : Reg) : Statement (.traceptrWrite a) := rfl

theorem ecauseWrite (n : BitVec 12) (a : Reg) : Statement (.ecauseWrite n a) := rfl

theorem eventDelivery (c : Nat) : Statement (.eventDelivery c) := rfl

theorem watchdog (c : Nat) : Statement (.watchdog c) := rfl

theorem spill (part : Nat) : Statement (.spill part) := rfl

theorem restore (part : Nat) : Statement (.restore part) := rfl

theorem save (part : Nat) : Statement (.save part) := rfl

theorem patrolScrub (g : Nat) : Statement (.patrolScrub g) := rfl

theorem controlStateError (c : Nat) : Statement (.controlStateError c) := rfl

theorem replayWaitTimeout (part : Nat) : Statement (.replayWaitTimeout part) := rfl

theorem flitReceive (port : Nat) (bytes : List Byte) : Statement (.flitReceive port bytes) := rfl

theorem linkAckReceive (port : Nat) (lseq : BitVec 16) (nak : Bool) : Statement (.linkAckReceive port lseq nak) := rfl

theorem laneLossOfSignal (port : Nat) (lanes : BitVec 16) : Statement (.laneLossOfSignal port lanes) := rfl

theorem retrainComplete (port : Nat) (r : LaneReport) : Statement (.retrainComplete port r) := rfl

theorem serviceRetrain (port : Nat) (whole : BitVec 16) : Statement (.serviceRetrain port whole) := rfl

theorem linkStateUpdate (node : Nat) (port : Nat) (up : Bool) : Statement (.linkStateUpdate node port up) := rfl

theorem fabricForward (inPort : Nat) (pkt : FabPkt) : Statement (.fabricForward inPort pkt) := rfl

theorem fabricRequestIngress (pkt : FabPkt) : Statement (.fabricRequestIngress pkt) := rfl

theorem fabricResponse (pkt : FabPkt) : Statement (.fabricResponse pkt) := rfl

theorem e2eResend (n : Nat) : Statement (.e2eResend n) := rfl

theorem remoteTimeout (n : Nat) : Statement (.remoteTimeout n) := rfl

theorem revisionExchange (node : Nat) (rev : BitVec 32) (ops : BitVec 16) (fmts : BitVec 32) : Statement (.revisionExchange node rev ops fmts) := rfl

theorem reductionContribution (c : Contribution) : Statement (.reductionContribution c) := rfl

theorem reductionRoundFail (part : Nat) (hidx : BitVec 12) : Statement (.reductionRoundFail part hidx) := rfl

theorem capFrame (bytes : List Byte) : Statement (.capFrame bytes) := rfl

theorem thermalLimit : Statement .thermalLimit := rfl

theorem currentLimit : Statement .currentLimit := rfl

theorem thermalTrip : Statement .thermalTrip := rfl

theorem powerUp (image : List Byte) : Statement (.powerUp image) := rfl

theorem calibrationDone (failed : List Nat) (badChannels : List Nat) (sizes : List Nat) : Statement (.calibrationDone failed badChannels sizes) := rfl

theorem memoryInitDone : Statement .memoryInitDone := rfl

theorem fwptrWrite (v : Word) : Statement (.fwptrWrite v) := rfl

theorem attestationRequest (rack : Bool) : Statement (.attestationRequest rack) := rfl

theorem hreqWrite (part : Nat) (v : Word) : Statement (.hreqWrite part v) := rfl

theorem cxlMemRequest (part : Nat) (op : HostOp) : Statement (.cxlMemRequest part op) := rfl

theorem liveFirmwareUpdate (image : List Byte) : Statement (.liveFirmwareUpdate image) := rfl

theorem dramChannelRetrain (ch : Nat) (on : Bool) : Statement (.dramChannelRetrain ch on) := rfl

theorem clusterRecalibration (clu : Nat) (on : Bool) : Statement (.clusterRecalibration clu on) := rfl

theorem clusterRetire (clu : Nat) : Statement (.clusterRetire clu) := rfl

theorem clusterRetireFinish (clu : Nat) : Statement (.clusterRetireFinish clu) := rfl

theorem partitionCreate (p : PartSpec) : Statement (.partitionCreate p) := rfl

theorem illegalOpcode : Statement .illegalOpcode := rfl

theorem osellTrainingEnd (port : Nat) (whole : BitVec 16) : Statement (.osellTrainingEnd port whole) := rfl

theorem thermalLimitRelease : Statement .thermalLimitRelease := rfl

theorem currentLimitRelease : Statement .currentLimitRelease := rfl

theorem hallKeyProvision (key : Nat) : Statement (.hallKeyProvision key) := rfl

end Sys2Proof.Laws.Shape
end

