-- ==== Sys2Proof/Laws/Run.lean ====
section
/-! SUPPORT. Sys2Proof/Laws/Run.lean: what an instruction of the running thread does, by how its own rules end: it completes, jumps,
faults or waits. The meanings are cited through these lemmas. -/

namespace Sys2Proof.Machine

theorem SMap.put_put {α : Type} (m : SMap α) (k : Nat) (v w : α) : SMap.put (SMap.put m k v) k w = SMap.put m k w := by
  induction m with
  | nil => simp [SMap.put]
  | cons p r ih =>
    obtain ⟨a, x⟩ := p
    simp only [SMap.put]
    split
    · simp [SMap.put]
    · split
      · simp [SMap.put]
      · simp only [SMap.put, ih]
        rw [if_neg (by assumption), if_neg (by assumption)]

@[simp] theorem State.modCtx_modCtx (s : State) (c : Nat) (f g : Ctx → Ctx) :
    (s.modCtx c f).modCtx c g = s.modCtx c (fun x => g (f x)) := by
  unfold State.modCtx State.setCtx State.ctx
  simp [SMap.at_put, SMap.put_put]

@[simp] theorem State.setReg_cur (s : State) (d : Reg) (v : Word) : (s.setReg d v).cur = s.cur := rfl

@[simp] theorem Ctx.setReg_pc (x : Ctx) (d : Reg) (v : Word) : (x.setReg d v).pc = x.pc := by unfold Ctx.setReg; split <;> rfl
@[simp] theorem Ctx.setReg_btrace (x : Ctx) (d : Reg) (v : Word) : (x.setReg d v).btrace = x.btrace := by
  unfold Ctx.setReg; split <;> rfl
@[simp] theorem Ctx.setReg_sta (x : Ctx) (d : Reg) (v : Word) : (x.setReg d v).sta = x.sta := by unfold Ctx.setReg; split <;> rfl
@[simp] theorem Ctx.setReg_buf (x : Ctx) (d : Reg) (v : Word) : (x.setReg d v).buf = x.buf := by unfold Ctx.setReg; split <;> rfl
@[simp] theorem Ctx.raise_pc (x : Ctx) (f : BitVec 5) : (x.raise f).pc = x.pc := rfl

theorem Plain.complete {s : State} (h : Plain s) (t : State) (pc : Word) :
    t.complete s.cur s.me pc = t.modCtx s.cur (fun x => { x with pc := pc }) := by
  unfold State.complete
  rcases h.step_ with e | e <;> simp [e, h.due]

/-- A calm thread's instruction that passes its gate runs its own rules. -/
theorem Calm.run {s : State} (h : Calm s) {g : Gate} {len : Nat} {body : State → Res}
    (hp : g.priv = true → s.me.sta.sup = true) (hv : g.vec = true → s.me.sta.bind = 1)
    (hm : g.mat = true → s.me.sta.bind = 2) : s.run g len body = s.finish s.cur len (body s) := by
  have hp' := h.prefix_
  have hs := h.spec
  unfold State.me at hp hv hm hp' hs
  unfold State.run
  rw [if_neg, if_neg, if_neg, if_neg]
  · simp [hs]
  · rcases g with ⟨_, _, v, m, _⟩
    cases v <;> cases m <;> simp_all
  · simp [hp']
  · rcases g with ⟨p, _, _, _, _⟩
    cases p <;> simp_all

theorem Calm.finish_done {s : State} (h : Calm s) (len : Nat) (t : State) :
    s.finish s.cur len (.done t) = t.modCtx s.cur (fun x => { x with pc := s.me.pc + BitVec.ofNat 64 len }) :=
  h.toPlain.complete t _

theorem Plain.finish_done {s : State} (h : Plain s) (len : Nat) (t : State) :
    s.finish s.cur len (.done t) = t.modCtx s.cur (fun x => { x with pc := s.me.pc + BitVec.ofNat 64 len }) :=
  h.complete t _

/-- A plain thread's instruction that asks for nothing and may run while speculative runs its own rules. -/
theorem Plain.run {s : State} (h : Plain s) {len : Nat} {body : State → Res} :
    s.run scalarGate len body = s.finish s.cur len (body s) := by
  have hp' := h.prefix_
  unfold State.me at hp'
  simp [State.run, scalarGate, hp']

/-- Such an instruction whose own rules end in one register write. -/
theorem Plain.run_writes {s : State} (h : Plain s) {len : Nat} {body : State → Res} {d : Reg} {v : Word}
    (hb : body s = .done (s.setReg d v)) : s.run scalarGate len body = s.after len (·.setReg d v) := by
  rw [h.run, hb, h.finish_done]
  simp [State.setReg, State.after, State.me]
  rfl

theorem Calm.finish_jump {s : State} (h : Calm s) (len : Nat) (t : State) (pc : Word) (k : Nat)
    (hb : (t.ctx s.cur).btrace = false) :
    s.finish s.cur len (.jump t pc k) = t.modCtx s.cur (fun x => { x with pc := pc }) := by
  have : t.branchTrace s.cur k (s.ctx s.cur).pc pc = t := by unfold State.branchTrace; simp [hb]
  simp only [State.finish, this]
  exact h.toPlain.complete t _

@[simp] theorem State.finish_fault (s : State) (c len : Nat) (e : Exc) : s.finish c len (.fault e) = s.takeFault c e := rfl
@[simp] theorem State.finish_wait (s t : State) (c len : Nat) (w : Why) : s.finish c len (.wait t w) = t.block c w len := rfl
@[simp] theorem State.finish_stay (s t : State) (c len : Nat) : s.finish c len (.stay t) = t := rfl

/-- What a register reads after a write: the value, 0 for x0, and every other register as before. -/
theorem Ctx.reg_setReg (x : Ctx) (d r : Reg) (v : Word) :
    (x.setReg d v).reg r = if r = 0 then 0 else if r = d then v else x.reg r := by
  unfold Ctx.reg Ctx.setReg
  split
  · simp [*]
  · split
    · rename_i h0 hd
      have : ¬ r = d := fun e => h0 (e.trans hd)
      simp [this]
    · simp only [Vector.getElem_set]
      split
      · rename_i h1
        have : d = r := BitVec.eq_of_toNat_eq h1
        simp [this]
      · rename_i h1
        have : ¬ r = d := fun e => h1 (by rw [e])
        simp [this]

/-- An instruction whose own rules end in one register write. -/
theorem Calm.run_writes {s : State} (h : Calm s) {g : Gate} {len : Nat} {body : State → Res} {d : Reg} {v : Word}
    (hp : g.priv = true → s.me.sta.sup = true) (hv : g.vec = true → s.me.sta.bind = 1)
    (hm : g.mat = true → s.me.sta.bind = 2) (hb : body s = .done (s.setReg d v)) :
    s.run g len body = s.after len (·.setReg d v) := by
  rw [h.run hp hv hm, hb, h.finish_done]
  simp [State.setReg, State.after, State.me]
  rfl

end Sys2Proof.Machine
end

