-- ==== Sys2Proof/Tests/Slice0.lean ====
section
/-! SUPPORT. Sys2Proof/Tests/Slice0.lean: the model's own tests. Words decode to the instructions that the spec's encodings
say; each well-formedness check refuses a term; worked examples of the spec; and for every statement with hypotheses, a
state and operands that meet them. -/

namespace Sys2Proof.Tests

open Sys2Proof.Machine

-- one theorem at a time: each kernel evaluation has a stack of its own
set_option Elab.async false

/-! ## Decoding: the words that the spec gives as worked encodings -/

/-- 05 R89's families, scalar integer: `ADD x3, x1, x2`, `ADDS.w8`, `SHR.w8`, `CMPI`, `EXTB`, `LDI` with a literal (05 to 07). -/
theorem test_decode_scalar :
    decode [0x00042604] = .ok (.add 0 3 1 2) ∧ decode [0x07C42604] = .ok (.adds 3 3 1 2) ∧
    decode [0x0000063D, 0x89ABCDEF, 0x01234567] = .ok (.ldi 3 (.lit 0x0123456789ABCDEF)) := by decide

/-- 05 R78, R81: an FN11 that no operation has, an illegal major, a nonzero bit beside `NOP`'s, a nonzero immediate field beside a
literal, and an instruction cut short. -/
theorem test_decode_refuses :
    decode [0x08042604] = .error .illegalOpcode ∧ decode [0x00042000] = .error .illegalOpcode ∧
    decode [0x0000027C] = .error .reservedBits ∧ decode [0x0002063D, 0, 0] = .error .reservedBits ∧
    decode [0x0000063D, 0x89ABCDEF] = .error .truncated := by decide

/-- 10: loads, stores, fences, atomics, reduction cells. -/
theorem test_decode_memory :
    decode [0x020C6880] = .ok (.ld 0 0 6 4 3 (.short 2)) ∧ decode [0x019C4E80] = .ok (.ld 2 1 6 7 2 (.short 1)) ∧
    decode [0x089D1884] = .ok (.st 2 1 6 12 8 (.short 8)) ∧ decode [0x01400088] = .ok (.fence 2 2) := by decide

/-- 07 R154, R155; 17 R398, R400; 16 R369 to R380: system instructions. -/
theorem test_decode_system :
    decode [0x0000007C] = .ok .nop ∧ decode [0x000601D4] = .ok (.trap 3) ∧ decode [0x000201D8] = .ok (.brk 1) ∧
    decode [0x000001E4] = .ok .eret ∧ decode [0x03000BDC] = .ok (.sysrd 0x180 5) ∧ decode [0x0206C1E0] = .ok (.syswr 0x103 6) ∧
    decode [0x000861E8] = .ok (.tlbinv 3 4) ∧ decode [0x002641E8] = .ok (.htset 2 3) ∧
    decode [0x0000A1EC] = .ok (.dtraceMark 5) := by decide

/-- 07: `SHR.w32`-style constant shift, `CMPI.LT`, `EXTB`, `JTAB`; each operand field read by hand from the word. -/
theorem test_decode_scalar_fields :
    decode [0x4040AA18] = .ok (.shiShr 0 32 5 5) ∧ decode [0x5FF64820] = .ok (.cmpi 2 4 2 (.short 0xFFB)) ∧
    decode [0x2590862C] = .ok (.extb 1 11 8 3 4) ∧ decode [0x0000A076, 3, 0x14] = .ok (.jtab 5 3 5) := by decide

/-- 10 R214, R225 to R229: `AMO.ADD.dev x6, [x2]`, `WAITRS x7, [x2 + 8]`, `XSRD`, `RED`. -/
theorem test_decode_atomics :
    decode [0x008C4C94] = .ok (.amoAdd 2 0 6 6 2 (.short 0)) ∧ decode [0x010C4E9C] = .ok (.waitrs 0 0 6 7 2 (.short 1)) ∧
    decode [0x00006AA6, 0x580, 0] = .ok (.xsrd 0 11 0 0 5 3 (.short 0)) ∧
    decode [0x000860A2, 0x588, 0] = .ok (.red 11 2 0 3 4 (.short 0)) := by decide

/-- 16 R379 to R382: capability instructions. -/
theorem test_decode_capabilities :
    decode [0x00108CFC] = .ok (.cderiv 6 4 8) ∧ decode [0x002648FC] = .ok (.cget 4 2 3) ∧
    decode [0x0040C2FC] = .ok (.cclr 1 6) ∧ decode [0x020C68B4] = .ok (.ldc 0 0 4 3 (.short 2)) := by decide

/-- 14: signal instructions. -/
theorem test_decode_signals :
    decode [0x000000E0] = .ok .pause ∧ decode [0x00200AE0] = .ok (.instn 5) ∧ decode [0x001300E4] = .ok (.emit 0 8 9) ∧
    decode [0x000156E8] = .ok (.test 0 11 10) ∧ decode [0x004140E8] = .ok (.renounce 10) ∧
    decode [0x006CA0EA, 0, 0] = .ok (.emits 0 5 6) ∧ decode [0x002100EE, 0, 0] = .ok (.suspw 8) ∧
    decode [0x004000EE, 0, 0] = .ok .endw ∧ decode [0x007300EE, 1, 0] = .ok (.sigforce 1 8 9) ∧
    decode [0x0080CEEE, 8, 0] = .ok (.lehrw 0 8 7 6) := by decide

/-- 12 R264 to R272, 13 R282: copy queues, sync words, mailbox, grid loads. -/
theorem test_decode_copies_and_grids :
    decode [0x001821A0] = .ok (.cpq 0 1 12) ∧ decode [0x0000A1A4] = .ok (.cpwait 5) ∧ decode [0x000861A8] = .ok (.syncw 3 4) ∧
    decode [0x000A61AC] = .ok (.syncwait 0 3 5) ∧ decode [0x0000C9B0] = .ok (.mbox 4 6) ∧
    decode [0x00126BC2, 0, 0] = .ok (.gld 5 3 9 0) := by decide

/-- 08 and 09: vector and matrix instructions. -/
theorem test_decode_vector_and_matrix :
    decode [0x00801108] = .ok (.vmul 0 0 0 8 0 16) ∧ decode [0x00C21100] = .ok (.vadd 0 0 0 8 8 24) ∧
    decode [0x8038490C] = .ok (.vfma 1 0 0 4 1 7) ∧ decode [0x1029052C] = .ok (.vcmp 0 2 0 2 4 5) ∧
    decode [0x8828956C] = .ok (.vtopk 1 0 10 2 5) ∧ decode [0x00012180] = .ok (.mxq 0 9) := by decide

/-- 15: threads and messages. -/
theorem test_decode_threads :
    decode [0x00A860C0] = .ok (.spawn 0 5 3 4) ∧ decode [0x000640D0] = .ok (.send 2 3) ∧
    decode [0x000A08D4] = .ok (.recv 4 5) := by decide

/-- The encoder writes the same words, and the hook of the opcode table reads them through the decoder. -/
theorem test_encode :
    encode (.add 0 3 1 2) = [0x00042604] ∧ encode (.ldi 3 (.lit 0x0123456789ABCDEF)) = [0x0000063D, 0x89ABCDEF, 0x01234567] ∧
    encode (.htset 2 3) = [0x002641E8] ∧ decodeTableWord 32 0x00042604 = some (.add 0 3 1 2) ∧
    decodeTableWord 96 0x0123456789ABCDEF0000063D = some (.ldi 3 (.lit 0x0123456789ABCDEF)) := by decide

/-! ## Ill-formed terms: each check of `Instr.wf` refuses one -/

/-- 05 R78, 07: counts, conditions, bit fields, formats. -/
theorem test_illformed_scalar :
    Instr.wf (.shiShl 1 32 1 2) = false ∧ Instr.wf (.shiShr 3 8 1 2) = false ∧ Instr.wf (.shiShra 2 16 1 2) = false ∧
    Instr.wf (.shiRot 1 63 1 2) = false ∧ Instr.wf (.cmp 6 1 2 3) = false ∧ Instr.wf (.cmpi 7 1 2 (.short 0)) = false ∧
    Instr.wf (.extb 0 32 32 1 2) = false ∧ Instr.wf (.insb 63 1 1 2) = false ∧ Instr.wf (.bc 6 1 2 (.short 0)) = false ∧
    Instr.wf (.bz 7 1 (.short 0)) = false := by decide

/-- 07 R143 to R148: float formats and conversions. -/
theorem test_illformed_float :
    Instr.wf (.fadd 4 0 1 2 3) = false ∧ Instr.wf (.fsub 4 0 1 2 3) = false ∧ Instr.wf (.fmul 5 0 1 2 3) = false ∧
    Instr.wf (.fdiv 6 0 1 2 3) = false ∧ Instr.wf (.fmin 7 0 1 2 3) = false ∧ Instr.wf (.fmax 4 0 1 2 3) = false ∧
    Instr.wf (.fsqrt 4 0 1 2) = false ∧ Instr.wf (.fabs 4 0 1 2) = false ∧ Instr.wf (.fneg 4 0 1 2) = false ∧
    Instr.wf (.fcpys 4 0 1 2 3) = false ∧ Instr.wf (.fma 4 0 1 2 3) = false ∧ Instr.wf (.fcmp 0 5 1 2 3) = false ∧
    Instr.wf (.fcvt 0 5 6 1 2) = false ∧ Instr.wf (.fcvt 0 13 9 1 2) = false ∧ Instr.wf (.fclass 4 1 2) = false ∧
    Instr.wf (.rcp 0 1 2) = false ∧ Instr.wf (.rsq 4 1 2) = false ∧ Instr.wf (.exp2 0 1 2) = false ∧
    Instr.wf (.log2 0 1 2) = false ∧ Instr.wf (.sinpi 5 1 2) = false ∧ Instr.wf (.cospi 0 1 2) = false ∧
    Instr.wf (.tanh 0 1 2) = false ∧ Instr.wf (.sigm 0 1 2) = false := by decide

/-- 10, 16: order, scope and size codes; register pairs. -/
theorem test_illformed_memory :
    Instr.wf (.ld 0 0 7 1 2 (.short 0)) = false ∧ Instr.wf (.ld 1 0 6 1 2 (.short 0)) = false ∧
    Instr.wf (.ld 0 2 6 1 2 (.short 0)) = false ∧ Instr.wf (.st 0 0 7 1 2 (.short 0)) = false ∧
    Instr.wf (.st 1 2 6 1 2 (.short 0)) = false ∧ Instr.wf (.fence 0 0) = false ∧ Instr.wf (.lr 0 0 3 1 2 (.short 0)) = false ∧
    Instr.wf (.sc 0 2 6 1 2 (.short 0)) = false ∧ Instr.wf (.amoAdd 0 0 3 1 2 (.short 0)) = false ∧
    Instr.wf (.amoAnd 0 0 7 1 2 (.short 0)) = false ∧ Instr.wf (.amoOr 0 0 3 1 2 (.short 0)) = false ∧
    Instr.wf (.amoXor 0 0 3 1 2 (.short 0)) = false ∧ Instr.wf (.amoSwap 0 0 3 1 2 (.short 0)) = false ∧
    Instr.wf (.amoMin 0 0 3 1 2 (.short 0)) = false ∧ Instr.wf (.amoMax 0 0 3 1 2 (.short 0)) = false ∧
    Instr.wf (.amoMinn 0 0 3 1 2 (.short 0)) = false ∧ Instr.wf (.amoMaxn 0 0 3 1 2 (.short 0)) = false ∧
    Instr.wf (.cas 7 0 0 1 2 3 (.short 0)) = false ∧ Instr.wf (.waitrs 1 0 6 1 2 (.short 0)) = false ∧
    Instr.wf (.red 4 0 0 1 2 (.short 0)) = false ∧ Instr.wf (.red 12 0 0 1 2 (.short 0)) = false ∧
    Instr.wf (.xsrd 0 13 0 0 1 2 (.short 0)) = false ∧ Instr.wf (.invalCluster 0 0 1 (.short 0)) = false ∧
    Instr.wf (.ldc 0 0 3 1 (.short 0)) = false ∧ Instr.wf (.stc 0 0 0 1 (.short 0)) = false := by decide

/-- 14 to 16, 18: selectors and pairs. -/
theorem test_illformed_threads_and_capabilities :
    Instr.wf (.spawn 7 1 2 3) = false ∧ Instr.wf (.bind 7) = false ∧ Instr.wf (.rcall 1 2 1 0) = false ∧
    Instr.wf (.emit 3 1 2) = false ∧ Instr.wf (.test 3 1 2) = false ∧ Instr.wf (.testv 3 1 2) = false ∧
    Instr.wf (.sigforce 2 1 0) = false ∧ Instr.wf (.sigforce 3 0 0) = false ∧ Instr.wf (.rld 3 0 6 1 2 3 (.short 0)) = false ∧
    Instr.wf (.rst 1 0 5 1 2 3 (.short 0)) = false ∧ Instr.wf (.ramo 0 6 9 1 2 3 (.short 0)) = false ∧
    Instr.wf (.cderiv 1 2 4) = false ∧ Instr.wf (.cget 0 1 2) = false ∧ Instr.wf (.cclr 3 2) = false := by decide

/-- 05 R75, R81; 08: scalar forms, subselectors, pairs of vector registers; `FMT`. -/
theorem test_illformed_vector :
    Instr.wf (.vadd 1 0 0 1 2 16) = false ∧ Instr.wf (.vsub 0 4 0 1 2 3) = false ∧ Instr.wf (.vmul 0 5 0 1 2 3) = false ∧
    Instr.wf (.vfma 0 4 0 1 2 3) = false ∧ Instr.wf (.vmin 1 0 1 2 16) = false ∧ Instr.wf (.vmax 1 0 1 2 31) = false ∧
    Instr.wf (.vand 1 0 1 2 16) = false ∧ Instr.wf (.vor 1 0 1 2 16) = false ∧ Instr.wf (.vxor 1 0 1 2 16) = false ∧
    Instr.wf (.vshl 1 0 1 2 16) = false ∧ Instr.wf (.vshr 0 3 0 1 2 3) = false ∧ Instr.wf (.vcmp 0 5 0 1 2 3) = false ∧
    Instr.wf (.vsel 1 0 1 2 16) = false ∧ Instr.wf (.vcvt 0 15 0 1 2 0) = false ∧ Instr.wf (.vcvt 0 0 0 1 2 1) = false ∧
    Instr.wf (.vapx 8 0 1 2) = false ∧ Instr.wf (.vred 6 0 1 2) = false ∧ Instr.wf (.vscan 6 0 1 2) = false ∧
    Instr.wf (.vbcast 0 0 1 1 2) = false ∧ Instr.wf (.vmovx 0 16 0 1) = false ∧ Instr.wf (.vld 0 0 1 2 1) = false ∧
    Instr.wf (.vst 1 0 1 2 16) = false ∧ Instr.wf (.vsort 0 0 0 1 2) = false ∧ Instr.wf (.vmerge 0 0 0 0 2 2 3) = false ∧
    Instr.wf (.vtopk 0 0 2 3 1) = false ∧ Instr.wf (.plog 1 0 0 0 0) = false ∧ Instr.wf (.fmt 0 3 1) = false ∧
    Instr.wf (.fmt 0 0 0) = false ∧ Instr.wf (.fmt 0 0 18) = false := by decide

/-! ## Machines for the witnesses -/

/-- A handle's index and an offset as a pointer (03 R38). -/
def ptr (h off : Nat) : Word := BitVec.ofNat 64 (h * 2 ^ 52 + off)

/-- A handle entry: base, length, space, policy, permissions, and for a peer entry the node and handle (03 R40). -/
def entry (base len space policy perm : Nat) (pn ph : Nat := 0) : BitVec 256 :=
  BitVec.ofNat 256 (base + len * 2 ^ 64 + space * 2 ^ 160 + policy * 2 ^ 164 + perm * 2 ^ 168 + 2 ^ 176 + pn * 2 ^ 208 + ph * 2 ^ 224)

/-- Cached handle entries of partition 0: DRAM (0x11 relaxed, 0x12 streaming, 0x1A large), host memory, a grid, cells (0x1B large), a peer, a
supervisor's (0x17), a read-only one (0x18). -/
def handles : List (Nat × Nat × BitVec 256) :=
  [(0, 0x10, entry 0x10000 0x1000 1 0 0x7F), (0, 0x11, entry 0x20000 0x1000 1 0 0x7F), (0, 0x12, entry 0x21000 0x100 1 1 0x7F),
   (0, 0x13, entry 0x22000 0x100 2 0 0x7F), (0, 0x14, entry 0x23000 0x80 3 0 0x7F), (0, 0x15, entry 0x24000 0x100 4 0 0x7F),
   (0, 0x16, entry 0 0x1000 5 0 0x7F 1 0x20), (0, 0x17, entry 0x25000 0x100 1 0 0x7F ||| BitVec.ofNat 256 (2 ^ 177)),
   (0, 0x18, entry 0x26000 0x100 1 0 1), (0, 0x19, entry 0x27000 0x100 1 2 0x7F), (0, 0x1A, entry 0x100000 0x100000 1 0 0x7F),
   (0, 0x1B, entry 0x28000 0x1000 4 0 0x7F)]

/-- A cluster whose one cached translation maps the first GiB to itself. -/
def cluster : Cluster := { tlb := [⟨0, 30, 0, 0x7B⟩], hcache := handles }

/-- The running context: 5, of partition 0, with its vectors in handle 0x10. -/
def thread : Ctx := { slot := .ready, pc := ptr 0x10 0x40, hvec := ptr 0x10 0, tid := 5, startSlot := 5 }

/-- A machine with partition 0 on clusters 0 and 1 whose context 5 runs, as `f` leaves it; every register is 0. Its page tables map the
first GiB to itself. -/
def user (f : Ctx → Ctx := id) : State :=
  { cur := 5, nextTid := 10, ctxs := [(5, f thread)], clus := [(0, cluster), (1, cluster)],
    mem := [(0x90000, 0x01), (0x90001, 0x10), (0x90002, 0x09), (0x91000, 0x01), (0x91001, 0x20), (0x91002, 0x09), (0x92000, 0x7B)],
    parts := [(0, { live := true, clusters := [0, 1], table := [0], htlen := 0x40, htbase := 0x80000, ptroot := 0x90000 })] }

/-- The same with the context in supervisor mode. -/
def sup (f : Ctx → Ctx := id) : State := user (fun x => f { x with sta := { x.sta with sup := true } })

/-- An answer that is not an error. -/
def ok {α β : Type} : Except α β → Bool
  | .ok _ => true
  | .error _ => false

/-- An answer of which `p` holds. -/
def holds {α β : Type} (r : Except α β) (p : β → Bool) : Bool :=
  match r with
  | .ok v => p v
  | .error _ => false

/-- An access that ends in memory. -/
def isMem : Tgt → Bool
  | .mem _ _ _ => true
  | _ => false

theorem plain_user : Plain user := ⟨by decide, .inl (by decide), by decide⟩

theorem plain_sup : Plain sup := ⟨by decide, .inr (by decide), by decide⟩

theorem calm_user : Calm user := ⟨plain_user, by decide, by decide⟩

theorem calm_sup : Calm sup := ⟨plain_sup, by decide, by decide⟩

theorem kept_user : WellKept user := ⟨by decide, by decide, by decide, by decide, by decide⟩

/-! ## Scalar instructions: worked examples -/

/-- A register of the running context after an instruction. -/
def after (i : Instr) (s : State) (d : Reg) : Option Word :=
  match exec i s with
  | .next t => some (t.me.reg d)
  | .fault _ => none
  | .refused _ => none

/-- 07 R128: the eight-bit `ADDS` saturates where `ADD` wraps: 0x60 + 0x60. -/
theorem test_adds_saturates :
    after (.adds 3 3 1 2) (user (fun x => (x.setReg 1 0x60).setReg 2 0x60)) 3 = some 0x7F ∧
    after (.add 3 3 1 2) (user (fun x => (x.setReg 1 0x60).setReg 2 0x60)) 3 = some 0xC0 := by decide

/-- 07 R133; 06 R102: division by zero, and the quotient that does not fit. -/
theorem test_division_corners :
    after (.div 3 1 2) (user (·.setReg 1 7)) 3 = some (-1) ∧ after (.rem 3 1 2) (user (·.setReg 1 7)) 3 = some 7 ∧
    after (.div 3 1 2) (user (fun x => (x.setReg 1 0x8000000000000000).setReg 2 (-1))) 3 = some 0x8000000000000000 := by decide

/-- 05 R70: a write of x0 is dropped. -/
theorem test_x0_discards : after (.ldi 0 (.short 5)) user 0 = some 0 := by decide

/-- 07 R144; 06 R106: 1 + 2^-24 in FP32 is a tie, which the even neighbour wins, and is inexact. -/
theorem test_fadd_rounds_to_even :
    after (.fadd 1 0 3 1 2) (user (fun x => (x.setReg 1 0x3F800000).setReg 2 0x33800000)) 3 = some 0x3F800000 := by decide

/-! ## Witnesses: scalar instructions -/

theorem witness_AluResults : Plain user := plain_user

theorem witness_ShiftResults : Plain user ∧ (63 : BitVec 6).toNat < Claim.bits 0 ∧ (7 : BitVec 6).toNat < Claim.bits 3 :=
  ⟨plain_user, by decide⟩

theorem witness_ImmediateResults : Plain user ∧ (5 : BitVec 3).toNat < 6 := ⟨plain_user, by decide⟩

theorem witness_MulDivBitsResults : Plain user := plain_user

theorem witness_FieldResults :
    Plain user ∧ (63 : BitVec 6).toNat + (0 : BitVec 6).toNat + 1 ≤ 64 ∧ (0 : BitVec 6).toNat + (63 : BitVec 6).toNat + 1 ≤ 64 :=
  ⟨plain_user, by decide⟩

/-- A machine whose thread's launch carries a shape record: one tensor of one dimension, extent 8, along field 0. -/
def shaped : State :=
  (user (fun x => { x.setReg 1 1 with launch := some 0 })).modLaunch 0 (fun l =>
    { l with shape := [1, 1] ++ List.replicate 14 0 ++ [8] ++ List.replicate 9 0 })

/-- The bounds 5, 13, 7, 8 and 14 of the selectors, and a selector that the record answers. -/
theorem witness_IdentityResults :
    Plain shaped ∧
    (let n := (shaped.me.reg 1).toNat
     let r := shaped.shapeOf shaped.cur
     n < 64 ∧ n / 8 < recN r 0 1 ∧ n / 2 % 4 < recN r (1 + n / 8) 1 ∧ (recN r (16 + 8) 1 = 255 ∨ recN r (16 + 8) 1 ≤ 5)) ∧
    ¬ (64 : Word).toNat < 64 :=
  ⟨⟨by decide, .inl (by decide), by decide⟩, by decide⟩

theorem witness_FloatArithmetic : Plain user ∧ (3 : BitVec 3).toNat < 4 := ⟨plain_user, by decide⟩

theorem witness_FloatExactOperations : Plain user ∧ (0 : BitVec 3).toNat < 4 ∧ (4 : BitVec 3).toNat < 5 := ⟨plain_user, by decide⟩

/-- The conversions at the ends of the code range: i32 to f64, f64 to i32. -/
theorem witness_ConversionResults :
    Plain user ∧ 5 ≤ (12 : BitVec 5).toNat ∧ (12 : BitVec 5).toNat ≤ 12 ∧ 5 ≤ (5 : BitVec 5).toNat ∧ (5 : BitVec 5).toNat ≤ 12 ∧
    (9 ≤ (12 : BitVec 5).toNat ∨ 9 ≤ (5 : BitVec 5).toNat) := ⟨plain_user, by decide⟩

theorem witness_RoundingKeepsWhatFits : (4 : Nat) < 5 := by decide

/-- Infinities of both signs, zeros, a negative number, in FP32. -/
theorem witness_InvalidOperations :
    fF32.value 0x7F800000 = .inf false ∧ fF32.value 0xFF800000 = .inf true ∧ (fF32.value 0x80000000).isZero = true ∧
    (fF32.value 0xFF800000).isInf = true ∧
    ((fF32.value 0xBF800000).isNan = false ∧ (fF32.value 0xBF800000).isNeg = true ∧ (fF32.value 0xBF800000).isZero = false) := by
  decide

theorem witness_ApproximateFunctions :
    Plain user ∧ 1 ≤ (1 : BitVec 3).toNat ∧ (3 : BitVec 3).toNat ≤ 3 ∧ (fF32.value 0x7FC00000).isNan = true ∧
    (fF32.value 0x80000000).isZero = true ∧ (fF32.value 0xFF800000).isInf = true ∧ (fF32.value 0x80000001).isNeg = true :=
  ⟨plain_user, by decide⟩

/-! ## Witnesses: control transfer, exceptions, system registers -/

theorem witness_TransfersTakeEffectWhole :
    Plain user ∧ user.me.btrace = false ∧ (5 : BitVec 3).toNat < 6 ∧ (0 : BitVec 32).toNat ≤ user.me.x[1].toNat ∧
    user.me.x[1].toNat < (1 : BitVec 32).toNat ∧ ok (user.fetchWord user.cur user.me.sta.sup (ptr 0x10 0x40)) = true ∧
    ok (user.fetchWord user.cur user.me.sta.sup (ptr 0x10 0x1000)) = false ∧
    (ptr 0x10 0x42).extractLsb' 0 2 ≠ 0#2 := ⟨plain_user, by decide⟩

theorem witness_NopChangesOnlyPc : decode [0x7C] = .ok .nop ∧ Plain user := ⟨by decide, plain_user⟩

/-- A thread that runs a speculative iteration, one bound to a port whose queue is not empty, and one that is free. -/
theorem witness_ExitEndsTheThread :
    (user (fun x => { x with sta := { spec := true } })).me.sta.pp = false ∧ user.me.sta.spec = false ∧
    engineOf user.me.sta.bindCode = none ∧
    (let s := (user (fun x => { x with sta := { bind := 1 } })).modPort 0 0 (fun p => { p with queue := [{ ins := .vneg 0 1 2 }] })
     s.me.sta.spec = false ∧ engineOf s.me.sta.bindCode = some 0 ∧ s.drained (coreOf s.cur) 0 = false) := by decide

theorem witness_FmtSetsThePrefix :
    (sup.me.sta.sup = true ∧ Calm sup) ∧
    (let s := sup (fun x => { x with sta := { x.sta with pp := true } }); s.me.sta.sup = true ∧ s.me.sta.pp = true) :=
  ⟨⟨by decide, calm_sup⟩, by decide⟩

/-- The three kinds, each with a vector that can be fetched. -/
theorem witness_EntrySavesAndJumps :
    (2 : Nat) < 3 ∧ ok (user.fetchWord 5 true ((user.ctx 5).hvec + BitVec.ofNat 64 (64 * 0x3F))) = true := by decide

/-- A context whose vectors lie in no handle, as the partition's service context and as another context. -/
theorem witness_UndeliverableEndsTheContext :
    (let s := user (fun x => { x with hvec := 0 })
     ok (s.fetchWord 5 true ((s.ctx 5).hvec + 64)) = false ∧ 5 ≠ s.serviceCtx (s.ctx 5).part) ∧
    (let s := user.setCtx 0 {}
     let c := s.serviceCtx 0
     ok (s.fetchWord c true ((s.ctx c).hvec + 64)) = false ∧ c = s.serviceCtx (s.ctx c).part) := by decide

theorem witness_EventsInDeliveryOrder :
    let key (x : Exc) : Nat := if x.code = Cause.machineCheck then 0 else 1 + x.code.toNat
    ([{ code := Cause.machineCheck }, { code := 3 }, { code := 3, info := 1 }] : List Exc).Pairwise (fun a b => key a ≤ key b) := by
  decide

theorem witness_TrapAndBreakpoint :
    (0x1D5 / 4 % 128 = 0x75 ∧ 0x1D5 % 4 ≠ 0) ∧ (0x3D8 < 2 ^ 32 ∧ 0x3D8 / 4 % 128 = 0x76 ∧ 0x3D8 % 4 = 0 ∧ 0x3D8 / 2 ^ 9 % 256 ≠ 0) ∧
    (user (fun x => { x with sta := { pp := true } })).me.sta.pp = true ∧ Calm user :=
  ⟨by decide, by decide, by decide, calm_user⟩

theorem witness_EretReturns :
    user.me.sta.sup = false ∧
    ((sup (fun x => { x with epc := 2 })).me.sta.sup = true ∧ (sup (fun x => { x with epc := 2 })).me.epc.extractLsb' 0 2 ≠ 0#2) ∧
    (Calm sup ∧ sup.me.sta.sup = true ∧ sup.me.epc.extractLsb' 0 2 = 0#2 ∧ sup.me.handling = none) :=
  ⟨by decide, by decide, calm_sup, by decide⟩

theorem witness_SingleStepTraps :
    let s := user (fun x => { x with sta := { ss := true } })
    s.me.sta.ss = true ∧ s.me.sta.sup = false ∧ s.me.sta.pp = false := by decide

theorem witness_OrderOfChecks :
    user.me.sta.sup = false ∧ user.me.sta.pp = false ∧ user.me.sta.bind ≠ 1 ∧ user.me.sta.bind ≠ 2 := by decide

/-- In supervisor mode every number may be read; in user mode one that is not the supervisor's. -/
theorem witness_SystemReads : (Calm sup ∧ sup.me.sta.sup = true) ∧ Calm user := ⟨⟨calm_sup, by decide⟩, calm_user⟩

/-- A reserved bit, a rounding mode of 5, a changed SUP in user mode, and a value that is written. -/
theorem witness_StatusWrites :
    Calm (user (·.setReg 1 0x2000000)) ∧ ((0x2000000 : Word).extractLsb' 25 39 ≠ 0#39) ∧ (4 < ((0xA00 : Word).extractLsb' 9 3).toNat) ∧
    ((0x20000 : Word).getLsbD 17 ≠ user.me.sta.sup) ∧
    (¬ ((0x800 : Word).extractLsb' 25 39 ≠ 0#39 ∨ 4 < ((0x800 : Word).extractLsb' 9 3).toNat) ∧
     ¬ ((0x800 : Word).getLsbD 17 ≠ user.me.sta.sup ∨ (0x800 : Word).getLsbD 18 ≠ user.me.sta.ss)) :=
  ⟨⟨⟨by decide, .inl (by decide), by decide⟩, by decide, by decide⟩, by decide⟩

theorem witness_ExceptionRegisterWrites :
    Calm sup ∧ sup.me.sta.sup = true ∧ ((0x1000 : Word).extractLsb' 12 52 ≠ 0#52) ∧ ((0xC0 : Word).extractLsb' 6 2 = 3#2) ∧
    ((0x800 : Word).extractLsb' 0 12 ≠ 0#12) ∧ ((0x1000 : Word).extractLsb' 0 12 = 0#12) := ⟨calm_sup, by decide⟩

/-- A trace pointer into a supervisor's handle, one that is not aligned, and a machine without remote waiters. -/
theorem witness_PartitionRegisterWrites :
    (Calm sup ∧ sup.me.sta.sup = true) ∧
    (holds (sup.resolve { sup.who sup.cur with sup := true } (ptr 0x17 0) 64 0) (fun o => match o with
      | .table e _ => decide (e.space = 1) && e.priv && decide ((ptr 0x17 0).toNat % 64 = 0)
      | _ => false)) = true ∧
    (ptr 0x17 8 ≠ 0 ∧ (ptr 0x17 8).toNat % 64 ≠ 0) ∧ (sup.clus.all (fun k => k.2.retry.all (fun r => r.remote.isNone))) = true :=
  ⟨⟨calm_sup, by decide⟩, by decide⟩

/-- With nothing buffered and nothing on its way, an invalidation settles at once, at either scope. -/
theorem witness_InvalidationCompletes :
    Calm sup ∧ sup.me.sta.sup = true ∧ ((4 : Word).extractLsb' 2 2).toNat ≠ 0 ∧
    (let r := sup.release sup.cur 2
     r.2 = true ∧ r.1.invBusy r.1.cur 2 ⟨1, 0⟩ = false) ∧
    (let r := sup.release sup.cur 3
     r.2 = true ∧ r.1.invBusy r.1.cur 3 ⟨0, 0⟩ = false) ∧
    ((0x80000 : Word).extractLsb' 57 7 = 0#7 ∧ (0x80000 : Word).extractLsb' 0 5 = 0#5) := ⟨calm_sup, by decide⟩

/-- Index 15 is below the table and 0x40 above it; 0x3F is its last; an image at an aligned place and at another. -/
theorem witness_HandleEntryWrites :
    Calm sup ∧ sup.me.sta.sup = true ∧ (sup.part 0).htlen.toNat = 0x40 ∧
    ok (sup.xlateRange 0 0 false true needW ((sup.part 0).htbase.toNat + 32 * 0x3F) 32) = true ∧
    holds (sup.access sup.cur (ptr 0x11 32) 32 needR 1 .plain false true) isMem = true ∧
    (ptr 0x11 32).toNat % 32 = 0 ∧ (ptr 0x11 33).toNat % 32 ≠ 0 ∧ (entryBad (entry 0x10000 0x1000 1 0 0x7F)).isSome = false ∧
    (entryBad (entry 0x10000 0x1000 7 0 0x7F)).isSome = true := ⟨calm_sup, by decide⟩

/-- A tagged and an untagged pair, a window inside it and one past its end, and handles to mint from. -/
theorem witness_CapabilityResults :
    Calm (user (fun x => { x with tags := 4 })) ∧ (user (fun x => { x with tags := 4 })).me.tagOf 4 = true ∧ user.me.tagOf 4 = false ∧
    (let s := user (fun x => { ((x.setReg 4 0).setReg 5 0x1000) with tags := 4 })
     0 + 0 ≤ capLen (s.me.pair 4) ∧ capLen (s.me.pair 4) < 0 + (2 ^ 40 - 1)) ∧
    sup.me.sta.sup = true ∧
    holds (sup.handleRaw 0 0 0x11) (fun raw => (HEntry.ofNat raw.toNat).valid && !(HEntry.ofNat raw.toNat).priv) = true :=
  ⟨⟨⟨by decide, .inl (by decide), by decide⟩, by decide, by decide⟩, by decide⟩

theorem witness_TraceInstructions :
    Calm user ∧ user.me.sta.sup = false ∧ (user.part 0).trace.getLsbD 3 = false ∧ (user.part 0).trace.getLsbD 4 = false ∧
    (Calm sup ∧ sup.me.sta.sup = true ∧ (sup.part 0).traceMode ≠ 1 ∧ (sup.part 0).traceq = [] ∧ (sup.release sup.cur 2).2 = true) ∧
    ((sup.modPart 0 (fun p => { p with trace := 2 })).part 0).traceMode = 1 ∧
    ((sup.modPart 0 (fun p => { p with traceq := [0] })).part 0).traceq ≠ [] :=
  ⟨calm_user, by decide, by decide, by decide, ⟨calm_sup, by decide⟩, by decide⟩

/-- A header in handle 0x11 that can be registered, and one that is registered. -/
theorem witness_QueueRegistration :
    Calm sup ∧ sup.me.sta.sup = true ∧ (sup.qreg sup.cur 0 = none) ∧
    (let s := sup.modPart 0 (fun p => { p with queues := [⟨ptr 0x11 0, 5⟩] })
     (s.qunreg s.cur (ptr 0x11 0)).isSome = true) :=
  ⟨calm_sup, by decide⟩

/-! ## Witnesses: memory -/

/-- Handles 0, 4, 15 and 0x40 name no entry; 0x11 does, with every offset up to its end; 0x17 is the supervisor's; 0x18 lacks a
right. -/
theorem witness_PointerChecks :
    ((ptr 15 0).extractLsb' 52 12).toNat = 15 ∧ ((ptr 0x40 0).extractLsb' 52 12).toNat = (sup.part 0).htlen.toNat ∧
    (let raw (h : Nat) := (sup.handleRaw 0 0 h).toOption.getD 0
     ok (sup.handleRaw 0 0 0x11) = true ∧ (raw 0x11).getLsbD 176 = true ∧ ((raw 0x11).extractLsb' 64 52).toNat = 0xFF8 + 8 ∧
     ((raw 0x11).extractLsb' 64 52).toNat < 0xFF9 + 8 ∧ (raw 0x17).getLsbD 177 = true ∧
     ((raw 0x18).extractLsb' 168 8).toNat &&& needW ≠ needW) ∧
    ok (((sup.modClu 0 (fun c => { c with tlb := [] })).modPart 0 (fun p => { p with ptroot := 0xA0000 })).handleRaw 0 0 0x3F) = false ∧
    ((({ sup with clus := [] } : State).modPart 0 (fun p => { p with ptroot := 0xA0000 })).handleRaw 0 0 0x20).toOption = none := by decide

/-- Five tables at 0x90000 and up, and a leaf of 64 KiB at 0x50000 that a user may read and write. -/
def tables : State :=
  { user with
    clus := []
    mem := (user.mem.writes ([(0x90000, 0x91001), (0x91000, 0x92001), (0x92000, 0x93001), (0x93000, 0x94001), (0x94000, 0x5005B)].flatMap
      (fun e => (span e.1 8).zip (leBytes 8 e.2)))) }

theorem witness_FiveLevelWalk :
    (tables.clu 0).tlb = [] ∧ tables.poison = [] ∧ tables.ecc = [] ∧ (tables.part 0).ptroot.toNat = 0x90000 ∧
    tables.peekN (dramBase 0 + 0x90000) 8 = 0x91000 + 1 ∧ tables.peekN (dramBase 0 + 0x93000) 8 = 0x94000 + 1 ∧
    tables.peekN (dramBase 0 + 0x94000) 8 = 0x5005B ∧ 0x5005B % 4 = 3 ∧ 0x5005B / 4 % 2 = 0 ∧ 0x5005B / 2 ^ 7 % 2 = 0 ∧
    0x5005B / 2 ^ 8 % 2 ^ 8 = 0 ∧ 0x50000 < dramLimit (tables.part 0) ∧ covers (0x5005B / 8 % 8) (pageNeed needR) = true ∧
    0x5005B / 2 ^ 6 % 2 = 1 := by decide

/-- The registers point at handle 0x11; a load of each kind reaches memory. -/
def pointing : State := user (fun x => ((x.setReg 1 (ptr 0x11 0)).setReg 2 7))

theorem calm_pointing : Calm pointing := ⟨⟨by decide, .inl (by decide), by decide⟩, by decide, by decide⟩

/-- The segments of an access at the pointer in x1. -/
def at_ (s : State) (n need al : Nat) (r : Reach) (wr rd : Bool) : List (Nat × Nat) :=
  match s.access s.cur (s.me.reg 1) n need al r wr rd with
  | .ok (.mem segs _ _) => segs
  | _ => []

theorem witness_LoadReturnsView :
    Calm pointing ∧ (6 : BitVec 3).toNat < 7 ∧ (1 : BitVec 2).toNat < 2 ∧
    (at_ pointing 8 needR 1 .plain false true = [(0x20000, 8)] ∧ (spanAll [(0x20000, 8)]).length = szBytes 6) ∧
    at_ (pointing.acquire pointing.cur 3) 8 needR 8 .plain false true = [(0x20000, 8)] ∧
    (spanAll [(0x20000, 8)]).all (fun l => !pointing.readHeld 0 (lineOf l)) = true := ⟨calm_pointing, by decide⟩

/-- The widths at both ends, with an empty buffer. -/
theorem witness_StoreEntersTheBuffer :
    Calm pointing ∧ (0 : BitVec 3).toNat < 7 ∧ (2 : BitVec 2).toNat ≠ 1 ∧ at_ pointing 1 needW 1 .plain true false = [(0x20000, 1)] ∧
    at_ pointing 8 needW 1 .plain true false = [(0x20000, 8)] ∧ (spanAll [(0x20000, 8)]).Nodup ∧
    (linesOf (spanAll [(0x20000, 8)])).length ≤ 8 ∧ pointing.me.buf = [] := ⟨calm_pointing, by decide⟩

theorem witness_ReleaseStoreStandsBehindItsMarker :
    Calm pointing ∧ at_ pointing 8 needW 8 .plain true false = [(0x20000, 8)] ∧ 0x20000 % 128 + 8 ≤ 128 ∧
    pointing.vstQueued pointing.cur = false ∧ pointing.me.buf = [] := ⟨calm_pointing, by decide⟩

/-- One buffered entry of eight bytes. -/
def one : BufEntry := (List.range 8).foldl (fun e i => e.put (0x20000 + i) 0x5A) { line := 0x20000 / 128, mask := 0, data := 0 }

def buffered : State := user (fun x => { x with buf := [.entry one] })

def goingThrough : State := user.modClu 0 (fun k => { k with throughs := [one] })

theorem witness_WritesArriveAtTheirPlaces :
    (buffered.clus.all (fun q => q.2.retry.isEmpty)) = true ∧ buffered.nextOut 5 = some one ∧ buffered.lockedFor one.line 5 = false ∧
    (buffered.core (coreOf 5)).shared = [] ∧
    ((goingThrough.clu 0).throughs[0]? = some one ∧ (goingThrough.dirAt one.line).lock = none) := by decide +kernel

/-- An entry, a marker of core scope, and nothing behind it; the same with device scope. -/
def marked (sc : BitVec 2) : State := user (fun x => { x with buf := [.entry one, .marker sc] })

theorem witness_ReleaseMarkersComplete :
    ((marked 0).ctx 5).buf = [one].map .entry ++ .marker 0 :: [] ∧ (marked 0).heldBack 5 0 [one] = false ∧ ((marked 0).ctx 5).acks = 0 ∧
    ((marked 2).ctx 5).buf = [one].map .entry ++ .marker 2 :: [] ∧ (marked 2).heldBack 5 2 [one] = false ∧ 2 ≤ (2 : BitVec 2).toNat ∧
    (one.bytes.all (fun q => decide ((marked 2).dirAt (lineOf q.1) = {}))) = true ∧ ((marked 2).clu 0).throughs = [] := by decide +kernel

theorem witness_FencesAndCacheMaintenance :
    Calm pointing ∧ pointing.vstQueued pointing.cur = false ∧
    (holds (user.access user.cur (user.me.reg 1) 1 needR 1 .plain false true) isMem = false) ∧
    at_ pointing 1 needR 1 .plain false true = [(0x20000, 1)] ∧ pointing.readHeld 0 (lineOf 0x20000) = false ∧
    at_ pointing 1 needW 1 .plain true false = [(0x20000, 1)] ∧ 2 ≤ (3 : BitVec 2).toNat ∧
    pointing.lockedFor (lineOf 0x20000) pointing.cur = false ∧ (pointing.flushLines pointing.cur [lineOf 0x20000]).isSome = true ∧
    (pointing.clu 0).throughs = [] ∧ at_ pointing 1 needR 1 .plain false false = [(0x20000, 1)] ∧
    (511 ∉ (pointing.part 0).clusters ∧ 1 ∈ (pointing.part 0).clusters) ∧ sup.me.sta.sup = true := ⟨calm_pointing, by decide⟩

/-- An aligned word of handle 0x11, free of locks: the access, the release and the flush of an operation at its place all pass. -/
theorem witness_AtPlace :
    at_ pointing 8 needA 8 .atomic true true = [(0x20000, 8)] ∧ (pointing.release pointing.cur 2).2 = true ∧
    (pointing.flushLines pointing.cur (linesOf (spanAll [(0x20000, 8)]))).isSome = true ∧
    ((pointing.release pointing.cur 2).1.flushLines pointing.cur (linesOf (spanAll [(0x20000, 8)]))).isSome = true ∧
    pointing.lockedFor (lineOf 0x20000) pointing.cur = false := by decide

/-- `ordered` answers at once where nothing is logged for replay; the expected value is met (0) and missed (7). -/
theorem witness_AtomicResults :
    Calm pointing ∧ 4 ≤ (4 : BitVec 3).toNat ∧ (6 : BitVec 3).toNat < 7 ∧ (pointing.ordered pointing.cur 0x25 0x20000).isSome = true ∧
    (pointing.ordered pointing.cur 0x26 0x20000).isSome = true ∧ pointing.valueAt (span 0x20000 8) = 0 ∧
    (BitVec.ofNat 64 0 : Word) = pointing.me.reg 3 ∧ (BitVec.ofNat 64 0 : Word) ≠ pointing.me.reg 2 := ⟨calm_pointing, by decide⟩

/-- A reservation that the pointer and size of the `SC` match, and none. -/
def reserved : State := user (fun x => { x.setReg 1 (ptr 0x11 0) with resv := some ⟨0x20000 / 128, ptr 0x11 0, 8⟩ })

theorem witness_ReservationResults :
    Calm pointing ∧ (pointing.lrTurn pointing.cur (lineOf 0x20000)).1 = true ∧ (pointing.ordered pointing.cur 0x23 0x20000).isSome = true ∧
    (pointing.ordered pointing.cur 0x24 0x20000).isSome = true ∧
    (reserved.me.resv = some ⟨lineOf 0x20000, reserved.me.reg 1, 8⟩) ∧ pointing.me.resv = none := ⟨calm_pointing, by decide⟩

theorem witness_WritesEndReservations :
    (reserved.clus.all (fun q => q.2.retry.isEmpty)) = true ∧ (((span 0x20000 8).zip (leBytes 8 7)).map (·.1)).Nodup ∧
    WellKept reserved := ⟨by decide, by decide, ⟨by decide, by decide, by decide, by decide, by decide⟩⟩

/-- The word differs from the expected value, and equals it; a fresh cell takes a format's contribution, and one of another tag
does not. -/
theorem witness_LineWaitsAndCells :
    Calm pointing ∧ 0 ≠ (pointing.me.reg 2).toNat % 2 ^ 64 ∧ 0 = (pointing.me.reg 3).toNat % 2 ^ 64 ∧ pointing.watchCount 0x20000 < 64 ∧
    (xsAdd 0 (elemValue 11 0x3F800000) 11).isSome = true ∧
    (match xsAdd 0 (elemValue 11 0x3F800000) 11 with
     | some c => (xsAdd c (elemValue 12 0) 12).isSome
     | none => true) = false ∧
    (let s := user (fun x => x.setReg 1 (ptr 0x15 0))
     at_ s 64 needA 64 .cell true true = [(0x24000, 64)] ∧ at_ s 64 (needR + needW) 64 .cell true true = [(0x24000, 64)] ∧
     at_ s 64 needR 64 .cell false true = [(0x24000, 64)]) := ⟨calm_pointing, by decide +kernel⟩

theorem witness_ExactSumsAreOrderFree :
    xsCount 0 + 2 < 2 ^ 48 ∧
    (match xsAdd 0 (elemValue 11 0x3F800000) 11, xsAdd 0 (elemValue 11 0xBF800000) 11 with
     | some c, some d => (xsAdd c (elemValue 11 0xBF800000) 11).isSome && (xsAdd d (elemValue 11 0x3F800000) 11).isSome
     | _, _ => false) = true := by decide +kernel

theorem witness_FullEmptyModes : 0x20000 % 8 = 0 ∧ WellKept user := ⟨by decide, kept_user⟩

/-- A full word answers `read` and not `put`; an empty one the other way round; the retry list has room. -/
theorem witness_FullEmptyInstructions :
    Calm pointing ∧ at_ pointing 8 needF 8 .fe true true = [(0x20000, 8)] ∧ at_ pointing 8 needF 8 .fe false true = [(0x20000, 8)] ∧
    (pointing.ordered pointing.cur 0x2A 0x20000).isSome = true ∧ (pointing.ordered pointing.cur 0x2B 0x20000).isSome = true ∧
    FeMode.ready .read (pointing.isFull 0x20000) = true ∧ FeMode.ready .put (pointing.isFull 0x20000) = false ∧
    FeMode.ready .take (({ pointing with empties := [0x20000 / 8] } : State).isFull 0x20000) = false ∧
    FeMode.ready .put (({ pointing with empties := [0x20000 / 8] } : State).isFull 0x20000) = true ∧
    (pointing.clu (pointing.placeClu 0x20000)).retry.length < 256 := ⟨calm_pointing, by decide⟩

theorem witness_CapabilityLoadsAndStores :
    Calm pointing ∧ at_ pointing 16 (needR + needL) 16 .cap false true = [(0x20000, 16)] ∧
    (pointing.flushLines pointing.cur [lineOf 0x20000]).isSome = true ∧
    at_ pointing 16 (needW + needS) 16 .cap true false = [(0x20000, 16)] ∧
    (match pointing.storeAt ((span 0x20000 16).zip (leBytes 16 5)) 0 0 true with | .done _ => true | _ => false) = true ∧
    (match pointing.storeAt ((span 0x20000 16).zip (leBytes 16 5)) 1 3 true with | .done _ => true | _ => false) = true :=
  ⟨calm_pointing, by decide⟩

/-- A capability of 4096 bytes with every right, of partition 0 of node 1, which the egress knows. -/
def remoteCap : BitVec 128 := BitVec.ofNat 128 (1 * 2 ^ 117 + 0x11 * 2 ^ 100 + 0xFF * 2 ^ 92 + 0x1000 * 2 ^ 4)

/-- A part in service whose thread holds it in x4 and x5. -/
def inFabric : State :=
  { user (fun x => { (x.setReg 4 (remoteCap.extractLsb' 0 64)).setReg 5 (remoteCap.extractLsb' 64 64) with tags := 4 }) with
    pkg := { ready := true, phase := 3, node := 0, sizes := [1, 1, 1, 2], windows := [(1, 0, 0)], revs := [(1, ⟨0, 0xFFFF, 0xFE0⟩)] } }

theorem calm_inFabric : Calm inFabric := ⟨⟨by decide, .inl (by decide), by decide⟩, by decide, by decide⟩

theorem witness_RemoteOperationsLeave :
    Calm inFabric ∧ (6 : BitVec 3).toNat < 7 ∧ inFabric.replayOf inFabric.cur = 0 ∧ inFabric.me.tagOf 4 = true ∧
    (inFabric.egress (inFabric.me.pair 4) true 0xFF8 8 1 (opBits opcRld 0) none).isNone = true ∧
    (inFabric.egress (inFabric.me.pair 4) true 0xFF8 8 2 (opBits opcRst 0) none).isNone = true ∧
    (inFabric.egress (inFabric.me.pair 4) true 0xFF8 8 4 (opBits opcRamo 0) none).isNone = true ∧
    (inFabric.egress (inFabric.me.pair 4) true 0xFF9 8 1 (opBits opcRld 0) none).isSome = true ∧ inFabric.me.eseq = none ∧
    inFabric.pkg.outst.length < 1024 := ⟨calm_inFabric, by decide⟩

/-! ## Witnesses: threads, messages, speculation, signals -/

/-- A core that runs block 0 of launch 0 on all of its state: the manager in context 0, a reaped-for thread in 3, a thread in 5, a
caller in 7; semaphores, channels and streams in use. -/
def block : State :=
  { user with
    cur := 0
    ctxs := [(0, { thread with tid := 1, startSlot := 0, launch := some 0 }),
             (3, { slot := .exited, startSlot := 3, launch := some 0, code := 17, tid := 3 }),
             (5, { thread with launch := some 0, sta := { bind := 3 } }),
             (7, { slot := .blocked, startSlot := 7, launch := some 0, tid := 7, wait := some { why := .rcall 9 } })]
    cores := [(0, { running := true, launch := some 0, reaps := [(3, .exited 17), (5, .live), (7, .live)], sems := [(1, 5), (2, 2 ^ 32 - 1)],
                    semWait := [(3, [7])], chans := [(0, { words := [(9, 7)] }), (5, { wake := true, cell := 3 })],
                    streams := [(0, (0, 6))], list := [40, 41] })]
    launches := [(0, { part := 0, st := .running, cores := [0], clus := [0] })] }

/-- The same with registers 1 and 2 of the manager set. -/
def blockWith (v w : Word) : State := block.modCtx 0 (fun x => (x.setReg 1 v).setReg 2 w)

theorem calm_block : Calm block := ⟨⟨by decide, .inl (by decide), by decide⟩, by decide, by decide⟩

/-- The bounds 1 and 15 of `REAP`; ABSENT, LIVE and EXITED records; a FREE slot; a misaligned entry; a context that is no manager. -/
theorem witness_SpawnAndReap :
    Calm block ∧ block.isManager 0 = true ∧ ({ block with cur := 5 } : State).isManager 5 = false ∧
    (block.slotFree 4 = true ∧ (block.core 0).reapOf 4 = .absent ∧ engineOf (0 : BitVec 3).toNat = none) ∧
    (block.slotFree 5 = false) ∧ (ptr 0x10 2).toNat % 4 ≠ 0 ∧ (ptr 0x10 0).toNat % 4 = 0 ∧ Claim.Vacant block 4 ∧
    (block.me.buf = [] ∧ block.vstQueued 0 = false) ∧
    (block.core 0).reapOf 15 = .absent ∧ (block.core 0).reapOf 5 = .live ∧ (block.core 0).reapOf 3 = .exited 17 ∧
    ((List.range 15).all (fun j => decide ((user.core 0).reapOf (j + 1) = .absent))) = true :=
  ⟨calm_block, by decide, by decide, by decide, by decide, by decide, by decide, ⟨by decide, by decide, by decide, by decide⟩, by decide⟩

/-- Semaphores 15 and 16 at the bound; one that counts, one at 0, one at its largest, one that is waited for; engines free and in
use. -/
theorem witness_BindingAndSemaphores :
    Calm block ∧ block.reapSlot 0 3 = some 3 ∧ isDsc 3 = false ∧ (0 : BitVec 3).toNat = block.me.sta.bindCode ∧
    (engineOf block.me.sta.bindCode = none ∧ (block.core 0).engHeld = [] ∧ (block.core 0).engWait = []) ∧
    ((blockWith 16 0).me.reg 1).toNat = 16 ∧ 0 < block.semCount 1 ∧ block.semCount 15 = 0 ∧
    (block.semQueue 2 = [] ∧ block.semCount 2 = 2 ^ 32 - 1) ∧ block.semQueue 3 = [7] ∧ (block.release 0 0).2 = true ∧
    (block.release 0 0).1.semQueue 3 = [7] ∧
    (let s := (user (fun x => { x with sta := { bind := 1 } })).modPort 0 0 (fun p => { p with queue := [{ ins := .vneg 0 1 2 }] })
     engineOf s.me.sta.bindCode = some 0 ∧ s.drained 0 0 = false) := ⟨calm_block, by decide⟩

/-- Contexts 32767 and 32768 at the bound; a cluster of the partition and one of none; a channel with room, a free stream, a stream
held; a wake, a word and nothing to receive. -/
theorem witness_ChannelsAndStreams :
    Calm (blockWith 5 1) ∧ ((32767 : Word).toNat ≤ 32767 ∧ 32767 < (32768 : Word).toNat) ∧
    (cluOf 5 ∈ (block.part 0).clusters ∧ cluOf 32767 ∉ (block.part 0).clusters) ∧
    ((block.chan 5).waiting = [] ∧ (block.chan 5).words.length + block.inFlight 5 < 8 ∧ (block.chan 5).stream = none) ∧
    ((block.core 0).streams.all (fun p => decide (p.1 ≠ 1)) = true ∧ (block.core 0).streams.any (fun p => decide (p.1 = 0)) = true) ∧
    block.ownStream 0 = some 6 ∧ block.ownStream 4 = none ∧ ({ block with cur := 5 } : State).chan 5 = { wake := true, cell := 3 } ∧
    ((block.chan 0).wake = false ∧ (block.chan 0).words = (9, 7) :: []) ∧ (block.chan 7).words = [] ∧ (block.part 0).traceMode = 0 :=
  ⟨⟨⟨by decide, .inl (by decide), by decide⟩, by decide, by decide⟩, by decide⟩

/-- Messages of every body on the network. -/
def messages : State :=
  { block with
    nextMsg := 20
    moving := [(9, { thread with slot := .blocked, tid := 9 })]
    net := [⟨0, 7, 5, false, .word 99 false, 0⟩, ⟨1, 7, 9, false, .word 98 false, 0⟩, ⟨2, 8, 5, false, .wake 4, 0⟩, ⟨3, 0, 6, false, .close, 0⟩,
            ⟨4, 7, 0, false, .barrier (some 0) 0 3 2, 0⟩, ⟨5, 6, 0, false, .barrier (some 0) 1 1 3, 0⟩, ⟨6, 8, 0, false, .barrier (some 0) 1 0 3, 0⟩,
            ⟨7, 11, 0, false, .exitNotice 0 5 (some 0) 0 33, 0⟩, ⟨8, 64, 0, false, .entries 0 [7, 8], 0⟩, ⟨9, 65, 16, false, .migrate, 0⟩,
            ⟨10, 66, 16, false, .rcall 1 0 (ptr 0x10 8) [1, 2, 3, 4, 5, 6] 77 2 none, 0⟩, ⟨11, 67, 7, false, .rreply 9 [1, 2, 3] none, 0⟩,
            ⟨12, 68, 7, false, .rreply 9 [] (some 0x26), 0⟩] }

theorem witness_MessagesArrive :
    ((List.range 13).all (fun k => messages.msgAt k == messages.net[k]?)) = true ∧ (messages.ctx 5).slot ≠ .free ∧
    ((messages.ctx 9).slot = .free ∧ (messages.chan 9).waiting = []) ∧
    (let s := messages.modChan 6 (fun h => { h with stream := some 0 }); (s.chan 6).stream = some 0 ∧ (s.chan 6).waiting = []) ∧
    ((messages.barrier (some 0) 7 0).arrived + 1 ≠ 3 ∧ (messages.barrier (some 0) 6 1).arrived + 1 = 1 ∧
      (messages.barrier (some 0) 6 1).count = 0) ∧
    ((messages.core 0).running = true ∧ (messages.core 0).launch = some 0 ∧ (messages.core 0).block = 0) := by decide

/-- A barrier in both phases; a pointer that names a home and one that does not; a callee with its token and with another; a COURIER
thread that may go to another core, and stays at its own. -/
theorem witness_BarriersCallsAndMigration :
    Calm user ∧ (user.release 5 2).2 = true ∧ (user.barrier none 5 0).phase = (user.me.reg 1).getLsbD 0 ∧
    (user.barrier none 5 0).phase ≠ ((user (·.setReg 1 1)).me.reg 1).getLsbD 0 ∧
    ok (user.homeOfPtr 0 Cause.rpcTarget) = false ∧ ok (user.homeOfPtr (ptr 0x11 0) Cause.rpcTarget) = true ∧ user.me.call = none ∧
    (let s := user (fun x => { x.setReg 1 9 with call := some ⟨9, 7, 2, none⟩ })
     (s.me.reg 1).toNat = 9 ∧ (s.me.reg 2).toNat ≠ 9 ∧ (s.release 5 2).2 = true) ∧ user.me.sta.bind ≠ 3 ∧
    (let s := user (fun x => { x with sta := { bind := 3 } })
     s.me.sta.bind = 3 ∧ s.me.owner = false ∧ s.streamsOf 5 = [] ∧ s.me.declared = [] ∧ s.me.regions = [] ∧ s.net = [] ∧
       (s.core 0).shared = [] ∧ (s.clu 0).throughs = [] ∧ s.me.buf = [] ∧ (s.chan 5).waiting = [] ∧
       ((List.range 16).any (fun k => holds (s.homeOfPtr (ptr 0x1A (4096 * k)) Cause.migrationRefused) (fun c => decide (c = 0)))) = true ∧
       ((List.range 16).any (fun k => holds (s.homeOfPtr (ptr 0x1A (4096 * k)) Cause.migrationRefused) (fun c => decide (c ≠ 0)))) = true) :=
  ⟨calm_user, by decide +kernel⟩

/-- Core 1 has its highest slot free; core 0 of the second machine has none, with 0 and with 8 arrivals. -/
theorem witness_ArrivalsAtACore :
    (messages.msgAt 9 = messages.net[9]? ∧ messages.topFree 1 = some 31 ∧ (messages.core 1).arrivals = [] ∧
      (messages.chan 31).waiting = [] ∧ (messages.clu 0).inbox = []) ∧
    (let full := (List.range 16).foldl (fun s i => s.setCtx (16 + i) { slot := .ready, tid := 100 + i }) messages
     full.topFree 1 = none ∧ (full.core 1).arrivals.length < 8 ∧
     ((full.modCore 1 (fun k => { k with arrivals := messages.net.take 8 })).core 1).arrivals.length = 8) ∧
    ok (messages.fetchWord 31 false (ptr 0x10 8)) = true ∧ (messages.ctx 31).launch = none ∧
    ((messages.ctx 7).wait.map (·.why) = some (.rcall 9)) := by decide +kernel

/-- Lists of 0, 2 and 256 entries; neighbours with less, and none. -/
theorem witness_WorkLists :
    Calm block ∧ (block.core 0).list = 40 :: [41] ∧ (user.core 0).list = [] ∧
    (let s := block.modCore 0 (fun c => { c with list := List.replicate 200 0, promised := 56 })
     256 ≤ (s.core 0).list.length + (s.core 0).promised) ∧
    (block.part 0).llTodo = [] ∧ block.partOf 0 = some 0 ∧ 0 ∈ (block.part 0).clusters ∧ (block.llPlan (block.part 0) 0).isSome = true ∧
    (user.llPlan (user.part 0) 0).isNone = true ∧ ((block.part 0).clusters.filter (meshNear 0)) = [1] ∧
    (((block.modPart 0 (fun p => { p with clusters := [0] })).part 0).clusters.filter (meshNear 0)) = [] ∧
    (block.core 4).list.length < (block.core 0).list.length := ⟨calm_block, by decide +kernel⟩

/-- A cluster with a cache; iterations at both ends of the window of 64; the holder of the baton. -/
def speculating : State :=
  (user (fun x => { x with spec := some ⟨x.x, x.tags, x.sta, x.pc, 4, 4⟩, sta := { spec := true } })).modClu 0 (fun k => { k with group := some (4, 4) })

theorem witness_SpeculativeIterations :
    Plain user ∧ user.me.spec = none ∧ user.me.sta.spec = false ∧ user.me.sta.bind = 0 ∧
    ((user.modClu 0 (fun k => { k with bankmode := 0x95 })).clu 0).hasCache = true ∧
    ((user.ctxsOf 0).all (fun c => !(user.ctx c).sta.spec && (user.ctx c).spec.isNone)) = true ∧ (63 < 0 + 64 ∧ 0 + 64 ≤ 64) ∧
    (user.release 5 1).2 = true ∧ ((user.modClu 0 (fun k => { k with bankmode := 0x5555555555555555 })).clu 0).hasCache = false ∧
    (Plain speculating ∧ speculating.me.spec.isSome = true ∧ speculating.holdsBaton 5 = true ∧ (speculating.clu 0).spec = [] ∧
      speculating.me.sta.ss = false ∧ (speculating.release 5 2).2 = true ∧
      (speculating.modClu 0 (fun k => { k with group := some (4, 3) })).holdsBaton 5 = false) :=
  ⟨plain_user, by decide, by decide, by decide, by decide, by decide, by decide, by decide, by decide, ⟨by decide, .inl (by decide), by decide⟩, by decide⟩

/-! ## Instants and signals -/

/-- The signals of a domain: one of each state. -/
def signals : SMap Signal :=
  [(0, { comb := 2, st := .unknown, pend := [5] }), (1, { comb := 2, st := .present, acc := 7 }), (2, { comb := 2, st := .final, acc := 9 }),
   (3, { comb := 3, st := .absent }), (4, { comb := 4, st := .forced }), (5, { comb := 0, st := .final }), (6, { comb := 1, st := .final })]

/-- A launch whose domain is `f` of one with 70 signals; context 5 is a member that declares signals 0 to 3, context 4 the gaffer. -/
def domain (f : Domain → Domain := id) (g : Ctx → Ctx := id) : State :=
  let s := user (fun x => g { x with launch := some 0, role := .member, dslots := [(0, 0x0F)] })
  let s := s.setCtx 4 { thread with launch := some 0, role := .gaffer, tid := 4, startSlot := 4 }
  s.modLaunch 0 (fun l => { l with part := 0, st := .running, cores := [0], clus := [0], nextBlock := 1,
                                   dom := some (f { instant := 1, nsig := 70, sigs := signals, settled := true }) })

theorem calm_domain : Calm domain := ⟨⟨by decide, .inl (by decide), by decide⟩, by decide, by decide⟩

/-- A context of no domain; a member with an operand of 69, the last signal, and one of 70. -/
theorem witness_RolesAndOperands :
    Calm domain ∧ user.domainOf 5 = none ∧ domain.me.role ≠ .gaffer ∧
    ((domain.domainOf 5).isSome = true ∧ domain.me.role = .member ∧ 70 ≤ ((domain (g := fun x => x.setReg 1 70)).me.reg 1).toNat) :=
  ⟨calm_domain, by decide⟩

/-- Stacks of no region, of one and of eight; with the jump 0 and with another. -/
theorem witness_InstantsAndRegions :
    Calm domain ∧ user.me.role ≠ .member ∧ (user.release 5 2).2 = true ∧ domain.me.role = .member ∧ domain.me.launch.isSome = true ∧
    domain.me.regions = [] ∧ (domain (g := fun x => { x with regions := [⟨false, 1, 0⟩] })).me.regions ≠ [] ∧
    (domain.me.reg 1).toNat < 70 ∧ 8 ≤ (domain (g := fun x => { x with regions := List.replicate 8 ⟨false, 1, 0⟩ })).me.regions.length :=
  ⟨calm_domain, by decide⟩

/-- Signals of every state; declared, renounced and late ones; a group that fits in the domain's numbers, and 64, whose group does
not. -/
theorem witness_SignalInstructions :
    Calm domain ∧ (domain.domainOf 5).isSome = true ∧ domain.me.role = .member ∧ 3 ∈ domain.me.declared ∧ 4 ∉ domain.me.declared ∧
    (3 ∉ domain.me.renounced ∧ 3 ∉ domain.me.late) ∧ domain.vstQueued 5 = false ∧ domain.sigPending 5 = false ∧
    (((domain.dom 0).sig 0).st = .unknown ∧ ((domain.dom 0).sig 1).st = .present ∧ ((domain.dom 0).sig 2).st = .final ∧
      ((domain.dom 0).sig 3).st = .absent ∧ ((domain.dom 0).sig 4).st = .forced ∧ ((domain.dom 0).sig 5).comb = 0 ∧
      ((domain.dom 0).sig 6).comb = 1) ∧
    hasNat domain.me.released 0 = false ∧ (64 % 64 = 0 ∧ 64 < 70 ∧ ((0x3F : Word).getLsbD 5 = true ∧ 64 + 5 < 70)) ∧ 65 % 64 ≠ 0 :=
  ⟨calm_domain, by decide⟩

/-- A member that waits for signal 0 with its `TEST` in memory; an emission and a release of another on their way. -/
def atHome : State :=
  let s := domain (g := fun x => { x with slot := .blocked, wait := some { why := .test 0 } })
  { s with net := [⟨0, 7, 32768, false, .emit 0 1 6, 0⟩, ⟨1, 9, 32768, false, .release 0 0 5, 0⟩], nextMsg := 2,
           mem := s.mem.writes ((span 0x10040 4).zip (leBytes 4 0x000156E8)) }

theorem witness_SignalsAtTheirHomes :
    (atHome.launch 0).dom.isSome = true ∧ atHome.msgAt 0 = atHome.net[0]? ∧ atHome.msgAt 1 = atHome.net[1]? ∧
    (atHome.ctx 5).wait.map (·.why) = some (.test 0) ∧ holds (atHome.nextInstr 5) (fun i => decide (i = .test 0 11 10)) = true ∧
    atHome.sigPending 5 = false := by decide

/-- A settled domain whose member is PAUSED, waits for a signal, waits for a word, or runs; one that awaits its frame; one frozen. -/
theorem witness_LehrDecisions :
    (domain.launch 0).st = .running ∧ (domain.dom 0).ended = none ∧ (domain.dom 0).frozen = none ∧ (domain.dom 0).settled = true ∧
    (domain.countLehr 0 .running ≠ 0) ∧
    (let s := domain (g := fun x => { x with slot := .blocked, paused := true, settled := true, wait := some { why := .pause } })
     s.inTraffic 0 = false ∧ s.countLehr 0 .running = 0 ∧ s.countLehr 0 .req = 0 ∧ s.countLehr 0 .test = 0 ∧ s.countLehr 0 .chan = 0 ∧
     s.canBound 0 = true) ∧
    (let s := domain (g := fun x => { x with slot := .blocked, settled := true, wait := some { why := .test 0 } })
     s.inTraffic 0 = false ∧ s.countLehr 0 .running = 0 ∧ 0 < s.countLehr 0 .test ∧ s.fed 0 5 (.test 0) = false) ∧
    (let s := domain (g := fun x => { x with slot := .blocked, settled := true, wait := some { why := .recv } })
     s.inTraffic 0 = false ∧ s.countLehr 0 .running = 0 ∧ s.countLehr 0 .test = 0 ∧ 0 < s.countLehr 0 .chan ∧ s.fed 0 5 .recv = false) ∧
    (let s := domain (f := fun d => { d with settled := false }) (g := fun x => { x with settled := true })
     s.anyUnsettled 0 = false ∧ 0 < s.countLehr 0 .running) ∧
    (domain.spilledOf 0 = [] ∧ domain.gafferGone 0 = false) := by decide +kernel

/-- A gaffer's domain with a ring of frames in handle 0x1A, whose next frame has arrived. -/
def framed : State :=
  let s := domain (f := fun d => { d with free := false, ring := ptr 0x1A 0, ringLog := 1, awaiting := true, instant := 1 })
  { s with mem := s.mem.writes ((span 0x101000 16).zip (leBytes 8 1 ++ leBytes 8 0)) }

theorem witness_BoundariesAndFrames :
    (domain.launch 0).dom.isSome = true ∧ domain.lastBoundary 0 = false ∧ (framed.dom 0).free = false ∧
    (framed.modCtx 5 (fun x => { x with slot := .exited, ending := 2 })).lastBoundary 0 = true ∧
    (framed.members 0 = [5] ∧ framed.me.regions = []) ∧
    ((framed.dom 0).awaiting = true ∧ (framed.dom 0).frozen = none ∧ (framed.dom 0).ended = none ∧
      (match framed.frameLocs 0 1 with
       | some ls => decide (leNat ((framed.bytesAt ls).take 8) = 1) && decide ((ls.drop 12).take 4 = span 0x10100C 4)
       | none => false) = true ∧
      (framed.frameLogged 0 1 0).isSome = true) := by decide +kernel

/-- The gaffer runs: a running instant, a frozen one, an ended domain; a record that fits at handle 0x11; news and none. -/
def gaffering (f : Domain → Domain := id) (g : Ctx → Ctx := id) : State :=
  let s := (domain f).modCtx 4 (fun x => g (x.setReg 1 (ptr 0x11 0)))
  { s with cur := 4 }

theorem witness_TheGaffer :
    Calm gaffering ∧ (gaffering.domainOf 4).isSome = true ∧ gaffering.me.role = .gaffer ∧ (gaffering.dom 0).frozen = none ∧
    ((gaffering (f := fun d => { d with frozen := some ⟨0x20, 1, [(5, 77)]⟩ })).dom 0).frozen.isSome = true ∧
    ((gaffering (f := fun d => { d with ended := some 3 })).dom 0).ended = some 3 ∧
    at_ gaffering (64 + 8 * 2) needW 8 .plain true false = [(0x20000, 80)] ∧
    (gaffering.me.lastInst.getD 0).toNat < (gaffering.dom 0).instant.toNat ∧
    ¬ ((gaffering (g := fun x => { x with lastInst := some 1 })).me.lastInst.getD 0).toNat < (gaffering.dom 0).instant.toNat ∧
    (64 % 64 = 0 ∧ 64 < 70) := ⟨⟨⟨by decide, .inl (by decide), by decide⟩, by decide, by decide⟩, by decide⟩

/-! ## Witnesses: the vector port -/

/-- A thread bound to port 0, whose queue is `l`. -/
def ported (l : List VEntry := []) (g : Ctx → Ctx := id) : State :=
  (user (fun x => g { x.setReg 1 (ptr 0x11 0) with sta := { bind := 1 } })).modPort 0 0 (fun q => { q with queue := l })

theorem ported_free : Claim.Ported ported := ⟨by decide, by decide, .inl (by decide), by decide⟩

theorem witness_VectorIssue :
    (user.me.spec = none ∧ user.me.sta.bind ≠ 1 ∧ user.me.sta.pp = false) ∧ (ported (g := fun x => { x with sta := { bind := 1, pp := true } })).me.sta.pp = true ∧
    Claim.Ported ported ∧ vBad (.vadd 0 0 0 1 2 3) (Claim.format ported).1 [] (Claim.port ported).cfg = false ∧
    vBad (.vadd 0 0 0 1 2 3) 0 [] (Claim.port ported).cfg = true ∧
    8 ≤ (Claim.port (ported (List.replicate 8 { ins := .vneg 0 1 2 }))).queue.length ∧
    (Claim.port (ported (List.replicate 7 { ins := .vneg 0 1 2 }))).queue.length < 8 :=
  ⟨by decide, by decide, ported_free, by decide⟩

/-- A port that executes the entry at its head. -/
theorem witness_PortGives (e : VEntry) :
    ((ported [e]).port 0 0).queue = e :: [] ∧ (ported [e]).engineUser 0 0 = some 5 ∧ (ported [e]).engKept 0 0 = false ∧
    ((ported [e]).port 0 0).rep = none := by
  refine ⟨rfl, ?_, ?_, rfl⟩ <;> rfl

theorem witness_VectorElements :
    (fmtA 5 = true ∨ fmtF 5 = true) ∧ (fmtA 0x0B = true ∨ fmtF 0x0B = true) ∧ (4 : BitVec 4) = 4 ∧ (3 : BitVec 4).toNat < 4 ∧
    fmtF 0x0B = true ∧ fmtA 6 = true := by decide

theorem witness_VectorMovesAndReductions :
    fmtAll 5 = true ∧ fmtAll 0x10 = true ∧ cvtBad (cvtSource 10) 0x0B (0, 0, 0, 0) = false ∧ (7 : BitVec 4).toNat < 8 ∧
    8 ≤ (8 : BitVec 4).toNat ∧ fmtA 5 = true ∧ (31 : Nat) < lanes 5 ∧ (3 : Nat) < 4 := by decide

theorem witness_VectorSorting :
    (1 ≤ 6 ∧ 6 ≤ 6 ∨ fmtF 6 = true) ∧ (1 ≤ 0x0B ∧ 0x0B ≤ 6 ∨ fmtF 0x0B = true) ∧ (30 : VReg).toNat % 2 = 0 ∧
    (32 : Word).toNat ≤ min (lanes 5) 32 := by decide

/-- Elements that pass, elements at no handle, an idle port. -/
theorem witness_VectorAccesses :
    Claim.Ported ported ∧ (Claim.port ported).queue = [] ∧ (Claim.port ported).rep = none ∧ fmtAll (Claim.format ported).1 = true ∧
    holds (ported.vecElems 4 needR false [(0, ptr 0x11 0), (1, ptr 0x11 4)]) (fun r =>
      let l := r.filterMap VElem.mem?
      decide (l = [(0, span 0x20000 4), (1, span 0x20004 4)]) && decide (l.length = r.length) && (ported.waterHold 0 (l.flatMap (·.2))).isNone &&
        ((l.flatMap (·.2)).find? (ported.bankKept 5)).isNone && (linesOf (l.flatMap (·.2))).all (fun k => !ported.readHeld 0 k)) = true ∧
    holds (ported.vecElems 4 needW true [(0, ptr 0x11 0)]) (fun _ => true) = true ∧
    ok (ported.vecElems 4 needW true [(0, 0)]) = false ∧
    vBad (.vgath 1 0 0 0 2 3 0) (Claim.format ported).1 [ported.me.reg 1] (Claim.port ported).cfg = false ∧
    vBad (.vscat 1 0 0 0 2 3 0) (Claim.format ported).1 [ported.me.reg 1] (Claim.port ported).cfg = false ∧
    (Claim.port ported).vpoison = 0 ∧ (Claim.port ported).qpoison = 0 ∧ ported.me.buf = [] := ⟨ported_free, by decide +kernel⟩

/-- Idle and busy; a configuration that is good, and one with rounding mode 5; counts 65535 and 65536; a body of one instruction. -/
theorem witness_PortControl :
    Claim.Ported ported ∧ ported.me.sta.pp = false ∧ ((Claim.port ported).queue = [] ∧ (Claim.port ported).rep = none) ∧
    (Claim.port (ported [{ ins := .vneg 0 1 2 }])).queue ≠ [] ∧ fmtAll (0x0B % 32) = true ∧ 4 < 0x50B / 2 ^ 8 % 8 ∧
    fmtAll (Claim.format ported).1 = true ∧ (0 : Word).toNat < lanes (Claim.format ported).1 ∧ 65535 ≤ 65535 ∧ 65535 < (65536 : Word).toNat ∧
    (let s := { ported with mem := ported.mem.writes ((span 0x10044 4).zip (leBytes 4 0x00C21100)) }
     ok (s.capture s.me (Claim.port s).cfg 3 1 (s.me.pc + 4) none) = true) ∧
    ok (ported.capture ported.me (Claim.port ported).cfg 3 1 (ported.me.pc + 4) none) = false := ⟨ported_free, by decide +kernel⟩

theorem witness_PortSteps :
    (let s := ported [{ ins := .rep 0 1 2, xs := [2] }]
     s.engineUser 0 0 = some 5 ∧ s.engKept 0 0 = false ∧ (s.port 0 0).rep = none) ∧
    (((ported [{ ins := .rep 0 1 2, xs := [2] }]).modPort 0 0 (fun q => { q with rep := some 1 })).port 0 0).rep = some 1 ∧
    (ported.readHeld 0 (lineOf 0x20000) = false) ∧
    ((span 0x20000 4).length = elemBytes 0x0B ∧ (span 0x20000 4).Nodup ∧ 8 ≤ codeBits 0x0B) := by decide

/-! ## Witnesses: the matrix unit -/

/-- A thread bound to the matrix unit of its core. -/
def matrix (f : Mat → Mat := id) (n : Word := 0) : State :=
  (user (fun x => { x.setReg 1 n with sta := { bind := 2 } })).modMat 0 f

theorem calm_matrix : Calm matrix := ⟨⟨by decide, .inl (by decide), by decide⟩, by decide, by decide⟩

/-- A command record from its fields, as (first bit, bits, value). -/
def fields (l : List (Nat × Nat × Nat)) : BitVec 512 := l.foldl (fun r f => putBits r f.1 f.2.1 f.2.2) 0

/-- A record: cmd, flags, first tile, m, n, k, the formats of A, B and the destination, and the pointers of A and B with their
strides. -/
def record (cmd flags first m n k af bf cf : Nat) (pa pb : Word) (more : List (Nat × Nat × Nat) := []) : BitVec 512 :=
  fields ([(0, 8, cmd), (8, 8, flags), (16, 3, first), (32, 16, m), (48, 16, n), (64, 32, k), (96, 8, af), (104, 8, bf), (112, 8, cf),
           (128, 64, pa.toNat), (192, 32, 80), (224, 32, 80), (256, 64, pb.toNat)] ++ more)

/-- A unit with FP32 tiles of 4 rows and 8 columns and the command `r` at its head. -/
def running (r : BitVec 512) (f : MCmd → MCmd := id) (g : Mat → Mat := id) : State :=
  matrix (fun m => g { m with
    tiles := (List.range 8).map (fun i => (i, { cols := 8, rows := 4, fmt := 11 })), accepted := 1,
    queue := [f { record := r, ctx := 5, ticket := 0, part := 0 }] })

/-- Selectors 3, 4, 7, 8, 15, 18 and 19 at the bounds; a full queue; a stopped unit; a record that can be read, one that cannot, one
that is refused, and one that is taken; tickets below and at the count. -/
theorem witness_MatrixInstructions :
    Calm matrix ∧ user.me.sta.bind ≠ 2 ∧ matrix.me.sta.bind = 2 ∧
    ((match matrix.ownRead 0 matrix with | .error (.exc _) => true | _ => false) = true ∧
     (match matrix.ownRead (ptr 0x11 0) matrix with | .ok _ => true | _ => false) = true ∧
     (matrix.mxCheck 0 0).isSome = true ∧ (matrix.mxCheck 0 (fields [(0, 8, 6), (16, 3, 2)])).isNone = true ∧
     (matrix.release 5 2).2 = true ∧ (matrix.mat 0).queue.length < 4 ∧
     4 ≤ ((matrix (fun m => { m with queue := List.replicate 4 { record := 0, ctx := 5, ticket := 0, part := 0 } })).mat 0).queue.length ∧
     ((matrix (fun m => { m with stop := true })).mat 0).stop = true ∧ (matrix.mat 0).stop = false ∧
     (matrix.mat 0).accepted.toNat ≤ 0 ∧ (0 < ((matrix (fun m => { m with accepted := 2, done := 1 })).mat 0).done.toNat ∧
       ((matrix (fun m => { m with accepted := 2, done := 1 })).mat 0).done.toNat ≤ 1) ∧
     (matrix.mat 0).project.gang = none) := ⟨calm_matrix, by decide, by decide, by decide +kernel⟩

/-- An FP16 product of three chunks whose first chunk meets nothing, one whose A lies in no handle, and a quantised one that lacks a
scale entry. -/
theorem witness_MatrixChunks :
    (let r := record 1 0 2 3 4 40 9 9 11 (ptr 0x11 0) (ptr 0x11 0)
     let s := running r
     (s.mat 0).queue = { record := r, ctx := 5, ticket := 0, part := 0 } :: [] ∧ 1 ≤ rcmd r ∧ rcmd r ≤ 3 ∧ 0 < chunkCount r ∧
       (s.core 0).engHeld = [] ∧ (s.mat 0).stop = false ∧
       (s.chunkMeet (mxEng 0 { record := r, ctx := 5, ticket := 0, part := 0 }) (s.mat 0) r 0).isNone = true ∧
       (s.mat 0).scaleMisses r 0 = [] ∧ Claim.Fits (s.mat 0) r) ∧
    (let r := record 1 0 2 3 4 40 9 9 11 0 (ptr 0x11 0)
     let s := running r
     (match s.chunkMeet (mxEng 0 { record := r, ctx := 5, ticket := 0, part := 0 }) (s.mat 0) r 0 with
      | some (.err _ _ _ _) => true
      | _ => false) = true) ∧
    (let r := record 3 0 0 3 3 40 9 13 11 (ptr 0x11 0) (ptr 0x11 0) [(320, 12, 0x11), (352, 32, 3)]
     let s := running r
     rcmd r = 3 ∧ (s.mat 0).scaleMisses r 0 ≠ [] ∧
       ok (s.engSegs (mxEng 0 { record := r, ctx := 5, ticket := 0, part := 0 }) (scalePtr r 3) 4 needR false) = true ∧
       (s.mat 0).scale.length < 16384) := by
  refine ⟨⟨rfl, ?_, ?_, ?_, rfl, rfl, ?_, ?_, ⟨?_, ?_, ?_, ?_, ?_, ?_, ?_, ?_⟩⟩, ?_, ?_, ?_, ?_, ?_⟩ <;> decide +kernel

/-- One command of each kind: a load and a store that meet nothing, zeroing, configuring, a row mask, a gang of one that joins and has
joined, a reduction into a fresh cell, and commands that are finished, with a sync word and without. -/
theorem witness_MatrixCommands :
    (let r := record 4 0 2 4 5 0 0 0 11 (ptr 0x11 0) 0
     let s := running r
     (s.mat 0).stop = false ∧ rcmd r = 4 ∧ rgroup r = 1 ∧
       (moveSpots r).all (fun p => (s.spotMeet (mxEng 0 { record := r, ctx := 5, ticket := 0, part := 0 }) true 32 needR false p.2).isNone) = true) ∧
    (let r := record 5 0 2 4 5 0 0 0 11 (ptr 0x11 0) 0
     let s := running r
     rcmd r = 5 ∧ s.clus.all (fun q => q.2.retry.isEmpty) = true ∧
       (moveSpots r).all (fun p => (s.spotMeet (mxEng 0 { record := r, ctx := 5, ticket := 0, part := 0 }) true 32 needW true p.2).isNone) = true ∧
       (s.tileBytes (mxEng 0 { record := r, ctx := 5, ticket := 0, part := 0 }) (s.mat 0) r 2).all (fun q => decide ((s.dirAt (lineOf q.1)).lock = none)) = true) ∧
    (rcmd (record 6 0 2 0 0 0 0 0 0 0 0) = 6 ∧ rcmd (record 7 0 2 3 5 0 0 0 9 0 0) = 7) ∧
    (let r := record 9 0 0 0 0 0 0 0 0 (ptr 0x11 16) 0
     rcmd r = 9 ∧ ok ((running r).engSegs (mxEng 0 { record := r, ctx := 5, ticket := 0, part := 0 }) (rptr r 16) 16 needR false) = true) ∧
    (let r := record 8 0 0 0 0 0 0 0 0 0 0 [(480, 32, 0x11)]
     rcmd r = 8 ∧ rflag r 2 = false ∧ rgang r = 0x11 ∧ rb r 44 4 = 0) ∧
    (let r := record 8 4 2 2 2 0 0 0 11 0 (ptr 0x15 0) [(224, 32, 128)]
     let s := running r
     rcmd r = 8 ∧ rflag r 2 = true ∧
       (reduceCells r).all (fun p => (s.spotMeet (mxEng 0 { record := r, ctx := 5, ticket := 0, part := 0 }) false 512 needA true p.2).isNone) = true ∧
       (match (reduceCells r).head? with
        | none => false
        | some p => holds (s.engSegs (mxEng 0 { record := r, ctx := 5, ticket := 0, part := 0 }) p.2.ptr 64 needA true) (fun segs =>
            decide ((spanAll segs).length = 64) && (spanAll segs).all (fun q => decide ((s.dirAt (lineOf q)).lock = none)) &&
              (xsAdd (BitVec.ofNat 512 (leNat (s.bytesAt (spanAll segs)))) (elemValue 11 ((s.mat 0).get r p.1.1 p.1.2)) 11).isSome)) = true) ∧
    (let s := (running (record 6 0 2 0 0 0 0 0 0 0 0) (fun c => { c with finished := true })).modClu 0 (fun k => { k with bankmode := 0x95 })
     s.ackHeld (matKey 0) = false ∧ rflag (record 6 0 2 0 0 0 0 0 0 0 0) 5 = false ∧
       (s.syncLoc (mxEng 0 { record := 0, ctx := 5, ticket := 0, part := 0 }) (ptr 1 (2 ^ 40 + 16))).isSome = true) := by
  decide +kernel

/-! ## Witnesses: sync words, copies, grids -/

/-- The pointer to byte `o` of bank 0 of cluster 0. -/
def pad (o : Nat) : Word := ptr 1 (2 ^ 40 + o)

/-- Bank 0 of cluster 0 is scratchpad; the thread points at a sync word in it whose bytes are `w`. -/
def syncing (w : Nat) (t : Word) : State :=
  let s := (user (fun x => (x.setReg 1 (ptr 1 16)).setReg 2 t)).modClu 0 (fun k => { k with bankmode := 0x95 })
  { s with mem := s.mem.writes ((span (sramLoc 0 0 16) 16).zip (leBytes 16 w)) }

/-- A target of 2^32 and one below; an overrun word; a count below, at and above the target; a generation that has passed and one that
has not; the four arrivals. -/
theorem witness_SyncWords :
    Calm (syncing 0 5) ∧ 2 ^ 32 ≤ (0x100000000 : Word).toNat ∧ (0xFFFFFFFF : Word).toNat < 2 ^ 32 ∧
    at_ (syncing 0 5) 16 needW 16 .sync true true = [(sramLoc 0 0 16, 16)] ∧ at_ (syncing 0 5) 16 needR 16 .sync false true = [(sramLoc 0 0 16, 16)] ∧
    ((syncing 0 5).flushLines 5 (linesOf (span (sramLoc 0 0 16) 16))).isSome = true ∧
    (syncing 0 5).lockedFor (lineOf (sramLoc 0 0 16)) 5 = false ∧ (syncing 7 5).valueAt (span (sramLoc 0 0 16) 16) = 7 ∧
    ((BitVec.ofNat 128 (2 ^ 97) : BitVec 128).extractLsb' 97 1 = 1 ∧ (BitVec.ofNat 128 5 : BitVec 128).extractLsb' 0 32 = (5 : Word).setWidth 32) ∧
    ((BitVec.ofNat 128 (2 ^ 97) : BitVec 128).getLsbD 97 = true ∧ 2 ^ 32 ≤ 0xFFFFFFFF + 1 ∧
      (let w : BitVec 128 := BitVec.ofNat 128 (3 + 2 ^ 32 * 4 + 2 ^ 96)
       w.getLsbD 97 = false ∧ w.extractLsb' 96 1 = 1 ∧ (w.extractLsb' 0 32).toNat + 1 = (w.extractLsb' 32 32).toNat ∧
         (w.extractLsb' 32 32).toNat < (w.extractLsb' 0 32).toNat + 2)) :=
  ⟨⟨⟨by decide, .inl (by decide), by decide⟩, by decide, by decide⟩, by decide +kernel⟩

/-- A packet of `KIND` with flags, dimensions, size code, aux, pointers and the first extent. -/
def packet (kind fl dims sz aux : Nat) (src dst sync : Word) (ext : Nat) : BitVec 512 :=
  fields [(0, 8, kind), (8, 8, fl), (16, 8, dims), (24, 8, sz), (32, 32, aux), (64, 64, src.toNat), (128, 64, dst.toNat), (192, 64, sync.toNat),
          (256, 16, ext)]

/-- A registered queue in handle 0x11 of two slots, the first of which holds `r`, read index 0 and write index 1; bank 0 is scratchpad. -/
def queued (r : BitVec 512) (kinds : Nat := 0x17) (wr : Nat := 1) : State :=
  let s := (user (fun x => (x.setReg 1 (ptr 0x11 0)).setReg 2 (ptr 0x12 0))).modPart 0 (fun p => { p with queues := [⟨ptr 0x11 0, 5⟩] })
  let s := s.modClu 0 (fun k => { k with bankmode := 0x95 })
  { s with mem := s.mem.writes ((span 0x20000 19).zip (leBytes 8 wr ++ leBytes 8 0 ++ [1, BitVec.ofNat 8 kinds, 0xFF]) ++
             (span 0x20040 64).zip (leBytes 64 r.toNat) ++ (span 0x21000 64).zip (leBytes 64 r.toNat)) }

/-- A COPY of four words inside handle 0x1A. -/
def copyPacket : BitVec 512 := packet 1 0 1 2 0 (ptr 0x1A 0) (ptr 0x1A 4096) 0 4

/-- A packet and a header that can be read, whether or not the cluster applies its inbox first; the packet is taken, an empty one is
refused. -/
theorem witness_CopyQueueing_packet :
    (let s := queued copyPacket (wr := 0)
     match s.ownRead (ptr 0x12 0) (s.inTurn 0) with
     | .ok (r, u) => decide (r = copyPacket) && (match u.cpqHeader (u.inTurn 1) (ptr 0x11 0) with
       | .ok (h, lg, m) => decide (h = span 0x20000 64) && decide (lg = 1) && (u.cpqBad 0 m copyPacket).isNone && (u.cpqBad 0 m 0).isSome &&
           (u.release u.cur 2).2
       | _ => false)
     | _ => false) = true := by
  delta State.ownRead State.ownBytes State.loadBytes State.freshen State.draw
  have e : ((queued copyPacket (wr := 0)).coreStream (ptr 0x12 0)).2.fresh = 0 := by decide +kernel
  dsimp only
  rw [e]
  generalize Config.freeBit 0 = b
  cases b <;> decide +kernel

/-- Pointers aligned and not; a queue with room and one that is full, its lines free and locked; 31 and 32 tickets. -/
theorem witness_CopyQueueing :
    (ptr 0x12 1).toNat % 64 ≠ 0 ∧ (ptr 0x12 0).toNat % 64 = 0 ∧
    (let s := queued copyPacket (wr := 0)
     s.queueHeld (span 0x20000 64) [span 0x20040 64] = false ∧
       (s.modDir (lineOf 0x20000) (fun e => { e with lock := some 3 })).queueHeld (span 0x20000 64) [span 0x20040 64] = true ∧
       s.queueWr (span 0x20000 64) - s.queueRd (span 0x20000 64) < 2 ^ 1 ∧
       holds ((s.inTurn 2).access 5 (slotPtrOf (ptr 0x11 0) 1 0) 64 needW 64 .plain true false) isMem = true) ∧
    2 ^ 1 ≤ (queued copyPacket (wr := 2)).queueWr (span 0x20000 64) - (queued copyPacket (wr := 2)).queueRd (span 0x20000 64) ∧ 32 ≤ (List.range 32).length ∧
    (List.range 31).length < 32 := by decide +kernel

/-- Tickets 2 and 3 of three; one outstanding, one abandoned, one done; a mailbox with a message and one without. -/
def ticketed (n : Word) : State :=
  (user (fun x => { (x.setReg 1 n).setReg 2 (ptr 0x11 0) with ticket := 3, tickets := [1], abandoned := [(2, 0x20, none)] })).modCore 0
    (fun k => { k with mbox := [7] })

theorem witness_TicketsAndMailbox :
    Calm (ticketed 0) ∧ (ticketed 3).me.ticket.toNat ≤ ((ticketed 3).me.reg 1).toNat ∧ ((ticketed 2).me.reg 1).toNat < (ticketed 2).me.ticket.toNat ∧
    1 ∈ (ticketed 1).me.tickets ∧ 2 ∉ (ticketed 2).me.tickets ∧ (0 ∉ (ticketed 0).me.tickets ∧ ∀ p ∈ (ticketed 0).me.abandoned, p.1 ≠ 0) ∧
    (ticketed 2).me.abandoned.find? (fun p => decide (p.1 = 2)) = some (2, 0x20, none) ∧ (ticketed 0).me.tickets = 1 :: [] ∧
    (user.me.tickets = [] ∧ user.me.abandoned = []) ∧ ((ticketed 0).core 0).mbox = 7 :: [] ∧ (user.core 0).mbox = [] ∧
    at_ (user (fun x => x.setReg 1 (ptr 0x11 0))) 32 needW 32 .plain true false = [(0x20000, 32)] ∧
    (match (ticketed 0).storeAt ((span 0x20000 32).zip (leBytes 32 7)) 0 0 true with | .done _ => true | _ => false) = true :=
  ⟨⟨⟨by decide, .inl (by decide), by decide⟩, by decide, by decide⟩, by decide +kernel⟩

/-- A written slot whose kind is admitted, one whose kind is not, and an empty one; each engine of the mask. -/
theorem witness_EnginesTakePackets :
    ((queued copyPacket).part 0).queues[0]? = some ⟨ptr 0x11 0, 5⟩ ∧ (queued copyPacket).headerLoc 0 (ptr 0x11 0) = some (span 0x20000 64) ∧
    (queued copyPacket).slotLoc 0 (ptr 0x11 0) ((queued copyPacket).queueLog (span 0x20000 64)) ((queued copyPacket).queueRd (span 0x20000 64)) =
      some (span 0x20040 64) ∧
    affinityTakes ((queued copyPacket).part 0) ((queued copyPacket).queueAff (span 0x20000 64)) 0 = true ∧
    (queued copyPacket).queueHeld (span 0x20000 64) [span 0x20040 64] = false ∧
    ((queued copyPacket).numIn (span 0x20040 64) 0 1 = 1 ∧ kindAdmitted ((queued copyPacket).queueKinds (span 0x20000 64)) 1 = true) ∧
    (queued 0).numIn (span 0x20040 64) 0 1 = 0 ∧ kindAdmitted ((queued copyPacket (kinds := 0)).queueKinds (span 0x20000 64)) 1 = false ∧
    (queued (packet 10 0 0 0 0 77 (ptr 0x1A 8192) 0 0)).numIn (span 0x20040 64) 0 1 = 10 := by decide +kernel

/-- The machine with the packet taken as card 5, as `f` leaves it. -/
def taken (r : BitVec 512) (f : CopyPk → CopyPk := id) (early : SMap CopyPk := []) : State :=
  let s := queued r
  let c : CopyPk :=
    { part := 0, queue := (ptr 0x11 0).toNat, slotPtr := ptr 0x11 64, owner := 5, eng := 0, pkt := r, foot := s.pkFoot 0 r }
  { s with nextCard := 6, packets := early ++ [(5, f c)] }

/-- Alone in its queue; behind an unfinished card with an edge to it, and behind an abandoned one. -/
theorem witness_PacketsStartInTurn :
    ((taken copyPacket).pk 5).fate = none ∧ ((taken copyPacket).pk 5).started = false ∧ pkKind copyPacket ≠ 6 ∧
    (let early (f : Option Cause) : SMap CopyPk := [(4, { part := 0, queue := (ptr 0x11 0).toNat, pkt := copyPacket, foot := ((taken copyPacket).pk 5).foot, fate := f })]
     let me : Card := ⟨5, false, ((taken copyPacket).pk 5).foot, none⟩
     ((taken copyPacket (early := early none)).cardsOf 0 (ptr 0x11 0).toNat).any (fun k => decide (k.id < 5) && k.fate.isNone && k.edge me) = true ∧
       ((taken copyPacket (early := early (some 3))).cardsOf 0 (ptr 0x11 0).toNat).any (fun k => decide (k.id < 5) && k.fate.isSome && k.edge me) = true) ∧
    ((taken 0).pkCheck ((taken 0).pk 5)).isSome = true := by decide +kernel

theorem witness_ElementsMove :
    (pkKind copyPacket ≠ 2 ∧ pkKind copyPacket ≠ 3) ∧ pkKind copyPacket ≠ 4 ∧ pkKind copyPacket ≠ 10 ∧ pkKind copyPacket ≠ 5 ∧
    (let s := taken copyPacket
     let g := pkEng s (s.pk 5)
     ok (s.engAt g 5 (s.pkDst copyPacket 0 0) (pkDstSize copyPacket) (pkDstNeed copyPacket) true false) = true ∧
       ok (s.engAt g 5 (s.pkSrc copyPacket 0 0) (pkSize copyPacket) needR false true) = true) ∧
    (let r := packet 2 0 1 2 0 (ptr 0x1A 0) (ptr 0x1A 4096) 0 4
     let s := taken r
     ok (s.engAt (pkEng s (s.pk 5)) 5 (idxPtr r ((s.pkIndex r 0).getD 1 0)) 4 needR false true) = false ∨ pkKind r = 2) ∧
    (let r := packet 5 0 1 2 11 (ptr 0x1A 0) (ptr 0x15 0) 0 2
     let s := taken r
     match s.engAt (pkEng s (s.pk 5)) 5 (s.pkDst r 0 0) (pkDstSize r) (pkDstNeed r) true true with
     | .ok dst => (xsAdd (BitVec.ofNat 512 (leNat (s.bytesAt dst))) (elemValue (pkAux r % 256) 0) (pkAux r % 256)).isSome
     | .error _ => false) = true := by decide +kernel

/-- A STREAM packet under way; a CLIP packet at a mailbox with 15 and with 16 messages; packets that are done, with a sync word and
without; a packet on hold. -/
theorem witness_PacketsEnd :
    (let r := packet 1 2 1 2 3 (ptr 0x1A 0) (ptr 0x1A 4096) 0 4
     let s := taken r (fun c => { c with started := true })
     pkStream r = true ∧ (s.pk 5).written < s.pkCount r ∧ (match s.moveOne 5 (s.pk 5) 0 with | .ok _ => true | _ => false) = true) ∧
    pkStream copyPacket = false ∧
    (let r := packet 1 1 1 2 0 (ptr 0x1A 4096) (ptr 0x1A 0) (pad 16) 4
     let s := taken r (fun c => { c with moved := true })
     pkClip r = true ∧ (s.pk 5).fate = none ∧ (s.pk 5).posted = false ∧ (s.core (clipCore r)).mbox.length < 16 ∧
       16 ≤ ((s.modCore (clipCore r) (fun k => { k with mbox := List.replicate 16 0 })).core (clipCore r)).mbox.length) ∧
    (taken copyPacket).pkDone 5 = false ∧ (taken copyPacket (fun c => { c with started := true, moved := true })).pkDone 5 = true ∧ pkSync copyPacket = 0 ∧
    (let r := packet 1 0 1 2 0 (ptr 0x1A 0) (ptr 0x1A 4096) (pad 16) 4
     let s := taken r (fun c => { c with moved := true, bytes := 16 })
     pkSync r ≠ 0 ∧ (match s.syncLoc (pkEng s (s.pk 5)) (pkSync r) with | some l => !(swArrive (s.peekN l 16) 16).2 | none => false) = true) ∧
    ((taken copyPacket).pk 5).hold = none ∧ ((taken copyPacket (fun c => { c with hold := some (0x20, 0) })).pk 5).hold = some (0x20, 0) ∧
    ((taken copyPacket).ctxs.all (fun x => x.2.wait.isNone)) = true := by decide +kernel

/-- A grid's descriptor (13 R274): dimensions, levels, depth, extents, parts, boundary rules; storage at handle 0x1A, peers at 0x11. -/
def gridDesc (dims levels depth : Nat) (ext parts rules : List Nat) : List Byte :=
  let to_ (n : Nat) (l : List Byte) : List Byte := l ++ List.replicate (n - l.length) 0
  [BitVec.ofNat 8 dims, 11, BitVec.ofNat 8 levels, BitVec.ofNat 8 depth] ++ to_ 3 (List.replicate dims 1) ++ [0] ++ to_ 12 (ext.flatMap (leBytes 4)) ++
    to_ 6 (parts.flatMap (leBytes 2)) ++ to_ 6 (rules.map (BitVec.ofNat 8)) ++ List.replicate 48 0 ++ leBytes 8 (ptr 0x1A 0).toNat ++
    leBytes 8 (ptr 0x11 0x200).toNat ++ List.replicate 32 0

/-- A grid of 8 cells in two parts, two levels and depth 1: part 0 is core 0's at step 2, part 1 a claim of core 0's. -/
def gridded (f : GridSt → GridSt := id) (n : Word := 2) (cell : Nat := 2) : State :=
  let d := gridDesc 1 2 1 [8] [2] [1, 1]
  let s := user (fun x => (x.setReg 1 (ptr 0x14 cell)).setReg 2 n)
  { s with
    mem := s.mem.writes ((span 0x23000 128).zip d ++ (span 0x20200 32).zip (leBytes 16 (2 ^ 16) ++ leBytes 16 (2 * 2 ^ 16)))
    grids := [(0, f { part := 0, launch := none, bases := [0x23000], store := 0x100000, desc := d, owners := [.core 0, .claim],
                      sigma := [(0, 2), (1, 2)], claimed := [(1, 0)], known := [(0, 2), (1, 2)],
                      bands := (bandsOf d).map (fun b => (bandKey 0 b 0, { tag := some 2 })) })]
    nextGrid := 1 }

/-- Where the checks of a grid instruction lead. -/
def opened (s : State) (p : Word) (need : Nat) : Option (Nat × Nat × Coord) :=
  match s.gridOpen p need 0 (fun _ g p l => .fault { code := 0, addr := BitVec.ofNat 64 (g + 2 ^ 8 * p), info := BitVec.ofNat 64 (2 ^ 40 + l.length) }) with
  | .fault e => if e.info.toNat / 2 ^ 40 = 1 then some (e.addr.toNat % 2 ^ 8, e.addr.toNat / 2 ^ 8, []) else none
  | _ => none

theorem calm_gridded : Calm gridded := ⟨⟨by decide, .inl (by decide), by decide⟩, by decide, by decide⟩

/-- Steps 2^32 - 2 and 2^32 - 1; a cell whose checks pass; the part's own step and others; a part that stands at no step. -/
theorem witness_GridAccesses :
    Calm gridded ∧ 2 ^ 32 - 1 ≤ (0xFFFFFFFF : Word).toNat ∧ (0xFFFFFFFE : Word).toNat < 2 ^ 32 - 1 ∧
    (opened gridded (ptr 0x14 2) needR).isSome = true ∧ (opened gridded (ptr 0x14 2) needW).isSome = true ∧ (gridded.grid 0).step 0 = some 2 ∧
    (gridded (f := fun g => { g with sigma := [] })).grid 0 ≠ gridded.grid 0 ∧
    ((gridded (f := fun g => { g with sigma := [] })).grid 0).step 0 = none ∧
    ((bandsOf (gridded.grid 0).desc).any (fun w => decide (gridded.bandDecide 0 0 w 2 = .read))) = true ∧
    ((bandsOf (gridded.grid 0).desc).any (fun w => decide (gridded.bandDecide 0 0 w 8 = .stale 2))) = true ∧
    holds (gridded.access 5 (ptr 0x1A 64) (dSize (gridded.grid 0).desc) needW 1 .plain true false) isMem = true :=
  ⟨calm_gridded, by decide +kernel⟩

theorem witness_GridSteps :
    Calm gridded ∧ (gridded.grid 0).step 0 = some 2 ∧ (opened gridded (ptr 0x14 2) needR).isSome = true ∧ (gridded.release 5 2).2 = true ∧
    holds (gridded.outFills 0 0 (-1)) (fun b => b) = true ∧ (9 ≠ 2 ∧ 9 ≠ 2 + 1) ∧
    (let s := gridded (f := fun g => { g with sigma := [] }); (s.grid 0).step 0 = none ∧ (0 = dStep0 (s.grid 0).desc ∧ 1 ≠ dStep0 (s.grid 0).desc)) ∧
    (let fill (k : Nat) : HFill := { grid := 0, dst := k % 2, kind := k / 2, step := 9 }
     let s : State := { gridded with fills := (List.range 4).map (fun k => (k, fill k)) }
     holds (s.outFills 0 0 8) (fun b => b) = true ∧ holds (s.outFills 0 0 9) (fun b => !b) = true) := ⟨calm_gridded, by decide +kernel⟩

/-- A fill that is ready and one that is not; one whose cells have all come; one that is lost; a published step on its way. -/
theorem witness_HaloFills :
    (let s : State := { gridded with fills := [(0, { grid := 0, dst := 0, kind := 0, step := 2 }), (1, { grid := 0, dst := 0, kind := 0, step := 9 })] }
     (s.hfill 0).pk = none ∧ s.fillReady 1 = false ∧ (s.grid 0).peers 0 = false ∧ (s.hfill 0).lost = none ∧ (s.hfill 0).started = false) ∧
    (let s : State := { gridded with fills := [(0, { grid := 0, dst := 0, kind := 0, step := 2, started := true })] }
     let f := s.hfill 0
     let g := s.grid 0
     f.started = true ∧ f.left = 0 ∧ f.kind ≠ 2 ∧ f.heldOn = none ∧ f.lost = none ∧ g.peers f.dst = false ∧
     ((g.cellsOf f).filter (fun l => !g.fromPeer f.dst l)).all (fun l => ok (s.fillValue g f l)) = true ∧
     holds (s.nearCells g f) (fun l => ok (s.putFill 0 g f l)) = true) ∧
    (let s : State := { gridded with fills := [(0, { grid := 0, dst := 0, kind := 0, step := 2, heldOn := some 4 })]
                                     packets := [(4, { fate := some 3 })] }
     (s.hfill 0).heldOn = some 4 ∧ (s.pk 4).fate ≠ none) ∧
    (let s : State := { gridded with net := [⟨0, 64, 0, false, .sigma 0 0 5, 0⟩] }
     s.msgAt 0 = s.net[0]?) := by decide +kernel

/-! ## Witnesses: launches, waits, banks, events, spills -/

/-- A launch packet of `n` contexts per block with entry in handle 0x10 (15 R327), from (byte, bytes, value) fields. -/
def launchPacket (flags n : Nat) (sync : Word) (more : List (Nat × Nat × Nat) := []) : LPkt :=
  ((([(0, 1, 7), (1, 1, flags), (2, 1, n), (8, 8, (ptr 0x10 0).toNat), (24, 8, sync.toNat), (64, 1, 8)] : List (Nat × Nat × Nat)) ++ more)).foldl
    (fun r f => putBits r (8 * f.1) (8 * f.2.1) f.2.2) 0

/-- A queue in handle 0x11 whose two slots hold the launch packet `r`, with the kind mask `kinds`. -/
def offering (r : LPkt) (kinds : Nat := 0x1F) : State :=
  let s := queued (BitVec.ofNat 512 r.toNat) kinds 2
  { s with mem := s.mem.writes ((span 0x20080 64).zip (leBytes 64 (r.toNat / 2 ^ 512 + 1))) }

/-- A launch whose two slots are written; the same with a kind mask that does not admit it; a good packet, and one with no
contexts. -/
theorem witness_LaunchTaking :
    (let s := offering (launchPacket 0 2 0)
     (s.part 0).queues[0]? = some ⟨ptr 0x11 0, 5⟩ ∧ s.headerLoc 0 (ptr 0x11 0) = some (span 0x20000 64) ∧
       s.slotLoc 0 (ptr 0x11 0) (s.queueLog (span 0x20000 64)) (s.queueRd (span 0x20000 64)) = some (span 0x20040 64) ∧
       s.slotLoc 0 (ptr 0x11 0) (s.queueLog (span 0x20000 64)) (s.queueRd (span 0x20000 64) + 1) = some (span 0x20080 64) ∧
       bitOf (BitVec.ofNat 8 (s.queueKinds (span 0x20000 64))) 3 = true ∧ s.numIn (span 0x20040 64) 0 1 = 7 ∧
       s.numIn (span 0x20080 64) 0 1 ≠ 0 ∧ s.queueHeld (span 0x20000 64) [span 0x20040 64, span 0x20080 64] = false ∧
       ok (s.launchList 0 ((launchPacket 0 2 0).ptr 104) ((launchPacket 0 2 0).at 112 1)) = true ∧
       ok (s.launchList 0 ((launchPacket 0 2 0).ptr 40) ((launchPacket 0 2 0).at 48 4)) = true ∧
       (s.launchBad 0 (launchPacket 0 0 0)).isSome = true ∧ (s.part 0).traceMode = 0) ∧
    bitOf (BitVec.ofNat 8 ((offering (launchPacket 0 2 0) (kinds := 0x17)).queueKinds (span 0x20000 64))) 3 = false := by decide +kernel

/-- Launch 4 of the packet, as `f` leaves it. -/
def launched (f : Launch → Launch := id) (early : SMap CopyPk := []) (r : LPkt := launchPacket 0 2 0) : State :=
  let s := queued copyPacket
  let x : Launch := { part := 0, queue := (ptr 0x11 0).toNat, slotPtr := ptr 0x11 64, pkt := r }
  { s with nextCard := 9, packets := early, launches := [(4, f x)] }

/-- Alone, behind an unfinished card of its queue, behind an abandoned one, and no longer waiting. -/
theorem witness_LaunchesBecomeReady :
    ((launched).launch 4).st = .waiting ∧ ((launched (fun x => { x with st := .ready })).launch 4).st ≠ .waiting ∧
    LPkt.reactive ((launched).launch 4).pkt = false ∧ ((launched).cardsOf 0 (ptr 0x11 0).toNat).filter (fun k => decide (k.id < 4)) = [] ∧
    (let card (f : Option Cause) : SMap CopyPk := [(3, { part := 0, queue := (ptr 0x11 0).toNat, fate := f, foot := [⟨1, 0x100000, 64, true, true⟩] })]
     let me : Card := ⟨4, true, [], none⟩
     ((launched (early := card none)).cardsOf 0 (ptr 0x11 0).toNat).any (fun k => decide (k.id < 4) && k.fate.isNone && k.edge me) = true ∧
       ((launched (early := card (some 3))).cardsOf 0 (ptr 0x11 0).toNat).any (fun k => decide (k.id < 4) && k.fate.isSome && k.edge me) = true) := by
  decide +kernel

/-- A ready launch is offered and has a core for its next block; with no launch nothing is placed. -/
theorem witness_BlocksStart :
    (let s := launched (fun x => { x with st := .ready })
     s.offers 0 = 4 :: [] ∧ (s.launch 4).replay = 0 ∧ (s.nextPlace 4).isSome = true ∧
       s.coreFits 0 (launchPacket 0 2 0) (4 * 0 + (launchPacket 0 2 0).coreIdx 0 % 4) = true ∧ (launchPacket 0 2 0).reactive = false ∧
       1 ≤ (launchPacket 0 2 0).ctxs ∧ (launchPacket 0 2 0).ctxs ≤ 15 ∧ (s.core 0).engHeld = [] ∧ (s.clu 0).bankHeld = []) ∧
    (queued copyPacket).offers 0 = [] ∧
    ((launched (fun x => { x with st := .ready })).modCore 0 (fun k => { k with running := true })).coreFits 0 (launchPacket 0 2 0) 0 = false := by
  decide +kernel

/-- A launch whose blocks have all ended, with a sync word and without, and one whose have not. -/
theorem witness_EpochsAndCompletion :
    (launched).launchDone 4 = false ∧ (launched (fun x => { x with st := .running, ended := 1, nextBlock := 1 })).launchDone 4 = true ∧
    (launchPacket 0 2 0).ptr 24 = 0 ∧
    (let r := launchPacket 0 2 (pad 16)
     let s := launched (fun x => { x with st := .running, ended := 1, nextBlock := 1 }) (r := r)
     s.launchDone 4 = true ∧ r.ptr 24 ≠ 0 ∧ s.clustersHeld (s.launch 4).clus = false ∧
       (match s.launchSync 4 with | some b => !s.lockedFor (lineOf b) noCtx | none => true) = true ∧ (s.syncLoc { clu := s.firstClu 0, part := 0, sup := false } (r.ptr 24)).isSome = true) := by
  decide +kernel

/-- A context that waits for `w`. -/
def waiting (w : WaitRec) (f : Ctx → Ctx := id) : State := user (fun x => f { x.setReg 1 (ptr 0x11 0) with slot := .blocked, wait := some w })

/-- Replies with a fault, with a re-issue and with registers; a place that is reached; a full-empty request that waits for a full and
for an empty word; locks, detectors and a replay. -/
theorem witness_WaitsEnd :
    (user.ctx 5).wait = none ∧ ((waiting { why := .reply, reply := some { exc := some { code := 3 } } }).ctx 5).wait.isSome = true ∧
    ((waiting { why := .reply, reply := some { writes := [(3, 7)] } }).ctx 5).sta.ss = false ∧
    (let s := waiting { why := .place 0x20000 }
     let t : State := { s with mem := s.mem.writes ((span 0x10040 4).zip (leBytes 4 0x008C4C94)) }
     (t.ctx 5).slot = .blocked ∧ holds (t.nextInstr 5) (fun i => (placeBody i).isSome) = true) ∧
    (user.feWaiting 5 = none ∧ user.clus.all (fun q => q.2.retry.isEmpty) = true) ∧
    (let s := waiting { why := .retry 0x20000 }
     let t : State := { s with mem := s.mem.writes ((span 0x10040 4).zip (leBytes 4 ((encode (.ldfeTake 2 3 1 (.short 0))).headD 0))), empties := [0x20000 / 8] }
     (t.feWaiting 5).isSome = true ∧ t.inRetry 5 0x20000 = false ∧ FeMode.ready .take (t.isFull 0x20000) = false ∧
       FeMode.ready .take (s.isFull 0x20000) = true ∧
       (t.modClu (t.placeClu 0x20000) (fun k => { k with retry := [{ ctx := 5, loc := 0x20000, mode := .take }] })).inRetry 5 0x20000 = true) ∧
    (user.dirAt 3).lock = none ∧ ((user.modDir 3 (fun d => { d with lock := some 7 })).dirAt 3).lock ≠ none ∧
    ((user.modCore 2047 (fun k => { k with detectors := [⟨0x11, 3, 2, 0⟩] })).core 2047).detectors[0]? = some ⟨0x11, 3, 2, 0⟩ ∧
    ((user.modMat 2047 (fun k => { k with detectors := [⟨0x11, 3, 2, 0⟩] })).mat (4095 - 2048)).detectors[0]? = some ⟨0x11, 3, 2, 0⟩ ∧
    user.readRecord 0 = none := by decide +kernel

/-- Bank 31 and field 31; a bank that changes from each mode; a FIFO bank that is empty, one with waiters, one that is full. -/
theorem witness_BanksAndFifos :
    (31 < 32) ∧ bitsAt (0xC000000000000000 : Word) (2 * 31) 2 = 3 ∧ ((List.range 32).all (fun j => decide (bitsAt (0x95 : Word) (2 * j) 2 ≠ 3))) = true ∧
    (user.clu 0).busyBank 0 = false ∧
    (let k := (user.modClu 0 (fun k => { k with busy := 1, bankmode := 1, pend := [(0, 2)] })).clu 0
     k.busyBank 0 = true ∧ SMap.at (k.mode 0) k.pend 0 ≠ k.mode 0 ∧ SMap.at (k.mode 0) k.pend 0 ≠ 0) ∧
    (let k := (user.modClu 0 (fun k => { k with busy := 1, bankmode := 1, pend := [(0, 1)] })).clu 0
     SMap.at (k.mode 0) k.pend 0 = k.mode 0) ∧
    (let k := (user.modClu 0 (fun k => { k with bankmode := 2 })).clu 0
     k.canPush 0 = true ∧ k.canPop 0 = false ∧ k.waiters 0 = []) ∧
    (let k := (user.modClu 0 (fun k => { k with bankmode := 2, fifo := [(0, [5])] })).clu 0
     k.canPop 0 = true) ∧
    (let k := (user.modClu 0 (fun k => { k with bankmode := 2, fifoWait := [(0, [(6, 3, none)])] })).clu 0
     k.waiters 0 = (6, 3, none) :: [] ∧ k.words 0 = [] ∧ k.canPush 0 = true) ∧
    (let k := (user.modClu 0 (fun k => { k with bankmode := 2, fifo := [(0, List.replicate 8192 5)], fifoWait := [(0, [(6, 3, some 4)])] })).clu 0
     k.waiters 0 = (6, 3, some 4) :: [] ∧ (k.words 0).length = 8192 ∧ k.canPop 0 = true ∧ k.canPush 0 = false) := by decide +kernel

/-- A walk that ends and one that fails; an event for a context that is ready, one for a context that waits; a late handler of a service
context and of another; granules sound, in error and poisoned; contexts live and not. -/
theorem witness_WalksEventsAndErrors :
    (holds ((tables.correct (tables.walkReads 0 0 0x1234)).walkFor 0 0 0x1234) (fun r => decide (r.2 = 16) &&
        decide (r.1.toNat % 2 ^ 52 / 2 ^ 8 * 2 ^ 8 + 0x1234 < dramLimit (tables.part 0)) && decide (0x1234 < (tables.part 0).htbase.toNat)) = true ∧
      ok (tables.walkFor 4096 0 (2 ^ 30)) = false ∧ tables.walks = [] ∧ (0 < 1024 ∧ 1024 ≤ 1024 ∧ 1024 < 4096 ∧ 4096 ≤ 4096)) ∧
    user.nextEvent 5 = none ∧ isDsc 5 = false ∧
    (let s := user (fun x => { x with held := [{ code := 3 }] })
     (s.ctx 5).held = { code := 3 } :: [] ∧ (s.ctx 5).ih = false ∧ (s.ctx 5).stopped = false ∧ (s.ctx 5).slot = .ready) ∧
    (State.canWithdraw user 5 .recv = true) ∧
    (let s := user (fun x => { x with ih := true, handlerSince := some 0 })
     (s.ctx 5).slot.live = true ∧ 5 ≠ s.serviceCtx 0) ∧
    (user.clu (cluOf 5)).recal = false ∧ user.me.buf = [] ∧ buffered.me.buf ≠ [] ∧
    hasNat user.poison 3 = false ∧ hasNat ({ user with poison := [3] } : State).poison 3 = true ∧ hasNat ({ user with ecc := [3] } : State).ecc 3 = true ∧
    (5 < 2 ^ 15 ∧ (user.ctx 4).slot.live = false) ∧ user.launches = [] := by decide +kernel

/-! ## Witnesses: pre-emption, links, the fabric, service, encodings and steps -/

/-- A pre-emption request (17 R402). -/
def cullRequest (op c rec_ : Nat) : BitVec 512 := fields [(0, 8, op), (16, 16, c), (64, 64, rec_)]

/-- A machine that has taken the request `r`, with a cullet area in handle 0x10, whose context 7 holds a thread; nothing stands in
its slots. The record at 0x4000 has status `st` and, if `kept`, a thread. -/
def culling (r : BitVec 512) (st : Nat := 0) (kept : Bool := false) (f : Ctx → Ctx := id) : State :=
  let hc := (0, 0x10, entry 0x100000 0x80000 1 0 0x7F ||| BitVec.ofNat 256 (2 ^ 177)) :: handles.filter (fun h => decide (h.2.1 ≠ 0x10))
  let s := ((user.modPart 0 (fun q => { q with cull := [r] })).setCtx 7 (f thread)).modClu 0 (fun k => { k with hcache := hc })
  { s with mem := s.mem.writes [(0x1043F8, BitVec.ofNat 8 st)], spilled := if kept then [(regionKey 0 0x4000, ⟨thread, 3, 0, 7, false⟩)] else [] }

/-- Each kind of request, taken; a bad one of each kind, one that waits, and one that goes on. -/
theorem witness_SpillingAndRestoring :
    (let r := cullRequest 1 7 0x4000
     let t := State.cullAll 0 1024 (culling r)
     (t.part 0).cull = [r] ∧ Cull.op r = 1 ∧ t.spillBad 0 r = none ∧ t.nextEvent 7 = none ∧ t.spillReady 7 = true ∧ (t.ctx 7).slot = .ready ∧
       (t.ctx 7).wait = none ∧ t.streamsOf 7 = [] ∧ (t.ctx 7).owner = false ∧ ((t.drainAll 7).ctx 7).owner = false ∧
       (t.drainAll 7).streamsOf 7 = [] ∧ (t.core (coreOf 7)).arrivals = [] ∧ (t.chan 7).waiting = [] ∧ 0x4000 + 1024 ≤ t.areaLen 0) ∧
    (let r := cullRequest 1 7 0x4001
     let t := State.cullAll 0 1024 (culling r)
     (t.part 0).cull = [r] ∧ t.spillBad 0 r = some 2) ∧
    (let r := cullRequest 1 7 0x4000
     let t := State.cullAll 0 1024 (culling r (f := fun x => { x with slot := .blocked, wait := some { why := .remote 3 } }))
     (t.part 0).cull = [r] ∧ t.spillBad 0 r = none ∧ t.nextEvent 7 = none ∧ t.spillReady 7 = false) ∧
    (let r := cullRequest 3 7 0x4000
     let t := State.cullAll 0 1024 (culling r (st := 1))
     (t.part 0).cull = [r] ∧ Cull.op r = 3 ∧ t.recOk 0 0x4000 = true ∧ t.statusOf 0 0x4000 = 1 ∧
       (State.cullAll 0 1024 (culling r)).statusOf 0 0x4000 ≠ 1 ∧ t.recOk 0 0x4001 = false) ∧
    (let r := cullRequest 2 9 0x4000
     let t := State.cullAll 0 1024 (culling r (st := 4) (kept := true))
     let bytes : BitVec 8192 := BitVec.ofNat 8192 (t.areaN 0 0x4000 1024)
     (t.part 0).cull = [r] ∧ Cull.op r = 2 ∧ t.restoreBad 0 r = none ∧ (List.range 5).all (fun i => !bitOf bytes (8 * 0x091 + i)) = true ∧
       Cull.notify r = false ∧ (t.ctx 9).slot = .free ∧ (t.chan 9).waiting = [] ∧
       holds (match t.spilledFor 0 0x4000 (recAt bytes 0x092 2) with | some h => (.ok h.2 : Except Unit Spilled) | none => .error ()) (fun h =>
         decide (h.ctx.wait = none ∧ h.ctx.dueTrap = none ∧ h.again = false)) = true ∧
       (State.cullAll 0 1024 (culling r (st := 0))).restoreBad 0 r = some 4) := by decide +kernel

/-- A flit of type `ty` with sequence number `n` (18 R424, R425). -/
def flit (ty n : Nat) (more : Nat := 0) : List Byte :=
  let b := (List.range 64).map (fun i => BitVec.ofNat 8 (if i = 4 then 16 * more else i)) ++ leBytes 2 n ++ [BitVec.ofNat 8 ty, 0]
  b ++ leBytes 4 (crc32 b)

/-- A fabric packet of class `cls` and opcode `opc` between nodes. -/
def fabPkt (cls opc src tgt n : Nat) (rev : BitVec 32 := 0) : FabPkt :=
  { cls := cls, opc := opc, detour := false, vc := 0, tgtNode := tgt, tgtPart := 0, srcNode := src, srcPart := 0, eseq := n, rev := rev,
    cap := 0, off := 0, opnd := 0, mop := 0, sz := 3, cause := 0, floor := 0, cur := 0, data := [] }

/-- A part in service whose port 6 stands as `f` leaves it. -/
def linked (f : OPort → OPort := id) : State := inFabric.modOport 6 (fun o => f { o with state := 2, lanes := 0xFFFF, next := 3, expect := 7 })

/-- Flits that are good and not, of each type, ahead by 0, 1, 2 ^ 15 - 1 and 2 ^ 15; ports that are up and down, with failures and
without; an acknowledged packet; ports with a neighbour and without, in each state. -/
theorem witness_LinksDeliverInOrder :
    (let good (b : List Byte) : Bool := decide (b.length = 72 ∧ leNat ((b.drop 68).take 4) = crc32 (b.take 68))
     let ahead (b : List Byte) : Nat := (leNat ((b.drop 64).take 2) + 2 ^ 16 - (linked.oport 6).expect) % 2 ^ 16
     good [] = false ∧ good (flit 3 0) = true ∧ leNat (((flit 3 0).drop 66).take 1) = 3 ∧ good (flit 1 7) = true ∧
       leNat (((flit 1 7).drop 66).take 1) = 1 ∧ (linked.oport 6).expect < 2 ^ 16 ∧ ahead (flit 1 7) = 0 ∧ ahead (flit 1 8) = 1 ∧
       ahead (flit 1 32774) = 2 ^ 15 - 1 ∧ ahead (flit 1 32775) = 2 ^ 15 ∧
       (let rx (b : List Byte) : List (List Byte) := [b.take 64]
        let want (b : List Byte) : Nat := 1 + leNat ((((rx b).headD []).drop 4).take 1) / 16
        (rx (flit 1 7)).length = want (flit 1 7) ∧ (rx (flit 1 7 1)).length ≠ want (flit 1 7 1))) ∧
    (linked.oport 6).up = true ∧ (inFabric.oport 6).up = false ∧ ((linked.oport 6).ack 2).replay.fails < 4 ∧
    4 ≤ (((linked (fun o => { o with fails := 4, unacked := [(fabPkt 0 1 0 1 7, 0)] })).oport 6).ack 1).replay.fails ∧
    (let o := (linked (fun o => { o with unacked := [(fabPkt 0 1 0 1 7, 0), (fabPkt 0 1 0 1 8, 0)] })).oport 6
     1 ≤ 2 ∧ 2 ≤ o.unacked.length ∧ o.unacked.length ≤ 2048 ∧ o.next < 2 ^ 16) ∧
    linked.hasPeer linked.pkg.node 6 = true ∧ linked.hasPeer linked.pkg.node 0 = false ∧ (linked.oport 6).state ≠ 0 ∧
    (inFabric.oport 6).state = 0 ∧ (linked.oport 6).state ≠ 1 ∧ ((linked (fun o => { o with state := 1 })).oport 6).state = 1 := by
  decide +kernel

/-- Lanes lost in the low half, in the high half, and in each quarter in turn; a state that settles and one that changes. -/
theorem witness_RetrainingOutcomes :
    ((0x0080 : BitVec 16) &&& 0x00FF ≠ 0 ∧ ¬ (0x0080 : BitVec 16) &&& 0xFF00 ≠ 0) ∧ ((0x0100 : BitVec 16) &&& 0xFF00 ≠ 0 ∧ ¬ (0x0100 : BitVec 16) &&& 0x00FF ≠ 0) ∧
    (0x0110 : BitVec 16) &&& 0x000F = 0 ∧ ((0x0101 : BitVec 16) &&& 0x000F ≠ 0 ∧ (0x0101 : BitVec 16) &&& 0x00F0 = 0) ∧
    ((0x1011 : BitVec 16) &&& 0x00F0 ≠ 0 ∧ (0x1011 : BitVec 16) &&& 0x0F00 = 0) ∧ ((0x0111 : BitVec 16) &&& 0x0F00 ≠ 0 ∧ (0x0111 : BitVec 16) &&& 0xF000 = 0) ∧
    (0x1111 : BitVec 16) &&& 0xF000 ≠ 0 ∧ (2 = laneState (linked.oport 6).lanes ∧ 3 ≠ laneState (linked.oport 6).lanes) := by decide

/-- The same with the request `q` in the package's outbox. -/
def sending (q : FabPkt) : State := inFabric.modPkg (fun g => { g with outbox := [q] })

/-- A request of context 5 that is out, as `f` leaves the wait. -/
def awaited (f : WaitRec → WaitRec := id) : State :=
  (inFabric.modPkg (fun g => { g with outst := [{ eseq := 4, ctx := some 5, pk := none, pkt := fabPkt 0 1 0 1 4, reg := 3, sz := 3 }] })).modCtx 5
    (fun x => { x with slot := .blocked, wait := some (f { why := .remote 4 }) })

/-- A request for this node and for another; one that is new, being performed, and answered; a revision and an epoch that do not
match; each outcome of a performance; ways, and none; an answer that is awaited and one that is not. -/
theorem witness_RequestsAndAnswers :
    (let q := fabPkt 0 1 1 0 7
     (q.tgtNode = inFabric.pkg.node ∧ q.cls ≠ 1) ∧ ¬ ((fabPkt 0 1 1 1 7).tgtNode = inFabric.pkg.node ∧ (fabPkt 0 1 1 1 7).cls ≠ 1) ∧
       inFabric.filter q.srcNode q.eseq = .perform ∧ (inFabric.mark 1 7 1 q).filter 1 7 = .drop ∧
       (inFabric.mark 1 7 2 q).filter 1 7 = .again q ∧ (fabPkt 0 1 1 0 7 (rev := 9)).rev ≠ inFabric.ownRev.rev ∧
       ({ q with rev := inFabric.ownRev.rev } : FabPkt).rev = inFabric.ownRev.rev ∧
       epochValid (inFabric.part 0).epoch (capEpoch q.cap) = true ∧ epochValid (inFabric.part 0).epoch (capEpoch (BitVec.ofNat 128 (200 * 2 ^ 84))) = false ∧
       (match (inFabric.mark 1 7 1 q).perform ({ fabPkt 0 4 1 0 7 with mop := 13 } : FabPkt) with | .bad _ _ => true | _ => false) = true ∧
       q.eseq < 2 ^ 32 ∧ inFabric.pkg.seen = []) ∧
    (let q := fabPkt 0 1 0 1 7
     (8 ≤ 8 ∧ q ∉ inFabric.pkg.outbox ∧ q ∈ (sending q).pkg.outbox ∧ q.tgtNode ≠ (sending q).pkg.node) ∧
       (inFabric.wayFrom 0 1 false).isNone = true ∧ ((inFabric.modOport 7 (fun o => { o with state := 2 })).wayFrom 0 1 false).isSome = true ∧
       (fabPkt 1 0x10 0 1 7).cls = 1) ∧
    ((fabPkt 1 0x10 1 0 4).tgtNode = inFabric.pkg.node ∧ (inFabric.learn (fabPkt 1 0x10 1 0 4)).pkg.outst = [] ∧ (fabPkt 1 0x13 1 0 4).opc = 0x13) ∧
    (let a := fabPkt 1 0x10 1 0 4
     let v := awaited.learn a
     (v.pkg.outst.find? (fun o => decide (o.eseq = a.eseq ∧ o.pkt.tgtNode = a.srcNode))).isSome = true ∧ a.opc ≠ 0x13 ∧
       (v.ctx 5).wait = some { why := .remote 4 } ∧ awaited.pkg.outst[0]?.isSome = true ∧ awaited.pkg.outst[1]? = none ∧
       (awaited.ctx 5).wait = some { why := .remote 4 }) := by decide +kernel

/-- An object of reductions in handle 0x1B with 16 cells and the nodes 1 and 2 as contributors, its flags `fl`. -/
def reducing (fl : Nat) : State :=
  { inFabric with mem := inFabric.mem.writes ((span 0x28000 12).zip (leBytes 8 0 ++ [BitVec.ofNat 8 fl, 0] ++ leBytes 2 16) ++ [(0x28040, 6)]) }

/-- Contributions that are new, answered and being performed; one that lies outside; an object whose round can fail and one whose can
not; exact cells of one tag. -/
theorem witness_Reductions :
    (let c : Contribution := { part := 0, hidx := 0x1B, who := [(1, 0, 7)], first := 0, cells := [0] }
     let s := reducing 2
     c.who.all (fun w => decide (s.filter w.1 w.2.2 = .perform)) = true ∧ (s.mark 1 7 2 (fabPkt 1 0x10 0 1 7)).filter 1 7 = .again (fabPkt 1 0x10 0 1 7) ∧
       (s.mark 1 7 1 (fabPkt 1 0x10 0 1 7)).filter 1 7 = .drop ∧ s.redN 0 0x15 10 2 < 0 + 1 ∧
       (reducing 0).redN 0 0x1B 8 1 / 2 % 2 = 0 ∧ (s.roundOf 0 0x1B).waiting = [] ∧ s.pkg.rounds = []) ∧
    (xsTag (0 : BitVec 512) = xsTag 0 ∧ bitsAt (0 : BitVec 512) 496 8 < 8 ∧ xsCount (0 : BitVec 512) + xsCount 0 < 2 ^ 48) := by decide +kernel

theorem leNat_leBytes (n v : Nat) : leNat (leBytes n v) = v % 2 ^ (8 * n) := by
  induction n generalizing v with
  | zero => simp [leBytes, leNat, Nat.mod_one]
  | succ n ih =>
    have e : 2 ^ (8 * (n + 1)) = 256 * 2 ^ (8 * n) := by rw [show 8 * (n + 1) = 8 + 8 * n by omega, Nat.pow_add]
    simp only [leBytes, leNat, ih, BitVec.toNat_ofNat, e, Nat.mod_mul]

/-- A cap frame of sequence number `n` under the key 77 (19 R448). -/
def capFrame (n : Nat) : List Byte :=
  let b := leBytes 2 1 ++ leBytes 2 64 ++ leBytes 8 n ++ [3, 5, 0, 0]
  b ++ leBytes 48 (Config.hmac384 77 b)

/-- A part in service with the key 77 as `f` leaves it. -/
def serviced (f : Pkg → Pkg := id) : State := inFabric.modPkg (fun g => f { g with hallKey := some 77 })

/-- A good frame, whatever the key's function is; a bad one; an applied frame that is newer and one that is older; a tripped part. -/
theorem witness_LimitsAndFrames :
    serviced.frameGood (capFrame 4) = true ∧ serviced.frameGood [] = false ∧ serviced.pkg.capApplied = false ∧
    (let s := serviced (fun g => { g with capApplied := true, capSeq := 4 })
     s.pkg.capApplied = true ∧ leNat (((capFrame 4).drop 4).take 8) ≤ s.pkg.capSeq ∧ s.pkg.capSeq < leNat (((capFrame 5).drop 4).take 8)) ∧
    serviced.pkg.thermal = false ∧ serviced.pkg.current = false ∧ (serviced.agenda = [] ∧ (serviced (fun g => { g with tripped := true })).pkg.tripped = true) := by
  refine ⟨?_, by decide +kernel⟩
  have h : leNat ((capFrame 4).drop 16) = Config.hmac384 77 ((capFrame 4).take 16) % 2 ^ 384 := by
    have a : (capFrame 4).drop 16 = leBytes 48 (Config.hmac384 77 ((capFrame 4).take 16)) := rfl
    rw [a, leNat_leBytes]
  have k : serviced.pkg.hallKey = some 77 := rfl
  have a : (capFrame 4).length = 64 := rfl
  have b : leNat ((capFrame 4).take 2) = 1 ∧ leNat (((capFrame 4).drop 2).take 2) = 64 := by decide +kernel
  have c : frameByte (capFrame 4) 12 ≤ 7 ∧ frameByte (capFrame 4) 13 ≤ 15 ∧ frameByte (capFrame 4) 14 = 0 ∧ frameByte (capFrame 4) 15 = 0 := by
    decide +kernel
  simp [State.frameGood, h, k, a, b, c]

/-- The phases of bring-up; clusters of which some and all fail. Which images are signed is a constant that nothing fixes, so each of
its two cases stands as it is. -/
theorem witness_BringUp :
    State.reset.pkg.phase ≠ 4 ∧ (serviced (fun g => { g with phase := 4 })).pkg.phase = 4 ∧ State.reset.pkg.phase ≠ 1 ∧
    (serviced (fun g => { g with phase := 1 })).pkg.phase = 1 ∧ (∃ k < 512, k ∉ [511]) ∧ (∀ k < 512, k ∈ List.range 512) ∧
    (serviced (fun g => { g with failed := true })).pkg.failed = true ∧ serviced.agenda = [] ∧ serviced.pkg.tripped = false ∧
    State.reset.pkg.phase ≠ 2 ∧ (serviced (fun g => { g with phase := 2 })).pkg.phase = 2 :=
  ⟨by decide, by decide, by decide, by decide, ⟨0, by decide⟩, fun k h => List.mem_range.2 h, by decide, by decide, by decide, by decide, by decide⟩

/-- A partition 1 of clusters 2 to 17, each of which keeps a slice. -/
def spec : PartSpec :=
  { num := 1, remove := false, clusters := List.range' 2 16, width := 4, table := List.range' 2 16, rank := 3, node := 0, wlim := 9, rlim := 9, budget := 5,
    entry := ptr 0x10 0, hvec := 0 }

/-- A partition that is live and one that is not, with a request held and without; accesses of the host that are ready and not; clusters
in each stage of retirement; a specification that is good and one that is not. -/
theorem witness_HostAndService :
    (serviced.part 1).live = false ∧ (serviced.part 0).live = true ∧ (serviced.ctx (serviced.serviceCtx 0)).held = [] ∧
    (∃ e ∈ ((serviced.modCtx (serviced.serviceCtx 0) (fun x => { x with held := [{ code := Cause.hostRequest }] })).ctx (serviced.serviceCtx 0)).held,
      e.code = Cause.hostRequest) ∧
    serviced.hostReady 1 (.write 0x30000 [1]) = false ∧ serviced.hostReady 0 (.write 0x30000 [1]) = true ∧ serviced.hostReady 0 (.read 0x30000 8) = true ∧
    hasNat ({ serviced with ecc := [0x3000] } : State).ecc (0x30000 / 16) = true ∧ serviced.pkg.retrainChannels = [] ∧ 2047 < 2048 ∧
    (serviced (fun g => { g with retrainChannels := [3] })).pkg.retrainChannels ≠ [] ∧ ((serviced.modClu 0 (fun u => { u with recal := true })).clu 0).recal = true ∧
    ((serviced.clu 1).retired = false ∧ (serviced.clu 1).retiring = false ∧ (serviced.modClu 2 (fun u => { u with retiring := true })).partOfClu 2 = none ∧
      (serviced.modClu 1 (fun u => { u with retiring := true })).partOfClu 1 = some 0) ∧
    (let s := serviced.modClu 1 (fun u => { u with retiring := true })
     (s.clu 1).retiring = true ∧ (s.clu 1).retired = false ∧ (s.clu 1).bankHeld = [] ∧ (∀ c ∈ s.ctxs, cluOf c.1 = 1 → (s.ctx c.1).slot.live = false)) ∧
    ((serviced.modClu 1 (fun u => { u with retired := true })).clu 1).retired = true ∧
    serviced.partOk spec = true ∧ spec.remove = false ∧ (serviced.part spec.num).live = false ∧ serviced.partOk { spec with clusters := [] } = false ∧
    ({ spec with remove := true } : PartSpec).remove = true := by decide +kernel

theorem wellKept_user : WellKept user := ⟨by decide, by decide, by decide, by decide, by decide⟩

/-- A machine whose core 0 has its slot, with the word `w` at the pc of context 5. -/
def issuing (w : Nat) : State := { user with agenda := [.issue 0], mem := user.mem.writes ((span 0x10040 4).zip (leBytes 4 w)) }

/-- ADD, a word that is illegal, one with a reserved bit, and a pc that cannot be fetched; a device step. -/
theorem witness_StepRunsTheDecodedInstruction :
    (let s (w : Nat) : State := ({ issuing w with agenda := [] } : State).turnOf 0
     (issuing 0x00042604).agenda = .issue 0 :: [] ∧ (s 0x00042604).pick 0 = some 5 ∧
       (let u := (s 0x00042604).takeSlot 5
        holds (u.fetch 5 (u.ctx 5).pc) (fun ws => decide (decode ws = .ok (.add 0 3 1 2))) = true) ∧
       (let u := (s 0x00042000).takeSlot 5
        holds (u.fetch 5 (u.ctx 5).pc) (fun ws => decide (decode ws = .error .illegalOpcode)) = true) ∧
       (let u := (s 0x0000027C).takeSlot 5
        holds (u.fetch 5 (u.ctx 5).pc) (fun ws => decide (decode ws = .error .reservedBits)) = true) ∧
       (let u := (s 0x00042604).takeSlot 5
        ok (u.fetch 5 0) = false)) ∧
    ({ user with agenda := [.device .thermalLimit] } : State).agenda = .device .thermalLimit :: [] := by decide +kernel

theorem witness_BarrelIssue : user.pick 0 = some 5 ∧ (user.modCore 0 (fun k => { k with rr := 15 })).pick 0 = some 5 ∧ user.eligible 5 = true := by decide

/-- The machine that issues ADD is well kept, and its step gives a next state. -/
theorem witness_StepsKeepTheForm : WellKept (issuing 0x00042604) ∧ (match step (issuing 0x00042604) with | .next _ => true | _ => false) = true :=
  ⟨⟨by decide, by decide, by decide, by decide, by decide⟩, by decide +kernel⟩

theorem witness_ComputingFrame :
    Plain user ∧ Claim.computes (.add 0 3 1 2) = some (3, false) ∧ Instr.wf (.add 0 3 1 2) = true ∧
    (match exec (.add 0 3 1 2) user with | .next _ => true | _ => false) = true ∧ Claim.computes (.fadd 0 0 3 1 2) = some (3, true) ∧
    Instr.wf (.fadd 0 0 3 1 2) = true := ⟨⟨by decide, .inl (by decide), by decide⟩, by decide +kernel⟩

theorem witness_DecodeOfEncode :
    Instr.wf (.add 0 3 1 2) = true ∧ Instr.encodable (.add 0 3 1 2) = true ∧ Instr.wf (.ldi 3 (.lit 0x0123456789ABCDEF)) = true ∧
    Instr.encodable (.ldi 3 (.lit 0x0123456789ABCDEF)) = true := by decide

/-! ## Witnesses: where the instructions of each family complete -/

theorem quiet_pointing : Claim.Quiet pointing := ⟨by decide, by decide, by decide, by decide, by decide, by decide, by decide⟩

theorem quiet_reserved : Claim.Quiet reserved := ⟨by decide, by decide, by decide, by decide, by decide, by decide, by decide⟩

/-- The smallest and the largest partition; an address below its DRAM's end and one above. -/
theorem witness_ChannelOffsets :
    (4 ≤ 4 ∧ 9 ≤ 9 ∧ 2 ^ 39 - 1 < 2 ^ 39) ∧ ({ width := 4 } : Part).width = 4 ∧ 0 < dramLimit { width := 4 } ∧ ¬ 2 ^ 39 - 1 < dramLimit { width := 9 } := by
  decide

/-- A word that `LR` reaches, and one that `SC` reaches with a reservation and without. -/
theorem witness_ReservationsComplete :
    Calm pointing ∧ Claim.Quiet pointing ∧ WellKept pointing ∧ Claim.Quiet reserved ∧
    (at_ pointing 8 needA 8 .atomic false true = [(0x20000, 8)] ∧ at_ (pointing.acquire 5 3) 8 needA 8 .atomic false true = [(0x20000, 8)] ∧
      hasNat pointing.me.scFailed (lineOf 0x20000) = false ∧ (spanAll [(0x20000, 8)]).Nodup) ∧
    (at_ reserved 8 needA 8 .atomic true true = [(0x20000, 8)] ∧ reserved.lockedFor (lineOf 0x20000) 5 = false ∧
      reserved.me.resv = some ⟨lineOf 0x20000, reserved.me.reg 1, 8⟩ ∧ pointing.me.resv = none) :=
  ⟨calm_pointing, quiet_pointing, ⟨by decide, by decide, by decide, by decide, by decide⟩, quiet_reserved, by decide⟩

/-- A list with room and an entry; a cluster with a cache whose group is free; the holder of a baton with nothing tagged. -/
theorem witness_ListsAndIterationsComplete :
    (Calm block ∧ (block.core 0).list.length + (block.core 0).promised < 256 ∧ (block.core 0).list = 40 :: [41]) ∧
    (let s := user.modClu 0 (fun k => { k with bankmode := 0x95 })
     (Plain s ∧ Claim.Quiet s) ∧ s.me.spec = none ∧ s.me.sta.spec = false ∧ s.me.sta.bind = 0 ∧ (s.clu 0).hasCache = true ∧
       (∀ x ∈ s.ctxsOf 0, (s.ctx x).sta.spec = false ∧ (s.ctx x).spec = none) ∧ (s.clu 0).group = none ∧ (0 ≤ 63 ∧ 63 < 0 + 64)) ∧
    ((Plain speculating ∧ Claim.Quiet speculating) ∧ speculating.me.spec = some ⟨speculating.me.x, 0, {}, speculating.me.pc, 4, 4⟩ ∧
      speculating.holdsBaton 5 = true ∧ (speculating.clu 0).spec = [] ∧ speculating.me.sta.ss = false) := by
  refine ⟨⟨calm_block, by decide⟩, ⟨⟨⟨by decide, .inl (by decide), by decide⟩, ⟨by decide, by decide, by decide, by decide, by decide, by decide, by decide⟩⟩,
    by decide⟩, ⟨⟨⟨by decide, .inl (by decide), by decide⟩, ⟨by decide, by decide, by decide, by decide, by decide, by decide, by decide⟩⟩, by decide⟩⟩

/-- A port that has drained: the elements of a whole register lie in memory, and can be read and written; a body of one instruction. -/
theorem witness_VectorFormsComplete :
    Claim.Ported ported ∧ (Claim.port ported).queue = [] ∧ (Claim.port ported).rep = none ∧ (Claim.port ported).repBuf = [] ∧
    ported.me.sta.pp = false ∧ fmtAll (Claim.format ported).1 = true ∧ codeBits (Claim.format ported).1 ≠ 4 ∧
    (let f := (Claim.format ported).1
     let ps := (List.range (lanes f)).map (fun k => (k, ported.me.reg 1 + BitVec.ofNat 64 (k * codeBits f / 8)))
     let good (need : Nat) (wr : Bool) : Bool := holds (ported.vecElems (elemBytes f) need wr ps) (fun r =>
       let ls := (r.filterMap VElem.mem?).flatMap (·.2)
       r.all (fun e => e.mem?.isSome) && (ported.waterHold 0 ls).isNone && (ls.find? (ported.bankKept 5)).isNone &&
         (linesOf ls).all (fun k => !ported.readHeld 0 k) && decide ((linesOf ls).length ≤ 8))
     good needR false = true ∧ good needW true = true) ∧
    vBad (.vgath 1 0 0 0 2 3 0) (Claim.format ported).1 [ported.me.reg 1] (Claim.port ported).cfg = false ∧
    vBad (.vscat 1 0 0 0 2 3 0) (Claim.format ported).1 [ported.me.reg 1] (Claim.port ported).cfg = false ∧
    ((Claim.port ported).vpoison = 0 ∧ (Claim.port ported).qpoison = 0 ∧ ported.me.buf = []) ∧
    (let v := (ported (g := fun x => x.setReg 2 0x40B)).me.reg 2
     v.toNat / 2 ^ 21 % 2 ^ 11 = 0 ∧ v.toNat / 2 ^ 11 % 32 = 0 ∧ v.toNat / 2 ^ 8 % 8 ≤ 4 ∧ v.toNat / 32 % 4 ≠ 3 ∧ fmtAll (v.toNat % 32) = true) ∧
    (let s := { ported with mem := ported.mem.writes ((span 0x10044 4).zip (leBytes 4 0x00C21100)) }
     ok (s.capture s.me (Claim.port s).cfg 3 1 (s.me.pc + 4) none) = true) := ⟨ported_free, by decide +kernel⟩

/-- A repetition under way: pass 1 of two, and pass 0. -/
theorem witness_PassesComplete :
    (let s := (ported [{ ins := .rep 0 0 2, xs := [2] }]).modPort 0 0 (fun q => { q with rep := some 1 })
     (s.port 0 0).queue = { ins := .rep 0 0 2, xs := [2] } :: [] ∧ (s.port 0 0).rep = some 1 ∧ s.engineUser 0 0 = some 5 ∧ s.engKept 0 0 = false) ∧
    ((2 : Word).toNat ≤ 1 + 1 ∧ 0 + 1 < (2 : Word).toNat) := by decide

/-- A unit with one command accepted and done, stopped and not, its queue empty; a record that can be read and is taken. -/
theorem witness_MatrixFormsComplete :
    Calm matrix ∧ Claim.Quiet matrix ∧ matrix.me.sta.bind = 2 ∧
    (let s := matrix (fun m => { m with accepted := 1, done := 1 })
     0 < (s.mat 0).accepted.toNat ∧ 0 < (s.mat 0).done.toNat ∧ (s.mat 0).accepted.toNat ≤ (s.mat 0).done.toNat ∧ (s.mat 0).queue = []) ∧
    ((matrix (n := 1)).me.reg 1).toNat = 1 ∧ ((matrix (n := 2)).me.reg 1).toNat = 2 ∧
    ((matrix (fun m => { m with stop := true })).mat 0).stop = true ∧ (matrix.mat 0).stop = false ∧
    (matrix.mxCheck 0 (fields [(0, 8, 6), (16, 3, 2)])).isNone = true ∧ (matrix.mat 0).queue.length < 4 ∧
    (match matrix.ownRead (ptr 0x11 0) matrix with | .ok _ => true | _ => false) = true :=
  ⟨calm_matrix, ⟨by decide, by decide, by decide, by decide, by decide, by decide, by decide⟩, by decide, by decide +kernel⟩

/-- A fill that is ready, one whose cells can be read and written, one that stands, and a published step on its way. -/
theorem witness_FillsComplete :
    (let fill (started : Bool) (step : Nat) : HFill := { grid := 0, dst := 0, kind := 0, step := step, started := started }
     let s (b : Bool) (n : Nat) : State := { gridded with fills := [(0, fill b n)] }
     ((List.range 4).any (fun n => (s false n).fillReady 0) = true ∧ ((s false 2).hfill 0).pk = none ∧ ((s false 2).hfill 0).heldOn = none ∧
       ((s false 2).grid 0).peers 0 = false) ∧
     (let t := s true 2
      (t.hfill 0).started = true ∧ (t.hfill 0).lost = none ∧ (t.hfill 0).left = 0 ∧ (t.hfill 0).kind ≠ 2 ∧
        holds (t.nearCells (t.grid 0) (t.hfill 0)) (fun l => ok (t.putFill 0 (t.grid 0) (t.hfill 0) l)) = true) ∧
     (∃ q ∈ (s true 2).fills, q.1 = 0)) ∧
    (let s : State := { gridded with net := [⟨0, 64, 0, false, .sigma 0 0 5, 0⟩] }
     s.msgAt 0 = s.net[0]? ∧ (s.net.map (·.body)) = [.sigma 0 0 5]) := by decide +kernel

/-! ## Witnesses: further clauses -/

/-- A pending prefix in either mode. -/
theorem witness_FmtInEitherMode :
    Calm user ∧ (user (fun x => { x with sta := { pp := true } })).me.sta.pp = true ∧
    (sup (fun x => { x with sta := { x.sta with pp := true } })).me.sta.pp = true ∧ (sup (fun x => { x with sta := { x.sta with pp := true } })).me.sta.sup = true :=
  ⟨calm_user, by decide⟩

/-- A context whose vectors lie in no handle, with an entry in its buffer and without; a lost context whose writes can go home. -/
theorem witness_LostContextsWriteFirst :
    (let s := user (fun x => { x with hvec := 0, buf := [.entry one] })
     ok (s.fetchWord 5 true ((s.ctx 5).hvec + 64)) = false ∧ (s.ctx 5).buf ≠ []) ∧
    (let s := user (fun x => { x with hvec := 0 }); ok (s.fetchWord 5 true ((s.ctx 5).hvec + 64)) = false ∧ (s.ctx 5).buf = []) ∧
    (let mc : Exc := { code := Cause.machineCheck, info := BitVec.ofNat 64 (5 + 1 * 2 ^ 16 + 1 * 2 ^ 22) }
     let u := user (fun x => { x with slot := .blocked, buf := [.entry one], wait := some { why := .lost 254 mc } })
     (u.ctx 5).wait = some { why := .lost 254 mc } ∧ (u.clu (cluOf 5)).recal = false ∧ u.heldBack 5 2 (entriesOf (u.ctx 5).buf) = false) := by
  decide +kernel

/-- A ring in a supervisor's DRAM object, and none at 0; an epoch that waits for a request accepted under the one before, and one that
does not; an entry dropped from the caches of translations, walks and capabilities. -/
theorem witness_RingsAndEpochs :
    (holds (sup.resolve { sup.who sup.cur with sup := true } (ptr 0x17 0) 64 0) (fun o => match o with
      | .table e _ => decide (e.space = 1) && e.priv
      | _ => false)) = true ∧
    holds (sup.resolve { sup.who sup.cur with sup := true } 0 64 0) (fun _ => true) = false ∧
    (sup.epochOpen 0 0x0101 = false ∧
      (let s := sup.modClu 0 (fun k => { k with retry := [{ ctx := 5, loc := 0x20000, mode := .take, remote := some (fabPkt 0 1 1 0 7) }] })
       s.epochOpen 0 0x0101 = true ∧ ¬ ((0x0101 : Word).extractLsb' 16 48 ≠ 0#48))) ∧
    (let r := sup.release sup.cur 2
     r.2 = true ∧ r.1.invStores r.1.cur 2 ⟨1, 0⟩ = []) ∧
    (let t := sup.dropWalks [0] 2 0 ⟨1, 0⟩
     t.mem = sup.mem) := by decide +kernel

/-- An image in memory at handle 0x11, the index of the last entry. -/
def imaged : State :=
  let s := sup (fun x => (x.setReg 1 0x3F).setReg 2 (ptr 0x11 32))
  { s with mem := s.mem.writes ((span 0x20020 32).zip (leBytes 32 (entry 0x30000 0x100 1 0 0x7F).toNat)) }

/-- An image that is read, one in no handle, and the invalidation that follows. -/
theorem witness_HandleImages :
    ((imaged.me.reg 1).toNat = 0x3F ∧ holds (imaged.access imaged.cur (imaged.me.reg 2) 32 needR 32 .plain false true) isMem = true ∧
     imaged.readsHeld 0 (imaged.fetched 5 (span 0x20020 32)) = false) ∧
    (match imaged.ownBytes (ptr 0x11 32) 32 imaged with
      | .ok (bs, v) => (entryBad (BitVec.ofNat 256 (leNat bs))).isNone && ok (v.xlateRange 0 0 false true needW 0x807E0 32) &&
          (let r := v.release v.cur 2
           r.2 && !r.1.invBusy r.1.cur 2 ⟨2, 0x3F⟩ && (r.1.invStores r.1.cur 2 ⟨2, 0x3F⟩).isEmpty)
      | .error _ => false) = true ∧
    (match sup.ownBytes (ptr 0x3E 0) 32 sup with | .error (.exc _) => true | _ => false) = true := by
  refine ⟨by decide +kernel, ?_, by decide +kernel⟩
  delta State.ownBytes State.loadBytes State.freshen State.draw
  have e : (imaged.coreStream (ptr 0x11 32)).2.fresh = 0 := by decide +kernel
  dsimp only
  rw [e]
  generalize Config.freeBit 0 = b
  cases b <;> decide +kernel

/-- The fixed handles with a domain and without; entries that are invalid, the supervisor's, and a user's. -/
theorem witness_FixedCapabilities :
    (Calm sup ∧ sup.me.sta.sup = true) ∧ sup.domainOf 5 = none ∧
    (let s := domain (g := fun x => { x with sta := { sup := true } }); (s.domainOf 5).isSome = true ∧ s.me.sta.sup = true) ∧
    holds (sup.handleRaw 0 0 0x17) (fun raw => (HEntry.ofNat raw.toNat).valid && (HEntry.ofNat raw.toNat).priv) = true ∧
    holds (sup.handleRaw 0 0 0x3F) (fun raw => !(HEntry.ofNat raw.toNat).valid) = true ∧ 0x3F < (sup.part 0).htlen.toNat :=
  ⟨⟨calm_sup, by decide⟩, by decide⟩

/-- A header in handle 0x11 that can be registered, one in no handle, one with L = 0, one that is registered, and 64 queues. -/
theorem witness_QueuesThatFit :
    (let s := (offering (launchPacket 0 2 0)).modPart 0 (fun p => { p with queues := [] })
     let hdr := ptr 0x11 0
     let w : Who := { s.who s.cur with sup := true }
     s.headerLoc 0 hdr = some (span 0x20000 64) ∧ holds (s.resolve w hdr 64 3) (fun o => match o with | .table _ _ => true | _ => false) = true ∧
       ok (s.resolve w hdr (64 + 64 * 2 ^ s.queueLog (span 0x20000 64)) 3) = true ∧ s.queueLog (span 0x20000 64) = 1 ∧
       affinityOk (s.part 0) (s.queueAff (span 0x20000 64)) = true ∧ s.queueKinds (span 0x20000 64) < 32) ∧
    user.headerLoc 0 0 = none ∧ user.queueLog (span 0x20000 64) = 0 ∧
    ((offering (launchPacket 0 2 0)).part 0).queues.any (fun q => decide (q.hdr = ptr 0x11 0)) = true ∧
    ¬ ((user.modPart 0 (fun p => { p with queues := List.replicate 64 ⟨ptr 0x11 64, 5⟩ })).part 0).queues.length < 64 := by decide +kernel

/-- A walk with no cached table, and one whose root lies beyond the partition's DRAM. -/
theorem witness_WalksInBounds :
    tables.tlbOf 0 = [] ∧ tables.walks = [] ∧ 0x94000 + 4096 ≤ dramLimit (tables.part 0) ∧
    (let s := tables.modPart 0 (fun p => { p with ptroot := 0x100000000000 })
     s.tlbOf 0 = [] ∧ dramLimit (s.part 0) ≤ (s.part 0).ptroot.toNat + 8 * (0x1234 / 2 ^ 48 % 512)) := by decide +kernel

/-- Loads that no bank, channel or lock holds; a buffer with room for one more entry, and one with none. -/
theorem witness_BuffersWithRoom :
    pointing.readsHeld 0 (pointing.fetched 5 (span 0x20000 8)) = false ∧ Claim.entries pointing = 0 ∧
    (let full (n : Nat) : State := user (fun x => { x with buf := List.replicate n (.entry one) })
     Claim.entries (full 7) < 8 ∧ Claim.entries (full 8) = 8) := by decide +kernel

/-- A write on its way home that no other of its home precedes; a marker that nothing holds. -/
theorem witness_WritesGoHomeInOrder :
    (isPeer (one.line * 128) = false ∧ (buffered.clu 0).throughs = []) ∧
    (goingThrough.lockedFor one.line (goingThrough.throughCtx 0 one.line) = false ∧ (goingThrough.clu 0).throughs.take 0 = []) ∧
    ((marked 2).vecAhead 5 = false ∧ (marked 2).peerOut ((marked 2).ctx 5).tid = false ∧ ([one].map (·.line)).Nodup ∧
      ((marked 2).core (coreOf 5)).shared = [] ∧ entriesAhead [] = []) := by decide +kernel

/-- A line reached through a DRAM handle and through a GRID handle, by maintenance of each kind, and one in no handle. -/
theorem witness_MaintainedLines :
    (let m (s : State) (need : Nat) (wr rd : Bool) : Bool := holds (s.reachLine (s.me.reg 1) need wr rd) isMem
     m pointing needR false true = true ∧ m pointing needW true false = true ∧ m pointing needR false false = true ∧
       m gridded needR false true = true ∧ m gridded needR false false = true ∧ m user needR false true = false) ∧
    pointing.readsHeld 0 [lineOf 0x20000] = false := by decide +kernel

/-- A context whose request waits for its place, at the instruction `w`. -/
def atItsPlace (w : Nat) : State :=
  let s := waiting { why := .place 0x20000, len := 4 }
  { s with mem := s.mem.writes ((span 0x10040 4).zip (leBytes 4 w)) }

theorem calm_arrived : Calm (Claim.arrived (atItsPlace 0x008C4C94) 5) := ⟨⟨by decide, .inl (by decide), by decide⟩, by decide, by decide⟩

/-- `AMO.ADD` at its place: the checks, the release, the flush and the reply all pass, and nothing is logged for replay. -/
theorem witness_RequestsArriveAtTheirPlaces :
    Calm (Claim.arrived (atItsPlace 0x008C4C94) 5) ∧
    (let s := atItsPlace 0x008C4C94
     let t := Claim.arrived s 5
     (s.ctx 5).slot = .blocked ∧ (s.ctx 5).wait = some { why := .place 0x20000, len := immLen (.short 0 : Imm 4) } ∧
     holds (s.nextInstr 5) (fun i => decide (i = .amoAdd 2 0 6 6 1 (.short 0)) || (placeBody i).isSome) = true ∧ t.me.reg 1 = ptr 0x11 0 ∧
     at_ t 8 needA 8 .atomic true true = [(0x20000, 8)] ∧ hasMarker t.me.buf = false ∧
     (match t.flushLines 5 (linesOf (span 0x20000 8)) with
      | some v => !((v.coreStream (ptr 0x11 0)).2.placeReply 0 (lineOf 0x20000) (span 0x20000 8)).lockedFor (lineOf 0x20000) 5 &&
          (((v.coreStream (ptr 0x11 0)).2.placeReply 0 (lineOf 0x20000) (span 0x20000 8)).ordered 5 0x25 0x20000).isSome
      | none => false) = true) := ⟨calm_arrived, by decide +kernel⟩

/-- A full-empty request that is ready and one that is not, with room in the slice's list and with 256 in it. -/
theorem witness_FullLists :
    (let s := pointing.modClu (pointing.placeClu 0x20000) (fun k => { k with retry := List.replicate 256 { ctx := 7, loc := 0x20000, mode := .take } })
     256 ≤ (s.clu (s.placeClu 0x20000)).retry.length ∧ FeMode.ready .put (s.isFull 0x20000) = false) ∧
    at_ pointing 8 needF 8 .fe true false = [(0x20000, 8)] := by decide +kernel

/-- A place's reply for one line, and the access of an `SC`, which reads nothing that it could consume. -/
theorem witness_StoresAtThePlace :
    at_ pointing 8 needA 8 .atomic true false = [(0x20000, 8)] ∧
    (match pointing.flushLines 5 (linesOf (span 0x20000 8)) with
     | some v => !((v.coreStream (ptr 0x11 0)).2.placeReply 0 (lineOf 0x20000) (span 0x20000 8)).lockedFor (lineOf 0x20000) 5
     | none => false) = true := by decide +kernel

/-- A FREE slot with nothing arriving and no stream open to it. -/
theorem witness_VacantSlots : Claim.Vacant block 4 ∧ (block.chan 4).stream = none ∧ (messages.chan 31).stream = none ∧ (messages.chan 31).waiting = [] :=
  ⟨⟨by decide, by decide, by decide, by decide, by decide⟩, by decide⟩

/-- Iterations that others of the cluster hold: of the same base, and of another; a tagged line of the iteration that holds the baton. -/
def sharing : State :=
  (user (fun x => (x.setReg 1 5).setReg 2 4)).modClu 0 (fun k => { k with bankmode := 0x95, group := some (4, 4) }) |>.setCtx 6
    { thread with startSlot := 6, tid := 6, sta := { spec := true }, spec := some ⟨thread.x, 0, {}, thread.pc, 4, 4⟩ }

def tagging : State := speculating.modClu 0 (fun k => { k with spec := [{ ctx := 5, line := 0x20000 / 128, mask := 0xFF, data := 0x5A }] })

theorem plain_tagging : Plain tagging := ⟨by decide, .inl (by decide), by decide⟩

theorem quiet_tagging : Claim.Quiet tagging := ⟨by decide, by decide, by decide, by decide, by decide, by decide, by decide⟩

theorem witness_SharedSpeculation :
    (Plain sharing ∧ Claim.Quiet sharing) ∧
    (sharing.me.spec = none ∧ sharing.me.sta.spec = false ∧ sharing.me.sta.bind = 0 ∧ (sharing.clu 0).hasCache = true ∧
      (sharing.clu 0).group = some (4, 4) ∧ sharing.iterations 0 = [4] ∧ Claim.baton sharing 0 4 = 4 ∧ (sharing.me.reg 1).toNat = 5 ∧
      (sharing.me.reg 2).toNat = 4 ∧ 5 ∉ sharing.iterations 0 ∧ (sharing.release 5 1).2 = true) ∧
    (Plain tagging ∧ Claim.Quiet tagging) ∧
    (tagging.me.spec.isSome = true ∧ tagging.holdsBaton 5 = true ∧ Claim.lines tagging 0 ≠ [] ∧
      (Claim.lines tagging 0).all (fun t => !tagging.lockedFor t.line 5) = true ∧ ((Claim.lines tagging 0).map (·.line)).Nodup ∧
      (let r := tagging.release 5 2
       r.2 = true ∧ r.1.holdsBaton 5 = true ∧ r.1.clus.all (fun q => q.2.retry.isEmpty) = true)) :=
  ⟨⟨⟨by decide, .inl (by decide), by decide⟩, ⟨by decide, by decide, by decide, by decide, by decide, by decide, by decide⟩⟩, by decide +kernel,
    ⟨plain_tagging, quiet_tagging⟩, by decide +kernel⟩

/-- A call by a capability: one that passes the egress and one that does not, and a release that is not complete. -/
theorem witness_CallsByCapability :
    Calm inFabric ∧ (inFabric.egress (inFabric.me.pair 4) (inFabric.me.tagOf 4) 0 1 1 (opBits 0x06 0) none).isNone = true ∧
    (inFabric.egress 0 false 0 1 1 (opBits 0x06 0) none).isSome = true ∧
    (let r := inFabric.release 5 3
     r.2 = true ∧ r.1.cur = 5 ∧ r.1.pkg = inFabric.pkg ∧ (r.1.ctx 5).eseq = none) ∧
    ((inFabric.modCtx 5 (fun x => { x with acks := 1 })).release 5 3).2 = false ∧ inFabric.pkg.outst.length < 1024 := ⟨calm_inFabric, by decide +kernel⟩

/-- Arrivals at a cluster in service, and answers for a caller in its slot and for one that is spilled. -/
theorem witness_AnsweredCallers :
    (messages.clu 0).retired = false ∧ messages.net.find? (fun q => decide (q.id = 11)) = messages.msgAt 11 ∧
    (let s : State := { messages with spilled := [(regionKey 0 0x4000, ⟨{ thread with wait := some { why := .rcall 9 } }, 3, 0, 7, false⟩)] }
     s.spilled.all (fun p => decide (p.2.ctx.wait.map (·.why) = some (.rcall 9))) = true) ∧
    (block.clu 0).retired = false ∧ (let s := user (fun x => { x with sta := { bind := 3 } }); s.streamsOf 5 = []) := by decide +kernel

/-- An interval that has run its length and one that has not. -/
theorem witness_IntervalsEnd :
    ((block.part 0).llAt + (block.part 0).interval ≤ ({ block with refCycle := 5000000 } : State).refCycle) ∧
    ¬ ((({ block with refCycle := 0 } : State).modPart 0 (fun p => { p with interval := 1024 })).part 0).llAt +
        ((block.modPart 0 (fun p => { p with interval := 1024 })).part 0).interval ≤ 0 ∧
    ({ block with refCycle := 5000000 } : State).llPlan (block.part 0) 0 = block.llPlan (block.part 0) 0 := by decide +kernel

/-- A decision's other cases: traffic in flight, a boundary that must be asked for, an ending that could not be completed, a request
that stands at a peer. -/
theorem witness_DecisionsInFlight :
    (let s := domain (g := fun x => { x with slot := .blocked, paused := true, settled := true, wait := some { why := .pause } })
     Claim.looked s 0 = s ∧ s.inMotion 0 = false ∧ s.inTraffic 0 = false ∧
       (let t : State := { s with net := [⟨0, 5, 32768, s.phaseTag 0, .emit 0 1 6, 0⟩] }
        t.inTraffic 0 = true ∧ t.countLehr 0 .running = 0 ∧ t.countLehr 0 .req = 0 ∧ t.countLehr 0 .test = 0 ∧ t.countLehr 0 .chan = 0)) ∧
    (let s := domain (f := fun d => { d with ending := true })
     (s.dom 0).ending = true ∧ (s.dom 0).ended = none) ∧
    ((domain (f := fun d => { d with awaiting := true })).dom 0).awaiting = true ∧
    (let s := (awaited).modCtx 5 (fun x => { x with launch := some 0, role := .member })
     let t := s.modLaunch 0 (fun l => { l with part := 0, st := .running, cores := [0], dom := some { instant := 1, nsig := 70, settled := true } })
     (Claim.looked (t.modPkg (fun g => { g with outst := g.outst.map (fun o => { o with sent := true }) })) 0).fresh = t.fresh + 1) := by
  decide +kernel

/-- The domain that the gaffer ends: one whose members' lines can be published, and a record that fits. -/
theorem witness_EndingTheDomain :
    ((gaffering.stopMembers 0).canBound 0 = true ∧ (gaffering.dom 0).ended = none) ∧
    (let na := gaffering.coreStream (ptr 0x11 0)
     (na.2.bufferBytes 4 ((span 0x20000 80).zip (List.replicate 80 0)) false false (true && !na.1)).isSome = true) := by decide +kernel

/-- Sixteen elements of eight bytes, of which the first two lie in memory; elements of four bits, both of one byte and the lone one. -/
theorem witness_GathersAndScatters :
    (holds (ported.vecElems 8 needR false [(0, ptr 0x11 0), (1, ptr 0x11 8)]) (fun es =>
      let l := es.filterMap VElem.mem?
      let ls := l.flatMap (·.2)
      decide (l.length = es.length) && l.all (fun g => decide (g.2.length = 8)) && (linesOf ls).all (fun k => !ported.copyBusy 0 k) &&
        !ported.readsHeld 0 (ported.fetched 5 ls) && decide (Claim.entries ported + (linesOf ls).length ≤ 8) && decide ((l.map (·.1)).Nodup)) = true) ∧
    (let l (n : Nat) : List (Nat × List Nat) := (List.range n).map (fun i => (i, [0x20000]))
     ((l 2).any (fun g => decide (g.1 % 2 = 0)) = true ∧ (l 2).any (fun g => decide (g.1 % 2 = 1)) = true) ∧
       (l 1).any (fun g => decide (g.1 % 2 = 1)) = false) ∧
    (ported.lockedFor (lineOf 0x20000) 5 = false ∧ (ported.core 0).shared = [] ∧ (ported.clu 0).throughs = [] ∧
      ported.clus.all (fun q => q.2.retry.isEmpty) = true) := by decide +kernel

/-- A port whose head is a load of one element, and a store of one, with nothing in its way. -/
theorem witness_PortMemory :
    (let e : VEntry := { ins := .vld 0 0 1 1 0, fmt := 0x0B, segs := [(0, span 0x20000 4)] }
     let s := ported [e]
     let ls := e.segs.flatMap (·.2)
     s.engineUser 0 0 = some 5 ∧ s.engKept 0 0 = false ∧ (s.waterHold 0 ls).isNone = true ∧ (ls.find? (s.bankKept 5)).isNone = true ∧
       s.readsHeld 0 (s.fetched 5 ls) = false ∧ (linesOf ls).all (fun k => !s.copyBusy 0 k) = true ∧ fmtAll e.fmt = true ∧
       (e.segs.map (·.1)).Nodup ∧ e.segs.all (fun g => decide (g.2.length = elemBytes e.fmt ∧ g.1 < lanes e.fmt)) = true ∧
       Claim.entries { s with cur := 5 } + (linesOf ls).length ≤ 8) := by decide +kernel

/-- Operands and cells that lie in no peer's memory; a row mask of two words; a unit with nothing out at a peer. -/
theorem witness_MatrixMemory :
    (let r := record 9 0 0 0 0 0 0 0 0 (ptr 0x11 16) 0
     let s := running r
     (maskSpots r).all (fun p => (s.spotMeet (mxEng 0 { record := r, ctx := 5, ticket := 0, part := 0 }) false 64 needR false p).isNone) = true) ∧
    (let r := record 3 0 0 3 3 40 9 13 11 (ptr 0x11 0) (ptr 0x11 0) [(320, 12, 0x11), (352, 32, 3)]
     let s := running r
     let g := mxEng 0 { record := r, ctx := 5, ticket := 0, part := 0 }
     (s.mxPeer g (scalePtr r 3) 4 needR).isNone = true ∧
       holds (s.engSegs g (scalePtr r 3) 4 needR false) (fun segs => (spanAll segs).all (fun x => !isPeer x) &&
         (s.waterHold 0 (spanAll segs)).isNone && (s.errAt (spanAll segs)).isNone) = true) ∧
    (let r := record 5 0 2 4 5 0 0 0 11 (ptr 0x11 0) 0
     let s := running r
     (s.tileBytes (mxEng 0 { record := r, ctx := 5, ticket := 0, part := 0 }) (s.mat 0) r 2).all (fun q => !isPeer q.1) = true) ∧
    (let r := record 8 4 2 2 2 0 0 0 11 0 (ptr 0x15 0) [(224, 32, 128)]
     let s := running r
     (match (reduceCells r).head? with
      | none => false
      | some p => holds (s.spotSegs (mxEng 0 { record := r, ctx := 5, ticket := 0, part := 0 }) false 512 needA true p.2) (fun segs =>
          decide ((spanAll segs).length = 64) && (spanAll segs).all (fun x => !isPeer x))) = true) ∧
    (let s := running (record 6 0 2 0 0 0 0 0 0 0 0) (fun c => { c with finished := true }); s.peerOut (matKey 0) = false) ∧
    0 < 1 := by decide +kernel

/-- A copy whose source has an error that the device can correct. -/
theorem witness_CorrectedCopies :
    (let s : State := { taken copyPacket with soft := [0x10000] }
     let g := pkEng s (s.pk 5)
     ok (s.engAt g 5 (s.pkDst copyPacket 0 0) (pkDstSize copyPacket) (pkDstNeed copyPacket) true false) = true ∧
       holds (s.engAt g 5 (s.pkSrc copyPacket 0 0) (pkSize copyPacket) needR false true) (fun l => l.any (fun x => decide (x / 16 ∈ s.soft))) = true) ∧
    ((taken copyPacket).waters.all (fun w => decide (w.pk ≠ 5))) = true := by decide +kernel

/-- A grid cell whose fill the write meets: one that still has to read it, one that has been abandoned, and none. -/
theorem witness_GridWrites :
    (let sp := ptr 0x1A 64
     gridded.readsHeld 0 (gridded.fetched 5 (span 0x100000 4)) = false ∧
       holds ((gridded.coreStream sp).2.access 5 sp (dSize (gridded.grid 0).desc) needW 1 .plain true false) isMem = true ∧
       ((gridded.coreStream sp).2.release 5 0).2 = true ∧ gridded.fillsInto 0 0 false 1 = []) ∧
    (let f : HFill := { grid := 0, dst := 0, kind := 0, step := 3, started := true }
     let s : State := { gridded with fills := [(0, f)] }
     let t : State := { gridded with fills := [(0, { f with gone := [(3, 0x30)] })] }
     let g := s.grid 0
     s.fillsInto 0 0 false (g.level 3) ≠ [] ∧ f.gone = [] ∧
       ((t.fillsInto 0 0 false (g.level 3)).findSome? (fun f => (f.gone.find? (fun e => decide (g.level e.1 = g.level 3))).map (·.2))).isSome = true) := by
  decide +kernel

/-- An abandoned fill whose record goes on at the other level, and one whose record ends; a halo packet whose turn has not come. -/
theorem witness_AbandonedFills :
    (let g := gridded.grid 0
     let f : HFill := { grid := 0, dst := 0, kind := 0, step := 2 }
     (Claim.abandoned g f 0x30).lost = none ∧ (Claim.abandoned g { f with gone := [(1, 0x30)] } 0x30).lost = some 0x30 ∧
       (Claim.abandoned g { f with kind := 2 } 0x30).lost = some 0x30) ∧
    (let s : State := { gridded with fills := [(0, { grid := 0, dst := 0, kind := 2, step := 2 })] }
     ∃ q ∈ s.fills, q.1 = 0) ∧
    (let f (started : Bool) : HFill := { grid := 0, dst := 0, kind := 2, step := 2, started := started, pk := some 4 }
     let s : State := { gridded with fills := [(0, { f false with pk := some 3 }), (1, f false)], packets := [(3, { foot := [⟨1, 0x100000, 64, true, true⟩] }), (4, { foot := [⟨1, 0x100000, 64, true, true⟩] })] }
     holds (s.haloxTurn (s.hfill 1)) (fun b => !b) = true) := by decide +kernel

/-- A context whose stream is open to its channel when its block starts. -/
theorem witness_ChannelsOfNewBlocks :
    (let s := (launched (fun x => { x with st := .ready })).modChan 0 (fun h => { h with stream := some 9 })
     (s.chan 0).stream = some 9 ∧ (s.chan 0).waiting = [] ∧ (s.core 0).engHeld = [] ∧ (s.clu 0).bankHeld = []) := by decide +kernel

/-- Tags that arrive while a cluster recalibrates and while it does not; a wait with a fault that was held and without; a lost context. -/
theorem witness_TagsArrive :
    ((user.modClu 0 (fun k => { k with recal := true })).clu (cluOf 5)).recal = true ∧ (user.clu (cluOf 5)).recal = false ∧
    (let s := waiting { why := .reply, reply := some {} }
     (s.ctx 5).traced = none ∧ (s.ctx 5).dueTrap = none) ∧
    (let s := waiting { why := .drain }
     s.canGo 5 .drain = true ∧ (s.ctx 5).heldFault = none) ∧
    (let s := waiting { why := .drain } (fun x => { x with heldFault := some { code := 3 } })
     s.canGo 5 .drain = true ∧ (s.ctx 5).heldFault = some { code := 3 }) ∧
    (let s := waiting { why := .recv }
     s.canGo 5 .recv = false) ∧
    (let s := waiting { why := .lost 253 { code := 3 } } (fun x => { x with buf := [.entry one] })
     s.heldBack 5 2 (entriesOf (s.ctx 5).buf) = false) := by decide +kernel

/-- A replay ring with a record for a launch of count 7, of which none runs. -/
def replayed : State :=
  let hc := (0, 0x1B, entry 0x60000 0x1000 1 0 0x7F ||| BitVec.ofNat 256 (2 ^ 177)) :: handles
  let s := (user.modPart 0 (fun p => { p with traceptr := ptr 0x1B 0, trace := 4 })).modClu 0 (fun k => { k with hcache := hc })
  { s with mem := s.mem.writes ((span 0x60000 64).zip (leBytes 8 1 ++ leBytes 8 0 ++ leBytes 8 2 ++ List.replicate 40 0) ++
    (span 0x60040 32).zip (leBytes 2 1 ++ leBytes 2 7 ++ List.replicate 28 0)) }

/-- A full-empty request that nothing holds back; a lock's queue with a thread at its head, and with a peer's request; a record for no
launch in replay. -/
theorem witness_LimitsOfWaits :
    (let s := waiting { why := .retry 0x20000 }
     let t : State := { s with mem := s.mem.writes ((span 0x10040 4).zip (leBytes 4 ((encode (.ldfeTake 2 3 1 (.short 0))).headD 0))), empties := [0x20000 / 8] }
     let req : FeReq := { ctx := 5, loc := 0x20000, mode := .take, data := (s.ctx 5).reg 3, reg := 3, tag := s.phaseOf 5 }
     s.bankBusy 0x20000 = false ∧ s.channelBusy 0x20000 = false ∧ s.mustLog req = false ∧
       ((t.modClu (t.placeClu 0x20000) (fun k => { k with retry := [req] })).clu (t.placeClu 0x20000)).retry.all (fun r => !t.mustLog r) = true) ∧
    ((user.modDir 3 (fun d => { d with lrq := [7] })).dirAt 3).lrq.head? = some 7 ∧ (7 ≤ noCtx ∧ noCtx < noCtx + 1) ∧
    ((user.modDir 3 (fun d => { d with lrq := [noCtx + 1] })).dirAt 3).lrq = (noCtx + 1) :: [] ∧
    ((replayed.readRecord 0).isSome = true ∧ replayed.launches = []) := by decide +kernel

/-- Banks that no vector access waits at; a bank on hold whose mode does not change. -/
theorem witness_QuietBanks :
    (user.clu 0).bankHeld = [] ∧ (user.clu 0).retry = [] ∧ (user.clu 0).waiters 0 = [] ∧ (user.ctx 6).vpart = none ∧
    (let s := user.modClu 0 (fun k => { k with busy := 1, bankmode := 2, pend := [(0, 2)], fifo := [(0, [5])] })
     SMap.at ((s.clu 0).mode 0) (s.clu 0).pend 0 = (s.clu 0).mode 0 ∧ (s.clu 0).waiters 0 = [] ∧ (s.clu 0).words 0 = [5]) := by decide +kernel

/-- A granule with an error that can be corrected; a context with entries in its buffer. -/
theorem witness_SoftErrors :
    (let s : State := { user with soft := [3] }
     hasNat s.poison 3 = false ∧ hasNat s.ecc 3 = false ∧ 3 ∈ s.soft) ∧
    (buffered.ctx 5).slot.live = true ∧ (buffered.ctx 5).buf ≠ [] ∧ 5 < 2 ^ 15 ∧
    (let s := user (fun x => { x with slot := .blocked, wait := some { why := .recv }, held := [{ code := 3 }] })
     (s.clu (cluOf 5)).recal = false ∧ s.canWithdraw 5 .recv = true ∧ (s.ctx 5).wait = some { why := .recv }) := by decide +kernel

/-- A thread out of any iteration; a record that the device keeps, restored elsewhere than it was spilled. -/
theorem witness_SpilledThreads :
    (let t := State.cullAll 0 1024 (culling (cullRequest 1 7 0x4000))
     (t.ctx 7).spec = none) ∧
    (let t := State.cullAll 0 1024 (culling (cullRequest 2 9 0x4000) (st := 4) (kept := true))
     ∃ p ∈ t.spilled, p.2.from_ = 7) := by decide +kernel

/-- A port that owes one acknowledgement fewer than 16, and one that owes 15; lanes that all come back, and none. -/
theorem witness_Acknowledgements :
    ((linked (fun o => { o with owed := 15 })).oport 6).owed = 15 ∧ (linked.oport 6).owed < 15 ∧ linked.draw.2.oport 6 = linked.oport 6 ∧
    (let o := (linked (fun o => { o with state := 1 })).oport 6
     o.service = false ∧ (retrained o.lanes (~~~(0xFFFF : BitVec 16))).1 ≠ 0 ∧ (retrained o.lanes (~~~(0 : BitVec 16))).1 = 0) ∧
    ((0x8000 : BitVec 16) ≠ 0 ∧ laneState (inFabric.oport 6).lanes = 0) := by decide +kernel

/-- Calls that have been acknowledged; a window packet that asks and one that answers; an acknowledgement of an answer. -/
theorem witness_AnswersOfEveryKind :
    (isCallAck (fabPkt 1 0x10 1 0 4) = false ∧ isCallAck { fabPkt 1 0x11 1 0 4 with opnd := 1 } = true ∧ (fabPkt 1 0x15 0 1 4).srcNode = inFabric.pkg.node ∧
      (fabPkt 1 0x15 1 2 4).srcNode ≠ inFabric.pkg.node ∧ (fabPkt 1 0x15 1 2 4).tgtNode ≠ inFabric.pkg.node) ∧
    (let call : Outst := { eseq := 4, ctx := some 5, pk := none, pkt := fabPkt 0 6 0 1 4, reg := 3, sz := 3 }
     let s := awaited.modPkg (fun g => { g with outst := [call] })
     let v := s.learn (fabPkt 1 0x11 1 0 4)
     (v.pkg.outst.find? (fun o => decide (o.eseq = 4 ∧ o.pkt.tgtNode = 1))) = some call ∧ call.pkt.opc = 0x06 ∧
       ((s.modPkg (fun g => { g with outst := [{ call with acked := true }] })).pkg.outst[0]?.map (·.acked)) = some true) ∧
    (isTree (fabPkt 0 1 0 1 4) = false ∧ fabPkt 0 1 1 2 7 ∉ (linked.oport 6).held) := by decide +kernel

/-- Node 1 of a ring of four, a tree's packet from node 0 for nodes 1 and 2, and its port to node 2 as `f` leaves it. -/
def branching (f : OPort → OPort := id) : State :=
  (inFabric.modPkg (fun g => { g with node := 1, sizes := [1, 1, 1, 4] })).modOport 7 (fun o => f { o with state := 2, lanes := 0xFFFF })

def treePkt : FabPkt := { fabPkt 2 8 0 0 7 with opnd := BitVec.ofNat 128 0x0200000001000000 }

/-- A tree whose port has room, and one whose port has its two slots taken; this node among the members and not. -/
theorem witness_TreesGoOn :
    isTree treePkt = true ∧ mcastMembers treePkt = [1, 2] ∧ branching.treePorts treePkt = [7] ∧ branching.portDown 1 7 = false ∧
    treePkt ∉ (branching.oport 6).held ∧ (branching.oport 7).slotFree (branching.vcOn 1 6 7 treePkt.vc) = true ∧
    (let s := branching (fun o => { o with sendq := List.replicate 2 { treePkt with vc := branching.vcOn 1 6 7 treePkt.vc } })
     (s.oport 7).slotFree (s.vcOn 1 6 7 treePkt.vc) = false) ∧
    mcastMembers { treePkt with opnd := BitVec.ofNat 128 0x0200000002000000 } = [2] := by decide +kernel

/-- Contributions of this revision and of another, of an epoch that holds and of one that does not; an object one of whose contributors
is unreachable. -/
theorem witness_ContributionsChecked :
    (let c : Contribution := { part := 0, hidx := 0x1B, who := [(1, 0, 7)], first := 0, cells := [0] }
     ({ c with rev := (reducing 2).ownRev.rev } : Contribution).rev = (reducing 2).ownRev.rev ∧
       ({ c with rev := (reducing 2).ownRev.rev + 1 } : Contribution).rev ≠ (reducing 2).ownRev.rev ∧
       epochValid ((reducing 2).part 0).epoch c.epoch = true ∧ epochValid ((reducing 2).part 0).epoch 200 = false) ∧
    (let s := (reducing 2).modPkg (fun g => { g with linkDown := [(1, 4), (1, 5), (1, 6), (1, 7)] })
     s.redN 0 0x1B 8 1 / 2 % 2 = 1 ∧ (∃ n ∈ s.missing 0 0x1B, s.reaches 80 n s.pkg.node false = false)) := by
  decide +kernel

/-- A tripped part with a core's slot and a device's step on its agenda, of a kind that goes on with core power removed, and of another. -/
theorem witness_CorePowerRemoved :
    (let s := serviced (fun g => { g with tripped := true })
     ({ s with agenda := [.issue 0] } : State).agenda = .issue 0 :: [] ∧ s.pkg.tripped = true) ∧
    onStandby .thermalLimit = true ∧ onStandby (.launch 0 0) = false := by decide +kernel

/-- Requests of the host that are open and not; a cluster that retires with nothing on its way to it. -/
theorem witness_HostRequests :
    serviced.hostOpen 1 (.read 0x30000 8) = false ∧ serviced.hostOpen 0 (.read 0x30000 8) = true ∧
    (let s := serviced (fun g => { g with retrainChannels := [channelOf 0x30000] })
     s.hostOpen 0 (.read 0x30000 8) = true) ∧
    (let s := serviced.modClu 1 (fun u => { u with retiring := true })
     (∀ i < 4, (s.core (4 * 1 + i)).arrivals = []) ∧ s.net = [] ∧ s.clus.all (fun u => u.2.retry.isEmpty) = true) := by decide +kernel

/-- Instructions of fixed and of variable latency. -/
theorem witness_Latencies : user.variable 5 (.add 0 3 1 2) = false ∧ user.variable 5 (.ld 0 0 6 4 3 (.short 2)) = true := by decide

end Sys2Proof.Tests
end

section
/-! Which context a core issues from, and what taking the slot does (02 R30, R31). The corrections that a fetch makes touch neither
contexts, cores nor clocks, so the issue cycle that the slot records is the one that the pick saw. -/

namespace Sys2Proof.Machine

/-! ## What a fetch's corrections leave (17 R408) -/

/-- Correcting the errors that an access meets changes the list of errors and the controller's count, and nothing else. -/
theorem State.correct_eq (s : State) (ls : List Nat) :
    ∃ soft pkg, s.correct ls = { s with soft := soft, pkg := pkg } := by
  unfold State.correct
  split
  · exact ⟨s.soft, s.pkg, rfl⟩
  · exact ⟨_, _, rfl⟩

theorem State.fetchCorrect_eq (s : State) (c : Nat) :
    ∃ soft pkg, s.fetchCorrect c = { s with soft := soft, pkg := pkg } := by
  unfold State.fetchCorrect
  split
  · exact ⟨s.soft, s.pkg, rfl⟩
  · exact State.correct_eq _ _

@[simp] theorem State.fetchCorrect_ctx (s : State) (c d : Nat) : (s.fetchCorrect c).ctx d = s.ctx d := by
  obtain ⟨soft, pkg, h⟩ := s.fetchCorrect_eq c
  rw [h]; rfl

@[simp] theorem State.fetchCorrect_core (s : State) (c k : Nat) : (s.fetchCorrect c).core k = s.core k := by
  obtain ⟨soft, pkg, h⟩ := s.fetchCorrect_eq c
  rw [h]; rfl

@[simp] theorem State.fetchCorrect_parts (s : State) (c : Nat) : (s.fetchCorrect c).parts = s.parts := by
  obtain ⟨soft, pkg, h⟩ := s.fetchCorrect_eq c
  rw [h]

@[simp] theorem State.fetchCorrect_cycle (s : State) (c : Nat) : (s.fetchCorrect c).cycle = s.cycle := by
  obtain ⟨soft, pkg, h⟩ := s.fetchCorrect_eq c
  rw [h]

/-! ## What taking an issue slot does (02 R31) -/

theorem State.takeSlot_ctx (s : State) (c d : Nat) :
    (s.takeSlot c).ctx d = if d = c then { s.ctx c with lastIssue := some (s.coreCycle (coreOf c)) } else s.ctx d := by
  change ((s.fetchCorrect c).modCtx c (fun x => { x with lastIssue := some (s.coreCycle (coreOf c)) })).ctx d = _
  simp

theorem State.takeSlot_core (s : State) (c k : Nat) :
    (s.takeSlot c).core k = if k = coreOf c then
      { s.core k with rr := (slotOf c + 1) % 16, issued := some (s.coreCycle (coreOf c)) } else s.core k := by
  change ((s.fetchCorrect c).modCore (coreOf c) (fun x =>
    { x with rr := (slotOf c + 1) % 16, issued := some (s.coreCycle (coreOf c)) })).core k = _
  rw [State.modCore_core]
  split <;> simp [*]

/-- A core's cycle is read off the partitions and the device's cycle alone. -/
theorem State.coreCycle_congr {s t : State} (hp : t.parts = s.parts) (hc : t.cycle = s.cycle) (k : Nat) :
    t.coreCycle k = s.coreCycle k := by
  unfold State.coreCycle State.partOf State.acycle State.part
  rw [hp, hc]

@[simp] theorem State.takeSlot_coreCycle (s : State) (c k : Nat) : (s.takeSlot c).coreCycle k = s.coreCycle k :=
  State.coreCycle_congr (s.fetchCorrect_parts c) (s.fetchCorrect_cycle c) k

/-! ## Which context a core issues from (02 R30, R31) -/

theorem State.hasTurn_issued {s : State} {k : Nat} (h : s.hasTurn k = true) : (s.core k).issued ≠ some (s.coreCycle k) := by
  unfold State.hasTurn at h
  simp only [Bool.and_eq_true, decide_eq_true_eq] at h
  exact h.2

theorem State.pick_of_issued {s : State} {k : Nat} (h : (s.core k).issued = some (s.coreCycle k)) : s.pick k = none := by
  have hturn : s.hasTurn k = false := by
    rw [Bool.eq_false_iff]
    exact fun ht => State.hasTurn_issued ht h
  simp [State.pick, hturn]

theorem State.eligible_readyFrom {s : State} {c : Nat} (h : s.eligible c = true) :
    (s.ctx c).readyFrom ≤ s.coreCycle (coreOf c) := by
  unfold State.eligible at h
  simp only [Bool.and_eq_true, decide_eq_true_eq] at h
  exact h.1.1.2

/-- Issues of one context are at least eight cycles apart. -/
theorem State.eligible_lastIssue {s : State} {c t : Nat} (h : s.eligible c = true) (ht : (s.ctx c).lastIssue = some t) :
    t + 8 ≤ s.coreCycle (coreOf c) := by
  unfold State.eligible at h
  simp only [Bool.and_eq_true, ht, decide_eq_true_eq] at h
  exact h.1.2

/-- The context that a core picks stands `i` slots above the pointer, and no eligible one stands nearer. -/
theorem State.pick_cases {s : State} {k c : Nat} (h : s.pick k = some c) :
    s.hasTurn k = true ∧ s.eligible c = true ∧ ∃ i < 16, c = 16 * k + ((s.core k).rr + i) % 16 ∧
      ∀ j < i, s.eligible (16 * k + ((s.core k).rr + j) % 16) = false := by
  unfold State.pick at h
  split at h
  · cases h
  · rename_i hturn
    obtain ⟨hel, i, hi, hci, hbefore⟩ := List.find?_eq_some_iff_getElem.mp h
    simp only [List.length_map, List.length_range] at hi
    simp only [List.getElem_map, List.getElem_range, Bool.not_eq_true'] at hci hbefore
    exact ⟨by simpa using hturn, hel, i, hi, hci.symm, hbefore⟩

/-- How far the slot of context `c` stands above its core's pointer `rr`, modulo 16 (02 R31). -/
def slotsAbove (rr c : Nat) : Nat := (c + 16 - rr % 16) % 16

theorem slotsAbove_of_lt (rr k : Nat) {i : Nat} (hi : i < 16) : slotsAbove rr (16 * k + (rr + i) % 16) = i := by
  unfold slotsAbove
  omega

theorem eq_of_slotsAbove (rr k : Nat) {j : Nat} (hlo : 16 * k ≤ j) (hhi : j < 16 * k + 16) :
    16 * k + (rr + slotsAbove rr j) % 16 = j := by
  unfold slotsAbove
  omega

/-- No eligible context of the core stands nearer above the pointer than the picked one. -/
theorem State.pick_nearest {s : State} {k c j : Nat} (h : s.pick k = some c) (hlo : 16 * k ≤ j) (hhi : j < 16 * k + 16)
    (hj : s.eligible j = true) : slotsAbove (s.core k).rr c ≤ slotsAbove (s.core k).rr j := by
  obtain ⟨-, -, i, hi, rfl, hbefore⟩ := State.pick_cases h
  rw [slotsAbove_of_lt _ _ hi]
  by_contra hlt
  have hnear := hbefore _ (Nat.lt_of_not_le hlt)
  rw [eq_of_slotsAbove _ _ hlo hhi, hj] at hnear
  cases hnear

theorem State.coreOf_of_pick {s : State} {k c : Nat} (h : s.pick k = some c) : coreOf c = k := by
  obtain ⟨-, -, i, -, rfl, -⟩ := State.pick_cases h
  unfold coreOf
  omega

/-- Settles O56: the pick is the nearest eligible context above the pointer, and the slot it takes records the core's cycle, which
ends the core's turn in it. -/
theorem barrelIssue : Obligations.BarrelIssue := by
  intro s k c h
  obtain ⟨hturn, hel, -⟩ := State.pick_cases h
  have hk : coreOf c = k := State.coreOf_of_pick h
  have hissued : ((s.takeSlot c).core k).issued = some (s.coreCycle k) := by simp [State.takeSlot_core, hk]
  refine ⟨hk, hel, rfl, ?_, ?_, hissued, State.hasTurn_issued hturn, ?_, ?_, ?_, ?_⟩
  · simp [State.takeSlot_core, hk, slotOf]
  · simp [State.takeSlot_ctx, hk]
  · exact State.pick_of_issued (by rw [hissued, State.takeSlot_coreCycle])
  · intro t ht
    exact hk ▸ State.eligible_lastIssue hel ht
  · exact hk ▸ State.eligible_readyFrom hel
  · intro j hlo hhi hj
    exact State.pick_nearest h hlo hhi hj

end Sys2Proof.Machine
end

section
/-! How the device steps that end waits act (02 R32; 03 R51; 10 R216, R226, R231; 17 R416): a lemma for each way a wait can end. -/

namespace Sys2Proof.Machine

/-! ## The device steps that end waits, by name -/

theorem exec_tagArrival (c : Nat) (s : State) : exec (.tagArrival c) s = execTagArrival c s := rfl
theorem exec_atomicAtPlace (c : Nat) (s : State) : exec (.atomicAtPlace c) s = execAtomicAtPlace c s := rfl
theorem exec_feResend (c : Nat) (s : State) : exec (.feResend c) s = execFeResend c s := rfl
theorem exec_feLimit (c : Nat) (s : State) : exec (.feLimit c) s = execFeLimit c s := rfl
theorem exec_lrLockExpiry (line : Nat) (s : State) : exec (.lrLockExpiry line) s = execLrLockExpiry line s := rfl
theorem exec_streamIdleEnd (unit k : Nat) (s : State) : exec (.streamIdleEnd unit k) s = execStreamIdleEnd unit k s := rfl
theorem exec_replayWaitTimeout (p : Nat) (s : State) : exec (.replayWaitTimeout p) s = execReplayWaitTimeout p s := rfl

/-! ## A reply is taken (02 R32) -/

/-- A thread that neither steps singly nor owes a trap completes an instruction by moving its pc. -/
theorem State.complete_of_noTrap {old : Ctx} (hstep : old.sta.ss = false ∨ old.sta.sup = true) (hdue : old.dueTrap = none)
    (s : State) (c : Nat) (pc : Word) : s.complete c old pc = s.modCtx c (fun x => { x with pc := pc }) := by
  have hss : (old.sta.ss && !old.sta.sup) = false := by rcases hstep with h | h <;> simp [h]
  simp [State.complete, hss, hdue]

/-- The context whose wait is over: it may issue from its cluster's next cycle. -/
def State.readied (s : State) (c : Nat) : Ctx :=
  { s.ctx c with slot := .ready, wait := none, readyFrom := s.acycle (s.ctx c).part + 1 }

theorem State.wake_eq (s : State) (c : Nat) : s.wake c = s.setCtx c (s.readied c) := rfl

section
variable {s : State} {c : Nat} {w : WaitRec} {r : Reply} (hw : (s.ctx c).wait = some w) (hr : w.reply = some r)
include hw hr

theorem State.takeReply_fault {e : Exc} (he : r.exc = some e) :
    s.takeReply c = (s.setCtx c (s.readied c)).takeFault c e := by
  simp only [State.takeReply, hw, hr, he, State.readied]

theorem State.takeReply_again (he : r.exc = none) (ha : r.again = true) :
    s.takeReply c = s.setCtx c (s.readied c) := by
  simp only [State.takeReply, hw, hr, he, ha, State.readied, if_true]

/-- A reply that completes its instruction in the ordinary way: registers and flags are written together. -/
theorem State.takeReply_completes (he : r.exc = none) (ha : r.again = false) (htag : r.tagged = none) (hpc : r.pc = none)
    (hstep : (s.ctx c).sta.ss = false ∨ (s.ctx c).sta.sup = true) (htr : (s.ctx c).traced = none)
    (hdue : (s.ctx c).dueTrap = none) :
    let t := s.setCtx c (((s.readied c).setRegs r.writes).raise r.flags)
    s.takeReply c = (if r.acq then t.applyInbox (cluOf c) else t).modCtx c (fun y =>
      { y with pc := (s.ctx c).pc + BitVec.ofNat 64 w.len }) := by
  simp [State.takeReply, hw, hr, he, ha, htag, hpc, State.complete_of_noTrap hstep hdue, State.readied, htr]

end

/-! ## The awaited tag arrives (02 R32) -/

theorem execTagArrival_idle {s : State} {c : Nat} (h : (s.ctx c).wait = none ∨ (s.clu (cluOf c)).recal = true) :
    execTagArrival c s = .next s := by
  unfold execTagArrival
  rcases h with hw | hrecal
  · simp [hw, goes]
  · split <;> simp [hrecal, goes]

theorem execTagArrival_resume {s : State} {c : Nat} {w : WaitRec} (hrecal : (s.clu (cluOf c)).recal = false)
    (hw : (s.ctx c).wait = some w) : execTagArrival c s = .next (s.resume c w) := by
  simp [execTagArrival, hw, hrecal, goes]

theorem State.resume_reply {w : WaitRec} {r : Reply} (hr : w.reply = some r) (s : State) (c : Nat) :
    s.resume c w = s.takeReply c := by
  simp [State.resume, hr]

section
variable {s : State} {c : Nat} {w : WaitRec} (hr : w.reply = none)
include hr

theorem State.resume_notYet (hgo : s.canGo c w.why = false) : s.resume c w = s := by
  simp [State.resume, hr, hgo]

/-- A wait that is over: the context's instruction issues again, but a speculative thread, which now has its cluster's baton, takes the
fault that it held (15 R358). -/
theorem State.resume_over (hwhy : ∀ code e, w.why ≠ .lost code e) (hgo : s.canGo c w.why = true) :
    ((s.ctx c).heldFault = none → s.resume c w = s.setCtx c (s.readied c)) ∧
    ∀ e, (s.ctx c).heldFault = some e →
      s.resume c w = ((s.setCtx c (s.readied c)).modCtx c (fun y => { y with heldFault := none })).takeFault c e := by
  simp only [State.resume, hr, hgo, ← State.wake_eq]
  cases hq : w.why with
  | lost code e => exact absurd hq (hwhy code e)
  | _ => exact ⟨fun hf => by simp [hf], fun e hf => by simp [hf]⟩

/-- A lost context whose buffered entries nothing holds back writes them and ends (17 R395, R410). -/
theorem State.resume_lost {code : BitVec 8} {e : Exc} (hwhy : w.why = .lost code e)
    (hheld : s.heldBack c 2 (entriesOf (s.ctx c).buf) = false) : s.resume c w = (s.drainAll c).endLost c code e := by
  have hgo : s.canGo c (.lost code e) = true := by simp [State.canGo, hheld]
  simp [State.resume, hr, hwhy, hgo, hheld]

end

/-! ## A request that waited for its place (10 R216) -/

/-- An instruction that executes at a place runs, ungated, the body that `placeBody` names. -/
theorem exec_of_placeBody {i : Instr} {len : Nat} {body : State → Res} (h : placeBody i = some (len, body)) (s : State) :
    exec i s = goes (s.run {} len body) := by
  unfold placeBody at h
  split at h <;> cases h <;> rfl

theorem execAtomicAtPlace_performs {s : State} {c l len : Nat} {i : Instr} (hslot : (s.ctx c).slot = .blocked)
    (hw : (s.ctx c).wait = some { why := .place l, len := len, reply := none }) (hi : s.nextInstr c = .ok i)
    (hbody : (placeBody i).isSome = true) :
    execAtomicAtPlace c s = exec i (({ s with cur := c } : State).modCtx c (fun x => { x with slot := .ready, wait := none })) := by
  obtain ⟨⟨n, body⟩, hb⟩ := Option.isSome_iff_exists.mp hbody
  rw [exec_of_placeBody hb]
  simp only [execAtomicAtPlace, hslot, hw, hi, hb]

/-! ## Full-empty requests (10 R231) -/

/-- Where no request stands in any retry list, no peer's limit can expire. -/
theorem State.peerLimit_of_noRetry {s : State} (h : ∀ q ∈ s.clus, q.2.retry = []) (key : Nat) : s.peerLimit key = s := by
  have hnone : s.clus.flatMap (fun k => k.2.retry) = [] := List.flatMap_eq_nil_iff.mpr h
  simp [State.peerLimit, hnone]

theorem execFeResend_idle {s : State} {c : Nat} (h : s.feWaiting c = none) : execFeResend c s = .next s := by
  simp [execFeResend, h, goes]

theorem execFeLimit_idle {s : State} {c : Nat} (h : s.feWaiting c = none) : execFeLimit c s = .next (s.peerLimit c) := by
  simp [execFeLimit, h, goes]

theorem FeMode.loads_eq (m : FeMode) : m.loads = decide (m = .read ∨ m = .take) := by cases m <;> rfl

/-- The request that a waiting full-empty instruction of context `c` makes: its mode, data register and location. -/
def State.feRequest (s : State) (c : Nat) (m : FeMode) (d : Reg) (l : Nat) : FeReq :=
  { ctx := c, loc := l, mode := m, data := (s.ctx c).reg d, reg := if m.loads then d else 0, tag := s.phaseOf c }

theorem State.feCan_notReady {s : State} {r : FeReq} (h : r.mode.ready (s.isFull r.loc) = false) : s.feCan r = false := by
  simp [State.feCan, h]

theorem State.feCan_free {s : State} {r : FeReq} (hready : r.mode.ready (s.isFull r.loc) = true) (hbank : s.bankBusy r.loc = false)
    (hchan : s.channelBusy r.loc = false) (hown : r.remote = none)
    (hlock : r.mode ≠ .read → s.lockedFor (lineOf r.loc) r.ctx = false) : s.feCan r = true := by
  have hwrite : (r.mode.writes && s.lockedFor (lineOf r.loc) r.ctx) = false := by
    by_cases hm : r.mode = .read
    · simp [FeMode.writes, hm]
    · simp [hlock hm]
  simp [State.feCan, hready, hbank, hchan, hown, hwrite]

theorem State.feArrive_performed {s : State} {r : FeReq} (h : s.feCan r = true) (wr : Writer) (perform : Word → State → State) :
    s.feArrive r wr perform = some (perform (s.fePerform wr r.loc r.mode r.data).1
      ((s.fePerform wr r.loc r.mode r.data).2.serveWords [r.loc])) := by
  simp [State.feArrive, h]

/-- A request whose condition does not hold enters the retry list, if there is room. -/
theorem State.feArrive_notReady {s : State} {r : FeReq} (h : r.mode.ready (s.isFull r.loc) = false) (wr : Writer)
    (perform : Word → State → State) :
    s.feArrive r wr perform = if (s.clu (s.placeClu r.loc)).retry.length < 256 then
      some (s.modClu (s.placeClu r.loc) (fun u => { u with retry := u.retry ++ [r] })) else none := by
  simp [State.feArrive, State.feCan_notReady h, h]

/-- A listed request that is no event of a trace is served with its word, not by itself. -/
theorem State.feListed_unlogged {s : State} {l : Nat} (h : ∀ r ∈ (s.clu (s.placeClu l)).retry, s.mustLog r = false) (c : Nat) :
    s.feListed c l = s := by
  unfold State.feListed
  split
  · rfl
  · rename_i r hr
    simp [h r (List.mem_of_find?_eq_some hr)]

section
variable {s : State} {c : Nat} {m : FeMode} {scp : BitVec 2} {d a : Reg} {q : Imm 4} {l : Nat}
  (hwait : s.feWaiting c = some (m, scp, d, a, q, l))
include hwait

theorem execFeLimit_expires : execFeLimit c s = .next ((s.modClu (s.placeClu l) (fun u =>
    { u with retry := u.retry.filter (fun r => !(decide (r.ctx = c) && r.remote.isNone)) })).giveReply c
      { exc := some { code := Cause.feLimit, addr := (s.ctx c).reg a + dispW 8 q } }) := by
  simp only [execFeLimit, hwait, goes]

theorem execFeResend_listed (hin : s.inRetry c l = true) (hlog : ∀ r ∈ (s.clu (s.placeClu l)).retry, s.mustLog r = false) :
    execFeResend c s = .next s := by
  simp [execFeResend, hwait, hin, State.feListed_unlogged hlog, goes]

/-- A request that is not listed arrives at its place: `s1` is the machine once the event has been logged, where it must be. -/
theorem execFeResend_arrives (hin : s.inRetry c l = false) {s1 : State}
    (hlogged : (if s.feCan (s.feRequest c m d l) then s.feLogged (s.feRequest c m d l) else some s) = some s1) :
    execFeResend c s = .next ((s1.feArrive (s.feRequest c m d l) (writerOf c) (fun v s =>
      (s.placeReply (cluOf c) (lineOf l) [l]).giveReply c
        { writes := if m.loads then [(d, v)] else [], acq := m.loads })).getD s) := by
  simp only [execFeResend, hwait, hin, Bool.false_eq_true, if_false, goes]
  change Host.Outcome.next (match if s.feCan (s.feRequest c m d l) then s.feLogged (s.feRequest c m d l) else some s with
    | none => s
    | some s1 => (s1.feArrive (s.feRequest c m d l) _ _).getD s) = _
  rw [hlogged]

theorem execFeResend_notReady (hin : s.inRetry c l = false) (hready : m.ready (s.isFull l) = false) :
    execFeResend c s = .next (if (s.clu (s.placeClu l)).retry.length < 256 then
      s.modClu (s.placeClu l) (fun u => { u with retry := u.retry ++ [s.feRequest c m d l] }) else s) := by
  have hcan : s.feCan (s.feRequest c m d l) = false := State.feCan_notReady hready
  rw [execFeResend_arrives hwait hin (by rw [hcan]; rfl), State.feArrive_notReady hready]
  change _ = Host.Outcome.next (if (s.clu (s.placeClu (s.feRequest c m d l).loc)).retry.length < 256 then _ else _)
  split <;> rfl

theorem execFeResend_performed (hin : s.inRetry c l = false) (hcan : s.feCan (s.feRequest c m d l) = true)
    (hlog : s.mustLog (s.feRequest c m d l) = false) :
    let done := s.fePerform (writerOf c) l m ((s.ctx c).reg d)
    execFeResend c s = .next (((done.2.serveWords [l]).placeReply (cluOf c) (lineOf l) [l]).giveReply c
      { writes := if m.loads then [(d, done.1)] else [], acq := m.loads }) := by
  have hlogged : s.feLogged (s.feRequest c m d l) = some s := by simp [State.feLogged, hlog]
  rw [execFeResend_arrives hwait hin ((if_pos hcan).trans hlogged), State.feArrive_performed hcan]
  rfl

end

/-! ## The lock of a line (10 R226) -/

section
variable {s : State} {line : Nat}

theorem execLrLockExpiry_locked (h : (s.dirAt line).lock ≠ none) : execLrLockExpiry line s = .next (s.unlock line) := by
  simp only [execLrLockExpiry, Option.isSome_iff_ne_none.mpr h, if_true, goes]

theorem execLrLockExpiry_local (hlock : (s.dirAt line).lock = none) (hq : ∀ q, (s.dirAt line).lrq.head? = some q → q ≤ noCtx) :
    execLrLockExpiry line s = .next s := by
  have hhead : (s.dirAt line).lrq.head?.any (fun q => decide (noCtx < q)) = false := by
    cases hh : (s.dirAt line).lrq.head? with
    | none => rfl
    | some q => simpa using hq q hh
  simp [execLrLockExpiry, hlock, hhead, goes]

/-- A context of another package that stands at the head, and has not come again, loses its turn. -/
theorem execLrLockExpiry_foreign {q : Nat} {rest : List Nat} (hlock : (s.dirAt line).lock = none)
    (hq : (s.dirAt line).lrq = q :: rest) (hforeign : noCtx < q) :
    execLrLockExpiry line s = .next (s.modDir line (fun d => { d with lrq := rest })) := by
  simp [execLrLockExpiry, hlock, hq, hforeign, goes, State.modDir]

end

/-! ## Idle streams (03 R51) -/

section
variable {s : State} {unit k : Nat} {t : Stream}

theorem execStreamIdleEnd_core (hu : unit < 2048) (ht : (s.core unit).detectors[k]? = some t) :
    execStreamIdleEnd unit k s = .next (s.modCore unit (fun u =>
      { u with detectors := if t.last + 1024 ≤ s.unitCycle unit then u.detectors.erase t else u.detectors })) := by
  simp only [execStreamIdleEnd, hu, if_true, goes, State.modCore, ht]

theorem execStreamIdleEnd_mat (hlo : 2048 ≤ unit) (hhi : unit < 4096) (ht : (s.mat (unit - 2048)).detectors[k]? = some t) :
    execStreamIdleEnd unit k s = .next (s.modMat (unit - 2048) (fun u =>
      { u with detectors := if t.last + 1024 ≤ s.unitCycle unit then u.detectors.erase t else u.detectors })) := by
  simp only [execStreamIdleEnd, Nat.not_lt.mpr hlo, hhi, if_true, if_false, goes, State.modMat, ht]

theorem execStreamIdleEnd_engine (hu : 4096 ≤ unit) (ht : (SMap.at [] s.engDet (unit - 4096))[k]? = some t) :
    let l := SMap.at [] s.engDet (unit - 4096)
    execStreamIdleEnd unit k s = .next { s with
      engDet := SMap.put s.engDet (unit - 4096) (if t.last + 1024 ≤ s.unitCycle unit then l.erase t else l) } := by
  have hcore : ¬ unit < 2048 := by omega
  simp only [execStreamIdleEnd, hcore, Nat.not_lt.mpr hu, if_false, goes, ht]

end

/-! ## Replay (17 R416) -/

theorem execReplayWaitTimeout_idle {s : State} {p : Nat} (h : s.readRecord p = none) :
    execReplayWaitTimeout p s = .next s := by
  simp only [execReplayWaitTimeout, h, goes]

/-- The launch in replay that the unmatched record's LCNT names, if there is one, is the one that diverges. -/
theorem execReplayWaitTimeout_diverges {s : State} {p i : Nat} {r : BitVec 256} {found : Option (Nat × Launch)}
    (h : s.readRecord p = some (i, r))
    (hl : s.launches.find? (fun l => decide (l.2.part = p ∧ l.2.replay = 2 ∧ l.2.lcnt % 2 ^ 16 = bitsAt r 16 16)) = found) :
    execReplayWaitTimeout p s = .next (s.diverge p (found.map (·.1)) (BitVec.ofNat 64 i)) := by
  simp only [execReplayWaitTimeout, h, goes, hl]

/-- Settles O46: each clause is the lemma above for its device step, under its own premises. -/
theorem waitsEnd : Obligations.WaitsEnd := by
  intro s c line unit k p x up
  simp only [exec_tagArrival, exec_atomicAtPlace, exec_feResend, exec_feLimit, exec_lrLockExpiry, exec_streamIdleEnd,
    exec_replayWaitTimeout]
  refine ⟨execTagArrival_idle, ?reply, ?noReply, ?place, ?feNone, ?fe, execLrLockExpiry_local, ?foreign, execLrLockExpiry_locked,
    ?core, ?mat, ?engine, execReplayWaitTimeout_idle, ?diverges, ?unnamed⟩
  case reply =>
    intro w r hrecal hw hr
    rw [execTagArrival_resume hrecal hw, State.resume_reply hr]
    refine ⟨fun e he => ?_, fun he ha => ?_, fun he ha htag hpc hstep htr hdue => ?_⟩
    · rw [State.takeReply_fault hw hr he]; rfl
    · rw [State.takeReply_again hw hr he ha]; rfl
    · rw [State.takeReply_completes hw hr he ha htag hpc hstep htr hdue]; rfl
  case noReply =>
    intro w hrecal hw hr
    rw [execTagArrival_resume hrecal hw]
    refine ⟨fun hgo => ?_, fun hwhy hgo => ?_, fun code e hwhy hheld => ?_⟩
    · rw [State.resume_notYet hr hgo]
    · obtain ⟨hwakes, hfaults⟩ := State.resume_over hr hwhy hgo
      exact ⟨fun hf => congrArg _ (hwakes hf), fun e hf => congrArg _ (hfaults e hf)⟩
    · rw [State.resume_lost hr hwhy hheld]
  case place => exact fun l len i => execAtomicAtPlace_performs
  case feNone =>
    intro hwait hretry
    rw [execFeResend_idle hwait, execFeLimit_idle hwait, State.peerLimit_of_noRetry hretry]
    exact ⟨rfl, rfl⟩
  case fe =>
    intro m scp d a q l hwait
    simp only [← FeMode.loads_eq]
    refine ⟨execFeLimit_expires hwait, execFeResend_listed hwait, execFeResend_notReady hwait, ?_⟩
    intro hin hready hlock hbank hchan hlog
    exact execFeResend_performed hwait hin (State.feCan_free hready hbank hchan rfl hlock) hlog
  case foreign => exact fun q rest => execLrLockExpiry_foreign
  case core => exact fun hu t => execStreamIdleEnd_core hu
  case mat => exact fun hlo hhi t => execStreamIdleEnd_mat hlo hhi
  case engine => exact fun hu t => execStreamIdleEnd_engine hu
  case diverges =>
    intro i r l y hrec hl
    rw [execReplayWaitTimeout_diverges hrec hl]; rfl
  case unnamed =>
    intro i r hrec hl
    rw [execReplayWaitTimeout_diverges hrec hl]; rfl

end Sys2Proof.Machine
end

section
/-! The state after reset has the form that every step keeps. -/

namespace Sys2Proof.Machine

/-- Settles O58: the memory after reset has no byte that is not 0, and each set of places is empty. -/
theorem resetIsWellKept : Obligations.ResetIsWellKept := by
  have hmem : State.reset.mem.wf = true := rfl
  exact ⟨hmem, List.Pairwise.nil, List.Pairwise.nil, List.Pairwise.nil, List.Pairwise.nil⟩

end Sys2Proof.Machine
end

section
/-! The form that every step keeps: memory as a rising list of the bytes that are not 0, and the sets of places as rising lists. Here is
what keeps it: the operations over sorted lists, and what it means that an outcome of any type carries a state that has the form. -/

namespace Sys2Proof.Machine

/-! ## Sorted lists of numbers -/

theorem mem_addNat {l : List Nat} {k a : Nat} (h : a ∈ addNat l k) : a = k ∨ a ∈ l := by
  induction l with
  | nil => simpa [addNat] using h
  | cons b r ih =>
    simp only [addNat] at h
    split at h
    · simpa using h
    · split at h
      · exact .inr h
      · rcases List.mem_cons.mp h with rfl | hr
        · exact .inr List.mem_cons_self
        · exact (ih hr).imp_right (List.mem_cons_of_mem b)

theorem addNat_rising {l : List Nat} (h : l.Pairwise (· < ·)) (k : Nat) : (addNat l k).Pairwise (· < ·) := by
  induction l with
  | nil => simp [addNat]
  | cons b r ih =>
    obtain ⟨hb, hr⟩ := List.pairwise_cons.mp h
    simp only [addNat]
    split
    · next hk => exact List.pairwise_cons.mpr ⟨fun a ha => by
        rcases List.mem_cons.mp ha with rfl | ha
        · exact hk
        · exact hk.trans (hb a ha), h⟩
    · split
      · exact h
      · next hlt hne => exact List.pairwise_cons.mpr ⟨fun a ha => by
          rcases mem_addNat ha with rfl | ha
          · omega
          · exact hb a ha, ih hr⟩

theorem delNat_sublist (l : List Nat) (k : Nat) : (delNat l k).Sublist l := by
  induction l with
  | nil => simp [delNat]
  | cons b r ih =>
    simp only [delNat]
    split
    · exact List.Sublist.refl _
    · split
      · exact List.sublist_cons_self b r
      · exact ih.cons_cons b

theorem delNat_rising {l : List Nat} (h : l.Pairwise (· < ·)) (k : Nat) : (delNat l k).Pairwise (· < ·) :=
  h.sublist (delNat_sublist l k)

theorem rising_ite {p : Prop} [Decidable p] {l m : List Nat} (hl : l.Pairwise (· < ·)) (hm : m.Pairwise (· < ·)) :
    (if p then l else m).Pairwise (· < ·) := by
  split
  · exact hl
  · exact hm

theorem foldl_rising {α : Type} {f : List Nat → α → List Nat} (hf : ∀ l a, l.Pairwise (· < ·) → (f l a).Pairwise (· < ·))
    (as : List α) {l : List Nat} (h : l.Pairwise (· < ·)) : (as.foldl f l).Pairwise (· < ·) := by
  induction as generalizing l with
  | nil => exact h
  | cons a as ih => exact ih (hf l a h)

/-! ## Outcomes that carry a well-kept state -/

/-- If there is a value, it has the property. -/
def OptKept {α : Type} (P : α → Prop) : Option α → Prop
  | none => True
  | some a => P a

/-- An error has the one property, a value the other. -/
def ExcKept {ε α : Type} (P : ε → Prop) (Q : α → Prop) : Except ε α → Prop
  | .error e => P e
  | .ok a => Q a

/-- The state of an instruction's outcome is well kept. -/
def Res.Kept : Res → Prop
  | .done t | .jump t _ _ | .trap t _ | .wait t _ | .stay t => WellKept t
  | .fault _ | .move _ => True

/-- The outcome in which a stopped access ends, if it has one, is well kept. -/
def Stop.Kept : Stop → Prop
  | .ends r => r.Kept
  | .exc _ | .hold _ | .move _ => True

/-- The state in which an element's access leaves the machine is well kept. -/
def Mv.Kept : Mv → Prop
  | .ok t => WellKept t
  | .held _ | .page _ _ | .dead _ _ => True

/-- The state in which a request leaves its place is well kept. -/
def Perf.Kept : Perf → Prop
  | .ok t _ | .later t | .kept t => WellKept t
  | .bad _ _ => True

/-- The state in which a HALO request leaves its target is well kept. -/
def Halo.Kept : Halo → Prop
  | .ok t | .later t => WellKept t
  | .bad _ => True

/-- The next state, if a step gives one, is well kept. -/
def OutKept : Host.Outcome State Fault Refusal → Prop
  | .next t => WellKept t
  | .fault _ | .refused _ => True

section
variable {α β ε : Type}

theorem OptKept.get {P : α → Prop} {o : Option α} {a : α} (h : OptKept P o) (e : o = some a) : P a := by subst e; exact h

theorem OptKept.getD {P : α → Prop} {o : Option α} {d : α} (h : OptKept P o) (hd : P d) : P (o.getD d) := by
  cases o with
  | none => exact hd
  | some a => exact h

theorem OptKept.ite {P : α → Prop} {p : Prop} [Decidable p] {a b : Option α} (ha : OptKept P a) (hb : OptKept P b) :
    OptKept P (if p then a else b) := by
  split
  · exact ha
  · exact hb

theorem OptKept.map {P : α → Prop} {Q : β → Prop} {o : Option α} {f : α → β} (h : OptKept P o) (hf : ∀ a, P a → Q (f a)) :
    OptKept Q (o.map f) := by
  cases o with
  | none => trivial
  | some a => exact hf a h

theorem OptKept.mapAny {Q : β → Prop} {o : Option α} {f : α → β} (hf : ∀ a, Q (f a)) : OptKept Q (o.map f) := by
  cases o with
  | none => trivial
  | some a => exact hf a

theorem OptKept.orElse {P : α → Prop} {a b : Option α} (ha : OptKept P a) (hb : OptKept P b) : OptKept P (a <|> b) := by
  cases a with
  | none => exact hb
  | some a => exact ha

theorem OptKept.findSome? {P : β → Prop} {l : List α} {f : α → Option β} (hf : ∀ a, OptKept P (f a)) : OptKept P (l.findSome? f) := by
  cases e : l.findSome? f with
  | none => trivial
  | some b =>
    obtain ⟨a, -, hb⟩ := List.exists_of_findSome?_eq_some e
    exact (hf a).get hb

theorem ExcKept.err {P : ε → Prop} {Q : α → Prop} {x : Except ε α} {e : ε} (h : ExcKept P Q x) (he : x = .error e) : P e := by
  subst he; exact h

theorem ExcKept.ok {P : ε → Prop} {Q : α → Prop} {x : Except ε α} {a : α} (h : ExcKept P Q x) (he : x = .ok a) : Q a := by
  subst he; exact h

theorem ExcKept.ite {P : ε → Prop} {Q : α → Prop} {p : Prop} [Decidable p] {a b : Except ε α} (ha : ExcKept P Q a)
    (hb : ExcKept P Q b) : ExcKept P Q (if p then a else b) := by
  split
  · exact ha
  · exact hb

theorem WellKept.of_fst {p : State × α} {t : State} {a : α} (h : WellKept p.1) (e : p = (t, a)) : WellKept t := by subst e; exact h

theorem WellKept.of_snd {p : α × State} {t : State} {a : α} (h : WellKept p.2) (e : p = (a, t)) : WellKept t := by subst e; exact h

theorem WellKept.of_snd_snd {p : α × β × State} {t : State} {a : α} {b : β} (h : WellKept p.2.2) (e : p = (a, b, t)) :
    WellKept t := by subst e; exact h

theorem WellKept.foldl {s : State} {f : State → α → State} {l : List α} (h : WellKept s)
    (hf : ∀ s a, WellKept s → WellKept (f s a)) : WellKept (l.foldl f s) := by
  induction l generalizing s with
  | nil => exact h
  | cons a l ih => exact ih (hf s a h)

end

theorem Res.Kept.of_eq {a b : Res} (h : a.Kept) (e : a = b) : b.Kept := e ▸ h

theorem Stop.Kept.of_eq {a b : Stop} (h : a.Kept) (e : a = b) : b.Kept := e ▸ h

theorem Mv.Kept.of_eq {a b : Mv} (h : a.Kept) (e : a = b) : b.Kept := e ▸ h

theorem Perf.Kept.of_eq {a b : Perf} (h : a.Kept) (e : a = b) : b.Kept := e ▸ h

theorem Halo.Kept.of_eq {a b : Halo} (h : a.Kept) (e : a = b) : b.Kept := e ▸ h

theorem OutKept.of_eq {a b : Host.Outcome State Fault Refusal} (h : OutKept a) (e : a = b) : OutKept b := e ▸ h

section
variable {p : Prop} [Decidable p]

theorem WellKept.ite {a b : State} (ha : WellKept a) (hb : WellKept b) : WellKept (if p then a else b) := by
  split
  · exact ha
  · exact hb

theorem Res.Kept.ite {a b : Res} (ha : a.Kept) (hb : b.Kept) : (if p then a else b).Kept := by
  split
  · exact ha
  · exact hb

theorem Perf.Kept.ite {a b : Perf} (ha : a.Kept) (hb : b.Kept) : (if p then a else b).Kept := by
  split
  · exact ha
  · exact hb

theorem Halo.Kept.ite {a b : Halo} (ha : a.Kept) (hb : b.Kept) : (if p then a else b).Kept := by
  split
  · exact ha
  · exact hb

theorem OutKept.ite {a b : Host.Outcome State Fault Refusal} (ha : OutKept a) (hb : OutKept b) : OutKept (if p then a else b) := by
  split
  · exact ha
  · exact hb

end

/-! ## Lists of meanings of which each keeps the form -/

/-- Each meaning of a list leads from a well-kept state to a well-kept one. -/
def AllKeep (l : List Act) : Prop := ∀ f ∈ l, ∀ s, WellKept s → OutKept (f s)

theorem AllKeep.nil : AllKeep [] := fun _ hf => nomatch hf

theorem AllKeep.cons {f : Act} {l : List Act} (hf : ∀ s, WellKept s → OutKept (f s)) (hl : AllKeep l) : AllKeep (f :: l) :=
  fun g hg => by
    rcases List.mem_cons.mp hg with rfl | hg
    · exact hf
    · exact hl g hg

theorem AllKeep.append {l m : List Act} (hl : AllKeep l) (hm : AllKeep m) : AllKeep (l ++ m) :=
  fun g hg => (List.mem_append.mp hg).elim (hl g) (hm g)

theorem AllKeep.map {α : Type} {f : α → Act} {l : List α} (hf : ∀ a s, WellKept s → OutKept (f a s)) : AllKeep (l.map f) :=
  fun g hg => by
    obtain ⟨a, -, rfl⟩ := List.mem_map.mp hg
    exact hf a

theorem AllKeep.flatMap {α : Type} {f : α → List Act} {l : List α} (hf : ∀ a, AllKeep (f a)) : AllKeep (l.flatMap f) :=
  fun g hg => by
    obtain ⟨a, -, ha⟩ := List.mem_flatMap.mp hg
    exact hf a g ha

end Sys2Proof.Machine
end

section
/-! What the functions of Sys2Proof/Machine/Ops.lean keep: each leads from a well-kept state to a well-kept one. -/

namespace Sys2Proof.Machine

variable {s : State} (h : WellKept s)
include h

theorem WellKept.setCtx {c : Nat} {x : Ctx} : WellKept (s.setCtx c x) := { h with }

theorem WellKept.modCtx {c : Nat} {f : Ctx → Ctx} : WellKept (s.modCtx c f) := h.setCtx

theorem WellKept.modCore {k : Nat} {f : CoreSt → CoreSt} : WellKept (s.modCore k f) := { h with }

theorem WellKept.modPort {k p : Nat} {f : Port → Port} : WellKept (s.modPort k p f) := { h with }

theorem WellKept.modMat {k : Nat} {f : Mat → Mat} : WellKept (s.modMat k f) := { h with }

theorem WellKept.modClu {k : Nat} {f : Cluster → Cluster} : WellKept (s.modClu k f) := { h with }

theorem WellKept.modPart {p : Nat} {f : Part → Part} : WellKept (s.modPart p f) := { h with }

theorem WellKept.modLaunch {l : Nat} {f : Launch → Launch} : WellKept (s.modLaunch l f) := { h with }

theorem WellKept.modPkg {f : Pkg → Pkg} : WellKept (s.modPkg f) := { h with }

theorem WellKept.modDir {line : Nat} {f : DirLine → DirLine} : WellKept (s.modDir line f) := { h with }

theorem WellKept.draw : WellKept s.draw.2 := { h with }

theorem WellKept.setReg {r : Reg} {v : Word} : WellKept (s.setReg r v) := h.modCtx

/-- A granule in error becomes a poisoned one. -/
theorem WellKept.spoil {g : Nat} : WellKept { s with ecc := delNat s.ecc g, poison := addNat s.poison g } :=
  { h with ecc := delNat_rising h.ecc g, poison := addNat_rising h.poison g }

theorem WellKept.errMet {ls : List Nat} : WellKept (s.errMet ls) := by
  unfold State.errMet
  split
  · exact h
  · split
    · exact h
    · exact h.spoil

theorem WellKept.raiseAt {c : Nat} {e : Exc} : WellKept (s.raiseAt c e) := h.modCtx

theorem WellKept.raiseService {p : Nat} {e : Exc} : WellKept (s.raiseService p e) := h.raiseAt

theorem WellKept.report {e : Exc} : WellKept (s.report e) := h.modPkg

theorem WellKept.beginTrace {c kind b1 w4 w8 w16 : Nat} : WellKept (s.beginTrace c kind b1 w4 w8 w16) := by
  unfold State.beginTrace
  exact h.modPart

theorem WellKept.branchTrace {c kind : Nat} {src dst : Word} : WellKept (s.branchTrace c kind src dst) :=
  WellKept.ite h.beginTrace h

theorem WellKept.dropSpec {c : Nat} : WellKept (s.dropSpec c) := WellKept.ite h h.modCtx.modClu

theorem WellKept.machineCheck {p c : Nat} {e : Exc} : WellKept (s.machineCheck p c e) :=
  WellKept.ite h.report h.raiseService.report

theorem WellKept.endLost {c : Nat} {code : BitVec 8} {e : Exc} : WellKept (s.endLost c code e) :=
  h.modCtx.dropSpec.machineCheck

theorem WellKept.lose {c : Nat} {code : BitVec 8} {e : Exc} : WellKept (s.lose c code e) :=
  WellKept.ite h.endLost h.modCtx.dropSpec

theorem WellKept.enter {c kind : Nat} {epc : Word} {e : Exc} : WellKept (s.enter c kind epc e) := by
  unfold State.enter
  extract_lets
  split
  · exact h.setCtx.branchTrace
  · exact h.lose

end Sys2Proof.Machine
end

section
/-! What the functions of Sys2Proof/Machine/Places.lean keep: each leads from a well-kept state to a well-kept one. -/

namespace Sys2Proof.Machine

variable {s : State} (h : WellKept s)
include h

theorem WellKept.modThread {tid : Nat} {f : Ctx → Ctx} : WellKept (s.modThread tid f) := { h with }

theorem WellKept.withdraw {c : Nat} : WellKept (s.withdraw c) := by
  unfold State.withdraw
  exact WellKept.modCtx (by exact { h with })

theorem WellKept.restart {c : Nat} : WellKept (s.restart c) := by
  unfold State.restart
  split
  · exact h
  · exact WellKept.modClu (WellKept.modCtx (WellKept.ite h.withdraw.modPkg h))

theorem WellKept.restartSpilled {clu key : Nat} : WellKept (s.restartSpilled clu key) :=
  WellKept.modClu (by exact { h with })

theorem WellKept.hitSpilled {clu line : Nat} : WellKept (s.hitSpilled clu line) := h.foldl fun _ _ h => h.restartSpilled

theorem WellKept.hitReaders {clu line : Nat} : WellKept (s.hitReaders clu line) :=
  WellKept.hitSpilled (h.foldl fun _ _ h => WellKept.ite h.restart h)

theorem WellKept.applyLine {clu line : Nat} : WellKept (s.applyLine clu line) := h.modClu.hitReaders

theorem WellKept.applyInbox {clu : Nat} : WellKept (s.applyInbox clu) := WellKept.modClu (h.foldl fun _ _ h => h.applyLine)

theorem WellKept.invalidate {clu line : Nat} : WellKept (s.invalidate clu line) := by
  unfold State.invalidate
  exact WellKept.modClu (WellKept.ite h.applyLine h)

theorem WellKept.acquire {c scope : Nat} : WellKept (s.acquire c scope) := WellKept.ite h.applyInbox h

theorem WellKept.touchLine {clu line : Nat} : WellKept (s.touchLine clu line) := by
  unfold State.touchLine
  split
  · exact h
  · exact h.modClu

theorem WellKept.keepLine {clu line : Nat} {data : BitVec 1024} {through : Bool} :
    WellKept ((s.keepLine clu line data through).2) := by
  unfold State.keepLine
  extract_lets way
  clear_value way
  split
  · exact h
  · exact h.modClu.touchLine

theorem WellKept.makeRoom {clu line : Nat} : WellKept (s.makeRoom clu line) := by
  unfold State.makeRoom
  extract_lets
  split
  · exact h
  · split
    · exact h
    · exact h.modClu

theorem WellKept.refreshCopy {clu line : Nat} : WellKept (s.refreshCopy clu line) := h.modClu

theorem WellKept.giveReply {c : Nat} {r : Reply} : WellKept (s.giveReply c r) := h.modCtx

theorem WellKept.rawWrite {bs : List (Nat × Byte)} : WellKept (s.rawWrite bs) :=
  { h with
    mem := Memory.writes_wf h.mem bs
    empties := foldl_rising (fun _ _ hl => delNat_rising hl _) _ h.empties
    mtags := foldl_rising (fun _ _ hl => delNat_rising hl _) _ h.mtags
    poison := rising_ite .nil (h.poison.filter _)
    ecc := rising_ite .nil (h.ecc.filter _) }

theorem WellKept.wakeWatches {line : Nat} : WellKept (s.wakeWatches line) := by
  unfold State.wakeWatches
  extract_lets
  split
  · exact h
  · refine .modDir ?_
    refine h.foldl fun s w h => ?_
    split
    · exact h.modPkg
    · exact WellKept.ite h.giveReply h.giveReply

theorem WellKept.dirEvent {e : DirEv} : WellKept (s.dirEvent e) := by
  unfold State.dirEvent
  exact h.modClu

theorem WellKept.askWrite {wr : Writer} {line : Nat} : WellKept (s.askWrite wr line) :=
  WellKept.ite (WellKept.dirEvent (h.foldl fun _ _ h => h.invalidate)) h

theorem WellKept.askWrites {wr : Writer} {lines : List Nat} : WellKept (s.askWrites wr lines) :=
  h.foldl fun _ _ h => h.askWrite

theorem WellKept.noteWrite {wr : Writer} {line : Nat} : WellKept (s.noteWrite wr line) := by
  unfold State.noteWrite
  extract_lets _ s1 s2 _ s3 s4 _ s5 s6
  have h1 : WellKept s1 := { h with }
  have h2 : WellKept s2 := h1.wakeWatches
  have h3 : WellKept s3 := h2.foldl fun _ _ h => h.invalidate
  have h4 : WellKept s4 := by
    unfold s4
    split
    · exact h3
    · exact h3.refreshCopy
  have h5 : WellKept s5 := by
    unfold s5
    split
    · exact h4.dirEvent
    · exact WellKept.ite (WellKept.modDir (h4.foldl fun _ _ h => h.invalidate)) (WellKept.ite h4 h4.modDir)
  have h6 : WellKept s6 := by
    unfold s6
    split
    · exact h5
    · extract_lets s1
      have h1 : WellKept s1 := WellKept.ite h5.modCtx h5
      exact WellKept.ite h1.hitReaders h1
  exact h6

theorem WellKept.fePerform {wr : Writer} {l : Nat} {m : FeMode} {v : Word} : WellKept ((s.fePerform wr l m v).2) := by
  have hempty : WellKept { s with empties := addNat s.empties (l / 8), mtags := delNat s.mtags (l / 16) } :=
    { h with empties := addNat_rising h.empties _, mtags := delNat_rising h.mtags _ }
  unfold State.fePerform
  extract_lets
  split
  · exact h
  · exact hempty.noteWrite
  · exact hempty.noteWrite
  · exact h.rawWrite.noteWrite
  · exact h.rawWrite.noteWrite

theorem WellKept.serveOne {r : FeReq} : WellKept (s.serveOne r) := by
  unfold State.serveOne
  extract_lets s1
  have h1 : WellKept s1 := h.modClu
  split
  · next v s2 he =>
      split
      · exact (h1.fePerform.of_snd he).refreshCopy.giveReply
      · exact (h1.fePerform.of_snd he).modPkg

omit h in
theorem WellKept.serveWord {l n : Nat} {s : State} (h : WellKept s) : WellKept (State.serveWord l n s) := by
  induction n generalizing s with
  | zero => exact h
  | succ n ih =>
    unfold State.serveWord
    split
    · exact h
    · split
      · exact h
      · exact ih h.serveOne

theorem WellKept.serveWords {ls : List Nat} : WellKept (s.serveWords ls) := h.foldl fun _ _ h => WellKept.ite h h.serveWord

theorem WellKept.place {wr : Writer} {bs : List (Nat × Byte)} : WellKept (s.place wr bs) :=
  WellKept.serveWords (h.rawWrite.foldl fun _ _ h => h.noteWrite)

theorem WellKept.placeN {wr : Writer} {l n v : Nat} : WellKept (s.placeN wr l n v) := h.place

theorem WellKept.throughsHome {k : Nat} {hit : Nat → Bool} : WellKept (s.throughsHome k hit) := by
  unfold State.throughsHome
  exact WellKept.modClu (h.foldl fun _ _ h => h.place)

theorem WellKept.queuePeer {tid : Nat} {sup : Bool} {clu : Nat} {bs : List (Nat × Byte)} :
    WellKept (s.queuePeer tid sup clu bs) :=
  WellKept.ite h h.modPkg

theorem WellKept.writePeer {c : Nat} {e : BufEntry} : WellKept (s.writePeer c e) := h.queuePeer

theorem WellKept.tagGranules {as : List Nat} {f : List Nat → Nat → List Nat}
    (hf : ∀ l a, l.Pairwise (· < ·) → (f l a).Pairwise (· < ·)) : WellKept { s with mtags := as.foldl f s.mtags } :=
  { h with mtags := foldl_rising hf as h.mtags }

theorem WellKept.writeEntry {c : Nat} {e : BufEntry} : WellKept (s.writeEntry c e) := by
  unfold State.writeEntry
  split
  · exact h.writePeer
  · extract_lets s0 _ s1
    have h0 : WellKept s0 := WellKept.ite h.throughsHome h
    have h1 : WellKept s1 := h0.rawWrite
    exact (h1.tagGranules fun l g hl => rising_ite (addNat_rising hl _) hl).noteWrite.serveWords

theorem WellKept.drainShared {k : Nat} : WellKept (s.drainShared k) := WellKept.modCore (h.foldl fun _ _ h => h.writeEntry)

theorem WellKept.drainThroughs {k : Nat} : WellKept (s.drainThroughs k) := h.throughsHome

theorem WellKept.recordSharer {line clu : Nat} : WellKept (s.recordSharer line clu) :=
  WellKept.ite h (WellKept.ite h.modDir (WellKept.ite h.modDir h.modDir.dirEvent))

theorem WellKept.tileSeen {clu : Nat} {lines : List Nat} {all : Bool} : WellKept (s.tileSeen clu lines all) :=
  WellKept.ite h.applyInbox h

theorem WellKept.clusterWrite {c : Nat} {e : BufEntry} : WellKept (s.clusterWrite c e) := by
  unfold State.clusterWrite
  extract_lets _ s1
  have h1 : WellKept s1 := WellKept.ite h.tileSeen h
  split
  · next s1 _ he =>
      extract_lets s2
      have h2 : WellKept s2 := (h1.keepLine.of_snd he).modClu.recordSharer
      exact WellKept.ite h2.hitReaders h2
  · next x x _ _ he => exact h1.writeEntry

theorem WellKept.levelWrite {c scope : Nat} {e : BufEntry} : WellKept (s.levelWrite c scope e) :=
  WellKept.ite h.modCore (WellKept.ite h.clusterWrite h.writeEntry)

theorem WellKept.launchMsgs {ms : List Msg} : WellKept (s.launchMsgs ms) := { h with }

theorem WellKept.sendReady {c : Nat} : WellKept (s.sendReady c) := WellKept.ite h h.modCtx.launchMsgs

theorem WellKept.cumulate {c scope : Nat} : WellKept (s.cumulate c scope) :=
  WellKept.ite h (WellKept.ite h.drainShared h.drainShared.drainThroughs)

theorem WellKept.askHeld {c scope : Nat} {es : List BufEntry} : WellKept (s.askHeld c scope es) := h.askWrites

theorem WellKept.writeReleased {c : Nat} : WellKept (s.writeReleased c) :=
  h.foldl fun _ _ h => WellKept.ite h.askHeld h.modCtx.cumulate.levelWrite

theorem WellKept.markerDone {c : Nat} : WellKept (s.markerDone c) := by
  unfold State.markerDone
  extract_lets
  split
  · split
    · exact h
    · split
      · exact h.askHeld
      · extract_lets s1 s2
        have h1 : WellKept s1 := h.modCtx.cumulate
        have h2 : WellKept s2 := h1.foldl fun _ _ h => h.levelWrite
        exact WellKept.ite h2 h2.modCtx.sendReady.writeReleased
  · exact h.writeReleased

theorem WellKept.release {c scope : Nat} : WellKept ((s.release c scope).1) := by
  unfold State.release
  extract_lets
  split
  · exact h
  · split
    · exact h.askHeld
    · exact WellKept.launchMsgs (h.modCtx.cumulate.foldl fun _ _ h => h.levelWrite)

theorem WellKept.pushMarker {c : Nat} {scope : BitVec 2} : WellKept (s.pushMarker c scope) := by
  unfold State.pushMarker
  exact WellKept.modCtx (WellKept.ite h.modPort h)

theorem WellKept.drainAll {c : Nat} : WellKept (s.drainAll c) :=
  WellKept.launchMsgs (h.cumulate.modCtx.foldl fun _ _ h => h.writeEntry)

theorem WellKept.publish {c : Nat} : WellKept (s.publish c) := h.drainAll

theorem WellKept.sendMsg {c : Nat} {m : Msg} : WellKept (s.sendMsg c m) := WellKept.ite h.modCtx h.launchMsgs

theorem WellKept.post {c dst : Nat} {b : MsgBody} : WellKept (s.post c dst b) := WellKept.sendMsg (by exact { h with })

theorem WellKept.bufferLine {c line : Nat} {bs : List (Nat × Byte)} {nt wc keep : Bool} {rel : Option (BitVec 2)}
    {more : Nat} : OptKept WellKept (s.bufferLine c line bs nt wc keep rel more) := by
  unfold State.bufferLine
  extract_lets
  split
  · exact h.setCtx
  · split
    · exact h.setCtx
    · split
      · exact OptKept.ite trivial h.drainShared.modCtx
      · split
        · trivial
        · exact OptKept.ite trivial h.setCtx.drainShared.writeEntry.modCtx

theorem WellKept.flushLines {c : Nat} {lines : List Nat} : OptKept WellKept (s.flushLines c lines) := by
  unfold State.flushLines
  extract_lets
  split
  · trivial
  · split
    · trivial
    · exact WellKept.foldl (WellKept.modCtx (WellKept.foldl (WellKept.modCore (WellKept.ite h h.throughsHome))
        fun _ _ h => h.writeEntry)) fun _ _ h => h.writeEntry

theorem WellKept.askFlush {c : Nat} {lines : List Nat} : WellKept (s.askFlush c lines) := h.askWrites

theorem WellKept.bufferBytes {c : Nat} {bs : List (Nat × Byte)} {nt wc keep : Bool} {rel : Option (BitVec 2)} {more : Nat}
    {na : List Nat} : OptKept WellKept (s.bufferBytes c bs nt wc keep rel more na) := by
  refine List.foldlRecOn (motive := OptKept WellKept) _ _ h fun o ho l _ => ?_
  cases o with
  | none => trivial
  | some s => exact ho.bufferLine

theorem WellKept.fillLine {clu line : Nat} {keep : Bool} : WellKept (s.fillLine clu line keep) := by
  unfold State.fillLine
  split
  · exact h
  · exact WellKept.ite h.touchLine (WellKept.ite h.tileSeen.recordSharer h.tileSeen.recordSharer.keepLine)

theorem WellKept.evictLine {clu line : Nat} : WellKept (s.evictLine clu line) := WellKept.ite h.modClu h

theorem WellKept.untagBytes {c : Nat} {ls : List Nat} : WellKept (s.untagBytes c ls) := WellKept.ite h h.modClu

theorem WellKept.correct {ls : List Nat} : WellKept (s.correct ls) := WellKept.ite h (WellKept.modPkg (by exact { h with }))

theorem WellKept.placeReply {clu line : Nat} {ls : List Nat} : WellKept (s.placeReply clu line ls) :=
  h.correct.tileSeen.refreshCopy

theorem WellKept.freshen {c : Nat} {ls : List Nat} : WellKept (s.freshen c ls) := WellKept.ite h.draw.applyInbox h.draw

theorem WellKept.loadBytes {c : Nat} {ls : List Nat} {keep : Bool} {na : List Nat} :
    WellKept ((s.loadBytes c ls keep na).2) :=
  h.freshen.correct.foldl fun _ _ h => h.fillLine

end Sys2Proof.Machine
end

section
/-! What the functions of Sys2Proof/Machine/Operands.lean keep: each leads from a well-kept state to a well-kept one. -/

namespace Sys2Proof.Machine

variable {s : State} (h : WellKept s)
include h

theorem WellKept.res {x : Stop} (hx : x.Kept) : (Stop.res s x).Kept := by
  unfold Stop.res
  split
  · trivial
  · exact h
  · trivial
  · next r => exact hx

theorem WellKept.payTrap {c : Nat} : WellKept (s.payTrap c) := by
  unfold State.payTrap
  split
  · exact h
  · exact WellKept.ite h.modCtx.enter h

theorem WellKept.complete {c : Nat} {old : Ctx} {pc : Word} : WellKept (s.complete c old pc) :=
  WellKept.ite h.modCtx.enter (WellKept.ite h.modCtx h.modCtx.payTrap)

theorem WellKept.block {c : Nat} {w : Why} {len : Nat} : WellKept (s.block c w len) := h.modCtx

theorem WellKept.meetEcc {c : Nat} {ptr : Word} : WellKept (s.meetEcc c ptr) := by
  unfold State.meetEcc
  split
  · exact h
  · extract_lets
    split
    · exact h
    · exact h.spoil

theorem WellKept.takeFault {c : Nat} {e : Exc} : WellKept (s.takeFault c e) := by
  unfold State.takeFault
  split
  · exact h.block.modCtx
  · extract_lets s1
    have h1 : WellKept s1 := WellKept.ite h.modCtx h
    exact WellKept.enter (WellKept.ite h1.meetEcc h1)

theorem WellKept.modChan {c : Nat} {f : Chan → Chan} : WellKept (s.modChan c f) := h.modCore

theorem WellKept.admitMsg {m : Msg} : WellKept (s.admitMsg m) := by
  unfold State.admitMsg
  split
  · exact h.sendMsg.giveReply
  · exact h.modChan.giveReply
  · exact h

theorem WellKept.emptyChan {c : Nat} : WellKept (s.emptyChan c) := h.modCore.foldl fun _ _ h => h.admitMsg

theorem WellKept.depart {c tgt : Nat} : WellKept (s.depart c tgt) := by
  unfold State.depart
  extract_lets
  split
  · exact h.block
  · split
    · exact h.askHeld.block
    · exact WellKept.ite h.drainAll.block (WellKept.emptyChan (WellKept.setCtx (by exact { h.drainAll with })))

theorem WellKept.finish {c len : Nat} {r : Res} (hr : r.Kept) : WellKept (s.finish c len r) := by
  unfold State.finish
  extract_lets
  split
  · next s1 => exact WellKept.complete (hr)
  · next s1 pc kind => exact WellKept.complete (WellKept.branchTrace (hr))
  · exact h.takeFault
  · next s1 e => exact WellKept.enter (WellKept.modCtx (hr))
  · next s1 w => exact WellKept.block (hr)
  · exact h.depart
  · next s1 => exact hr

theorem WellKept.run {g : Gate} {len : Nat} {body : State → Res} (hbody : (body s).Kept) : WellKept (s.run g len body) := by
  unfold State.run
  extract_lets
  split
  · exact h.takeFault
  · split
    · exact h.takeFault
    · split
      · exact h.takeFault
      · split
        · exact h.block
        · exact h.finish hbody

theorem WellKept.takeReply {c : Nat} : WellKept (s.takeReply c) := by
  unfold State.takeReply
  extract_lets
  split
  · exact h
  · split
    · exact h
    · split
      · exact h.setCtx.takeFault
      · exact WellKept.ite h.setCtx (WellKept.complete (WellKept.ite h.setCtx.applyInbox h.setCtx))

omit h in
theorem reachMem_kept {c : Nat} {ptr : Word} {segs : List (Nat × Nat)} {keep : Bool} {space : Nat} {rd own : Bool} :
    ExcKept Stop.Kept (fun _ => True) (s.reachMem c ptr segs keep space rd own) := by
  unfold State.reachMem
  extract_lets
  split
  · trivial
  · split
    · trivial
    · split
      · trivial
      · split
        · trivial
        · split
          · trivial
          · trivial

omit h in
theorem gridMem_kept {c : Nat} {ptr : Word} {e : HEntry} {off size need : Nat} {wr rd : Bool} :
    ExcKept Stop.Kept (fun _ => True) (s.gridMem c ptr e off size need wr rd) := by
  unfold State.gridMem
  extract_lets
  split
  · trivial
  · split
    · trivial
    · split
      · trivial
      · exact reachMem_kept

omit h in
theorem access_kept {c : Nat} {ptr : Word} {size need al : Nat} {r : Reach} {wr rd : Bool} :
    ExcKept Stop.Kept (fun _ => True) (s.access c ptr size need al r wr rd) := by
  unfold State.access
  extract_lets
  split
  · trivial
  · split
    · trivial
    · split
      · trivial
      · split
        · exact reachMem_kept
        · trivial
        · trivial
        · split
          · trivial
          · split
            · trivial
            · extract_lets
              split
              · trivial
              · split
                · trivial
                · split
                  · trivial
                  · exact reachMem_kept

end Sys2Proof.Machine
end

section
/-! What the functions of Sys2Proof/Machine/Scalar.lean keep: each leads from a well-kept state to a well-kept one. -/

namespace Sys2Proof.Machine

variable {s : State} (h : WellKept s)
include h

theorem WellKept.writes {d : Reg} {v : Word} : (s.writes d v).Kept := h.setReg

theorem WellKept.alu {o : AluOp} {w : BitVec 2} {d a b : Reg} : WellKept (alu o w d a b s) := h.run h.writes

theorem WellKept.execAdd {w : BitVec 2} {d a b : Reg} : OutKept (execAdd w d a b s) := h.alu

theorem WellKept.execSub {w : BitVec 2} {d a b : Reg} : OutKept (execSub w d a b s) := h.alu

theorem WellKept.execAnd {w : BitVec 2} {d a b : Reg} : OutKept (execAnd w d a b s) := h.alu

theorem WellKept.execOr {w : BitVec 2} {d a b : Reg} : OutKept (execOr w d a b s) := h.alu

theorem WellKept.execXor {w : BitVec 2} {d a b : Reg} : OutKept (execXor w d a b s) := h.alu

theorem WellKept.execAndn {w : BitVec 2} {d a b : Reg} : OutKept (execAndn w d a b s) := h.alu

theorem WellKept.execShl {w : BitVec 2} {d a b : Reg} : OutKept (execShl w d a b s) := h.alu

theorem WellKept.execShr {w : BitVec 2} {d a b : Reg} : OutKept (execShr w d a b s) := h.alu

theorem WellKept.execShra {w : BitVec 2} {d a b : Reg} : OutKept (execShra w d a b s) := h.alu

theorem WellKept.execRot {w : BitVec 2} {d a b : Reg} : OutKept (execRot w d a b s) := h.alu

theorem WellKept.execMin {w : BitVec 2} {d a b : Reg} : OutKept (execMin w d a b s) := h.alu

theorem WellKept.execMax {w : BitVec 2} {d a b : Reg} : OutKept (execMax w d a b s) := h.alu

theorem WellKept.execMinn {w : BitVec 2} {d a b : Reg} : OutKept (execMinn w d a b s) := h.alu

theorem WellKept.execMaxn {w : BitVec 2} {d a b : Reg} : OutKept (execMaxn w d a b s) := h.alu

theorem WellKept.execAdds {w : BitVec 2} {d a b : Reg} : OutKept (execAdds w d a b s) := h.alu

theorem WellKept.execSubs {w : BitVec 2} {d a b : Reg} : OutKept (execSubs w d a b s) := h.alu

theorem WellKept.execAddi {d a : Reg} {i : Imm 15} : OutKept (execAddi d a i s) := h.run h.writes

theorem WellKept.execAndi {d a : Reg} {i : Imm 15} : OutKept (execAndi d a i s) := h.run h.writes

theorem WellKept.execOri {d a : Reg} {i : Imm 15} : OutKept (execOri d a i s) := h.run h.writes

theorem WellKept.execXori {d a : Reg} {i : Imm 15} : OutKept (execXori d a i s) := h.run h.writes

theorem WellKept.execShiShl {w : BitVec 2} {c : BitVec 6} {d a : Reg} : OutKept (execShiShl w c d a s) := h.run h.writes

theorem WellKept.execShiShr {w : BitVec 2} {c : BitVec 6} {d a : Reg} : OutKept (execShiShr w c d a s) := h.run h.writes

theorem WellKept.execShiShra {w : BitVec 2} {c : BitVec 6} {d a : Reg} : OutKept (execShiShra w c d a s) := h.run h.writes

theorem WellKept.execShiRot {w : BitVec 2} {c : BitVec 6} {d a : Reg} : OutKept (execShiRot w c d a s) := h.run h.writes

theorem WellKept.execCmp {c : BitVec 3} {d a b : Reg} : OutKept (execCmp c d a b s) := h.run h.writes

theorem WellKept.execCmpi {c : BitVec 3} {d a : Reg} {i : Imm 12} : OutKept (execCmpi c d a i s) := h.run h.writes

theorem WellKept.execMul {d a b : Reg} : OutKept (execMul d a b s) := h.run h.writes

theorem WellKept.execMulh {d a b : Reg} : OutKept (execMulh d a b s) := h.run h.writes

theorem WellKept.execMulhn {d a b : Reg} : OutKept (execMulhn d a b s) := h.run h.writes

theorem WellKept.execMad {d a b : Reg} : OutKept (execMad d a b s) := h.run h.writes

theorem WellKept.execDiv {d a b : Reg} : OutKept (execDiv d a b s) := h.run h.writes

theorem WellKept.execDivn {d a b : Reg} : OutKept (execDivn d a b s) := h.run h.writes

theorem WellKept.execRem {d a b : Reg} : OutKept (execRem d a b s) := h.run h.writes

theorem WellKept.execRemn {d a b : Reg} : OutKept (execRemn d a b s) := h.run h.writes

theorem WellKept.execClz {d a : Reg} : OutKept (execClz d a s) := h.run h.writes

theorem WellKept.execCtz {d a : Reg} : OutKept (execCtz d a s) := h.run h.writes

theorem WellKept.execPopc {d a : Reg} : OutKept (execPopc d a s) := h.run h.writes

theorem WellKept.execBrev {d a : Reg} : OutKept (execBrev d a s) := h.run h.writes

theorem WellKept.execBswap {d a : Reg} : OutKept (execBswap d a s) := h.run h.writes

theorem WellKept.execExtb {sg : BitVec 1} {l p : BitVec 6} {d a : Reg} : OutKept (execExtb sg l p d a s) := h.run h.writes

theorem WellKept.execInsb {l p : BitVec 6} {d a : Reg} : OutKept (execInsb l p d a s) := h.run h.writes

theorem WellKept.execSel {c d a b : Reg} : OutKept (execSel c d a b s) := h.run h.writes

theorem WellKept.execLea {sh : BitVec 3} {d a b : Reg} : OutKept (execLea sh d a b s) := h.run h.writes

theorem WellKept.execLdi {d : Reg} {i : Imm 15} : OutKept (execLdi d i s) := h.run h.writes

theorem WellKept.execWidf {d a : Reg} : OutKept (execWidf d a s) := h.run (Res.Kept.ite trivial h.writes)

theorem WellKept.execShape {d a : Reg} : OutKept (execShape d a s) := by
  unfold Machine.execShape
  refine h.run ?_
  extract_lets
  split
  · trivial
  · split
    · split
      · trivial
      · exact h.writes

theorem WellKept.execLocid {d a : Reg} : OutKept (execLocid d a s) := h.run (Res.Kept.ite trivial h.writes)

theorem WellKept.writesF {d : Reg} {r : Nat × BitVec 5} : (s.writesF d r).Kept := h.modCtx

theorem WellKept.execFadd {f : BitVec 3} {r : BitVec 2} {d a b : Reg} : OutKept (execFadd f r d a b s) := h.run h.writesF

theorem WellKept.execFsub {f : BitVec 3} {r : BitVec 2} {d a b : Reg} : OutKept (execFsub f r d a b s) := h.run h.writesF

theorem WellKept.execFmul {f : BitVec 3} {r : BitVec 2} {d a b : Reg} : OutKept (execFmul f r d a b s) := h.run h.writesF

theorem WellKept.execFdiv {f : BitVec 3} {r : BitVec 2} {d a b : Reg} : OutKept (execFdiv f r d a b s) := h.run h.writesF

theorem WellKept.execFmin {f : BitVec 3} {_r : BitVec 2} {d a b : Reg} : OutKept (execFmin f _r d a b s) := h.run h.writesF

theorem WellKept.execFmax {f : BitVec 3} {_r : BitVec 2} {d a b : Reg} : OutKept (execFmax f _r d a b s) := h.run h.writesF

theorem WellKept.execFsqrt {f : BitVec 3} {r : BitVec 2} {d a : Reg} : OutKept (execFsqrt f r d a s) := h.run h.writesF

theorem WellKept.execFabs {f : BitVec 3} {_r : BitVec 2} {d a : Reg} : OutKept (execFabs f _r d a s) := h.run h.writesF

theorem WellKept.execFneg {f : BitVec 3} {_r : BitVec 2} {d a : Reg} : OutKept (execFneg f _r d a s) := h.run h.writesF

theorem WellKept.execFcpys {f : BitVec 3} {_r : BitVec 2} {d a b : Reg} : OutKept (execFcpys f _r d a b s) :=
  h.run h.writesF

theorem WellKept.execFma {f : BitVec 3} {r : BitVec 2} {d a b : Reg} : OutKept (execFma f r d a b s) := h.run h.writesF

theorem WellKept.execFcmp {f c : BitVec 3} {d a b : Reg} : OutKept (execFcmp f c d a b s) := h.run h.writes

theorem WellKept.execFcvt {r : BitVec 1} {t k : BitVec 5} {d a : Reg} : OutKept (execFcvt r t k d a s) := h.run h.writesF

theorem WellKept.execFclass {f : BitVec 3} {d a : Reg} : OutKept (execFclass f d a s) := h.run h.writes

theorem WellKept.transfer {t : Word} {kind : Nat} : (s.transfer t kind).Kept := Res.Kept.ite trivial h

theorem WellKept.execBr {off : Imm 23} : OutKept (execBr off s) := h.run h.transfer

theorem WellKept.execCall {off : Imm 23} : OutKept (execCall off s) := h.run h.setReg.transfer

theorem WellKept.branchIf {p : Bool} {t : Word} : (s.branchIf p t).Kept := Res.Kept.ite h.transfer h

theorem WellKept.execBc {c : BitVec 3} {b a : Reg} {off : Imm 12} : OutKept (execBc c b a off s) := h.run h.branchIf

theorem WellKept.execBz {c : BitVec 3} {a : Reg} {off : Imm 12} : OutKept (execBz c a off s) := h.run h.branchIf

theorem WellKept.execJmpr {a : Reg} : OutKept (execJmpr a s) := h.run h.transfer

theorem WellKept.execCallr {d a : Reg} : OutKept (execCallr d a s) := h.run h.setReg.transfer

theorem WellKept.execRet {a : Reg} : OutKept (execRet a s) := h.run h.transfer

theorem WellKept.execJtab {a : Reg} {n : BitVec 32} {t : BitVec 30} : OutKept (execJtab a n t s) := by
  unfold Machine.execJtab
  refine h.run ?_
  split
  · exact h
  · extract_lets
    split
    · trivial
    · exact h.transfer

theorem WellKept.execNop : OutKept (execNop s) := h.run h

end Sys2Proof.Machine
end

section
/-! What the functions of Sys2Proof/Machine/Approx.lean keep: each leads from a well-kept state to a well-kept one. -/

namespace Sys2Proof.Machine

variable {s : State} (h : WellKept s)
include h

theorem WellKept.execRcp {f : BitVec 3} {d a : Reg} : OutKept (execRcp f d a s) := h.run h.writesF

theorem WellKept.execRsq {f : BitVec 3} {d a : Reg} : OutKept (execRsq f d a s) := h.run h.writesF

theorem WellKept.execExp2 {f : BitVec 3} {d a : Reg} : OutKept (execExp2 f d a s) := h.run h.writesF

theorem WellKept.execLog2 {f : BitVec 3} {d a : Reg} : OutKept (execLog2 f d a s) := h.run h.writesF

theorem WellKept.execSinpi {f : BitVec 3} {d a : Reg} : OutKept (execSinpi f d a s) := h.run h.writesF

theorem WellKept.execCospi {f : BitVec 3} {d a : Reg} : OutKept (execCospi f d a s) := h.run h.writesF

theorem WellKept.execTanh {f : BitVec 3} {d a : Reg} : OutKept (execTanh f d a s) := h.run h.writesF

theorem WellKept.execSigm {f : BitVec 3} {d a : Reg} : OutKept (execSigm f d a s) := h.run h.writesF

end Sys2Proof.Machine
end

section
/-! What the functions of Sys2Proof/Machine/Engine.lean keep: each leads from a well-kept state to a well-kept one. -/

namespace Sys2Proof.Machine

variable {s : State} (h : WellKept s)
include h

theorem WellKept.unitStop {k ctx prog : Nat} {cause sub : Cause} {ptr : Word} {row : Nat} :
    WellKept (s.unitStop k ctx prog cause sub ptr row) :=
  h.modMat.raiseAt

theorem WellKept.arriveAt {l n : Nat} : WellKept ((s.arriveAt l n).1) := h.placeN

theorem WellKept.askArrive {l : Nat} : WellKept (s.askArrive l) := h.askWrites

theorem WellKept.coreStream {ptr : Word} : WellKept ((s.coreStream ptr).2) := by
  unfold State.coreStream
  split
  · exact h
  · exact { h with }

theorem WellKept.matStream {k : Nat} {g : Eng} {ps : List Word} : WellKept (s.matStream k g ps) := by
  unfold State.matStream
  refine h.foldl fun s p h => ?_
  split
  · exact h
  · exact h.modMat

end Sys2Proof.Machine
end

section
/-! What the functions of Sys2Proof/Machine/Trace.lean keep: each leads from a well-kept state to a well-kept one. -/

namespace Sys2Proof.Machine

variable {s : State} (h : WellKept s)
include h

theorem WellKept.flushTrace {p : Nat} : WellKept (s.flushTrace p) := by
  unfold State.flushTrace
  split
  · extract_lets
    split
    · split
      · exact h
      · exact h.place.placeN.modPart
    · exact h
  · exact h

theorem WellKept.diverge {p : Nat} {l : Option Nat} {idx : Word} : WellKept (s.diverge p l idx) := by
  unfold State.diverge
  extract_lets s1
  have h1 : WellKept s1 := h.modPart.raiseService
  split
  · exact h1
  · exact h1.modLaunch

theorem WellKept.passRecord {p i : Nat} : WellKept (s.passRecord p i) := by
  unfold State.passRecord
  split
  · exact h
  · exact h.placeN

theorem WellKept.beginRecord {p l kind b1 w4 w8 w16 : Nat} : WellKept (s.beginRecord p l kind b1 w4 w8 w16) := h.modPart

theorem WellKept.logged {p : Nat} {l : Option Nat} {kind b1 w4 w8 w16 : Nat} {same : BitVec 256 → Bool} :
    OptKept WellKept (s.logged p l kind b1 w4 w8 w16 same) := by
  unfold State.logged
  split
  · exact h
  · split
    · exact OptKept.ite h.beginRecord.flushTrace trivial
    · split
      · split
        · trivial
        · exact OptKept.ite (OptKept.ite h.diverge h.passRecord) trivial
      · exact h

theorem WellKept.ordered {c major loc : Nat} : OptKept WellKept (s.ordered c major loc) :=
  OptKept.ite h (h.logged.map fun _ h => h.modCtx)

theorem WellKept.received {c sender : Nat} : OptKept WellKept (s.received c sender) :=
  OptKept.ite h (h.logged.map fun _ h => h.modCtx)

end Sys2Proof.Machine
end

section
/-! What the functions of Sys2Proof/Machine/Egress.lean keep: each leads from a well-kept state to a well-kept one. -/

namespace Sys2Proof.Machine

variable {s : State} (h : WellKept s)
include h

theorem WellKept.sendReq {ctx pk reuse : Option Nat} {q : FabPkt} {d : Reg} {z : Nat} {acq : Bool}
    {halo : Option (Nat × Nat × Option Nat)} {mk : Outst → Outst} : OptKept (fun p => WellKept p.2)
        (s.sendReq ctx pk reuse q d z acq halo mk) :=
  OptKept.ite trivial (by exact { h with })

theorem WellKept.remote {cap : BitVec 128} {tag : Bool} {o : Word} {size perm opc mop z : Nat} {opnd : BitVec 128}
    {data : List Byte} {rel : Bool} {d : Reg} {acq : Bool} {maj : Option Nat} {mk : Outst → Outst}
        : (s.remote cap tag o size perm opc mop z opnd data rel d acq maj mk).Kept := by
  unfold State.remote
  split
  · trivial
  · extract_lets rl
    have hrl : WellKept rl.1 := by
      unfold rl
      split
      · exact h.release
      · exact h
    clear_value rl
    split
    · exact hrl
    · next s1 =>
      have h1 : WellKept s1 := hrl
      extract_lets _ _ told
      split
      · exact h1
      · have ho : OptKept WellKept (match maj with
            | some m => if told then some s1 else s1.ordered s1.cur m 0
            | none => some s1) := by
          cases maj with
          | none => exact h1
          | some m =>
            change OptKept WellKept (if told then some s1 else s1.ordered s1.cur m 0)
            split
            · exact h1
            · exact h1.ordered
        split
        · exact h1
        · next s2 he =>
          split
          · exact h1
          · next n s3 he3 => exact ((ho.get he).sendReq.get he3).modCtx

theorem WellKept.peerFirst {c : Nat} {lines : List Nat} : OptKept WellKept (s.peerFirst c lines) :=
  OptKept.ite h.flushLines h

theorem WellKept.peerOp {ptr : Word} {e : HEntry} {off size perm opc mop z : Nat} {opnd : BitVec 128} {data : List Byte}
    {rel : Bool} {d : Reg} {acq : Bool} {maj elem : Option Nat}
        : (s.peerOp ptr e off size perm opc mop z opnd data rel d acq maj elem).Kept := by
  unfold State.peerOp
  split
  · trivial
  · extract_lets
    split
    · next x x _ he =>
        trivial
    · exact h
    · next s1 _ he => exact Res.Kept.ite (h.peerFirst.get he) (h.peerFirst.get he).remote

theorem WellKept.noteElem {c k v : Nat} {bad : Bool} : WellKept (s.noteElem c k v bad) := by
  unfold State.noteElem
  exact h.modCtx

theorem WellKept.stepSend {ptr : Word} {hh : HEntry} {off n k : Nat} {data : Option (List Byte)} :
    (s.stepSend ptr hh off n k data).Kept := by
  unfold State.stepSend
  extract_lets
  split
  · exact h.peerOp
  · exact h.peerOp

theorem WellKept.peerBytes {ptr : Word} {hh : HEntry} {off n : Nat} :
    ExcKept Res.Kept (fun p => WellKept p.2) (s.peerBytes ptr hh off n) := by
  unfold State.peerBytes
  extract_lets
  split
  · exact h.stepSend
  · exact { h with }

theorem WellKept.storeLost {tid : Nat} {x : Exc} : WellKept (s.storeLost tid x) := by
  unfold State.storeLost
  split
  · exact h.modThread
  · extract_lets
    split
    · exact h
    · exact h.unitStop

theorem WellKept.pumpPeer : WellKept s.pumpPeer := by
  obtain ⟨resolve, hresolve⟩ : ∃ f, f = State.resolve := ⟨_, rfl⟩
  obtain ⟨peerCap, hcap⟩ : ∃ f, f = State.peerCap := ⟨_, rfl⟩
  unfold State.pumpPeer
  rw [← hresolve, ← hcap]
  split
  · exact h
  · extract_lets _ _ s1
    have h1 : WellKept s1 := h.modPkg
    split
    · split
      · exact h1.storeLost
      · split
        · exact h1.storeLost
        · split
          · exact h
          · next n s2 he => exact h1.sendReq.get he
    · exact h1.storeLost
    · exact h1.storeLost

end Sys2Proof.Machine
end

section
/-! What the functions of Sys2Proof/Machine/Routes.lean keep: each leads from a well-kept state to a well-kept one. -/

namespace Sys2Proof.Machine

variable {s : State} (h : WellKept s)
include h

theorem WellKept.modOport {p : Nat} {f : OPort → OPort} : WellKept (s.modOport p f) := { h with }

end Sys2Proof.Machine
end

section
/-! What the functions of Sys2Proof/Machine/MatrixQueue.lean keep: each leads from a well-kept state to a well-kept one. -/

namespace Sys2Proof.Machine

variable {s : State} (h : WellKept s)
include h

theorem WellKept.farDrop {k ticket : Nat} : WellKept (s.farDrop k ticket) := WellKept.ite h h.modMat

theorem WellKept.mxSubmit {r : BitVec 512} {d : Reg} : (s.mxSubmit r d).Kept := by
  unfold State.mxSubmit
  extract_lets
  split
  · trivial
  · split
    · exact h
    · split
      · next s1 he => exact h.release.of_fst he
      · next s1 he => exact (h.release.of_fst he).modMat.setReg

theorem WellKept.mxWindowStore {off : Nat} {v : Word} : (s.mxWindowStore off v).Kept := by
  unfold State.mxWindowStore
  extract_lets _ _ s1
  have h1 : WellKept s1 := h.modMat
  split
  · split
    · trivial
    · exact h1.mxSubmit
  · exact h1

theorem WellKept.execMxqWindowSubmit {sr : Nat} {v : Word} : OutKept (execMxqWindowSubmit sr v s) := h.run h.mxWindowStore

theorem WellKept.execMxwait {a : Reg} : OutKept (execMxwait a s) := h.run (Res.Kept.ite trivial (Res.Kept.ite h.acquire h))

theorem WellKept.execMxwaitAll : OutKept (execMxwaitAll s) := h.run (Res.Kept.ite h.acquire h)

theorem WellKept.execMxstat {d a : Reg} : OutKept (execMxstat d a s) := by
  unfold Machine.execMxstat
  refine h.run ?_
  split
  · trivial
  · exact h.setReg

theorem WellKept.execMxstatResume : OutKept (execMxstatResume s) := h.run (WellKept.ite h.modMat h)

theorem WellKept.execMxstatDrop : OutKept (execMxstatDrop s) := h.run (Res.Kept.ite h.modMat trivial)

theorem WellKept.execMxstatSdrop : OutKept (execMxstatSdrop s) := h.run (Res.Kept.ite h.modMat h)

end Sys2Proof.Machine
end

section
/-! What the functions of Sys2Proof/Machine/Matrix.lean keep: each leads from a well-kept state to a well-kept one. -/

namespace Sys2Proof.Machine

variable {s : State} (h : WellKept s)
include h

theorem WellKept.farAsk {k : Nat} {c : MCmd} {need n : Nat} {ptr : Word} {v : BitVec 128} :
    WellKept (s.farAsk k c need n ptr v) := by
  unfold State.farAsk
  split
  · extract_lets
    split
    · exact h
    · next fst s1 he => exact h.sendReq.get he
  · exact h

theorem WellKept.modCmd {k ticket : Nat} {f : MCmd → MCmd} : WellKept (s.modCmd k ticket f) := h.modMat

theorem WellKept.mxStop {k : Nat} {c : MCmd} {prog : Nat} {cause sub : Cause} {ptr : Word} {row : Nat} :
    WellKept (s.mxStop k c prog cause sub ptr row) :=
  h.farDrop.unitStop

theorem WellKept.mxGo {k : Nat} {c : MCmd} {go : State} (hgo : WellKept go) : WellKept (s.mxGo k c go) := by
  unfold State.mxGo
  split
  · exact hgo.correct
  · exact h.errMet.mxStop
  · exact h.farAsk
  · exact h

theorem WellKept.mxStep {k kind : Nat} {go : MCmd → State} (hgo : ∀ a, WellKept (go a)) : OutKept (s.mxStep k kind go) := by
  unfold State.mxStep
  split
  · exact h
  · exact h.mxGo (hgo _)

theorem WellKept.mxDone {k : Nat} {c : MCmd} : WellKept (s.mxDone k c) := h.modCmd

theorem WellKept.mmaChunk {k : Nat} {c : MCmd} : WellKept (s.mmaChunk k c) := by
  unfold State.mmaChunk
  extract_lets
  split
  · exact h.modMat.mxDone
  · exact WellKept.modCmd (WellKept.matStream (WellKept.farDrop (WellKept.modMat (by exact { h with }))))

theorem WellKept.execMma {core : Nat} : OutKept (execMma core s) := h.mxStep (fun _ => h.mmaChunk)

theorem WellKept.execMmai {core : Nat} : OutKept (execMmai core s) := h.mxStep (fun _ => h.mmaChunk)

theorem WellKept.execMmaq {core : Nat} : OutKept (execMmaq core s) := h.mxStep (fun _ => h.mmaChunk)

theorem WellKept.execScaleMissFill {core : Nat} : OutKept (execScaleMissFill core s) := by
  obtain ⟨meet, hmeet⟩ : ∃ f, f = State.scaleMeet := ⟨_, rfl⟩
  unfold Machine.execScaleMissFill
  rw [← hmeet]
  split
  · exact h
  · extract_lets
    split
    · exact h
    · split
      · exact WellKept.ite h.errMet.mxStop h
      · exact h.farAsk
      · exact h
      · exact h.correct.modMat.matStream

theorem WellKept.tileMoved {k : Nat} {c : MCmd} : WellKept (s.tileMoved k c) := h.farDrop.modCmd

theorem WellKept.execTload {core : Nat} : OutKept (execTload core s) := h.mxStep (fun _ => h.modMat.matStream.tileMoved)

theorem WellKept.execTstore {core : Nat} : OutKept (execTstore core s) := by
  unfold Machine.execTstore
  refine h.mxStep fun c => ?_
  extract_lets _ _ _ _ _ s0 s1 s2
  have h0 : WellKept s0 := h.queuePeer
  have h1 : WellKept s1 := WellKept.ite h0 h0.place
  have h2 : WellKept s2 := WellKept.ite h1 { h1 with }
  exact WellKept.ite h.askWrites h2.tileMoved

theorem WellKept.execTzero {core : Nat} : OutKept (execTzero core s) := h.mxStep (fun _ => h.modMat.mxDone)

theorem WellKept.execTcfg {core : Nat} : OutKept (execTcfg core s) := h.mxStep (fun _ => h.modMat.mxDone)

theorem WellKept.execTrow {core : Nat} : OutKept (execTrow core s) := h.mxStep (fun _ => h.farDrop.modMat.matStream.modCmd)

theorem WellKept.execGangJoin {core : Nat} : OutKept (execGangJoin core s) := by
  unfold Machine.execGangJoin
  split
  · exact h
  · extract_lets s1
    have h1 : WellKept s1 := h.modCmd
    split
    · refine h1.foldl fun s k h => ?_
      split
      · exact h
      · exact h.modCmd.mxStop
    · exact h1

theorem WellKept.execGangJoinComplete {core : Nat} : OutKept (execGangJoinComplete core s) := by
  unfold Machine.execGangJoinComplete
  split
  · exact h
  · extract_lets
    split
    · refine h.foldl fun s k h => ?_
      split
      · exact h
      · exact h.modMat.mxDone
    · exact h

theorem WellKept.execGangReduce {core : Nat} : OutKept (execGangReduce core s) := by
  unfold Machine.execGangReduce
  refine h.mxStep (fun c => ?_)
  extract_lets
  split
  · exact h.mxDone
  · extract_lets
    split
    · exact h
    · extract_lets
      split
      · exact h.farDrop.modCmd
      · split
        · exact h.askWrites
        · split
          · exact WellKept.ite h.mxStop h
          · exact h.place.modCmd

theorem WellKept.execMatrixCompletion {core : Nat} : OutKept (execMatrixCompletion core s) := by
  unfold Machine.execMatrixCompletion
  split
  · exact h
  · extract_lets sync
    split
    · exact h
    · split
      · clear_value sync
        split
        · exact h
        · exact h.askWrites
      · clear_value sync
        split
        · exact h.modMat
        · exact h.modMat.arriveAt

end Sys2Proof.Machine
end

section
/-! What the functions of Sys2Proof/Machine/Window.lean keep: each leads from a well-kept state to a well-kept one. -/

namespace Sys2Proof.Machine

variable {s : State} (h : WellKept s)
include h

theorem WellKept.areaWrite {p off : Nat} {bs : List Byte} : WellKept (s.areaWrite p off bs) := by
  unfold State.areaWrite
  split
  · exact h
  · exact h.place

theorem WellKept.areaRows {p off : Nat} {rows : List (List Byte)} : WellKept (s.areaRows p off rows) :=
  List.foldlRecOn (motive := fun a : State × Nat => WellKept a.1) rows _ h fun _ ha _ _ => ha.areaWrite

theorem WellKept.fifoReply {c : Nat} {v : Word} {r : Reply} : WellKept (s.fifoReply c v r) := by
  unfold State.fifoReply
  split
  · split
    · exact WellKept.ite h.noteElem.giveReply h.giveReply
    · exact h.giveReply
  · exact h.giveReply

omit h in
theorem WellKept.serveFifo {clu b n : Nat} {s : State} (h : WellKept s) : WellKept (State.serveFifo clu b n s) := by
  induction n generalizing s with
  | zero => exact h
  | succ n ih =>
    unfold State.serveFifo
    extract_lets
    split
    · exact h
    · split
      · exact ih h.modClu.fifoReply
      · exact h
    · split
      · exact h
      · exact ih h.modClu.fifoReply

theorem WellKept.serveBank {clu b : Nat} : WellKept (s.serveBank clu b) := WellKept.ite h h.serveFifo

theorem WellKept.pushWord {clu b : Nat} {v : Word} : WellKept (s.pushWord clu b v) := h.modClu.serveBank

theorem WellKept.popWord {clu b : Nat} : WellKept (s.popWord clu b) := h.modClu.serveBank

theorem WellKept.execFifoPush {clu bank : Nat} {v : Word} : OutKept (execFifoPush clu bank v s) := WellKept.ite h.pushWord h

theorem WellKept.execFifoPop {clu bank : Nat} : OutKept (execFifoPop clu bank s) := WellKept.ite h.popWord h

theorem WellKept.writeOpaque {p off n : Nat} : WellKept (s.writeOpaque p off n) := WellKept.areaWrite (by exact { h with })

theorem WellKept.saveBank {clu : Nat} {hh : BankHold} : WellKept (s.saveBank clu hh) := by
  unfold State.saveBank
  exact WellKept.modClu (by exact { h.areaRows.writeOpaque with })

theorem WellKept.saveHeldAt {l : Nat} : WellKept (s.saveHeldAt l) := by
  unfold State.saveHeldAt
  extract_lets
  split
  · exact h.saveBank
  · exact h

theorem WellKept.bankStore {clu : Nat} {v : Word} : OptKept WellKept (s.bankStore clu v) := OptKept.ite trivial h.modClu

theorem WellKept.execBankmodeWrite {clu : Nat} {v : Word} : OutKept (execBankmodeWrite clu v s) :=
  OptKept.getD (WellKept.bankStore (h.foldl fun _ _ h => h.saveBank)) h

theorem WellKept.clearBank {clu b : Nat} : WellKept (s.clearBank clu b) :=
  { h with
    mem := Memory.filter_wf h.mem _
    empties := h.empties.filter _
    mtags := h.mtags.filter _
    poison := h.poison.filter _
    ecc := h.ecc.filter _ }

theorem WellKept.squeezeTagged {clu : Nat} : WellKept (s.squeezeTagged clu) := by
  unfold State.squeezeTagged
  extract_lets
  refine h.foldl fun s t' h => ?_
  extract_lets out
  have hout : WellKept out := h.modClu
  split
  · exact WellKept.ite hout.place.hitReaders h.restartSpilled
  · exact WellKept.ite hout.place h.restart

theorem WellKept.leaveCache {clu bank : Nat} : WellKept (s.leaveCache clu bank) :=
  WellKept.squeezeTagged (h.drainThroughs.modClu.foldl fun _ _ h => h.makeRoom)

theorem WellKept.serveRetries {clu b : Nat} : WellKept (s.serveRetries clu b) := h.serveWords

theorem WellKept.execBankModeChangeDone {clu bank : Nat} : OutKept (execBankModeChangeDone clu bank s) := by
  unfold Machine.execBankModeChangeDone
  extract_lets _ _ _ _ s1 s2
  have h1 : WellKept s1 := h.modClu
  have h2 : WellKept s2 := WellKept.ite h1 (WellKept.modClu (WellKept.clearBank (WellKept.ite h1.leaveCache h1)))
  have hfull : WellKept (s2.serveBank clu bank) := h2.serveBank
  exact WellKept.ite h (WellKept.ite h.askWrites
    (WellKept.ite hfull (WellKept.serveRetries (WellKept.modClu (h2.foldl fun _ _ h => h.giveReply)))))

theorem WellKept.windowTake {off n : Nat} : OptKept (fun p => WellKept p.2) (s.windowTake off n) :=
  OptKept.ite (OptKept.ite h.popWord trivial) (OptKept.ite h h)

theorem WellKept.windowLoad {ptr : Word} {off n z : Nat} {d : Reg} : (s.windowLoad ptr off n z d).Kept := by
  unfold State.windowLoad
  split
  · next c x _ he =>
      trivial
  · next v s1 _ he => exact (h.windowTake.get he).setReg
  · exact h.modClu

theorem WellKept.windowStore {ptr : Word} {off n : Nat} {v : Word} : (s.windowStore ptr off n v).Kept := by
  unfold State.windowStore
  split
  · trivial
  · split
    · exact h.mxWindowStore
    · split
      · split
        · trivial
        · next s1 he =>
            split
            · exact h
            · exact h.bankStore.get he
      · exact Res.Kept.ite h.pushWord h.modClu

theorem WellKept.ownBytes {ptr : Word} {n : Nat} {v : State} :
    ExcKept Stop.Kept (fun p => WellKept p.2) (s.ownBytes ptr n v) := by
  unfold State.ownBytes
  extract_lets
  split
  · next e he => exact access_kept.err he
  · exact ExcKept.ite trivial h.coreStream.loadBytes
  · split
    · next x he => exact gridMem_kept.err he
    · exact ExcKept.ite trivial h.coreStream.loadBytes
    · trivial
  · split
    · trivial
    · exact h
  · split
    · next r he => exact h.peerBytes.err he
    · next bs s1 he => exact h.peerBytes.ok he
  · split
    · trivial
    · exact h

theorem WellKept.ownRead {ptr : Word} {v : State} : ExcKept Stop.Kept (fun p => WellKept p.2) (s.ownRead ptr v) := by
  unfold State.ownRead
  split
  · next e he => exact h.ownBytes.err he
  · next bs s1 he => exact h.ownBytes.ok he

theorem WellKept.execMxq {d a : Reg} : OutKept (execMxq d a s) := by
  unfold Machine.execMxq
  refine h.run ?_
  split
  · next e he => exact h.res (h.ownRead.err he)
  · next r s1 he => exact (h.ownRead.ok he).mxSubmit

end Sys2Proof.Machine
end

section
/-! What the functions of Sys2Proof/Machine/Memory.lean keep: each leads from a well-kept state to a well-kept one. -/

namespace Sys2Proof.Machine

variable {s : State} (h : WellKept s)
include h

theorem WellKept.execStreamIdleEnd {unit k : Nat} : OutKept (execStreamIdleEnd unit k s) :=
  WellKept.ite h.modCore (WellKept.ite h.modMat (by exact { h with }))

theorem WellKept.tagLine {c line : Nat} {bs : List (Nat × Byte)} : WellKept (s.tagLine c line bs) := h.modClu.makeRoom

theorem WellKept.loadAt {ptr : Word} {segs : List (Nat × Nat)} {keep : Bool} {fill : Word → State → State}
    (hfill : ∀ a t, WellKept t → WellKept (fill a t)) : (s.loadAt ptr segs keep fill).Kept := by
  unfold State.loadAt
  extract_lets
  split
  · exact h
  · split
    · exact h
    · exact Res.Kept.ite h.coreStream.loadBytes (hfill _ _
        (WellKept.ite h.coreStream.loadBytes.modCtx h.coreStream.loadBytes))

omit h in
theorem Res.thenAcquire_kept {r : Res} {scope : Nat} (hr : r.Kept) : (Res.thenAcquire r scope).Kept := by
  unfold Res.thenAcquire
  split
  · next s' => exact WellKept.acquire (hr)
  · exact hr

theorem WellKept.load {ptr : Word} {d : Reg} {z : Nat} {acq : Bool} {scope : Nat} : (s.load ptr d z acq scope).Kept := by
  unfold State.load
  extract_lets _ s1
  have h1 : WellKept s1 := WellKept.ite h.acquire h
  split
  · next e he => exact h1.res (access_kept.err he)
  · exact h1.loadAt (fun _ _ h => WellKept.ite h.setReg.acquire h.setReg)
  · exact Res.Kept.ite (Res.thenAcquire_kept h1.windowLoad) h1.windowLoad
  · split
    · trivial
    · exact WellKept.ite h1.setReg.acquire h1.setReg
  · split
    · next r he => exact h1.res (gridMem_kept.err he)
    · exact h1.loadAt (fun _ _ h => WellKept.ite h.setReg.acquire h.setReg)
    · trivial
  · exact h1.peerOp

theorem WellKept.execLd {scp o : BitVec 2} {z : BitVec 3} {d a : Reg} {p : Imm 8} : OutKept (execLd scp o z d a p s) :=
  h.run h.load

theorem WellKept.storeAt {bs : List (Nat × Byte)} {ord : Nat} {scope : BitVec 2} {keep : Bool} :
    (s.storeAt bs ord scope keep).Kept := by
  unfold State.storeAt
  extract_lets
  split
  · exact Res.Kept.ite h (h.foldl fun _ _ h => h.tagLine)
  · split
    · exact h.askHeld
    · next s2 he => exact ((WellKept.bufferBytes (WellKept.ite h.pushMarker h)).get he).untagBytes

theorem WellKept.storePeer {ptr : Word} {e : HEntry} {off : Nat} {bs : List Byte} {ord : Nat} {scope : BitVec 2} :
    (s.storePeer ptr e off bs ord scope).Kept := by
  unfold State.storePeer
  split
  · trivial
  · split
    · trivial
    · exact h.storeAt

theorem WellKept.store {ptr v : Word} {z ord : Nat} {scope : BitVec 2} : (s.store ptr v z ord scope).Kept := by
  unfold State.store
  extract_lets
  split
  · trivial
  · split
    · next e he => exact h.res (access_kept.err he)
    · exact h.coreStream.storeAt
    · split
      · exact h
      · split
        · split
          · next s1 he => exact h.release.of_fst he
          · next s1 he => exact (h.release.of_fst he).windowStore
        · exact h.windowStore
    · exact Res.Kept.ite h h.storePeer
    · trivial

theorem WellKept.execSt {scp o : BitVec 2} {z : BitVec 3} {d a : Reg} {p : Imm 8} : OutKept (execSt scp o z d a p s) :=
  h.run h.store

theorem WellKept.execFence {scp k : BitVec 2} : OutKept (execFence scp k s) := by
  unfold Machine.execFence
  exact h.run (WellKept.ite (WellKept.acquire (WellKept.ite h.pushMarker h)) (WellKept.ite h.pushMarker h))

theorem WellKept.setPair {d : Reg} {v : BitVec 128} {t : Bool} : WellKept (s.setPair d v t) := h.modCtx

theorem WellKept.execLdc {scp o : BitVec 2} {d a : Reg} {p : Imm 8} : OutKept (execLdc scp o d a p s) := by
  unfold Machine.execLdc
  refine h.run ?_
  extract_lets
  split
  · next e he => exact h.res (access_kept.err he)
  · extract_lets
    split
    · exact h.askFlush
    · next s1 he =>
        extract_lets s1 s2 _ s3
        have h1 : WellKept s1 := (h.flushLines.get he).coreStream.placeReply
        have h2 : WellKept s2 := WellKept.ite h1.acquire h1
        have h3 : WellKept s3 := h2.setPair
        exact WellKept.ite h3.acquire h3
  · trivial

theorem WellKept.tagEntry {c l : Nat} {t : Bool} : WellKept (s.tagEntry c l t) := by
  unfold State.tagEntry
  exact h.modCtx

theorem WellKept.execStc {scp o : BitVec 2} {d a : Reg} {p : Imm 8} : OutKept (execStc scp o d a p s) := by
  unfold Machine.execStc
  refine h.run ?_
  extract_lets
  split
  · next e he => exact h.res (access_kept.err he)
  · extract_lets
    split
    · next na s1 he =>
        split
        · next s1 he1 => exact ((h.coreStream.of_snd he).storeAt.of_eq he1).tagEntry
        · exact (h.coreStream.of_snd he).storeAt
  · trivial

omit h in
theorem reachLine_kept {ptr : Word} {need : Nat} {wr rd : Bool} :
    ExcKept Stop.Kept (fun _ => True) (s.reachLine ptr need wr rd) := by
  unfold State.reachLine
  split
  · exact gridMem_kept
  · exact access_kept

theorem WellKept.execPref {scp : BitVec 2} {a : Reg} {p : Imm 4} : OutKept (execPref scp a p s) := by
  unfold Machine.execPref
  refine h.run ?_
  split
  · exact WellKept.ite h.coreStream.fillLine h.coreStream
  · exact h

theorem WellKept.execClean {scp : BitVec 2} {a : Reg} {p : Imm 4} : OutKept (execClean scp a p s) := by
  unfold Machine.execClean
  refine h.run ?_
  split
  · next e he => exact h.res (reachLine_kept.err he)
  · extract_lets
    split
    · exact h
    · split
      · exact Res.Kept.ite h (Res.Kept.ite h.askHeld (h.modCtx.cumulate.foldl fun _ _ h => h.clusterWrite))
      · split
        · exact h.askFlush
        · next s1 he => exact h.flushLines.get he
  · exact h

theorem WellKept.execInval {_scp : BitVec 2} {a : Reg} {p : Imm 4} : OutKept (execInval _scp a p s) := by
  unfold Machine.execInval
  refine h.run ?_
  split
  · next e he => exact h.res (reachLine_kept.err he)
  · exact Res.Kept.ite h.modClu (Res.Kept.ite h.askWrites h.throughsHome.modClu)
  · exact h

theorem WellKept.execInvalCluster {_scp : BitVec 2} {d a : Reg} {p : Imm 4} : OutKept (execInvalCluster _scp d a p s) := by
  unfold Machine.execInvalCluster
  refine h.run ?_
  split
  · next e he => exact h.res (reachLine_kept.err he)
  · extract_lets
    split
    · trivial
    · split
      · exact h.invalidate
      · exact h

theorem WellKept.execHomeWrite {src : WriteSrc} : OutKept (execHomeWrite src s) := by
  unfold Machine.execHomeWrite
  split
  · split
    · exact h
    · extract_lets
      split
      · exact h.askHeld
      · exact WellKept.writeEntry (WellKept.drainShared (WellKept.modCtx (by exact { h with })))
  · split
    · exact h
    · exact WellKept.ite h.askWrite (WellKept.ite h h.place.modClu)

theorem WellKept.execReleaseMarkerComplete {c : Nat} : OutKept (execReleaseMarkerComplete c s) := h.markerDone

end Sys2Proof.Machine
end

section
/-! What the functions of Sys2Proof/Machine/Atomic.lean keep: each leads from a well-kept state to a well-kept one. -/

namespace Sys2Proof.Machine

variable {s : State} (h : WellKept s)
include h

theorem WellKept.atPlace {ptr : Word} {size need al : Nat} {r : Reach} {wr rd : Bool} {rel : Option Nat}
    {atMem : State → List Nat → Res} {atPeer : State → HEntry → Nat → Res} (hatMem : ∀ t b, WellKept t → (atMem t b).Kept)
        (hatPeer : ∀ t b c, WellKept t → (atPeer t b c).Kept)
            : (s.atPlace ptr size need al r wr rd rel atMem atPeer).Kept := by
  have hrel : WellKept (match rel with
      | none => (s, true)
      | some k => s.release s.cur k).1 := by
    cases rel with
    | none => exact h
    | some k => exact h.release
  unfold State.atPlace
  split
  · next e he => exact h.res (access_kept.err he)
  · exact hatPeer _ _ _ h
  · extract_lets
    split
    · next s1 he => exact hrel.of_fst he
    · next s1 he =>
      have h1 : WellKept s1 := hrel.of_fst he
      split
      · exact h1
      · split
        · exact h1.askFlush
        · next s2 he2 =>
          have h2 : WellKept s2 := h1.flushLines.get he2
          exact Res.Kept.ite h1.askWrite (hatMem _ _ h2.coreStream.placeReply)
  · trivial

theorem WellKept.writeAt {ls : List Nat} {v : Nat} : WellKept (s.writeAt ls v) := h.place

theorem WellKept.dropCopy {l : Nat} : WellKept (s.dropCopy l) := h.evictLine

theorem WellKept.acqIf {p : Bool} {scope : Nat} : WellKept (s.acqIf p scope) := WellKept.ite h.acquire h

theorem WellKept.inOrder {major : Nat} {ls : List Nat} {go : State → Res} (hgo : ∀ t, WellKept t → (go t).Kept) :
    (s.inOrder major ls go).Kept := by
  unfold State.inOrder
  split
  · exact h
  · next s1 he => exact hgo _ (h.ordered.get he)

theorem WellKept.amo {op : Nat} {scp o : BitVec 2} {z : BitVec 3} {d a : Reg} {p : Imm 4} :
    (s.amo op scp o z d a p).Kept := by
  unfold State.amo
  refine h.atPlace (fun t ls ht => ?_) (fun _ _ _ ht => ht.peerOp)
  exact Res.Kept.ite (ht.inOrder fun _ ht => ht.writeAt.setReg.acqIf) ht.writeAt.setReg.acqIf

theorem WellKept.execAmoAdd {scp o : BitVec 2} {z : BitVec 3} {d a : Reg} {p : Imm 4} :
    OutKept (execAmoAdd scp o z d a p s) :=
  h.run h.amo

theorem WellKept.execAmoAnd {scp o : BitVec 2} {z : BitVec 3} {d a : Reg} {p : Imm 4} :
    OutKept (execAmoAnd scp o z d a p s) :=
  h.run h.amo

theorem WellKept.execAmoOr {scp o : BitVec 2} {z : BitVec 3} {d a : Reg} {p : Imm 4} : OutKept (execAmoOr scp o z d a p s) :=
  h.run h.amo

theorem WellKept.execAmoXor {scp o : BitVec 2} {z : BitVec 3} {d a : Reg} {p : Imm 4} :
    OutKept (execAmoXor scp o z d a p s) :=
  h.run h.amo

theorem WellKept.execAmoSwap {scp o : BitVec 2} {z : BitVec 3} {d a : Reg} {p : Imm 4} :
    OutKept (execAmoSwap scp o z d a p s) :=
  h.run h.amo

theorem WellKept.execAmoMin {scp o : BitVec 2} {z : BitVec 3} {d a : Reg} {p : Imm 4} :
    OutKept (execAmoMin scp o z d a p s) :=
  h.run h.amo

theorem WellKept.execAmoMax {scp o : BitVec 2} {z : BitVec 3} {d a : Reg} {p : Imm 4} :
    OutKept (execAmoMax scp o z d a p s) :=
  h.run h.amo

theorem WellKept.execAmoMinn {scp o : BitVec 2} {z : BitVec 3} {d a : Reg} {p : Imm 4} :
    OutKept (execAmoMinn scp o z d a p s) :=
  h.run h.amo

theorem WellKept.execAmoMaxn {scp o : BitVec 2} {z : BitVec 3} {d a : Reg} {p : Imm 4} :
    OutKept (execAmoMaxn scp o z d a p s) :=
  h.run h.amo

theorem WellKept.cas {z : BitVec 3} {scp o : BitVec 2} {d a b : Reg} {p : Imm 32} : (s.cas z scp o d a b p).Kept := by
  unfold State.cas
  refine h.atPlace (fun t ls ht => ht.inOrder fun _ ht => ?_) (fun _ _ _ ht => ht.peerOp)
  exact WellKept.acqIf (WellKept.setReg (WellKept.ite ht.writeAt ht.dropCopy))

theorem WellKept.execCas {z : BitVec 3} {scp o : BitVec 2} {d a b : Reg} {p : Imm 32} :
    OutKept (execCas z scp o d a b p s) :=
  h.run h.cas

theorem WellKept.lrTurn {c line : Nat} : WellKept ((s.lrTurn c line).2) := by
  unfold State.lrTurn
  split
  · exact h
  · extract_lets s1
    have h1 : WellKept s1 := h.modDir
    split
    · exact { h1 with }
    · exact h1

theorem WellKept.lr {scp o : BitVec 2} {z : BitVec 3} {d a : Reg} {p : Imm 8} : (s.lr scp o z d a p).Kept := by
  unfold State.lr
  extract_lets _ _ s1
  have h1 : WellKept s1 := WellKept.ite h.acquire h
  refine h1.atPlace (fun t ls ht => ?_) (fun t e off ht => ?_)
  · extract_lets
    split
    · next s1 he => exact ht.lrTurn.of_snd he
    · next s1 he => exact (ht.lrTurn.of_snd he).inOrder (fun _ h => h.dropCopy.modCtx.setReg.acqIf)
  · split
    · next s1 m he => exact (ht.peerOp.of_eq he).modCtx
    · exact ht.peerOp

theorem WellKept.execLr {scp o : BitVec 2} {z : BitVec 3} {d a : Reg} {p : Imm 8} : OutKept (execLr scp o z d a p s) :=
  h.run h.lr

theorem WellKept.unlock {line : Nat} : WellKept (s.unlock line) := h.modDir.serveWords

theorem WellKept.sc {scp o : BitVec 2} {z : BitVec 3} {d a : Reg} {p : Imm 8} : (s.sc scp o z d a p).Kept := by
  unfold State.sc
  extract_lets
  refine h.atPlace (fun t ls ht => ht.inOrder fun t ht => ?_) (fun t e off ht => ?_)
  · extract_lets _ _ s1 s2
    have h1 : WellKept s1 := WellKept.ite ht.writeAt ht.dropCopy
    have h2 : WellKept s2 := WellKept.ite h1.unlock h1
    exact h2.modCtx.setReg
  · extract_lets
    split
    · next s1 m he => exact WellKept.modCtx (ht.peerOp.of_eq he)
    · exact ht.peerOp

theorem WellKept.execSc {scp o : BitVec 2} {z : BitVec 3} {d a : Reg} {p : Imm 8} : OutKept (execSc scp o z d a p s) :=
  h.run h.sc

theorem WellKept.execLrLockExpiry {line : Nat} : OutKept (execLrLockExpiry line s) :=
  WellKept.ite h.unlock (WellKept.ite h.modDir h)

theorem WellKept.waitrs {scp o : BitVec 2} {z : BitVec 3} {d a : Reg} {p : Imm 8} : (s.waitrs scp o z d a p).Kept := by
  unfold State.waitrs
  extract_lets
  exact h.atPlace (fun _ _ h => Res.Kept.ite h.dropCopy.setReg.acqIf h.modDir) (fun _ _ _ h => h.peerOp)

theorem WellKept.execWaitrs {scp o : BitVec 2} {z : BitVec 3} {d a : Reg} {p : Imm 8} :
    OutKept (execWaitrs scp o z d a p s) :=
  h.run h.waitrs

theorem WellKept.red {f : BitVec 5} {scp o : BitVec 2} {a b : Reg} {p : Imm 32} : (s.red f scp o a b p).Kept := by
  unfold State.red
  extract_lets
  refine h.atPlace (fun t ls ht => ?_) (fun _ _ _ h => h.peerOp)
  split
  · trivial
  · exact ht.writeAt

theorem WellKept.execRed {f : BitVec 5} {scp o : BitVec 2} {a b : Reg} {p : Imm 32} : OutKept (execRed f scp o a b p s) :=
  h.run h.red

theorem WellKept.xsrd {k : BitVec 1} {f : BitVec 5} {scp o : BitVec 2} {d a : Reg} {p : Imm 32} :
    (s.xsrd k f scp o d a p).Kept := by
  unfold State.xsrd
  extract_lets _ _ s0
  have h0 : WellKept s0 := WellKept.ite h.acquire h
  refine h0.atPlace (fun t ls ht => ?_) (fun _ _ _ ht => ht.peerOp)
  exact WellKept.acqIf (WellKept.modCtx (WellKept.setReg (WellKept.ite ht.writeAt ht.dropCopy)))

theorem WellKept.execXsrd {k : BitVec 1} {f : BitVec 5} {scp o : BitVec 2} {d a : Reg} {p : Imm 32} :
    OutKept (execXsrd k f scp o d a p s) :=
  h.run h.xsrd

theorem WellKept.feArrive {r : FeReq} {wr : Writer} {perform : Word → State → State}
    (hperform : ∀ a t, WellKept t → WellKept (perform a t)) : OptKept WellKept (s.feArrive r wr perform) := by
  unfold State.feArrive
  split
  · exact hperform _ _ h.fePerform.serveWords
  · exact OptKept.ite (WellKept.modClu (WellKept.ite h.askWrites h)) trivial

theorem WellKept.fe {m : FeMode} {scp : BitVec 2} {d a : Reg} {p : Imm 4} : (s.fe m scp d a p).Kept := by
  unfold State.fe
  refine h.atPlace (fun t ls ht => ?_) (fun _ _ _ ht => ht.peerOp)
  have hnow {t : State} (ht : WellKept t) {w : Writer} {l : Nat} {v : Word} {ls : List Nat} :
      WellKept ((t.fePerform w l m v).2.serveWords ls) := ht.fePerform.serveWords
  exact Res.Kept.ite (ht.inOrder fun _ ht => WellKept.acqIf (WellKept.ite (hnow ht).dropCopy.setReg (hnow ht)))
    (OptKept.getD (ht.feArrive fun _ _ h => h) ht)

theorem WellKept.execLdfeRead {scp : BitVec 2} {d a : Reg} {p : Imm 4} : OutKept (execLdfeRead scp d a p s) := h.run h.fe

theorem WellKept.execLdfeTake {scp : BitVec 2} {d a : Reg} {p : Imm 4} : OutKept (execLdfeTake scp d a p s) := h.run h.fe

theorem WellKept.execStfePut {scp : BitVec 2} {d a : Reg} {p : Imm 4} : OutKept (execStfePut scp d a p s) := h.run h.fe

theorem WellKept.execStfeFill {scp : BitVec 2} {d a : Reg} {p : Imm 4} : OutKept (execStfeFill scp d a p s) := h.run h.fe

theorem WellKept.execStfeClear {scp : BitVec 2} {a : Reg} {p : Imm 4} : OutKept (execStfeClear scp a p s) := h.run h.fe

theorem WellKept.feLogged {r : FeReq} : OptKept WellKept (s.feLogged r) := OptKept.ite h.ordered h

theorem WellKept.feListed {c l : Nat} : WellKept (s.feListed c l) := by
  unfold State.feListed
  split
  · exact h
  · split
    · split
      · exact h
      · next s1 he => exact (h.feLogged.get he).serveOne.serveWords
    · exact h

theorem WellKept.execFeResend {c : Nat} : OutKept (execFeResend c s) := by
  unfold Machine.execFeResend
  split
  · exact h
  · next r a m d p l he =>
    split
    · exact h.feListed
    · extract_lets
      split
      · exact h
      · next s1 he1 =>
        have h1 : WellKept s1 := by
          split at he1
          · exact h.feLogged.get he1
          · cases he1; exact h
        exact OptKept.getD (h1.feArrive fun _ _ h => h.placeReply.giveReply) h

theorem WellKept.peerLimit {key : Nat} : WellKept (s.peerLimit key) := by
  unfold State.peerLimit
  extract_lets
  split
  · exact WellKept.modPkg (by exact { h with })
  · exact h

theorem WellKept.execFeLimit {c : Nat} : OutKept (execFeLimit c s) := by
  unfold Machine.execFeLimit
  split
  · exact h.peerLimit
  · exact h.modClu.giveReply

theorem WellKept.placeBody {i : Instr} {n : Nat} {body : State → Res} (hi : placeBody i = some (n, body)) :
    (body s).Kept := by
  unfold Machine.placeBody at hi
  split at hi
  case h_10 => cases hi; exact h.cas
  case h_11 => cases hi; exact h.lr
  case h_12 => cases hi; exact h.sc
  case h_13 => cases hi; exact h.waitrs
  case h_14 => cases hi; exact h.red
  case h_15 => cases hi; exact h.xsrd
  case h_21 => cases hi
  case h_1 | h_2 | h_3 | h_4 | h_5 | h_6 | h_7 | h_8 | h_9 => cases hi; exact h.amo
  case h_16 | h_17 | h_18 | h_19 | h_20 => cases hi; exact h.fe

theorem WellKept.execAtomicAtPlace {c : Nat} : OutKept (execAtomicAtPlace c s) := by
  unfold Machine.execAtomicAtPlace
  split
  · split
    · exact h
    · split
      · exact h
      · next len body he =>
        extract_lets s0
        have h0 : WellKept s0 := { h with }
        exact h0.modCtx.run (h0.modCtx.placeBody he)
  · exact h

theorem WellKept.execRld {m : BitVec 4} {o : BitVec 2} {z : BitVec 3} {d a b : Reg} {p : Imm 32} :
    OutKept (execRld m o z d a b p s) :=
  h.run h.remote

theorem WellKept.execRst {m : BitVec 4} {o : BitVec 2} {z : BitVec 3} {d a b : Reg} {p : Imm 32} :
    OutKept (execRst m o z d a b p s) :=
  h.run h.remote

theorem WellKept.execRamo {o : BitVec 2} {z : BitVec 3} {k : BitVec 4} {d a b : Reg} {p : Imm 32} :
    OutKept (execRamo o z k d a b p s) :=
  h.run h.remote

end Sys2Proof.Machine
end

section
/-! What the functions of Sys2Proof/Machine/Holds.lean keep: each leads from a well-kept state to a well-kept one. -/

namespace Sys2Proof.Machine

variable {s : State} (h : WellKept s)
include h

theorem WellKept.freshEngine {core e : Nat} : WellKept (s.freshEngine core e) := WellKept.ite h.modPort h.modMat

theorem WellKept.saveEngine {core e : Nat} : WellKept (s.saveEngine core e) := by
  unfold State.saveEngine
  split
  · exact h
  · exact WellKept.modCore (by exact { h.areaRows.writeOpaque with })

theorem WellKept.takeEngine {core e : Nat} : WellKept (s.takeEngine core e) := h.saveEngine.freshEngine

end Sys2Proof.Machine
end

section
/-! What the functions of Sys2Proof/Machine/Slots.lean keep: each leads from a well-kept state to a well-kept one. -/

namespace Sys2Proof.Machine

variable {s : State} (h : WellKept s)
include h

theorem WellKept.dropSolo {c : Nat} : WellKept (s.dropSolo c) := { h with }

theorem WellKept.replyCall {src : Nat} {k : CallInfo} {part : Nat} {args : List Word} {cause : Option Cause} :
    WellKept (s.replyCall src k part args cause) := by
  unfold State.replyCall
  split
  · exact { h with }
  · exact h.modPkg

theorem WellKept.startCallee {c part : Nat} {entry : Word} {args : List Word} {k : CallInfo} :
    WellKept (s.startCallee c part entry args k) := by
  unfold State.startCallee
  extract_lets _ _ s1
  have h1 : WellKept s1 := WellKept.dropSolo (WellKept.emptyChan (WellKept.setCtx (by exact { h with })))
  split
  · exact h1.applyInbox
  · exact h1.setCtx.emptyChan.replyCall

theorem WellKept.noteClu {c : Nat} : WellKept (s.noteClu c) := by
  unfold State.noteClu
  split
  · exact h
  · exact h.modLaunch

theorem WellKept.seat {c : Nat} {m : Msg} : WellKept (s.seat c m) := by
  unfold State.seat
  split
  · extract_lets _ s1
    have h1 : WellKept s1 := { h with }
    exact h1.setCtx.emptyChan.dropSolo.applyInbox.noteClu
  · exact h.startCallee
  · exact h

theorem WellKept.admitNext {core : Nat} : WellKept (s.admitNext core) := by
  unfold State.admitNext
  split
  · exact h.modCore.seat
  · exact h

theorem WellKept.freeSlot {c : Nat} : WellKept (s.freeSlot c) := h.setCtx.emptyChan.dropSolo.admitNext

theorem WellKept.arriveRetired {core : Nat} {m : Msg} : OptKept WellKept (s.arriveRetired core m) := by
  unfold State.arriveRetired
  split
  · exact h.replyCall
  · trivial

theorem WellKept.arrive {core : Nat} {m : Msg} : OptKept WellKept (s.arrive core m) := by
  unfold State.arrive
  split
  · exact h.arriveRetired
  · extract_lets queue
    have hqueue : OptKept WellKept queue := OptKept.ite h.modCore trivial
    split
    · split
      · exact h.seat
      · exact hqueue
    · exact hqueue

theorem WellKept.takeMsg {m : Msg} : WellKept (s.takeMsg m) := { h with }

end Sys2Proof.Machine
end

section
/-! What the functions of Sys2Proof/Machine/Threads.lean keep: each leads from a well-kept state to a well-kept one. -/

namespace Sys2Proof.Machine

variable {s : State} (h : WellKept s)
include h

theorem WellKept.setReap {core i : Nat} {r : ReapRec} : WellKept (s.setReap core i r) := h.modCore

theorem WellKept.releaseSig {c n : Nat} : WellKept (s.releaseSig c n) := by
  unfold State.releaseSig
  split
  · exact h
  · exact WellKept.ite h h.post.modCtx

theorem WellKept.releaseAll {c : Nat} : WellKept (s.releaseAll c) := h.foldl fun _ _ h => h.releaseSig

theorem WellKept.closeStream {c n dst : Nat} : WellKept (s.closeStream c n dst) := h.post.modCore

theorem WellKept.closeThread {c : Nat} : WellKept (s.closeThread c) := by
  unfold State.closeThread
  extract_lets s1 s2 s3
  have h1 : WellKept s1 := h.foldl fun _ _ h => h.closeStream
  have h2 : WellKept s2 := WellKept.ite h1.releaseAll h1
  have h3 : WellKept s3 := by
    unfold s3
    split
    · exact h2
    · exact h2.replyCall
  exact h3.dropSpec.modCtx

theorem WellKept.exitThread {c : Nat} {code : BitVec 8} : WellKept (s.exitThread c code) := h.modCtx.closeThread

theorem WellKept.settleExit {c : Nat} : WellKept (s.settleExit c) := by
  unfold State.settleExit
  extract_lets s0 _ s1
  have h0 : WellKept s0 := h.publish
  have h1 : WellKept s1 := h0.modCtx
  split
  · exact WellKept.ite h1 h1.freeSlot
  · split
    · exact h1.freeSlot
    · exact WellKept.ite (WellKept.ite h1 h1.setReap) (WellKept.freeSlot (by exact { h1 with }))

theorem WellKept.execExit {code : BitVec 8} : OutKept (execExit code s) := by
  unfold Machine.execExit
  refine h.run ?_
  extract_lets
  split
  · trivial
  · split
    · exact h.exitThread
    · exact Res.Kept.ite h.exitThread h

theorem WellKept.execExitNotice {m : Nat} : OutKept (execExitNotice m s) := by
  unfold Machine.execExitNotice
  split
  · exact h
  · split
    · exact WellKept.ite h.takeMsg.setReap h.takeMsg
    · exact h

theorem WellKept.endBlock {core : Nat} : WellKept (s.endBlock core) := by
  unfold State.endBlock
  extract_lets l _ s1 s2
  have h1 : WellKept s1 := h.foldl fun _ _ h => h.freeSlot
  have h2 : WellKept s2 := h1.modCore
  clear_value l
  split
  · exact h2
  · exact h2.modLaunch

theorem WellKept.spawn {code i : Nat} {entry arg : Word} : (s.spawn code i entry arg).Kept := by
  unfold State.spawn
  extract_lets
  split
  · trivial
  · split
    · trivial
    · split
      · next s1 he => exact h.release.of_fst he
      · next s1 he =>
          extract_lets _ _ _ _ s2 s1
          have h2 : WellKept s2 := by
            unfold s2
            split
            · exact h.release.of_fst he
            · exact (h.release.of_fst he).takeEngine
          have h1 : WellKept s1 := { h2 with }
          exact h1.setCtx.emptyChan.modCore

theorem WellKept.execSpawn {k : BitVec 3} {c a b : Reg} : OutKept (execSpawn k c a b s) := h.run h.spawn

theorem WellKept.takeReap {i : Nat} : WellKept (s.takeReap i) := by
  unfold State.takeReap
  extract_lets _ s1
  have h1 : WellKept s1 := by
    unfold s1
    split
    · exact h
    · exact h.freeSlot
  exact h1.setReap.acquire

theorem WellKept.reap {d : Reg} {i : Nat} : (s.reap d i).Kept := by
  unfold State.reap
  split
  · trivial
  · split
    · trivial
    · exact h
    · exact h.takeReap.setReg

theorem WellKept.execReap {d a : Reg} : OutKept (execReap d a s) := h.run h.reap

theorem WellKept.reapAny {d : Reg} : (s.reapAny d).Kept := by
  unfold State.reapAny
  split
  · trivial
  · extract_lets
    split
    · split
      · exact h.takeReap.setReg
      · exact h
    · exact Res.Kept.ite h.setReg h

theorem WellKept.execReapAny {d : Reg} : OutKept (execReapAny d s) := h.run h.reapAny

theorem WellKept.bindTo {code : Nat} : (s.bindTo code).Kept := by
  unfold State.bindTo
  extract_lets
  split
  · exact h
  · split
    · trivial
    · split
      · exact h
      · split
        · exact WellKept.modCtx (WellKept.ite h.modCtx h)
        · extract_lets
          split
          · exact WellKept.modCtx (WellKept.takeEngine (WellKept.modCore (WellKept.ite h.modCtx h)))
          · exact WellKept.ite (WellKept.ite h.modCtx h) (WellKept.modCore (WellKept.ite h.modCtx h))

theorem WellKept.execBind {k : BitVec 3} : OutKept (execBind k s) := h.run h.bindTo

theorem WellKept.setSem {n v : Nat} : WellKept (s.setSem n v) := h.modCore

theorem WellKept.setSemQueue {n : Nat} {l : List Nat} : WellKept (s.setSemQueue n l) := h.modCore

theorem WellKept.semP {v : Word} : (s.semP v).Kept := Res.Kept.ite trivial (Res.Kept.ite h.setSem.acquire h.setSemQueue)

theorem WellKept.execSemP {a : Reg} : OutKept (execSemP a s) := h.run h.semP

theorem WellKept.semV {v : Word} : (s.semV v).Kept := by
  unfold State.semV
  split
  · trivial
  · extract_lets
    split
    · trivial
    · split
      · next s1 he => exact h.release.of_fst he
      · next s1 he =>
          split
          · exact (h.release.of_fst he).setSemQueue.giveReply
          · exact (h.release.of_fst he).setSem

theorem WellKept.execSemV {a : Reg} : OutKept (execSemV a s) := h.run h.semV

theorem WellKept.semTry {d : Reg} {v : Word} : (s.semTry d v).Kept :=
  Res.Kept.ite trivial (Res.Kept.ite h.setSem.setReg.acquire h.setReg)

theorem WellKept.execSemTry {d a : Reg} : OutKept (execSemTry d a s) := h.run h.semTry

end Sys2Proof.Machine
end

section
/-! What the functions of Sys2Proof/Machine/Channels.lean keep: each leads from a well-kept state to a well-kept one. -/

namespace Sys2Proof.Machine

variable {s : State} (h : WellKept s)
include h

omit h in
theorem WellKept.serveChan {dst n : Nat} {s : State} (h : WellKept s) : WellKept (State.serveChan dst n s) := by
  induction n generalizing s with
  | zero => exact h
  | succ n ih =>
    unfold State.serveChan
    split
    · exact h
    · exact ih h.modChan.admitMsg

theorem WellKept.serveWaiting {dst : Nat} : WellKept (s.serveWaiting dst) := h.serveChan

theorem WellKept.sendWord {dst : Nat} {v : Word} {stream : Bool} : (s.sendWord dst v stream).Kept := by
  unfold State.sendWord
  extract_lets _ _ s1
  have h1 : WellKept s1 := { h with }
  exact Res.Kept.ite h1.sendMsg h1.modChan

theorem WellKept.send {a v : Word} : (s.send a v).Kept := by
  unfold State.send
  split
  · trivial
  · exact h.sendWord

theorem WellKept.execSend {a b : Reg} : OutKept (execSend a b s) := h.run h.send

theorem WellKept.execSendS {a b : Reg} : OutKept (execSendS a b s) := by
  unfold Machine.execSendS
  refine h.run ?_
  split
  · trivial
  · exact h.sendWord

theorem WellKept.openStream {d : Reg} {a : Word} : (s.openStream d a).Kept := by
  unfold State.openStream
  split
  · trivial
  · extract_lets
    split
    · exact h
    · split
      · exact h
      · exact Res.Kept.ite h.modCore.modChan.setReg (WellKept.modChan (by exact { h with }))

theorem WellKept.execOpenS {d a : Reg} : OutKept (execOpenS d a s) := h.run h.openStream

theorem WellKept.execClose {a : Reg} : OutKept (execClose a s) := by
  unfold Machine.execClose
  refine h.run ?_
  split
  · trivial
  · exact h.closeStream

theorem WellKept.execWake {a b : Reg} : OutKept (execWake a b s) := by
  unfold Machine.execWake
  refine h.run ?_
  split
  · trivial
  · exact h.post

theorem WellKept.execChannelWordArrival {n : Nat} : OutKept (execChannelWordArrival n s) := by
  unfold Machine.execChannelWordArrival
  split
  · exact h
  · next m he =>
    cases m.body with
    | word => exact WellKept.ite h.takeMsg.serveWaiting h.takeMsg.modChan
    | wake => exact WellKept.ite h.takeMsg h.takeMsg.modChan
    | close => exact h.takeMsg.modChan.serveWaiting
    | _ => exact h

theorem WellKept.ownChan : WellKept s.ownChan := h.modCtx

theorem WellKept.takeWord {d b : Reg} : OptKept Res.Kept (s.takeWord d b) := by
  unfold State.takeWord
  extract_lets
  split
  · exact h.modChan.setReg.setReg
  · split
    · trivial
    · split
      · exact h
      · next w s1 he =>
        obtain ⟨v, -, hv⟩ := List.exists_of_findSome?_eq_some he
        obtain ⟨t, ht, heq⟩ := Option.map_eq_some_iff.mp hv
        cases heq
        exact (h.received.get ht).modChan.serveWaiting.setReg.setReg

theorem WellKept.execRecv {d b : Reg} : OutKept (execRecv d b s) := h.run (h.ownChan.takeWord.getD h.ownChan)

theorem WellKept.execTryrecv {d b : Reg} : OutKept (execTryrecv d b s) :=
  h.run (h.ownChan.takeWord.getD h.ownChan.setReg.setReg)

theorem WellKept.setBarrier {l : Option Nat} {c n : Nat} {b : Barrier} : WellKept (s.setBarrier l c n b) := by
  unfold State.setBarrier
  split
  · exact h.modLaunch
  · exact { h with }

theorem WellKept.execBara {d : Reg} {bar : BitVec 4} {n : BitVec 16} : OutKept (execBara d bar n s) := by
  unfold Machine.execBara
  refine h.run ?_
  split
  · next s1 he => exact h.release.of_fst he
  · next s1 he => exact (h.release.of_fst he).post

theorem WellKept.execBarrierArrival {n : Nat} : OutKept (execBarrierArrival n s) := by
  unfold Machine.execBarrierArrival
  split
  · exact h
  · split
    · exact WellKept.ite h.takeMsg.giveReply h.takeMsg.setBarrier.giveReply
    · exact h

theorem WellKept.execBarw {a : Reg} {bar : BitVec 4} : OutKept (execBarw a bar s) := h.run (Res.Kept.ite h.acquire h)

theorem WellKept.rcallLocal {ptr entry : Word} : (s.rcallLocal ptr entry).Kept := by
  unfold State.rcallLocal
  split
  · trivial
  · split
    · next s1 he => exact h.release.of_fst he
    · next s1 he => exact (h.release.of_fst he).modPkg.post

theorem WellKept.execRcall {a b : Reg} {k : BitVec 1} {p : BitVec 32} : OutKept (execRcall a b k p s) :=
  h.run (Res.Kept.ite h.rcallLocal h.remote)

theorem WellKept.execRreply {a : Reg} : OutKept (execRreply a s) := by
  unfold Machine.execRreply
  refine h.run ?_
  split
  · trivial
  · split
    · trivial
    · split
      · next s1 he => exact h.release.of_fst he
      · next s1 he => exact (h.release.of_fst he).replyCall.modCtx.closeThread.freeSlot

theorem WellKept.answerCall {token : Nat} {r : Reply} : WellKept (s.answerCall token r) := { h with }

theorem WellKept.execRcallArrival {n : Nat} : OutKept (execRcallArrival n s) := by
  unfold Machine.execRcallArrival
  split
  · exact h
  · split
    · exact h.takeMsg.arrive.getD h
    · exact h.takeMsg.answerCall
    · exact h

theorem WellKept.migrateIn {n : Nat} : WellKept (s.migrateIn n) := by
  unfold State.migrateIn
  split
  · exact h
  · split
    · exact h.takeMsg.arrive.getD h
    · exact h

theorem WellKept.execMigrationArrival {n : Nat} : OutKept (execMigrationArrival n s) := h.migrateIn

theorem WellKept.execMigrationResend {n : Nat} : OutKept (execMigrationResend n s) := h.migrateIn

theorem WellKept.execMigrate {a : Reg} : OutKept (execMigrate a s) := by
  unfold Machine.execMigrate
  refine h.run ?_
  extract_lets
  split
  · trivial
  · exact Res.Kept.ite h trivial

theorem WellKept.execLlpush {d a : Reg} : OutKept (execLlpush d a s) := h.run (Res.Kept.ite h.modCore.setReg h.setReg)

theorem WellKept.execLlpop {d b : Reg} : OutKept (execLlpop d b s) := by
  unfold Machine.execLlpop
  refine h.run ?_
  split
  · exact h.setReg
  · exact h.modCore.setReg.setReg

theorem WellKept.dropPlan {p : Nat} : WellKept (s.dropPlan p) := WellKept.modPart (h.foldl fun _ _ h => h.modCore)

theorem WellKept.beginInterval {p : Nat} : WellKept (s.beginInterval p) := by
  unfold State.beginInterval
  exact WellKept.modPart (h.dropPlan.foldl fun _ _ h => h.modCore)

theorem WellKept.execLoadLevellingInterval {core : Nat} : OutKept (execLoadLevellingInterval core s) := by
  unfold Machine.execLoadLevellingInterval
  split
  · exact h
  · extract_lets _ s1
    have h1 : WellKept s1 := WellKept.ite h h.beginInterval
    clear_value s1
    split
    · exact h1
    · extract_lets _ s3
      have h3 : WellKept s3 := h1.modPart.modCore.modCore
      clear_value s3
      exact WellKept.ite h3 { h3 with }

theorem WellKept.execLlEntriesArrive {n : Nat} : OutKept (execLlEntriesArrive n s) := by
  unfold Machine.execLlEntriesArrive
  split
  · exact h
  · split
    · exact h.takeMsg.modCore
    · exact h

theorem WellKept.specBegin {n b : Nat} : (s.specBegin n b).Kept := by
  unfold State.specBegin
  extract_lets
  split
  · trivial
  · split
    · trivial
    · split
      · trivial
      · split
        · next s1 he => exact h.release.of_fst he
        · next s1 he => exact (h.release.of_fst he).modClu.modCtx

theorem WellKept.execSpecb {a b : Reg} : OutKept (execSpecb a b s) := h.run h.specBegin

theorem WellKept.specCommit : s.specCommit.Kept := by
  unfold State.specCommit
  extract_lets
  split
  · trivial
  · split
    · exact h.askWrites
    · split
      · next s1 he => exact h.release.of_fst he
      · next s1 he =>
          extract_lets s2 s3
          have h2 : WellKept s2 := (h.release.of_fst he).modClu.foldl fun _ _ h => h.place
          have h3 : WellKept s3 := h2.modCtx
          exact h3.modClu

theorem WellKept.execSpecc : OutKept (execSpecc s) := h.run h.specCommit

end Sys2Proof.Machine
end

section
/-! What the functions of Sys2Proof/Machine/Queues.lean keep: each leads from a well-kept state to a well-kept one. -/

namespace Sys2Proof.Machine

variable {s : State} (h : WellKept s)
include h

theorem WellKept.qreg {c : Nat} {hdr : Word} : OptKept WellKept (s.qreg c hdr) := by
  unfold State.qreg
  extract_lets
  split
  · exact OptKept.ite trivial h.modPart
  · trivial

theorem WellKept.qunreg {c : Nat} {hdr : Word} : OptKept WellKept (s.qunreg c hdr) :=
  OptKept.ite (WellKept.modPart (by exact { h with })) trivial

theorem WellKept.consume {hh : List Nat} {slots : List (List Nat)} {n : Nat} : WellKept (s.consume hh slots n) :=
  WellKept.place (h.foldl fun _ _ h => h.place)

theorem WellKept.askQueue {hh : List Nat} {slots : List (List Nat)} : WellKept (s.askQueue hh slots) := h.askWrites

theorem WellKept.endTicket {issuer : Option (Nat × Nat)} {cause : Option Cause} {info : Option Word} :
    WellKept (s.endTicket issuer cause info) := by
  unfold State.endTicket
  split
  · exact h
  · exact h.modThread

end Sys2Proof.Machine
end

section
/-! What the functions of Sys2Proof/Machine/Copy.lean keep: each leads from a well-kept state to a well-kept one. -/

namespace Sys2Proof.Machine

variable {s : State} (h : WellKept s)
include h

omit h in
theorem engAt_kept {g : Eng} {id : Nat} {ptr : Word} {size need : Nat} {wr rd : Bool} :
    ExcKept Mv.Kept (fun _ => True) (s.engAt g id ptr size need wr rd) := by
  unfold State.engAt
  split
  · change Mv.Kept (if _ then _ else _)
    split
    · trivial
    · trivial
  · extract_lets
    split
    · trivial
    · split
      · trivial
      · split
        · trivial
        · trivial

theorem WellKept.engStream {eng : Nat} {g : Eng} {ptr : Word} : WellKept (s.engStream eng g ptr) := by
  unfold State.engStream
  split
  · exact h
  · exact { h with }

theorem WellKept.engStreams {eng : Nat} {g : Eng} {ps : List Word} {n : Nat} : WellKept (s.engStreams eng g ps n) :=
  h.foldl fun _ _ h => h.foldl fun _ _ h => h.engStream

theorem WellKept.moveOne {id : Nat} {c : CopyPk} {k : Nat} : (s.moveOne id c k).Kept := by
  unfold State.moveOne
  extract_lets _ _ _ _ idx
  have hidx : ExcKept Mv.Kept (fun _ => True) idx := ExcKept.ite engAt_kept trivial
  clear_value idx
  split
  · next m => exact hidx
  · extract_lets _ src
    have hsrc : ExcKept Mv.Kept (fun _ => True) src := by
      unfold src
      split
      · trivial
      · split
        · trivial
        · split
          · next m he => exact engAt_kept.err he
          · trivial
    clear_value src
    split
    · next m => exact hsrc
    · split
      · next m he => exact engAt_kept.err he
      · extract_lets s1 s0 s2 s3
        have h1 : WellKept s1 := h.correct
        have h0 : WellKept s0 := WellKept.ite h1.engStream h1
        have h2 : WellKept s2 := WellKept.ite h0 h0.engStream
        have h3 : WellKept s3 := h2.engStream
        split
        · split
          · trivial
          · exact h3.place
        · exact h3.place

theorem WellKept.modPk {id : Nat} {f : CopyPk → CopyPk} : WellKept (s.modPk id f) := { h with }

theorem WellKept.breakWater {id : Nat} : WellKept (s.breakWater id) := by
  unfold State.breakWater
  extract_lets _ _ s1 s2 s3
  have h1 : WellKept s1 := h.foldl fun _ _ h => WellKept.ite h.giveReply h
  have h2 : WellKept s2 := by
    unfold s2
    refine h1.foldl fun s p h => ?_
    split
    · exact h.mxStop
    · exact h
  have h3 : WellKept s3 := by
    unfold s3
    refine h2.foldl fun s p h => ?_
    split
    · exact WellKept.ite h.modPort.raiseAt h
    · exact h
  exact { h3 with }

omit h in
theorem WellKept.abandonWith {fuel id : Nat} {cause : Cause} {info : Option Word} {s : State} (h : WellKept s) :
    WellKept (State.abandonWith fuel s id cause info) := by
  induction fuel generalizing s id cause info with
  | zero => exact h
  | succ fuel ih =>
    unfold State.abandonWith
    extract_lets _ _ s1 s2
    have h1 : WellKept s1 := h.modPk
    have h2 : WellKept s2 := h1.raiseAt.endTicket.breakWater
    split
    · exact h
    · exact h2.foldl fun _ _ h => ih h

theorem WellKept.abandonPk {id : Nat} {cause : Cause} {info : Option Word} : WellKept (s.abandonPk id cause info) :=
  h.abandonWith

theorem WellKept.finishPk {id : Nat} : WellKept (s.finishPk id) := by
  unfold State.finishPk
  extract_lets c close
  have hclose {t : State} (ht : WellKept t) : WellKept (close t) := { ht.endTicket with }
  clear_value close
  split
  · exact hclose h
  · split
    · exact hclose h
    · dsimp only
      split
      · exact h.arriveAt.abandonPk
      · exact hclose h.arriveAt

theorem WellKept.holdPk {id : Nat} {cause : Cause} {ptr : Word} : WellKept (s.holdPk id cause ptr) :=
  WellKept.ite h h.modPk.raiseAt

theorem WellKept.advancePk {id : Nat} : WellKept ((s.advancePk id).1) := by
  unfold State.advancePk
  extract_lets
  split
  · exact { h with }
  · split
    · exact h.askWrites
    · exact h.holdPk
    · exact h.errMet.abandonPk
    · next s1 he => exact { (h.moveOne.of_eq he) with }

omit h in
theorem WellKept.runElems {id n : Nat} {s : State} (h : WellKept s) : WellKept (State.runElems id n s) := by
  induction n generalizing s with
  | zero => exact h
  | succ n ih =>
    unfold State.runElems
    split
    · next s1 he => exact ih (h.advancePk.of_fst he)
    · next s1 he => exact h.advancePk.of_fst he

theorem WellKept.bindWater {id : Nat} : OptKept WellKept (s.bindWater id) := by
  unfold State.bindWater
  extract_lets
  split
  · exact WellKept.ite h h.abandonPk
  · split
    · trivial
    · extract_lets
      split
      · split
        · exact OptKept.ite h.abandonPk (by exact { h with })
        · split
          · exact OptKept.ite h.abandonPk (by exact { h with })
          · exact OptKept.ite h.abandonPk (by exact { h with })
      · split
        · exact h.abandonPk
        · split
          · exact OptKept.ite h.abandonPk (by exact { h with })
          · exact h.abandonPk

theorem WellKept.rcopyRows {g : Eng} {id : Nat} {r : BitVec 512} : ExcKept Mv.Kept (fun _ => True) (s.rcopyRows g id r) := by
  refine List.foldrRecOn (motive := ExcKept Mv.Kept fun _ => True) _ _ trivial fun acc hacc i _ => ?_
  cases acc with
  | error m => exact hacc
  | ok l =>
    dsimp only
    split
    · trivial
    · split
      · next m he => exact engAt_kept.err he
      · trivial

theorem WellKept.startRcopy {id : Nat} : WellKept (s.startRcopy id) := by
  have hgo {c : Nat} {f : CopyPk → CopyPk} {g : Eng} {ps : List Word} {n : Nat} :
      WellKept (((s.correct (s.pkNext id)).engStreams c g ps n).modPk id f) :=
    h.correct.engStreams.modPk
  unfold State.startRcopy
  extract_lets
  split
  · exact h
  · exact h.holdPk
  · exact h.errMet.abandonPk
  · next t he => exact engAt_kept.err he
  · extract_lets
    split
    · exact h
    · exact h.holdPk
    · exact h.errMet.abandonPk
    · next t he => exact h.rcopyRows.err he
    · extract_lets
      split
      · split
        · exact h
        · exact h.holdPk
        · exact h.errMet.abandonPk
        · next t he => exact engAt_kept.err he
        · extract_lets
          split
          · exact h.abandonPk
          · split
            · exact h.abandonPk
            · exact hgo
      · split
        · exact h.abandonPk
        · exact hgo

theorem WellKept.contribute {g : Eng} {id : Nat} {r : BitVec 512} :
    ExcKept Mv.Kept (fun _ => True) (s.contribute g id r) := by
  refine List.foldlRecOn (motive := ExcKept Mv.Kept fun _ => True) _ _ trivial fun acc hacc i _ => ?_
  cases acc with
  | error m => exact hacc
  | ok l =>
    dsimp only
    split
    · next m he => exact engAt_kept.err he
    · split
      · trivial
      · trivial

theorem WellKept.startReduce {id : Nat} {e : HEntry} : WellKept (s.startReduce id e) := by
  unfold State.startReduce
  extract_lets
  split
  · exact h.abandonPk
  · split
    · exact h
    · exact h.holdPk
    · exact h.errMet.abandonPk
    · next t he => exact h.contribute.err he
    · extract_lets
      split
      · exact h.abandonPk
      · exact h.correct.engStreams.modPk

theorem WellKept.sendTree {id : Nat} {q : FabPkt} {nodes : List Nat} : OptKept WellKept (s.sendTree id q nodes) :=
  OptKept.ite trivial h.modPkg

theorem WellKept.pumpPk {id : Nat} : WellKept (s.pumpPk id) := by
  unfold State.pumpPk
  split
  · exact h
  · split
    · extract_lets _ near _
      split
      · exact h
      · next s1 he =>
        have h1 : WellKept s1 := by
          split at he
          · cases he; exact h
          · exact h.sendTree.get he
        exact h1.modPk
    · split
      · exact h
      · next n s1 he => exact (h.sendReq.get he).modPk

theorem WellKept.startPk {id : Nat} : WellKept (s.startPk id) := by
  unfold State.startPk
  extract_lets
  split
  · exact h
  · split
    · exact h.abandonPk
    · exact h
    · split
      · exact h.abandonPk
      · split
        · exact h.modPk
        · split
          · exact h.startRcopy
          · split
            · exact h.startReduce
            · split
              · split
                · exact h
                · next s1 he => exact WellKept.ite (h.bindWater.get he) (h.bindWater.get he).modPk
              · exact h.modPk.runElems

theorem WellKept.resumePk {id : Nat} {again : Bool} : WellKept (s.resumePk id again) := by
  unfold State.resumePk
  extract_lets
  exact WellKept.ite h (WellKept.ite h.startPk (WellKept.ite (WellKept.ite h.advancePk h) h.runElems))

theorem WellKept.takePk {eng part q : Nat} {is : Nat → Bool} : WellKept ((s.takePk eng part q is).1) := by
  unfold State.takePk
  split
  · exact h
  · split
    · exact h
    · extract_lets
      split
      · exact h
      · extract_lets
        split
        · exact h
        · split
          · exact h.askQueue
          · split
            · exact { h.consume with }
            · exact WellKept.abandonPk (by exact { h.consume with })

theorem WellKept.takeAndStart {eng part q : Nat} {is : Nat → Bool} : WellKept (s.takeAndStart eng part q is) := by
  unfold State.takeAndStart
  split
  · next s1 he => exact h.takePk.of_fst he
  · next s1 id he => exact (h.takePk.of_fst he).startPk

theorem WellKept.execCopy {eng part q : Nat} : OutKept (execCopy eng part q s) := h.takeAndStart

theorem WellKept.execGather {eng part q : Nat} : OutKept (execGather eng part q s) := h.takeAndStart

theorem WellKept.execScatter {eng part q : Nat} : OutKept (execScatter eng part q s) := h.takeAndStart

theorem WellKept.execFill {eng part q : Nat} : OutKept (execFill eng part q s) := h.takeAndStart

theorem WellKept.execReduce {eng part q : Nat} : OutKept (execReduce eng part q s) := h.takeAndStart

theorem WellKept.execRcopy {eng part q : Nat} : OutKept (execRcopy eng part q s) := h.takeAndStart

theorem WellKept.execNotify {eng part q : Nat} : OutKept (execNotify eng part q s) := h.takeAndStart

theorem WellKept.execWatermarkAdvance {id : Nat} : OutKept (execWatermarkAdvance id s) := WellKept.ite h.advancePk h

theorem WellKept.execMailboxPost {id : Nat} : OutKept (execMailboxPost id s) := WellKept.ite h.modCore.modPk h

theorem WellKept.execMailboxTimeout {id : Nat} : OutKept (execMailboxTimeout id s) := WellKept.ite h.modCore.raiseAt.modPk h

end Sys2Proof.Machine
end

section
/-! What the functions of Sys2Proof/Machine/CopyWait.lean keep: each leads from a well-kept state to a well-kept one. -/

namespace Sys2Proof.Machine

variable {s : State} (h : WellKept s)
include h

omit h in
theorem cpqHeader_kept {v : State} {hdr : Word} : ExcKept Stop.Kept (fun _ => True) (s.cpqHeader v hdr) := by
  unfold State.cpqHeader
  extract_lets
  split
  · next e he => exact access_kept.err he
  · extract_lets
    split
    · trivial
    · split
      · trivial
      · trivial
  · trivial

theorem WellKept.inTurn {k : Nat} : WellKept (s.inTurn k) := WellKept.ite h.modCtx h

theorem WellKept.hopTo {k core : Nat} : (s.hopTo k core).Kept := h.modCtx.depart

theorem WellKept.cpqClaim {d : Reg} {hdr : Word} {hh : List Nat} {lg : Nat} {r : BitVec 512} :
    (s.cpqClaim d hdr hh lg r).Kept := by
  unfold State.cpqClaim
  extract_lets
  split
  · exact h
  · split
    · exact h.hopTo
    · next e _ he => exact h.res (access_kept.err he)
    · exact Res.Kept.ite h.askQueue (WellKept.setReg (WellKept.modCtx (by exact { h.place.place with })))
    · trivial

theorem WellKept.cpq {d : Reg} {hdr pk : Word} : (s.cpq d hdr pk).Kept := by
  unfold State.cpq
  split
  · trivial
  · split
    · trivial
    · split
      · exact h.hopTo
      · next e _ he => exact h.res (h.ownRead.err he)
      · next r0 s0 he =>
          have h0 : WellKept s0 := h.ownRead.ok he
          split
          · exact h.hopTo
          · next e _ he1 => exact h.res (cpqHeader_kept.err he1)
          · extract_lets
            split
            · trivial
            · split
              · exact h0
              · split
                · next s1 he1 => exact h0.release.of_fst he1
                · next s1 he1 => exact (h0.release.of_fst he1).cpqClaim

theorem WellKept.execCpq {d a b : Reg} : OutKept (execCpq d a b s) := h.run h.cpq

theorem WellKept.ticketsOver {is : Nat → Bool} : (s.ticketsOver is).Kept := by
  unfold State.ticketsOver
  split
  · exact h.acquire
  · exact h.modCtx.takeFault

theorem WellKept.execCpwait {a : Reg} : OutKept (execCpwait a s) :=
  h.run (Res.Kept.ite trivial (Res.Kept.ite h h.ticketsOver))

theorem WellKept.execCpwaitAll : OutKept (execCpwaitAll s) := by
  unfold Machine.execCpwaitAll
  refine h.run ?_
  split
  · exact h
  · exact h.ticketsOver

theorem WellKept.syncSet {ptr t : Word} {new : Nat → Nat → Option Nat} : (s.syncSet ptr t new).Kept := by
  unfold State.syncSet
  refine h.atPlace (fun t ls ht => ?_) (fun _ _ _ h => trivial)
  split
  · trivial
  · split
    · trivial
    · exact ht.writeAt

theorem WellKept.execSyncw {a b : Reg} : OutKept (execSyncw a b s) := h.run h.syncSet

theorem WellKept.execSyncwReset {a b : Reg} : OutKept (execSyncwReset a b s) := h.run h.syncSet

theorem WellKept.execSyncwait {d a b : Reg} : OutKept (execSyncwait d a b s) := by
  unfold Machine.execSyncwait
  exact h.run (h.atPlace (fun _ _ h => Res.Kept.ite trivial (Res.Kept.ite h.setReg.acquire h.modDir))
      (fun _ _ _ h => trivial))

theorem WellKept.takeMail {d : Reg} {ptr : Word} : OptKept Res.Kept (s.takeMail d ptr) := by
  unfold State.takeMail
  extract_lets k take
  have htake {m : BitVec 256} {rest : List (BitVec 256)} {put : State → List Byte → Res} (hput : ∀ bs, (put s bs).Kept) :
      (take m rest put).Kept := by
    have hp := hput (leBytes 32 m.toNat)
    unfold take
    extract_lets
    split
    · next s1 he => exact WellKept.acquire (WellKept.setReg (WellKept.modCore (hp.of_eq he)))
    · exact hp
  clear_value take
  split
  · trivial
  · split
    · next e he => exact h.res (access_kept.err he)
    · exact htake fun _ => h.storeAt
    · trivial
    · exact htake fun _ => h.storePeer
    · trivial

theorem WellKept.mailBad {ptr : Word} : OptKept Res.Kept (s.mailBad ptr) := by
  unfold State.mailBad
  split
  · next e he => exact h.res (access_kept.err he)
  · trivial
  · split
    · trivial
    · exact OptKept.mapAny fun _ => trivial
  · trivial
  · trivial

theorem WellKept.execMbox {d a : Reg} : OutKept (execMbox d a s) := by
  unfold Machine.execMbox
  refine h.run ?_
  split
  · next r he => exact h.mailBad.get he
  · exact h.takeMail.getD h

theorem WellKept.execMboxTry {d a : Reg} : OutKept (execMboxTry d a s) := by
  unfold Machine.execMboxTry
  refine h.run ?_
  split
  · next r he => exact h.mailBad.get he
  · exact h.takeMail.getD h.setReg

theorem WellKept.execMboxSt {d : Reg} : OutKept (execMboxSt d s) := h.run h.modCore.setReg

end Sys2Proof.Machine
end

section
/-! What the functions of Sys2Proof/Machine/GridMap.lean keep: each leads from a well-kept state to a well-kept one. -/

namespace Sys2Proof.Machine

variable {s : State} (h : WellKept s)
include h

theorem WellKept.gridCheck {base : Nat} {d : List Byte} : ExcKept (fun _ => True) WellKept (s.gridCheck base d) := by
  unfold State.gridCheck
  extract_lets
  split
  · trivial
  · split
    · split
      · trivial
      · split
        · trivial
        · extract_lets
          split
          · trivial
          · split
            · trivial
            · split
              · exact ExcKept.ite (by exact { h with }) trivial
              · exact { h with }
    · trivial

theorem WellKept.modGrid {g : Nat} {f : GridSt → GridSt} : WellKept (s.modGrid g f) := { h with }

theorem WellKept.modFill {k : Nat} {f : HFill → HFill} : WellKept (s.modFill k f) := { h with }

theorem WellKept.faultIn {c : Cause} {addr info : Word} : (s.faultIn c addr info).Kept := h.takeFault

theorem WellKept.gridOpen {ptr : Word} {need : Nat} {disp : ℤ} {go : State → Nat → Nat → Coord → Res}
    (hgo : ∀ t b c d, WellKept t → (go t b c d).Kept) : (s.gridOpen ptr need disp go).Kept := by
  obtain ⟨entry, hentry⟩ : ∃ f, f = State.gridEntry := ⟨_, rfl⟩
  generalize hf : State.gridOpen = f
  delta State.gridOpen at hf
  rw [← hentry] at hf
  subst hf
  beta_reduce
  extract_lets
  split
  · trivial
  · extract_lets found
    have hfound : ExcKept Res.Kept (fun p => WellKept p.2) found := by
      unfold found
      split
      · exact h
      · split
        · trivial
        · extract_lets s1
          have h1 : WellKept s1 := h.correct
          split
          · exact h1.errMet.faultIn
          · split
            · trivial
            · exact h1.errMet.faultIn
            · next s1 he => exact h1.gridCheck.ok he
    clear_value found
    split
    · exact hfound
    · next k s1 =>
        have h1 : WellKept s1 := hfound
        extract_lets
        split
        · exact h1.faultIn
        · exact Res.Kept.ite h1.faultIn (Res.Kept.ite h1.faultIn (hgo _ _ _ _ h1))

end Sys2Proof.Machine
end

section
/-! What the functions of Sys2Proof/Machine/Grids.lean keep: each leads from a well-kept state to a well-kept one. -/

namespace Sys2Proof.Machine

variable {s : State} (h : WellKept s)
include h

theorem WellKept.cellLocs {g : GridSt} {f : HFill} {p lv c : Nat} {wr : Bool} :
    ExcKept Mv.Kept (fun _ => True) (s.cellLocs g f p lv c wr) :=
  engAt_kept

theorem WellKept.fillValue {g : GridSt} {f : HFill} {l : Coord} : ExcKept Mv.Kept (fun _ => True) (s.fillValue g f l) := by
  unfold State.fillValue
  split
  · trivial
  · split
    · next x he => exact h.cellLocs.err he
    · trivial

theorem WellKept.putCell {k : Nat} {g : GridSt} {f : HFill} {c v : Nat} :
    ExcKept Mv.Kept WellKept (s.putCell k g f c v) := by
  unfold State.putCell
  split
  · next x he => exact h.cellLocs.err he
  · exact h.place

theorem WellKept.putFill {k : Nat} {g : GridSt} {f : HFill} {l : List (Nat × Nat)} :
    ExcKept Mv.Kept WellKept (s.putFill k g f l) := by
  refine List.foldlRecOn (motive := ExcKept Mv.Kept WellKept) _ _ h fun o ho c _ => ?_
  cases o with
  | error m => exact ho
  | ok s => exact ho.putCell

theorem WellKept.nearCells {g : GridSt} {f : HFill} : ExcKept Mv.Kept (fun _ => True) (s.nearCells g f) := by
  refine List.foldrRecOn (motive := ExcKept Mv.Kept fun _ => True) _ _ trivial fun o ho c _ => ?_
  cases o with
  | error m => exact ho
  | ok l =>
    split
    · next he => cases he
    · next m he _ => exact h.fillValue.err he
    · trivial

theorem WellKept.fillCorrect {g : GridSt} {f : HFill} : WellKept (s.fillCorrect g f) := WellKept.ite h h.correct

theorem WellKept.nextStep {k : Nat} : WellKept (s.nextStep k) := by
  unfold State.nextStep
  extract_lets
  split
  · exact WellKept.modPk (by exact { h with })
  · exact WellKept.ite (by exact { h with }) h.modFill

theorem WellKept.execSigmaUpdate {n : Nat} : OutKept (execSigmaUpdate n s) := by
  unfold Machine.execSigmaUpdate
  split
  · exact h
  · split
    · exact h.takeMsg.modGrid
    · exact h

theorem WellKept.abandonFill {k : Nat} {cause : Cause} : WellKept (s.abandonFill k cause) := by
  unfold State.abandonFill
  extract_lets
  split
  · exact h
  · split
    · exact h.modFill
    · exact h.modFill.abandonPk

theorem WellKept.fillStop {k : Nat} {x : Mv} (hx : x.Kept) : WellKept (s.fillStop k x) := by
  unfold State.fillStop
  split
  · next s' => exact h
  · exact h.modFill.askWrites
  · split
    · exact h.holdPk
    · exact h
  · split
    · exact WellKept.abandonPk (by exact { h.errMet with })
    · exact h.errMet

theorem WellKept.fillBroken {k : Nat} : OptKept WellKept (s.fillBroken k) := by
  unfold State.fillBroken
  split
  · split
    · exact h.fillStop trivial
    · exact h.abandonFill
  · trivial

theorem WellKept.startFill {k : Nat} : WellKept (s.startFill k) := by
  unfold State.startFill
  extract_lets
  split
  · split
    · next x he =>
      obtain ⟨l, -, hl⟩ := List.exists_of_findSome?_eq_some he
      split at hl
      · next y hy =>
        cases hl
        exact h.fillStop (h.fillValue.err hy)
      · cases hl
    · exact h.fillCorrect.modFill
  · exact h.modFill.modGrid

theorem WellKept.execHaloFillStart {k : Nat} : OutKept (execHaloFillStart k s) := by
  unfold Machine.execHaloFillStart
  split
  · exact WellKept.abandonPk (by exact { h with })
  · exact WellKept.ite (h.fillBroken.getD h.startFill) h

theorem WellKept.finishFill {k : Nat} {again : Bool} : WellKept (s.finishFill k again) := by
  unfold State.finishFill
  extract_lets
  split
  · exact h
  · split
    · next x he => exact h.fillStop (h.nearCells.err he)
    · split
      · next x he => exact h.fillStop (h.fillCorrect.putFill.err he)
      · next s1 he => exact (h.fillCorrect.putFill.ok he).nextStep.modGrid

theorem WellKept.execHaloFillComplete {k : Nat} : OutKept (execHaloFillComplete k s) := by
  unfold Machine.execHaloFillComplete
  exact WellKept.ite h (WellKept.ite (WellKept.ite h.nextStep h) (h.fillBroken.getD h.finishFill))

theorem WellKept.execHaloFillAbandon {k : Nat} {cause : BitVec 6} : OutKept (execHaloFillAbandon k cause s) := h.abandonFill

theorem WellKept.peerLost {gid peer : Nat} {cause : Cause} : WellKept (s.peerLost gid peer cause) :=
  h.foldl fun _ _ h => h.abandonFill

theorem WellKept.sendHalo {gid peer : Nat} {k : Option Nat} {q : FabPkt} {drop : State → State}
    (hdrop : ∀ t, WellKept t → WellKept (drop t)) : WellKept (s.sendHalo gid peer k q drop) := by
  unfold State.sendHalo
  split
  · exact WellKept.peerLost (hdrop _ h)
  · split
    · exact h
    · next fst s1 he => exact hdrop _ (h.sendReq.get he)

theorem WellKept.pumpGrid {gid : Nat} : WellKept (s.pumpGrid gid) := by
  unfold State.pumpGrid
  split
  · exact h
  · exact h.sendHalo (fun _ h => h.modGrid)

theorem WellKept.pumpFill {k : Nat} : WellKept (s.pumpFill k) := by
  unfold State.pumpFill
  split
  · exact h
  · exact h.sendHalo (fun _ h => h.modFill)

theorem WellKept.haloArrive {q : FabPkt} : (s.haloArrive q).Kept := by
  obtain ⟨entry, hentry⟩ : ∃ f, f = State.gridEntry := ⟨_, rfl⟩
  generalize hf : State.haloArrive = f
  delta State.haloArrive at hf
  rw [← hentry] at hf
  subst hf
  beta_reduce
  extract_lets
  split
  · trivial
  · split
    · exact h
    · split
      · exact h.modGrid
      · split
        · extract_lets
          split
          · exact h
          · extract_lets
            split
            · next x he => exact h.fillStop (h.putFill.err he)
            · next s1 he => exact (h.putFill.ok he).modFill
        · exact Halo.Kept.ite h { h with }

omit h in
theorem stepOf_kept {v : Word} {go : Nat → Res} (hgo : ∀ a, (go a).Kept) : (stepOf v go).Kept :=
  Res.Kept.ite trivial (hgo _)

theorem WellKept.gridRead {gid p : Nat} {l : Coord} {t : Nat} {d : Reg} : (s.gridRead gid p l t d).Kept := by
  unfold State.gridRead
  extract_lets
  split
  · exact h.faultIn
  · next e _ he => exact h.res (access_kept.err he)
  · exact h.loadAt (fun _ _ h => h.setReg)
  · exact h.faultIn

theorem WellKept.execGld {d a b : Reg} {p : BitVec 32} : OutKept (execGld d a b p s) := by
  unfold Machine.execGld
  refine h.run ?_
  extract_lets
  refine stepOf_kept (fun t' => ?_)
  refine h.gridOpen (fun t gid p l ht => ?_)
  extract_lets
  split
  · exact Res.Kept.ite ht.gridRead ht.faultIn
  · split
    · exact ht.acquire.gridRead
    · exact ht
    · exact ht.faultIn
    · exact ht.faultIn

theorem WellKept.coreWrite {c line : Nat} {bs : List (Nat × Byte)} {keep : Bool} : WellKept (s.coreWrite c line bs keep) :=
  h.levelWrite.untagBytes

theorem WellKept.execGst {d a b : Reg} {p : BitVec 32} : OutKept (execGst d a b p s) := by
  unfold Machine.execGst
  refine h.run ?_
  extract_lets
  refine stepOf_kept (fun t' => ?_)
  refine h.gridOpen (fun t gid p l ht => ?_)
  extract_lets _ bd
  split
  · exact ht.faultIn
  · split
    · exact ht.faultIn
    · split
      · exact ht.faultIn
      · split
        · exact ht
        · split
          · next na s' he =>
              split
              · exact (ht.coreStream.of_snd he).faultIn
              · next e _ he1 => exact (ht.coreStream.of_snd he).res (access_kept.err he1)
              · split
                · next s1 he1 => exact (ht.coreStream.of_snd he).release.of_fst he1
                · next s1 he1 =>
                    extract_lets _ s2
                    have h2 : WellKept s2 := ((ht.coreStream.of_snd he).release.of_fst he1).coreWrite
                    clear_value bd
                    split
                    · exact h2
                    · exact h2.modGrid
              · exact (ht.coreStream.of_snd he).faultIn

theorem WellKept.publishStep {gid p t : Nat} : WellKept (s.publishStep gid p t) := h.modGrid.post

theorem WellKept.bindFills {gid p : Nat} : WellKept (s.bindFills gid p) :=
  h.foldl fun _ _ h => WellKept.ite h (by exact { h with })

theorem WellKept.gstepWait {gid p t : Nat} {ptr : Word} : (s.gstepWait gid p t ptr).Kept := by
  unfold State.gstepWait
  split
  · exact h.faultIn
  · exact h
  · exact h

theorem WellKept.execGstep {a b : Reg} : OutKept (execGstep a b s) := by
  unfold Machine.execGstep
  refine h.run ?_
  extract_lets
  refine stepOf_kept fun n => h.gridOpen fun t gid p x ht => ?_
  extract_lets _ stale go
  have hstale : stale.Kept := ht.faultIn
  have hgo {b : Bool} : (go b).Kept := by
    unfold go
    split
    · next s1 he => exact ht.release.of_fst he
    · next s1 he =>
      have h1 : WellKept s1 := ht.release.of_fst he
      exact WellKept.gstepWait (WellKept.publishStep (WellKept.ite h1.modGrid.bindFills h1))
  clear_value go stale
  split
  · exact Res.Kept.ite hgo hstale
  · exact Res.Kept.ite ht.gstepWait (Res.Kept.ite hgo hstale)

theorem WellKept.execGwait {a b : Reg} : OutKept (execGwait a b s) := by
  unfold Machine.execGwait
  refine h.run ?_
  extract_lets
  refine stepOf_kept (fun t' => ?_)
  refine h.gridOpen (fun t gid p x ht => ?_)
  extract_lets
  split
  · exact ht.faultIn
  · exact ht.faultIn
  · exact Res.Kept.ite ht ht.acquire

theorem WellKept.execGwaitOut {a b : Reg} : OutKept (execGwaitOut a b s) := by
  unfold Machine.execGwaitOut
  refine h.run ?_
  extract_lets
  refine stepOf_kept (fun t' => ?_)
  refine h.gridOpen (fun t gid p x ht => ?_)
  split
  · exact ht.faultIn
  · exact ht
  · exact ht

theorem WellKept.execHalox {eng part q : Nat} : OutKept (execHalox eng part q s) := by
  unfold Machine.execHalox
  split
  · next s1 he => exact h.takePk.of_fst he
  · next s1 id he =>
      split
      · exact WellKept.modPk (by exact { (h.takePk.of_fst he) with })
      · exact (h.takePk.of_fst he).abandonPk
      · exact (h.takePk.of_fst he).abandonPk

theorem WellKept.dropGrids {l : Option Nat} : WellKept (s.dropGrids l) := { h with }

end Sys2Proof.Machine
end

section
/-! What the functions of Sys2Proof/Machine/VectorMem.lean keep: each leads from a well-kept state to a well-kept one. -/

namespace Sys2Proof.Machine

variable {s : State} (h : WellKept s)
include h

theorem WellKept.modMyPort {f : Port → Port} : WellKept (s.modMyPort f) := h.modPort

theorem WellKept.clearPrefix : WellKept s.clearPrefix := h.modCtx

theorem WellKept.enqueue {e : VEntry} : (s.enqueue e).Kept := Res.Kept.ite h h.modMyPort.clearPrefix

theorem WellKept.vissue {i : Instr} : (s.vissue i).Kept := Res.Kept.ite trivial h.enqueue

theorem WellKept.execVadd {sg : BitVec 1} {f : BitVec 4} {q : PReg} {d a b : VReg} : OutKept (execVadd sg f q d a b s) :=
  h.run h.vissue

theorem WellKept.execVsub {sg : BitVec 1} {f : BitVec 4} {q : PReg} {d a b : VReg} : OutKept (execVsub sg f q d a b s) :=
  h.run h.vissue

theorem WellKept.execVmul {sg : BitVec 1} {f : BitVec 4} {q : PReg} {d a b : VReg} : OutKept (execVmul sg f q d a b s) :=
  h.run h.vissue

theorem WellKept.execVfma {sg : BitVec 1} {f : BitVec 4} {q : PReg} {d a b : VReg} : OutKept (execVfma sg f q d a b s) :=
  h.run h.vissue

theorem WellKept.execVmin {sg : BitVec 1} {q : PReg} {d a b : VReg} : OutKept (execVmin sg q d a b s) := h.run h.vissue

theorem WellKept.execVmax {sg : BitVec 1} {q : PReg} {d a b : VReg} : OutKept (execVmax sg q d a b s) := h.run h.vissue

theorem WellKept.execVand {sg : BitVec 1} {q : PReg} {d a b : VReg} : OutKept (execVand sg q d a b s) := h.run h.vissue

theorem WellKept.execVor {sg : BitVec 1} {q : PReg} {d a b : VReg} : OutKept (execVor sg q d a b s) := h.run h.vissue

theorem WellKept.execVxor {sg : BitVec 1} {q : PReg} {d a b : VReg} : OutKept (execVxor sg q d a b s) := h.run h.vissue

theorem WellKept.execVshl {sg : BitVec 1} {q : PReg} {d a b : VReg} : OutKept (execVshl sg q d a b s) := h.run h.vissue

theorem WellKept.execVshr {sg : BitVec 1} {f : BitVec 4} {q : PReg} {d a b : VReg} : OutKept (execVshr sg f q d a b s) :=
  h.run h.vissue

theorem WellKept.execVcmp {sg : BitVec 1} {f : BitVec 4} {q d : PReg} {a b : VReg} : OutKept (execVcmp sg f q d a b s) :=
  h.run h.vissue

theorem WellKept.execVsel {sg : BitVec 1} {q : PReg} {d a b : VReg} : OutKept (execVsel sg q d a b s) := h.run h.vissue

theorem WellKept.execVcvt {sg : BitVec 1} {f : BitVec 4} {q : PReg} {d a b : VReg} : OutKept (execVcvt sg f q d a b s) :=
  h.run h.vissue

theorem WellKept.execVapx {f : BitVec 4} {q : PReg} {d a : VReg} : OutKept (execVapx f q d a s) := h.run h.vissue

theorem WellKept.execVabs {q : PReg} {d a : VReg} : OutKept (execVabs q d a s) := h.run h.vissue

theorem WellKept.execVneg {q : PReg} {d a : VReg} : OutKept (execVneg q d a s) := h.run h.vissue

theorem WellKept.execVred {f : BitVec 4} {q : PReg} {d a : VReg} : OutKept (execVred f q d a s) := h.run h.vissue

theorem WellKept.execVscan {f : BitVec 4} {q : PReg} {d a : VReg} : OutKept (execVscan f q d a s) := h.run h.vissue

theorem WellKept.execVperm {q : PReg} {d a b : VReg} : OutKept (execVperm q d a b s) := h.run h.vissue

theorem WellKept.execVbcast {f : BitVec 1} {q : PReg} {d a : VReg} {b : Reg} : OutKept (execVbcast f q d a b s) :=
  h.run h.vissue

theorem WellKept.execVsort {n k : BitVec 1} {q : PReg} {d a : VReg} : OutKept (execVsort n k q d a s) := h.run h.vissue

theorem WellKept.execVmerge {hh n k : BitVec 1} {q : PReg} {d a b : VReg} : OutKept (execVmerge hh n k q d a b s) :=
  h.run h.vissue

theorem WellKept.execVtopk {n : BitVec 1} {q : PReg} {d a : VReg} {b : Reg} : OutKept (execVtopk n q d a b s) :=
  h.run h.vissue

theorem WellKept.execPlog {sg : BitVec 1} {f : BitVec 4} {d a : PReg} {b : VReg} : OutKept (execPlog sg f d a b s) :=
  h.run h.vissue

theorem WellKept.execVmovx {f : BitVec 2} {d a : VReg} {b : Reg} : OutKept (execVmovx f d a b s) := by
  unfold Machine.execVmovx
  exact h.run (Res.Kept.ite h.vissue (Res.Kept.ite trivial (Res.Kept.ite h (Res.Kept.ite trivial h.clearPrefix.setReg))))

theorem WellKept.vecStream {es : List VElem} : WellKept ((s.vecStream es).2) :=
  List.foldlRecOn (motive := fun a : List Nat × State => WellKept a.2) es _ h fun _ ha _ _ => ha.coreStream

theorem WellKept.vecCheck {ps : List (Nat × Word)} {n need : Nat} {wr : Bool}
    {go : State → List (Nat × List Nat) → List Nat → Res} {far : List VElem → List Nat → State → Res}
        (hgo : ∀ t b c, WellKept t → (go t b c).Kept) (hfar : ∀ a b t, WellKept t → (far a b t).Kept)
            : (s.vecCheck ps n need wr go far).Kept := by
  unfold State.vecCheck
  split
  · trivial
  · extract_lets
    split
    · exact h
    · split
      · exact h
      · split
        · exact h
        · exact Res.Kept.ite (hgo _ _ _ h.vecStream) (hfar _ _ _ h.vecStream)

theorem WellKept.vecLoad {c f : Nat} {segs : List (Nat × List Nat)} {na : List Nat} {old : VWord} :
    WellKept (((s.vecLoad c f segs na old).2).2) :=
  h.loadBytes.errMet

theorem WellKept.vecStore {c f : Nat} {segs : List (Nat × List Nat)} {v : VWord} {na : List Nat} {bad : Bool} {more : Nat}
    : WellKept ((s.vecStore c f segs v na bad more).1) := by
  unfold State.vecStore
  extract_lets _ ls
  split
  · split
    · next s1 _ he =>
        extract_lets s2
        have h2 : WellKept s2 := (h.flushLines.get he).place.untagBytes
        have hp : WellKept { s2 with poison := ls.foldl (fun g l => addNat g (l / 16)) s2.poison } :=
          { h2 with poison := foldl_rising (fun _ _ hl => addNat_rising hl _) _ h2.poison }
        exact WellKept.ite hp h2
    · exact h.askFlush.askWrites
  · split
    · next s1 he => exact (h.bufferBytes.get he).untagBytes
    · exact h.askHeld

theorem WellKept.vecStoreAt {c f b : Nat} {segs : List (Nat × List Nat)} {v : VWord} {na : List Nat} {bad : Bool} :
    WellKept ((s.vecStoreAt c f b segs v na bad).1) :=
  { h.modCtx.vecStore with }

theorem WellKept.farSend {e : VElem} {hh : HEntry} {off n k : Nat} {data : Option (List Byte)} :
    (s.farSend e hh off n k data).Kept := by
  unfold State.farSend
  split
  · trivial
  · exact h.stepSend

theorem WellKept.fifoStep {k : Nat} : WellKept (s.fifoStep k) := by
  unfold State.fifoStep
  exact h.modCtx

theorem WellKept.farStore {ptr : Word} {off k : Nat} {bs : List Byte} : (s.farStore ptr off k bs).Kept := by
  unfold State.farStore
  extract_lets
  split
  · next s1 he => exact (h.bufferBytes.get he).noteElem
  · exact h.askHeld

theorem WellKept.farOne {f : Nat} {val : Option VWord} {bad : Bool} {na : List Nat} {e : VElem} :
    (s.farOne f val bad na e).Kept := by
  unfold State.farOne
  extract_lets
  split
  · exact Res.Kept.ite h h.vecLoad.noteElem
  · split
    · next s1 he => exact (h.vecStore.of_fst he).noteElem
    · next s1 he => exact h.vecStore.of_fst he
  · split
    · exact h.fifoStep.modClu
    · next v s1 he => exact (h.windowTake.get he).noteElem
  · split
    · next s1 he => exact (h.windowStore.of_eq he).noteElem
    · trivial
    · next s1 b p he => exact (h.windowStore.of_eq he).fifoStep
    · exact h.windowStore
  · split
    · trivial
    · exact h.noteElem
  · exact h.farSend
  · extract_lets
    split
    · split
      · exact h.farStore
      · exact h.farSend
      · exact h.farStore
    · exact h.farStore
  · trivial

theorem WellKept.vecFar {f : Nat} {u : VUse} {d : Nat} {val : Option VWord} {es : List VElem} {na : List Nat} :
    (State.vecFar f u d val es na s).Kept := by
  unfold State.vecFar
  extract_lets _ _ _ r
  have hr : r.Kept := by
    refine List.foldlRecOn (motive := Res.Kept) _ _ (show Res.Kept (.done s) from h) fun r hr e _ => ?_
    split
    · exact WellKept.farOne hr
    · exact hr
  clear_value r
  split
  · exact h
  · split
    · next s1 =>
      have h1 : WellKept s1 := hr
      exact Res.Kept.ite h1.modCtx.clearPrefix h1.modCtx.clearPrefix.modMyPort
    · exact hr

theorem WellKept.vmem {i : Instr} {qp d need : Nat} {wr : Bool} : (s.vmem i qp d need wr).Kept := by
  unfold State.vmem
  extract_lets
  split
  · trivial
  · exact Res.Kept.ite h (Res.Kept.ite h (h.vecCheck (fun _ _ _ h => h.enqueue) (fun _ _ _ h => h.vecFar)))

theorem WellKept.execVld {sg : BitVec 1} {q : PReg} {d : VReg} {a : Reg} {b : VReg} : OutKept (execVld sg q d a b s) :=
  h.run h.vmem

theorem WellKept.execVst {sg : BitVec 1} {q : PReg} {d : VReg} {a : Reg} {b : VReg} : OutKept (execVst sg q d a b s) :=
  h.run h.vmem

theorem WellKept.portStep {core p : Nat} : WellKept (s.portStep core p) := by
  unfold State.portStep
  extract_lets
  split
  · extract_lets
    split
    · exact h
    · split
      · split
        · exact h.saveHeldAt
        · exact h
      · split
        · exact h.modPort
        · split
          · exact h
          · split
            next he => exact (h.vecLoad.of_snd_snd he).modPort
        · split
          · next s1 he => exact h.vecStoreAt.of_fst he
          · next s1 he => exact (h.vecStoreAt.of_fst he).modPort
        · exact h.modPort
  · exact h

theorem WellKept.execPortEntryExecute {core port : Nat} : OutKept (execPortEntryExecute core port s) := h.portStep

theorem WellKept.execRepPass {core port : Nat} : OutKept (execRepPass core port s) := WellKept.ite h h.modPort

theorem WellKept.gather {i : Instr} {sh p : BitVec 3} {qp : PReg} {vi d : VReg} {disp : BitVec 32} {store : Bool} :
    (s.gather i sh p qp vi d disp store).Kept := by
  unfold State.gather
  extract_lets
  split
  · trivial
  · split
    · exact h
    · refine h.vecCheck (fun t l na ht => ?_) (fun _ _ _ h => h.vecFar)
      split
      · split
        · next s1 he => exact ht.vecStore.of_fst he
        · next s1 he => exact (ht.vecStore.of_fst he).clearPrefix
      · split
        · exact ht
        · split
          next he => exact (ht.vecLoad.of_snd_snd he).modMyPort.clearPrefix

theorem WellKept.execVgath {a : Reg} {sh p : BitVec 3} {q : PReg} {vi d : VReg} {disp : BitVec 32} :
    OutKept (execVgath a sh p q vi d disp s) :=
  h.run h.gather

theorem WellKept.execVscat {a : Reg} {sh p : BitVec 3} {q : PReg} {vi d : VReg} {disp : BitVec 32} :
    OutKept (execVscat a sh p q vi d disp s) :=
  h.run h.gather

theorem WellKept.execRep {t : BitVec 3} {l : BitVec 4} {a : Reg} : OutKept (execRep t l a s) := by
  unfold Machine.execRep
  refine h.run ?_
  extract_lets
  split
  · trivial
  · split
    · trivial
    · exact Res.Kept.ite h h.modMyPort.complete

theorem WellKept.vcfg {d : Reg} {new : Word → Word} : (s.vcfg d new).Kept := Res.Kept.ite h h.modMyPort.setReg

theorem WellKept.execVcfg {d : Reg} : OutKept (execVcfg d s) := h.run h.vcfg

theorem WellKept.execVcfgWr {d a : Reg} : OutKept (execVcfgWr d a s) := h.run (Res.Kept.ite trivial h.vcfg)

theorem WellKept.execVcfgClr {d : Reg} : OutKept (execVcfgClr d s) := h.run h.vcfg

theorem WellKept.execFmt {sg : BitVec 1} {g : BitVec 2} {f : BitVec 5} : OutKept (execFmt sg g f s) := h.run h.modCtx

end Sys2Proof.Machine
end

section
/-! What the functions of Sys2Proof/Machine/Launches.lean keep: each leads from a well-kept state to a well-kept one. -/

namespace Sys2Proof.Machine

variable {s : State} (h : WellKept s)
include h

theorem WellKept.abandonLaunch {l : Nat} {cause : Cause} {info : Word} : WellKept (s.abandonLaunch l cause info) := by
  unfold State.abandonLaunch
  extract_lets _ owner s1
  have h1 : WellKept s1 := h.modLaunch
  clear_value owner
  split
  · exact h1
  · exact h1.raiseAt

theorem WellKept.traceTaken {p mode : Nat} : WellKept (((s.traceTaken p mode).2).2) := by
  unfold State.traceTaken
  extract_lets _ n s1
  have h1 : WellKept s1 := h.modPart
  have h2 : WellKept (s1.diverge p none (BitVec.allOnes 64)) := h1.diverge
  split
  · exact h
  · split
    · exact h1
    · exact h2

theorem WellKept.noFrame {l i : Nat} : OptKept WellKept (s.noFrame l i) := h.logged

theorem WellKept.tryReady {l : Nat} : WellKept (s.tryReady l) := by
  unfold State.tryReady
  extract_lets
  split
  · exact h
  · split
    · exact h.abandonLaunch
    · exact h
    · split
      · split
        · exact h
        · next s1 he => exact (h.noFrame.get he).modLaunch
      · exact h.modLaunch

theorem WellKept.readyLaunches {p : Nat} : WellKept (s.readyLaunches p) := h.foldl fun _ _ h => h.tryReady

theorem WellKept.takeLaunch {part q : Nat} : WellKept (s.takeLaunch part q) := by
  obtain ⟨slotLoc, hslot⟩ : ∃ f, f = State.slotLoc := ⟨_, rfl⟩
  obtain ⟨headerLoc, hheader⟩ : ∃ f, f = State.headerLoc := ⟨_, rfl⟩
  obtain ⟨launchBad, hbad⟩ : ∃ f, f = State.launchBad := ⟨_, rfl⟩
  obtain ⟨launchList, hlist⟩ : ∃ f, f = State.launchList := ⟨_, rfl⟩
  unfold State.takeLaunch
  rw [← hslot, ← hheader, ← hbad, ← hlist]
  split
  · exact h
  · split
    · exact h
    · extract_lets
      split
      · split
        · exact h
        · split
          · exact h.askQueue
          · extract_lets _ bad foot feed _ s1 s2
            have h2 : WellKept s2 := { h.consume with }
            clear_value bad foot feed s2
            split
            · exact h2.abandonLaunch
            · split
              · exact h2.abandonLaunch
              · exact h2.abandonLaunch
              · exact h2.traceTaken.modLaunch
      · exact h

theorem WellKept.execLaunch {part q : Nat} : OutKept (execLaunch part q s) := h.takeLaunch.readyLaunches

theorem WellKept.execSchedulerEpoch {part : Nat} : OutKept (execSchedulerEpoch part s) := { h with }

theorem WellKept.execCopyPacketComplete {id : Nat} : OutKept (execCopyPacketComplete id s) := by
  unfold Machine.execCopyPacketComplete
  split
  · exact h
  · split
    · exact h.askArrive
    · exact h.finishPk.readyLaunches

theorem WellKept.execCopyHoldTimeout {id : Nat} : OutKept (execCopyHoldTimeout id s) := by
  unfold Machine.execCopyHoldTimeout
  split
  · exact h
  · exact h.abandonPk.readyLaunches

theorem WellKept.startCtx {l b core c : Nat} : WellKept (s.startCtx l b core c) := by
  unfold State.startCtx
  extract_lets _ _ _ _ _ s1 s2 s3
  have h1 : WellKept s1 := by
    unfold s1
    split
    · exact h
    · exact h.takeEngine
  have h2 : WellKept s2 := { h1 with }
  have h3 : WellKept s3 := h2.emptyChan.dropSolo.setCtx
  exact WellKept.ite h3.raiseAt h3

theorem WellKept.startBlock {l core : Nat} : WellKept (s.startBlock l core) := by
  unfold State.startBlock
  extract_lets _ _ _ _ _ s1 _ _ t s2 s3 s4
  have h1 : WellKept s1 := h.applyInbox.modLaunch
  have ht : WellKept t := h1.foldl fun _ _ h => h.saveBank
  have h2 : WellKept s2 := WellKept.ite (OptKept.getD ht.bankStore ht) h1
  have h3 : WellKept s3 := h2.modCore
  have h4 : WellKept s4 := h3.foldl fun _ _ h => h.startCtx
  exact h4.modCore

theorem WellKept.dispatchTo {l core : Nat} : OptKept WellKept (s.dispatchTo l core) := by
  unfold State.dispatchTo
  extract_lets
  split
  · split
    · trivial
    · exact OptKept.ite trivial (OptKept.ite h.diverge (OptKept.ite h.passRecord.startBlock trivial))
  · split
    · trivial
    · exact OptKept.ite trivial (h.logged.map fun _ h => h.startBlock)

theorem WellKept.execBlockDispatch {part core : Nat} : OutKept (execBlockDispatch part core s) :=
  OptKept.getD (OptKept.findSome? fun _ => h.dispatchTo) h

theorem WellKept.publishClusters {ks : List Nat} : WellKept (s.publishClusters ks) := by
  unfold State.publishClusters
  exact h.foldl fun _ _ h => WellKept.applyInbox (WellKept.drainThroughs (h.foldl fun _ _ h => h.drainShared))

theorem WellKept.askClusters {ks : List Nat} : WellKept (s.askClusters ks) := h.askWrites

theorem WellKept.execLaunchComplete {l : Nat} : OutKept (execLaunchComplete l s) := by
  unfold Machine.execLaunchComplete
  extract_lets x s1 s2
  have h1 : WellKept s1 := h.publishClusters.dropGrids
  have h2 : WellKept s2 := by
    unfold s2
    split
    · exact h1
    · exact h1.arriveAt
  exact WellKept.ite h (WellKept.ite h.askClusters (WellKept.ite h.askArrive h2.modLaunch.readyLaunches))

end Sys2Proof.Machine
end

section
/-! What the functions of Sys2Proof/Machine/Records.lean keep: each leads from a well-kept state to a well-kept one. -/

namespace Sys2Proof.Machine

variable {s : State} (h : WellKept s)
include h

theorem WellKept.rewriteRecord {p rec_ : Nat} {x : Ctx} : WellKept (s.rewriteRecord p rec_ x) := h.areaWrite.areaWrite

end Sys2Proof.Machine
end

section
/-! What the functions of Sys2Proof/Machine/Waits.lean keep: each leads from a well-kept state to a well-kept one. -/

namespace Sys2Proof.Machine

variable {s : State} (h : WellKept s)
include h

theorem WellKept.wake {c : Nat} : WellKept (s.wake c) := h.modCtx

theorem WellKept.execSignalQuery {c : Nat} : OutKept (execSignalQuery c s) := by
  unfold Machine.execSignalQuery
  split
  · exact h
  · exact h.giveReply

theorem WellKept.resume {c : Nat} {w : WaitRec} : WellKept (s.resume c w) := by
  unfold State.resume
  split
  · exact h.takeReply
  · split
    · split
      · exact WellKept.ite h.askHeld h.drainAll.endLost
      · exact h.wake
      · exact h.wake.modCtx.takeFault
    · exact h

theorem WellKept.execTagArrival {c : Nat} : OutKept (execTagArrival c s) := by
  unfold Machine.execTagArrival
  split
  · exact h
  · exact WellKept.ite h h.resume

theorem WellKept.unsend {c n : Nat} : WellKept (s.unsend c n) := by
  unfold State.unsend
  extract_lets s1
  have h1 : WellKept s1 := by
    unfold s1
    split
    · exact h
    · exact WellKept.modPkg (by exact { h with })
  split
  · exact h1
  · exact WellKept.modPkg (by exact { h1 with })

theorem WellKept.unblock {c : Nat} : WellKept (s.unblock c) := by
  unfold State.unblock
  split
  · exact h
  · split
    · exact h.takeReply
    · split
      · refine .withdraw ?_
        split
        · exact h.unsend
        · exact h
      · exact h

end Sys2Proof.Machine
end

section
/-! What the functions of Sys2Proof/Machine/Lehr.lean keep: each leads from a well-kept state to a well-kept one. -/

namespace Sys2Proof.Machine

variable {s : State} (h : WellKept s)
include h

theorem WellKept.modDom {l : Nat} {f : Domain → Domain} : WellKept (s.modDom l f) := h.modLaunch

theorem WellKept.execSignalEmission {m : Nat} : OutKept (execSignalEmission m s) := by
  unfold Machine.execSignalEmission
  split
  · exact h
  · split
    · exact h.takeMsg.modDom
    · exact h

theorem WellKept.execSignalRelease {m : Nat} : OutKept (execSignalRelease m s) := by
  unfold Machine.execSignalRelease
  split
  · exact h
  · split
    · exact h.takeMsg.modDom
    · exact h

theorem WellKept.frameLogged {l i crc : Nat} : OptKept WellKept (s.frameLogged l i crc) := by
  unfold State.frameLogged
  extract_lets
  split
  · split
    · trivial
    · exact OptKept.ite (OptKept.ite h.passRecord h.diverge) trivial
  · exact h.logged

theorem WellKept.execFrameApply {l : Nat} : OutKept (execFrameApply l s) := by
  unfold Machine.execFrameApply
  extract_lets
  split
  · exact h
  · split
    · exact h
    · extract_lets
      split
      · exact h
      · split
        · exact h
        · next s1 he => exact (h.frameLogged.get he).modDom.place

theorem WellKept.publishMembers {l : Nat} : WellKept (s.publishMembers l) :=
  WellKept.publishClusters (h.foldl fun _ _ h => h.drainAll)

theorem WellKept.askBound {l : Nat} : WellKept (s.askBound l) := by
  unfold State.askBound
  exact WellKept.ite h.publishMembers (WellKept.askClusters (h.foldl fun _ _ h => h.askHeld))

theorem WellKept.nextInstant {l : Nat} : WellKept (s.nextInstant l) := by
  unfold State.nextInstant
  extract_lets _ _ _ _ _ s1 _ s2
  have h1 : WellKept s1 := h.foldl fun _ _ h => WellKept.ite (WellKept.ite h.setCtx.raiseAt h.setCtx) h.modCtx
  have h2 : WellKept s2 := by
    unfold s2
    exact h1.foldl fun _ _ h => WellKept.ite (WellKept.rewriteRecord (WellKept.areaWrite (by exact { h with }))) h
  exact h2.modDom

theorem WellKept.boundary {l : Nat} : WellKept (s.boundary l) := by
  unfold State.boundary
  extract_lets
  split
  · exact h.publishMembers.modDom
  · split
    · split
      · exact h
      · next s1 he => exact (h.noFrame.get he).publishMembers.nextInstant
    · exact h.publishMembers.nextInstant

theorem WellKept.endAway {code : BitVec 8} {x : Ctx} : WellKept (s.endAway code x) := by
  unfold State.endAway
  split
  · exact h
  · exact WellKept.ite (WellKept.ite h h.setCtx) h.setReap

theorem WellKept.endMembers {l : Nat} {code : BitVec 8} : WellKept (s.endMembers l code) := by
  unfold State.endMembers
  extract_lets here s1 away s2 gone s3
  have h1 : WellKept s1 := h.foldl fun _ _ ht => WellKept.ite ht.unblock.modCtx.exitThread ht
  have haway {t : State} {p : Nat × Spilled} (ht : WellKept t) : WellKept (away t p) := by
    have hd : WellKept { t with spilled := SMap.del t.spilled p.1 } := { ht with }
    exact hd.endAway
  have h2 : WellKept s2 := h1.foldl fun _ _ ht => haway ht
  have hgone {t : State} {p : Nat × Ctx} (ht : WellKept t) : WellKept (gone t p) := by
    unfold gone
    extract_lets _ v
    have hv : WellKept v := { ht with }
    exact hv.endAway
  have h3 : WellKept s3 := h2.foldl fun _ _ ht => hgone ht
  exact h3.modLaunch

theorem WellKept.stopMembers {l : Nat} : WellKept (s.stopMembers l) := h.foldl fun _ _ h => h.unblock.modCtx

theorem WellKept.endDomain {l : Nat} : WellKept ((s.endDomain l).1) := by
  unfold State.endDomain
  extract_lets s1
  have h1 : WellKept s1 := h.stopMembers
  split
  · exact h1.publishMembers.endMembers.modDom
  · exact h1.askBound.modDom

theorem WellKept.halt {c : Nat} : WellKept (s.halt c) := by
  unfold State.halt
  exact h.unblock.modCtx

theorem WellKept.freeze {l : Nat} {cause : Cause} {stop away : List Nat} : WellKept (s.freeze l cause stop away) := by
  unfold State.freeze
  extract_lets _ s1 s2
  have h1 : WellKept s1 := h.foldl fun _ _ h => h.halt
  have h2 : WellKept s2 := { h1 with }
  exact WellKept.ite h2.endDomain h2.modDom

theorem WellKept.deadlockFault {c : Nat} : WellKept (s.deadlockFault c) := h.unblock.enter

theorem WellKept.lehrDecide {l : Nat} : WellKept (s.lehrDecide l) := by
  unfold State.lehrDecide
  extract_lets _ re _ s1 n waiting
  have h1 : WellKept s1 := WellKept.ite h.modDom h
  have hfreeze : WellKept (if 0 < n .test then s1.freeze l Cause.causality waiting
      else if 0 < n .chan then s1.freeze l Cause.channelDeadlock waiting else s1) :=
    WellKept.ite h1.freeze (WellKept.ite h1.freeze h1)
  have hfault : WellKept (if 0 < n .chan then waiting.foldl (fun s c => s.deadlockFault c) s1 else s1) :=
    WellKept.ite (h1.foldl fun _ _ h => h.deadlockFault) h1
  have hidle : WellKept (if !re then s1 else if s1.canBound l then s1.boundary l else s1.askBound l) :=
    WellKept.ite h1 (WellKept.ite h1.boundary h1.askBound)
  exact WellKept.ite h (WellKept.ite h.endDomain (WellKept.ite h
    (WellKept.ite hidle (WellKept.ite (WellKept.ite hfreeze hfault) h1))))

theorem WellKept.execLehrDecide {l : Nat} : OutKept (execLehrDecide l s) :=
  WellKept.ite (WellKept.lehrDecide (by exact { h with })) h.lehrDecide

theorem WellKept.execInstantLimit {l : Nat} : OutKept (execInstantLimit l s) :=
  WellKept.ite h (WellKept.ite h.freeze h.freeze)

end Sys2Proof.Machine
end

section
/-! What the functions of Sys2Proof/Machine/Instants.lean keep: each leads from a well-kept state to a well-kept one. -/

namespace Sys2Proof.Machine

variable {s : State} (h : WellKept s)
include h

omit h in
theorem asMember_kept {go : Nat → Domain → Res} (hgo : ∀ a b, (go a b).Kept) : (s.asMember go).Kept := by
  unfold State.asMember
  split
  · trivial
  · exact Res.Kept.ite (hgo _ _) trivial

omit h in
theorem asGaffer_kept {go : Nat → Domain → Res} (hgo : ∀ a b, (go a b).Kept) : (s.asGaffer go).Kept := by
  unfold State.asGaffer
  split
  · trivial
  · exact Res.Kept.ite (hgo _ _) trivial

omit h in
theorem onSignal_kept {d : Domain} {v : Word} {go : Nat → Res} (hgo : ∀ a, (go a).Kept) : (onSignal d v go).Kept :=
  Res.Kept.ite trivial (hgo _)

omit h in
theorem onGroup_kept {d : Domain} {base mask : Word} {go : Nat → Res} (hgo : ∀ a, (go a).Kept) :
    (onGroup d base mask go).Kept := by
  unfold onGroup
  split
  · trivial
  · split
    · trivial
    · exact hgo _

theorem WellKept.pause : s.pause.Kept := Res.Kept.ite h.modCtx.releaseAll.modCtx h.pushMarker

theorem WellKept.execPause : OutKept (execPause s) := h.run h.pause

theorem WellKept.execInstn {d : Reg} : OutKept (execInstn d s) := h.run h.setReg

theorem WellKept.emit {k : Nat} {a v : Word} : (s.emit k a v).Kept := by
  unfold State.emit
  exact asMember_kept (fun _ _ => onSignal_kept (fun _ => Res.Kept.ite trivial (WellKept.post
      (WellKept.ite h h.pushMarker))))

theorem WellKept.execEmit {k : BitVec 2} {a b : Reg} : OutKept (execEmit k a b s) := h.run h.emit

theorem WellKept.ask {q : Nat} {dst : Reg} {a : Word} {w : Nat → Why} {f : Signal → Option Word} :
    (s.ask q dst a w f).Kept := by
  unfold State.ask
  refine asMember_kept (fun x d => ?_)
  refine onSignal_kept (fun n => ?_)
  split
  · exact h
  · split
    · exact h
    · exact h.setReg.acquire

theorem WellKept.execTest {q : BitVec 2} {d a : Reg} : OutKept (execTest q d a s) := h.run h.ask

theorem WellKept.execTestv {q : BitVec 2} {d a : Reg} : OutKept (execTestv q d a s) := h.run h.ask

theorem WellKept.renounce {a : Word} : (s.renounce a).Kept := by
  unfold State.renounce
  exact asMember_kept (fun _ _ => onSignal_kept (fun _ => Res.Kept.ite h.modCtx.releaseSig.modCtx h.modCtx))

theorem WellKept.execRenounce {a : Reg} : OutKept (execRenounce a s) := h.run h.renounce

theorem WellKept.registerSig {l c n : Nat} : WellKept (s.registerSig l c n) := WellKept.ite h.modCtx h.modDom.modCtx

theorem WellKept.dropSig {l c n : Nat} : WellKept (s.dropSig l c n) := h.modDom.modCtx

theorem WellKept.emits {i : Nat} {base mask : Word} : (s.emits i base mask).Kept := by
  unfold State.emits
  refine asMember_kept fun l d => onGroup_kept fun b => ?_
  extract_lets _ _ s1 _ s2 s3
  have h1 : WellKept s1 := h.modCtx
  have h2 : WellKept s2 := h1.foldl fun _ _ h => h.dropSig
  have h3 : WellKept s3 := h2.foldl fun _ _ h => h.registerSig
  exact Res.Kept.ite h h3.modCtx

theorem WellKept.execEmits {sl : BitVec 2} {a b : Reg} : OutKept (execEmits sl a b s) := h.run h.emits

theorem WellKept.pushRegion {g : Region} : (s.pushRegion g).Kept := Res.Kept.ite trivial h.modCtx

theorem WellKept.execAbortw {a : Reg} {p : BitVec 32} : OutKept (execAbortw a p s) := by
  unfold Machine.execAbortw
  exact h.run (asMember_kept (fun _ _ => onSignal_kept (fun _ => Res.Kept.ite trivial h.pushRegion)))

theorem WellKept.execSuspw {a : Reg} : OutKept (execSuspw a s) :=
  h.run (asMember_kept (fun _ _ => onSignal_kept (fun _ => h.pushRegion)))

theorem WellKept.execEndw : OutKept (execEndw s) := h.run (asMember_kept (fun _ _ => Res.Kept.ite trivial h.modCtx))

theorem WellKept.noteRenounced {tids : List Nat} : WellKept (s.noteRenounced tids) := h.foldl fun _ _ h => h.areaWrite

theorem WellKept.forceSig {l n : Nat} : WellKept (s.forceSig l n) := by
  unfold State.forceSig
  extract_lets
  exact WellKept.ite h (WellKept.modDom (WellKept.noteRenounced (h.foldl fun _ _ h => h.modThread)))

theorem WellKept.thaw {l : Nat} : WellKept (s.thaw l) := WellKept.modDom (by exact { h with })

theorem WellKept.sigforce {k : Nat} {a b : Reg} : (s.sigforce k a b).Kept := by
  unfold State.sigforce
  refine asGaffer_kept fun l d => ?_
  split
  · split
    · trivial
    · split
      · exact h
      · split
        · next s1 he => exact h.endDomain.of_fst he
        · next s1 he => exact h.endDomain.of_fst he
  · refine onGroup_kept fun base => ?_
    extract_lets s1
    have h1 : WellKept s1 := h.foldl fun _ _ h => h.forceSig
    exact Res.Kept.ite trivial (WellKept.ite h1.thaw h1)

theorem WellKept.execSigforce {k : BitVec 2} {a b : Reg} : OutKept (execSigforce k a b s) := h.run h.sigforce

theorem WellKept.lehrTold {dst : Reg} {kind : Nat} {instant : Word} : WellKept (s.lehrTold dst kind instant) :=
  h.modCtx.setReg.acquire

omit h in
theorem WellKept.lehrWords {ptr : Word} {off : Nat} {l : List (Nat × Nat)} {s : State} (h : WellKept s) :
    (State.lehrWords ptr off l s).Kept := by
  induction l generalizing s with
  | nil => exact h
  | cons p l ih =>
    unfold State.lehrWords
    split
    · next s1 he => exact ih (WellKept.noteElem (h.windowStore.of_eq he))
    · next s1 w he => exact WellKept.modCtx (h.windowStore.of_eq he)
    · exact h.windowStore

theorem WellKept.lehrWindow {d : Domain} {inst : Bool} {lim : Nat} {dst : Reg} {ptr : Word} {off : Nat} :
    (s.lehrWindow d inst lim dst ptr off).Kept := by
  unfold State.lehrWindow
  extract_lets c go
  have hgo {t : State} {k n len : Nat} {i : Word} {steps : Nat} (ht : WellKept t) : (go t k n len i steps).Kept := by
    unfold go
    split
    · next s1 he => exact (ht.lehrWords.of_eq he : WellKept s1).modCtx.lehrTold
    · exact ht.lehrWords
  clear_value go
  split
  · trivial
  · exact hgo h
  · split
    · exact h
    · exact hgo h.noteElem.noteElem

theorem WellKept.lehrStore {d : Domain} {inst : Bool} {lim : Nat} {dst : Reg} {ls : List Nat} {keep : Bool} :
    (s.lehrStore d inst lim dst ls keep).Kept := by
  unfold State.lehrStore
  split
  · exact h
  · split
    · exact h.askHeld
    · next s1 he => exact (h.bufferBytes.get he).lehrTold

theorem WellKept.lehrw {inst : Bool} {lim : Nat} {dst : Reg} {ptr : Word} : (s.lehrw inst lim dst ptr).Kept := by
  unfold State.lehrw
  refine asGaffer_kept (fun x d => ?_)
  extract_lets
  split
  · next e he => exact h.res (access_kept.err he)
  · exact Res.Kept.ite h h.coreStream.lehrStore
  · split
    · trivial
    · split
      · trivial
      · exact h.lehrStore
  · exact h.lehrWindow
  · trivial

theorem WellKept.execLehrw {k : BitVec 1} {n : BitVec 16} {d a : Reg} : OutKept (execLehrw k n d a s) := h.run h.lehrw

end Sys2Proof.Machine
end

section
/-! What the functions of Sys2Proof/Machine/System.lean keep: each leads from a well-kept state to a well-kept one. -/

namespace Sys2Proof.Machine

variable {s : State} (h : WellKept s)
include h

theorem WellKept.execSysrd {n : BitVec 12} {d : Reg} : OutKept (execSysrd n d s) := by
  unfold Machine.execSysrd
  refine h.run ?_
  split
  · trivial
  · exact h.setReg

theorem WellKept.dropWalks {ks : List Nat} {scope p : Nat} {d : Drop} : WellKept (s.dropWalks ks scope p d) := { h with }

theorem WellKept.askInv {c scope : Nat} : WellKept (s.askInv c scope) :=
  WellKept.askClusters (h.foldl fun _ _ h => h.askHeld)

theorem WellKept.heldAgain {id : Nat} : WellKept (s.heldAgain id) := by
  unfold State.heldAgain
  split
  · exact h.finishFill
  · exact h.resumePk

theorem WellKept.invalidateFor {c scope : Nat} {d : Drop} : WellKept (s.invalidateFor c scope d) := by
  unfold State.invalidateFor
  extract_lets
  split
  · exact h
  · split
    · exact WellKept.dropWalks (WellKept.foldl (h.foldl fun _ _ h => h.drainAll) fun _ _ h => WellKept.modClu
        (WellKept.drainThroughs (h.foldl fun _ _ h => h.drainShared)))
    · exact WellKept.readyLaunches (WellKept.foldl (WellKept.dropWalks (WellKept.foldl (h.foldl fun _ _ h => h.drainAll)
        fun _ _ h => WellKept.modClu (WellKept.drainThroughs (h.foldl fun _ _ h => h.drainShared))))
            fun _ _ h => h.heldAgain)

theorem WellKept.withInv {scope : Nat} {d : Drop} {write : State → State} (hwrite : ∀ t, WellKept t → WellKept (write t)) :
    (s.withInv scope d write).Kept := by
  unfold State.withInv
  split
  · next s1 he => exact h.release.of_fst he
  · next s1 he =>
      split
      · exact WellKept.ite (h.release.of_fst he) (h.release.of_fst he).askInv
      · split
        · exact (h.release.of_fst he).foldl fun _ _ h => h.drainAll.drainShared
        · exact WellKept.invalidateFor (hwrite _ (h.release.of_fst he))

theorem WellKept.execTlbinv {a b : Reg} : OutKept (execTlbinv a b s) :=
  h.run (Res.Kept.ite trivial (h.withInv (fun _ h => h)))

theorem WellKept.putHandle {hh : Nat} {img : BitVec 256} : (s.putHandle hh img).Kept := by
  unfold State.putHandle
  extract_lets
  split
  · trivial
  · exact h.withInv (fun _ h => h.place)

theorem WellKept.handleImage {ptr : Word} {go : State → BitVec 256 → Res} (hgo : ∀ t b, WellKept t → (go t b).Kept) :
    (s.handleImage ptr go).Kept := by
  unfold State.handleImage
  split
  · trivial
  · split
    · next e he => exact h.res (h.ownBytes.err he)
    · next bs s1 he => exact hgo _ _ (h.ownBytes.ok he)

theorem WellKept.execHtset {a b : Reg} : OutKept (execHtset a b s) := by
  unfold Machine.execHtset
  refine h.run ?_
  extract_lets
  split
  · trivial
  · split
    · exact h.putHandle
    · refine h.handleImage (fun t e ht => ?_)
      split
      · trivial
      · exact ht.putHandle

theorem WellKept.tlbPut {u : Nat} {t : Tlb} : WellKept (s.tlbPut u t) := WellKept.ite h.modClu (WellKept.ite h.modMat h)

theorem WellKept.walkPut {u part va : Nat} : WellKept (s.walkPut u part va) := { h.draw with }

theorem WellKept.handlePut {clu part hh : Nat} : WellKept (s.handlePut clu part hh) := by
  unfold State.handlePut
  split
  · exact h
  · extract_lets _ s1
    have h1 : WellKept s1 := h.modClu
    split
    · exact h1
    · split
      · exact h1
      · exact h1.modClu

theorem WellKept.execPageWalk {clu part : Nat} {host : Bool} {va : Nat} : OutKept (execPageWalk clu part host va s) := by
  unfold Machine.execPageWalk
  extract_lets s1
  have h1 : WellKept s1 := h.correct
  split
  · exact h1
  · exact WellKept.ite h1 (WellKept.ite h1.walkPut.tlbPut.handlePut h1.walkPut.tlbPut)

theorem WellKept.writeSta {v : Word} : (s.writeSta v).Kept := Res.Kept.ite trivial h.modCtx

theorem WellKept.writeExc {n : Nat} {v : Word} : (s.writeExc n v).Kept := by
  unfold State.writeExc
  extract_lets
  split
  · exact h.modCtx
  · split
    · exact Res.Kept.ite trivial h.modCtx
    · split
      · exact Res.Kept.ite trivial h.modCtx
      · exact Res.Kept.ite h.modCtx (Res.Kept.ite h.modCtx (Res.Kept.ite trivial h.modCtx))

theorem WellKept.qregister {v : Word} : (s.qregister v).Kept := by
  unfold State.qregister
  split
  · trivial
  · split
    · trivial
    · next s1 he => exact h.qreg.get he

theorem WellKept.qunregister {v : Word} : (s.qunregister v).Kept := by
  unfold State.qunregister
  split
  · trivial
  · split
    · trivial
    · next s1 he => exact h.qunreg.get he

theorem WellKept.writeTable {bad : Bool} {f : Part → Part} : (s.writeTable bad f).Kept :=
  Res.Kept.ite trivial (h.withInv (fun _ h => h.modPart))

theorem WellKept.writeHtbase {v : Word} : (s.writeHtbase v).Kept := h.writeTable

theorem WellKept.writeHtlen {v : Word} : (s.writeHtlen v).Kept := h.writeTable

theorem WellKept.writePtroot {v : Word} : (s.writePtroot v).Kept := h.writeTable

theorem WellKept.writeEpoch {v : Word} : (s.writeEpoch v).Kept := Res.Kept.ite trivial (Res.Kept.ite h h.modPart)

theorem WellKept.writePcapwhy {v : Word} : (s.writePcapwhy v).Kept := h.modPart

theorem WellKept.writeTracectl {v : Word} : (s.writeTracectl v).Kept := Res.Kept.ite trivial h.modPart

theorem WellKept.writeTraceptr {v : Word} : (s.writeTraceptr v).Kept := Res.Kept.ite h.modPart trivial

theorem WellKept.sysWrite {n : Nat} {v : Word} : (s.sysWrite n v).Kept := by
  unfold State.sysWrite
  split
  · exact h.writeSta
  · split
    · exact h.writeExc
    · split
      · exact Res.Kept.ite h.qunregister h.qregister
      · split
        · exact h.writeHtbase
        · split
          · exact h.writeHtlen
          · split
            · exact h.writePtroot
            · split
              · exact h.writeEpoch
              · exact Res.Kept.ite h.writePcapwhy (Res.Kept.ite h.writeTracectl (Res.Kept.ite h.writeTraceptr trivial))

theorem WellKept.execSyswr {n : BitVec 12} {a : Reg} : OutKept (execSyswr n a s) := h.run h.sysWrite

theorem WellKept.execStaWrite {a : Reg} : OutKept (execStaWrite a s) := h.run h.writeSta

theorem WellKept.execEcauseWrite {n : BitVec 12} {a : Reg} : OutKept (execEcauseWrite n a s) :=
  WellKept.ite (h.run h.writeExc) h

theorem WellKept.execHtbaseWrite {a : Reg} : OutKept (execHtbaseWrite a s) := h.run h.writeHtbase

theorem WellKept.execHtlenWrite {a : Reg} : OutKept (execHtlenWrite a s) := h.run h.writeHtlen

theorem WellKept.execPtrootWrite {a : Reg} : OutKept (execPtrootWrite a s) := h.run h.writePtroot

theorem WellKept.execCapepochWrite {a : Reg} : OutKept (execCapepochWrite a s) := h.run h.writeEpoch

theorem WellKept.execPcapwhyWrite {a : Reg} : OutKept (execPcapwhyWrite a s) := h.run h.writePcapwhy

theorem WellKept.execTracectlWrite {a : Reg} : OutKept (execTracectlWrite a s) := h.run h.writeTracectl

theorem WellKept.execTraceptrWrite {a : Reg} : OutKept (execTraceptrWrite a s) := h.run h.writeTraceptr

theorem WellKept.execQregRegister {a : Reg} : OutKept (execQregRegister a s) := h.run h.qregister

theorem WellKept.execQregUnregister {a : Reg} : OutKept (execQregUnregister a s) := h.run h.qunregister

theorem WellKept.execCderiv {d a b : Reg} : OutKept (execCderiv d a b s) := by
  unfold Machine.execCderiv
  exact h.run (Res.Kept.ite trivial (Res.Kept.ite trivial (Res.Kept.ite trivial h.setPair)))

theorem WellKept.execCget {d a b : Reg} : OutKept (execCget d a b s) := by
  unfold Machine.execCget
  refine h.run ?_
  extract_lets
  split
  · trivial
  · split
    · trivial
    · exact Res.Kept.ite trivial h.setPair

theorem WellKept.execCclr {d a : Reg} : OutKept (execCclr d a s) := h.run (Res.Kept.ite trivial h.modCtx.setReg)

theorem WellKept.execDtraceMark {a : Reg} : OutKept (execDtraceMark a s) := h.run (Res.Kept.ite h.beginTrace.flushTrace h)

theorem WellKept.execDtraceBon : OutKept (execDtraceBon s) := h.run h.modCtx

theorem WellKept.execDtraceBoff : OutKept (execDtraceBoff s) := h.run h.modCtx

theorem WellKept.execDtraceSync : OutKept (execDtraceSync s) := by
  unfold Machine.execDtraceSync
  refine h.run ?_
  split
  · exact h
  · split
    · next s1 he => exact h.release.of_fst he
    · next s1 he => exact h.release.of_fst he

theorem WellKept.setClock {n : Nat} : WellKept (s.setClock n) := WellKept.ite h.modPart h.modPart.raiseService.report

theorem WellKept.setClocks : WellKept s.setClocks := { h.foldl fun _ _ h => h.setClock with }

theorem WellKept.wipeClusters {ks : List Nat} : WellKept (s.wipeClusters ks) := { h with }

theorem WellKept.startService {p k : Nat} {entry hvec : Word} : WellKept (s.startService p k entry hvec) :=
  WellKept.setCtx (by exact { h with })

theorem WellKept.removePart {p : Nat} : WellKept (s.removePart p) := by
  unfold State.removePart
  extract_lets s1
  have h1 : WellKept s1 := h.wipeClusters
  exact { h1 with }

theorem WellKept.execPartitionCreate {q : PartSpec} : OutKept (execPartitionCreate q s) := by
  unfold Machine.execPartitionCreate
  split
  · exact h.removePart
  · split
    · exact h
    · extract_lets old s1 base p s2
      have h1 : WellKept s1 := WellKept.wipeClusters (WellKept.ite h.dropPlan h)
      have h2 : WellKept s2 := { h1 with }
      exact (h2.foldl fun _ _ h => h.startService).setClock

theorem WellKept.execIllegalOpcode : OutKept (execIllegalOpcode s) := h.takeFault

end Sys2Proof.Machine
end

section
/-! What the functions of Sys2Proof/Machine/Exceptions.lean keep: each leads from a well-kept state to a well-kept one. -/

namespace Sys2Proof.Machine

variable {s : State} (h : WellKept s)
include h

theorem WellKept.execTrap {code : BitVec 15} : OutKept (execTrap code s) := h.run h

theorem WellKept.execBrk {code : BitVec 15} : OutKept (execBrk code s) := h.run trivial

theorem WellKept.endOverflow {e : DirEv} : WellKept (s.endOverflow e) := by
  unfold State.endOverflow
  split
  · exact h
  · extract_lets s1 s2
    have h1 : WellKept s1 := h.modDir
    have h2 : WellKept s2 := by
      unfold s2
      split
      · exact h1
      · exact h1.modThread
    exact h2.serveWords

theorem WellKept.eret {c : Nat} : WellKept (s.eret c) := by
  unfold State.eret
  extract_lets s1
  have h1 : WellKept s1 := h.modCtx
  split
  · exact h1.modCtx.endOverflow
  · exact h1

theorem WellKept.execEret : OutKept (execEret s) := h.run (Res.Kept.ite trivial h.eret)

theorem WellKept.deliver {c : Nat} : WellKept (s.deliver c) := by
  unfold State.deliver
  extract_lets s1
  have h1 : WellKept s1 := WellKept.ite h.unblock h
  split
  · exact h1
  · split
    · exact h1
    · exact h1.modCtx.enter
    · exact h1.modClu.modCtx.enter

theorem WellKept.execEventDelivery {c : Nat} : OutKept (execEventDelivery c s) := WellKept.ite h.deliver h

theorem WellKept.execWatchdog {c : Nat} : OutKept (execWatchdog c s) :=
  WellKept.ite (WellKept.ite h.modCtx.report h.modCtx.raiseService) h

theorem WellKept.execPatrolScrub {g : Nat} : OutKept (execPatrolScrub g s) := by
  unfold Machine.execPatrolScrub
  exact WellKept.ite h.modPkg (WellKept.ite h.spoil.modPkg h.correct)

theorem WellKept.upset {g : Nat} {double : Bool} : WellKept (s.upset g double) := by
  unfold State.upset
  split
  · exact h
  · split
    · exact { h with ecc := addNat_rising h.ecc g }
    · exact { h with }

theorem WellKept.copyError {clu line : Nat} : WellKept (s.copyError clu line) := h.evictLine

theorem WellKept.loseCtx {c : Nat} : WellKept (s.loseCtx c) := h.withdraw.lose

theorem WellKept.stopLaunches {p : Nat} : WellKept (s.stopLaunches p) := by
  unfold State.stopLaunches
  exact WellKept.modPart (h.foldl fun _ _ h => h.endMembers.modDom)

theorem WellKept.execControlStateError {c : Nat} : OutKept (execControlStateError c s) :=
  WellKept.ite (WellKept.ite h.loseCtx h) h.stopLaunches.report

theorem WellKept.execReplayWaitTimeout {p : Nat} : OutKept (execReplayWaitTimeout p s) := by
  unfold Machine.execReplayWaitTimeout
  split
  · exact h
  · exact h.diverge

end Sys2Proof.Machine
end

section
/-! What the functions of Sys2Proof/Machine/Preempt.lean keep: each leads from a well-kept state to a well-kept one. -/

namespace Sys2Proof.Machine

variable {s : State} (h : WellKept s)
include h

theorem WellKept.setStatus {p rec_ st why : Nat} : WellKept (s.setStatus p rec_ st why) := WellKept.ite h h.areaWrite

theorem WellKept.refuse {p : Nat} {r : BitVec 512} {why : Nat} : WellKept (s.refuse p r why) := h.setStatus

theorem WellKept.cullTake {p : Nat} : OptKept WellKept (s.cullTake p) := by
  unfold State.cullTake
  extract_lets
  split
  · trivial
  · exact OptKept.ite trivial (WellKept.ite h.areaWrite.areaWrite.modPart h.areaWrite.areaWrite.refuse)

omit h in
theorem WellKept.cullAll {p n : Nat} {s : State} (h : WellKept s) : WellKept (State.cullAll p n s) := by
  induction n generalizing s with
  | zero => exact h
  | succ n ih =>
    unfold State.cullAll
    split
    · exact h
    · next s1 he => exact ih (h.cullTake.get he)

theorem WellKept.cullRun {p op : Nat} {one : State → BitVec 512 → State × Bool}
    (hone : ∀ t b, WellKept t → WellKept ((one t b).1)) : WellKept (s.cullRun p op one) := by
  unfold State.cullRun
  extract_lets s0 try_
  have h0 : WellKept s0 := h.cullAll
  have htry {a : State × List (BitVec 512)} {r : BitVec 512} (ha : WellKept a.1) : WellKept (try_ a r).1 := by
    unfold try_
    split
    · exact ha
    · split
      · next s1 he => exact (hone _ _ ha).of_fst he
      · next s1 he => exact (hone _ _ ha).of_fst he
  have hall : WellKept ((s0.part p).cull.foldl try_ (s0, [])).1 :=
    List.foldlRecOn (motive := fun a : State × List (BitVec 512) => WellKept a.1) _ _ h0 fun _ ha _ _ => htry ha
  exact hall.modPart

theorem WellKept.rekey {old new : Nat} : WellKept (s.rekey old new) := by
  unfold State.rekey
  exact WellKept.modPkg (by exact { h with })

theorem WellKept.spillOut {p c : Nat} {r : BitVec 512} : WellKept (s.spillOut p c r) := by
  unfold State.spillOut
  extract_lets _ eng _ s1 _ _ s2 _ s3 s4 _ s5 _ s6
  have h1 : WellKept s1 := h.drainAll.modCtx
  have h2 : WellKept s2 := by
    unfold s2
    clear_value eng
    split
    · exact h1
    · exact h1.modCore
  have h3 : WellKept s3 := h2.modClu
  have h4 : WellKept s4 := h3.areaRows
  have h5 : WellKept s5 := WellKept.rekey (by exact { h4 with })
  have h6 : WellKept s6 := WellKept.ite h5.setCtx h5.freeSlot
  exact h6.setStatus

theorem WellKept.spillOne {p : Nat} {r : BitVec 512} : WellKept ((s.spillOne p r).1) := by
  unfold State.spillOne
  extract_lets _ s1
  have h1 : WellKept s1 := WellKept.ite h.unblock h
  clear_value s1
  split
  · exact h.refuse
  · split
    · exact h.deliver
    · split
      · exact h.askHeld
      · split
        · exact h1.refuse
        · split
          · exact h1.spillOut
          · exact h1

theorem WellKept.execSpill {p : Nat} : OutKept (execSpill p s) := h.cullRun (fun _ _ h => h.spillOne)

theorem WellKept.saveRecord {p rec_ : Nat} : WellKept (s.saveRecord p rec_) :=
  WellKept.foldl (h.foldl fun _ _ h => h.saveEngine) fun _ _ h => h.saveBank

theorem WellKept.saveOne {p : Nat} {r : BitVec 512} : WellKept ((s.saveOne p r).1) := by
  unfold State.saveOne
  split
  · exact h.refuse
  · split
    · exact h.refuse
    · exact h.saveRecord.setStatus

theorem WellKept.execSave {p : Nat} : OutKept (execSave p s) := h.cullRun (fun _ _ h => h.saveOne)

theorem WellKept.markFulls {as bs : List Nat} {f g : List Nat → Nat → List Nat}
    (hf : ∀ l a, l.Pairwise (· < ·) → (f l a).Pairwise (· < ·)) (hg : ∀ l a, l.Pairwise (· < ·) → (g l a).Pairwise (· < ·)) :
    WellKept { s with empties := as.foldl f s.empties, mtags := bs.foldl g s.mtags } :=
  { h with empties := foldl_rising hf as h.empties, mtags := foldl_rising hg bs h.mtags }

theorem WellKept.loadBank {p clu bank off : Nat} : WellKept (s.loadBank p clu bank off) := by
  unfold State.loadBank
  extract_lets a full tags s1 s2
  have h1 : WellKept s1 := h.foldl fun _ _ h => h.rawWrite
  have h2 : WellKept s2 := h1.markFulls (fun _ _ hl => rising_ite (addNat_rising hl _) hl)
      (fun _ _ hl => rising_ite (addNat_rising hl _) hl)
  exact h2.modClu

theorem WellKept.regainEngine {core e p rec_ reg : Nat} : WellKept (s.regainEngine core e p rec_ reg) := by
  unfold State.regainEngine
  extract_lets
  split
  · exact h.modCore
  · split
    · exact WellKept.modPort (by exact { h.saveEngine with })
    · exact WellKept.modMat (by exact { h.saveEngine with })

theorem WellKept.regainBanks {clu p rec_ reg mask : Nat} : WellKept (s.regainBanks clu p rec_ reg mask) :=
  h.foldl fun _ _ h => WellKept.ite h.modClu h.loadBank

theorem WellKept.resumeThread {c : Nat} {again : Bool} : WellKept (s.resumeThread c again) := by
  unfold State.resumeThread
  extract_lets s1
  have h1 : WellKept s1 := WellKept.ite h.restart h
  exact WellKept.ite h1 h1.payTrap

theorem WellKept.restoreOne {p : Nat} {r : BitVec 512} : WellKept ((s.restoreOne p r).1) := by
  unfold State.restoreOne
  split
  · exact h.refuse
  · extract_lets t rec_ bytes had old x engine pinned s1 s2 y s3 s4 s5 s6
    have hregain {e : Option Nat} : WellKept (match e with
        | none => s
        | some e => s.regainEngine (coreOf t) e p rec_ (Cull.eng r)) := by
      cases e with
      | none => exact h
      | some e => exact h.regainEngine
    have h1 : WellKept s1 := hregain
    have h2 : WellKept s2 := WellKept.ite h1.regainBanks h1
    have hnext : WellKept { s2 with nextTid := if had.isNone then s2.nextTid + 1 else s2.nextTid } := { h2 with }
    have h3 : WellKept s3 := hnext.setCtx.rekey
    have h4 : WellKept s4 := WellKept.noteClu (WellKept.applyInbox (WellKept.ite h3 h3.emptyChan.dropSolo))
    have h5 : WellKept s5 := { h4 with }
    have h6 : WellKept s6 := h5.setStatus.resumeThread
    clear_value s6
    split
    · exact h
    · exact WellKept.ite h6.raiseAt h6

theorem WellKept.execRestore {p : Nat} : OutKept (execRestore p s) := h.cullRun (fun _ _ h => h.restoreOne)

end Sys2Proof.Machine
end

section
/-! What the functions of Sys2Proof/Machine/Links.lean keep: each leads from a well-kept state to a well-kept one. -/

namespace Sys2Proof.Machine

variable {s : State} (h : WellKept s)
include h

theorem WellKept.execLinkAckReceive {port : Nat} {lseq : BitVec 16} {nak : Bool} :
    OutKept (execLinkAckReceive port lseq nak s) := by
  unfold Machine.execLinkAckReceive
  exact WellKept.ite h (WellKept.ite (WellKept.modOport (WellKept.draw (WellKept.ite h.modOport.modOport h.modOport)))
      (WellKept.modOport (WellKept.ite h.modOport.modOport h.modOport)))

theorem WellKept.degraded {port : Nat} : WellKept (s.degraded port) := WellKept.report (h.foldl fun _ _ h => h.raiseService)

theorem WellKept.execLaneLossOfSignal {port : Nat} {lanes : BitVec 16} : OutKept (execLaneLossOfSignal port lanes s) :=
  h.modOport

theorem WellKept.execServiceRetrain {port : Nat} {whole : BitVec 16} : OutKept (execServiceRetrain port whole s) :=
  WellKept.ite h.modOport h

end Sys2Proof.Machine
end

section
/-! What the functions of Sys2Proof/Machine/Fabric.lean keep: each leads from a well-kept state to a well-kept one. -/

namespace Sys2Proof.Machine

variable {s : State} (h : WellKept s)
include h

theorem WellKept.mark {src n m : Nat} {a : FabPkt} : WellKept (s.mark src n m a) := by
  unfold State.mark
  exact h.modPkg.modPkg

theorem WellKept.emitPkt {a : FabPkt} : WellKept (s.emitPkt a) := h.modPkg

theorem WellKept.rejectPkt {q : FabPkt} {cause : Cause} {opnd : BitVec 128} : WellKept (s.rejectPkt q cause opnd) :=
  h.mark.emitPkt

theorem WellKept.notYet {q : FabPkt} : WellKept (s.notYet q) := h.mark.emitPkt

theorem WellKept.ownFirst {q : FabPkt} {ls : List Nat} : OptKept WellKept (s.ownFirst q ls) := by
  unfold State.ownFirst
  split
  · exact h
  · exact h.flushLines.map fun _ h => h.modClu

theorem WellKept.remPlace {q : FabPkt} {size need al : Nat} {cell fe rd : Bool} {go : State → List Nat → Perf}
    (hgo : ∀ t b, WellKept t → (go t b).Kept) : (s.remPlace q size need al cell fe rd go).Kept := by
  generalize hf : State.remPlace = f
  delta State.remPlace at hf
  subst hf
  beta_reduce
  split
  · trivial
  · split
    · exact h
    · split
      · exact h
      · next s1 he => exact hgo _ _ (WellKept.ite (h.ownFirst.get he).correct (h.ownFirst.get he))

theorem WellKept.comeAgain {q : FabPkt} {ls : List Nat} : (s.comeAgain q ls).Kept := h.askWrites

theorem WellKept.remRead {q : FabPkt} {n : Nat} : (s.remRead q n).Kept := h.remPlace (fun _ _ h => h)

theorem WellKept.remWrite {q : FabPkt} {bs : List Byte} : (s.remWrite q bs).Kept :=
  h.remPlace (fun _ _ h => Perf.Kept.ite h.comeAgain h.place)

theorem WellKept.remFe {q : FabPkt} {m : FeMode} : (s.remFe q m).Kept := by
  unfold State.remFe
  exact h.remPlace (fun _ _ h => Perf.Kept.ite h.comeAgain (Perf.Kept.ite h.fePerform.serveWords (Perf.Kept.ite h.modClu h)))

theorem WellKept.remWatch {q : FabPkt} {n : Nat} : (s.remWatch q n).Kept :=
  h.remPlace (fun _ _ h => Perf.Kept.ite h h.modDir)

theorem WellKept.remAtomic {q : FabPkt} {n need : Nat} {cell : Bool} {f : Nat → Except Cause (Option Nat × List Byte)} :
    (s.remAtomic q n need cell f).Kept := by
  unfold State.remAtomic
  refine h.remPlace (fun t ls ht => ?_)
  split
  · trivial
  · exact ht
  · exact Perf.Kept.ite ht.comeAgain ht.place

theorem WellKept.farTurn {key line : Nat} : WellKept ((s.farTurn key line).2) := by
  unfold State.farTurn
  split
  · exact h
  · extract_lets s1
    have h1 : WellKept s1 := h.modDir
    split
    · exact { h1 with }
    · exact h1

theorem WellKept.remLr {q : FabPkt} {n : Nat} : (s.remLr q n).Kept := by
  unfold State.remLr
  extract_lets
  refine h.remPlace (fun t ls ht => ?_)
  extract_lets
  split
  · next s1 he => exact ht.farTurn.of_snd he
  · next s1 he => exact { (ht.farTurn.of_snd he) with }

theorem WellKept.remSc {q : FabPkt} {n : Nat} : (s.remSc q n).Kept := by
  unfold State.remSc
  refine h.remPlace fun t ls ht => ?_
  extract_lets _ _ s1 s2
  have h1 : WellKept s1 := { ht with }
  have h2 : WellKept s2 := WellKept.ite h1.place h1
  exact Perf.Kept.ite ht.comeAgain (WellKept.ite h2.unlock h2)

theorem WellKept.remAmo {q : FabPkt} : (s.remAmo q).Kept := by
  unfold State.remAmo
  extract_lets
  split
  · exact h.remAtomic
  · split
    · exact h.remAtomic
    · exact Perf.Kept.ite h.remAtomic (Perf.Kept.ite h.remAtomic (Perf.Kept.ite h.remLr h.remSc))

theorem WellKept.remCall {q : FabPkt} : (s.remCall q).Kept := by
  obtain ⟨resolve, hresolve⟩ : ∃ f, f = State.resolve := ⟨_, rfl⟩
  generalize hf : State.remCall = f
  delta State.remCall at hf
  rw [← hresolve] at hf
  subst hf
  beta_reduce
  extract_lets
  split
  · trivial
  · split
    · trivial
    · split
      · trivial
      · exact { h with }
  · trivial

theorem WellKept.redPut {part hidx off n v : Nat} : WellKept (s.redPut part hidx off n v) := by
  generalize hf : State.redPut = f
  delta State.redPut at hf
  subst hf
  beta_reduce
  split
  · exact h.place
  · exact h

theorem WellKept.setRound {r : Round} : WellKept (s.setRound r) := h.modPkg

theorem WellKept.refuseShares {part hidx : Nat} {ws : List (Nat × Nat × Nat)} {cause : Cause} {info : Nat} :
    WellKept (s.refuseShares part hidx ws cause info) :=
  h.foldl fun _ _ h => h.emitPkt

theorem WellKept.putCells {part hidx : Nat} {l : List (Nat × BitVec 512)} : WellKept (s.putCells part hidx l) :=
  h.foldl fun _ _ h => h.redPut

theorem WellKept.contributeOne {c : Contribution} : WellKept ((s.contributeOne c).1) := by
  unfold State.contributeOne
  extract_lets
  split
  · exact h.refuseShares
  · split
    · exact h.refuseShares
    · split
      · exact h.setRound
      · split
        · exact WellKept.refuseShares (WellKept.ite h (h.redPut.setRound.foldl fun _ _ h => h.redPut))
        · extract_lets s2
          have h2 : WellKept s2 := by
            unfold s2
            exact WellKept.setRound (WellKept.redPut (WellKept.putCells (WellKept.ite h (h.redPut.setRound.foldl
                fun _ _ h => h.redPut))))
          split
          · exact h2
          · split
            · exact h2.redPut.redPut.setRound.refuseShares
            · exact h2.redPut.redPut.setRound.putCells.redPut.foldl fun _ _ h => h.emitPkt

omit h in
theorem contributeAll_cons {n : Nat} {s : State} {c : Contribution} {r : List Contribution} :
    State.contributeAll (n + 1) s (c :: r) = State.contributeAll n (s.contributeOne c).1 (r ++ (s.contributeOne c).2) := by
  obtain ⟨one, hone⟩ : ∃ f, f = State.contributeOne := ⟨_, rfl⟩
  generalize hf : State.contributeAll = f
  delta State.contributeAll State.contributeAll._f at hf
  rw [← hone] at hf ⊢
  subst hf
  rfl

omit h in
theorem WellKept.contributeAll {n : Nat} {l : List Contribution} {s : State} (h : WellKept s) :
    WellKept (State.contributeAll n s l) := by
  induction n generalizing s l with
  | zero => exact h
  | succ n ih =>
    cases l with
    | nil => exact h
    | cons c r =>
      rw [contributeAll_cons]
      exact ih h.contributeOne

theorem WellKept.failRound {p hh : Nat} : WellKept (s.failRound p hh) :=
  WellKept.ite h h.redPut.redPut.redPut.setRound.refuseShares.contributeAll

theorem WellKept.roundCheck {p hh : Nat} : WellKept (s.roundCheck p hh) := WellKept.ite h.failRound h

theorem WellKept.roundsCheck : WellKept s.roundsCheck := h.foldl fun _ _ h => h.roundCheck

theorem WellKept.contribution {c : Contribution} : WellKept (s.contribution c) := h.contributeAll.roundCheck

theorem WellKept.execReductionContribution {c : Contribution} : OutKept (execReductionContribution c s) := by
  unfold Machine.execReductionContribution
  extract_lets
  split
  · split
    · exact h.foldl fun _ _ h => h.rejectPkt
    · split
      · exact h.foldl fun _ _ h => h.rejectPkt
      · exact WellKept.contribution (h.foldl fun _ _ h => h.mark)
  · refine h.foldl fun s w h => ?_
    split
    · exact h.emitPkt
    · exact h

theorem WellKept.execReductionRoundFail {part : Nat} {hidx : BitVec 12} : OutKept (execReductionRoundFail part hidx s) :=
  h.failRound

theorem WellKept.remReduce {q : FabPkt} : (s.remReduce q).Kept :=
  Perf.Kept.ite trivial (Perf.Kept.ite h.setRound h.setRound.contribution)

theorem WellKept.perform {q : FabPkt} : (s.perform q).Kept := by
  unfold State.perform
  split
  · exact Perf.Kept.ite h.remRead h.remFe
  · split
    · exact h.remWatch
    · split
      · exact h.remRead
      · split
        · exact Perf.Kept.ite h.remWrite h.remFe
        · split
          · exact h.remWrite
          · split
            · exact h.remAmo
            · split
              · exact h.remCall
              · split
                · split
                  · next s1 he => exact h.haloArrive.of_eq he
                  · next s1 he => exact h.haloArrive.of_eq he
                  · trivial
                · exact Perf.Kept.ite h.remReduce trivial

theorem WellKept.keptReply {q : FabPkt} : WellKept (s.keptReply q) := h.foldl fun _ _ h => h.emitPkt

theorem WellKept.ingress {q : FabPkt} : WellKept (s.ingress q) := by
  unfold State.ingress
  split
  · exact h
  · exact h.emitPkt.keptReply
  · split
    · exact h.rejectPkt
    · split
      · exact h.rejectPkt
      · extract_lets s1
        have h1 : WellKept s1 := h.mark
        split
        · next s2 d he => exact (h1.perform.of_eq he).emitPkt
        · next s2 he => exact h1.perform.of_eq he
        · exact h1.errMet.rejectPkt
        · next s2 he => exact (h1.perform.of_eq he).notYet

theorem WellKept.execFabricRequestIngress {q : FabPkt} : OutKept (execFabricRequestIngress q s) := WellKept.ite h.ingress h

theorem WellKept.learn {a : FabPkt} : WellKept (s.learn a) := by
  unfold State.learn
  extract_lets s1
  have h1 : WellKept s1 := WellKept.ite h h.modPkg
  exact WellKept.ite h1.modPkg h1

theorem WellKept.elemReply {o : Outst} {a : FabPkt} {r : Reply} : WellKept ((s.elemReply o a r).1) := by
  unfold State.elemReply
  split
  · split
    · exact h.noteElem
    · exact h
  · exact h

theorem WellKept.replyTo {c n : Nat} {r : Reply} : WellKept (s.replyTo c n r) := WellKept.ite h.modCtx h.modThread

theorem WellKept.ownCopyGone {o : Outst} : WellKept (s.ownCopyGone o) := by
  unfold State.ownCopyGone
  split
  · exact h
  · split
    · exact h
    · split
      · exact h
      · exact h.modClu

theorem WellKept.endRequest {o : Outst} {r : Reply} {data : List Byte} {fail : Option (Exc × Option Word)} :
    WellKept (s.endRequest o r data fail) := by
  unfold State.endRequest
  extract_lets s0
  have h0 : WellKept s0 := h.modPkg.ownCopyGone
  split
  · exact h0.replyTo
  · split
    · exact h0
    · exact h0.abandonPk
  · split
    · exact h0
    · exact h0.peerLost
  · split
    · exact h0.storeLost
    · exact WellKept.ite h0.modMat h0
    · exact h0

theorem WellKept.response {a : FabPkt} : WellKept (s.response a) := by
  unfold State.response
  extract_lets s1
  have h1 : WellKept s1 := h.learn
  split
  · exact h1
  · split
    · exact h1.modPkg
    · split
      · exact h1
      · split
        · exact h1
        · exact WellKept.ite h1.modPkg (WellKept.endRequest (WellKept.elemReply (WellKept.ite h1.emitPkt h1)))

theorem WellKept.execFabricResponse {a : FabPkt} : OutKept (execFabricResponse a s) :=
  WellKept.ite h.emitPkt (WellKept.ite h.response (WellKept.ite h.learn h))

theorem WellKept.execE2eResend {n : Nat} : OutKept (execE2eResend n s) := by
  unfold Machine.execE2eResend
  split
  · exact h
  · exact WellKept.ite h h.emitPkt

theorem WellKept.execRemoteTimeout {n : Nat} : OutKept (execRemoteTimeout n s) := by
  unfold Machine.execRemoteTimeout
  split
  · exact h
  · extract_lets _ s1 _ s2
    have h1 : WellKept s1 := h.modPkg
    have h2 : WellKept s2 := by
      unfold s2
      split
      · exact h1
      · exact WellKept.ite h1.modCtx h1.modThread
    exact h2.endRequest

theorem WellKept.tell {node : Nat} {r : Rev} : WellKept (s.tell node r) := { h with }

theorem WellKept.execRevisionExchange {node : Nat} {rev : BitVec 32} {ops : BitVec 16} {fmts : BitVec 32} :
    OutKept (execRevisionExchange node rev ops fmts s) :=
  h.modPkg.tell

theorem WellKept.sendOn {inPort p : Nat} {detour : Bool} {q : FabPkt} : WellKept (s.sendOn inPort p detour q) := h.modOport

theorem WellKept.routeOut {inPort : Nat} {q : FabPkt} : WellKept (s.routeOut inPort q) := by
  unfold State.routeOut
  split
  · exact h.sendOn
  · split
    · exact h
    · extract_lets
      split
      · exact h.response
      · split
        · exact h.sendOn
        · exact h

theorem WellKept.forkPkt {inPort : Nat} {q : FabPkt} : OptKept WellKept (s.forkPkt inPort q) := by
  unfold State.forkPkt
  extract_lets
  split
  · trivial
  · exact WellKept.ite (WellKept.ingress (WellKept.foldl (h.foldl fun _ _ h => h.sendOn) fun _ _ h => h.emitPkt))
      (WellKept.foldl (h.foldl fun _ _ h => h.sendOn) fun _ _ h => h.emitPkt)

theorem WellKept.packetIn {inPort : Nat} {q : FabPkt} : WellKept (s.packetIn inPort q) := by
  unfold State.packetIn
  split
  · exact h.forkPkt.getD h.modOport
  · exact WellKept.ite h.routeOut (WellKept.ite h.response h.ingress)

theorem WellKept.heldIn {inPort : Nat} {q : FabPkt} : WellKept (s.heldIn inPort q) := h.modOport.forkPkt.getD h

theorem WellKept.leave {q : FabPkt} : WellKept (s.leave q) := by
  unfold State.leave
  extract_lets
  split
  · exact h
  · split
    · exact OptKept.getD (WellKept.forkPkt (WellKept.ite h.modPkg.mark h.modPkg)) h
    · exact WellKept.packetIn (WellKept.ite h.modPkg.mark h.modPkg)

theorem WellKept.execFabricForward {inPort : Nat} {q : FabPkt} : OutKept (execFabricForward inPort q s) :=
  WellKept.ite (WellKept.ite h.leave h) (WellKept.ite h.heldIn h.packetIn)

theorem WellKept.execFlitReceive {port : Nat} {bytes : List Byte} : OutKept (execFlitReceive port bytes s) := by
  unfold Machine.execFlitReceive
  exact WellKept.ite h.modOport (WellKept.ite h (WellKept.ite (WellKept.ite h h.modOport)
      (WellKept.ite h.draw.modOport.packetIn h.draw.modOport)))

theorem WellKept.reroute {port : Nat} {q : FabPkt} : WellKept (s.reroute port q) :=
  WellKept.ite (h.foldl fun _ _ h => h.emitPkt) h.routeOut

theorem WellKept.settleLink {port st : Nat} {lanes : BitVec 16} : WellKept (s.settleLink port st lanes) := by
  unfold State.settleLink
  extract_lets _ _ s1 _ s2
  have h1 : WellKept s1 := h.modOport
  have h2 : WellKept s2 := WellKept.ite h1.modOport (WellKept.roundsCheck (h1.modOport.foldl fun _ _ h => h.reroute))
  clear_value s2
  exact WellKept.ite h2.degraded h2

theorem WellKept.execRetrainComplete {port : Nat} {r : LaneReport} : OutKept (execRetrainComplete port r s) := by
  unfold Machine.execRetrainComplete
  exact WellKept.ite h (WellKept.ite h.modOport.settleLink.modOport h.modOport.settleLink)

theorem WellKept.execOsellTrainingEnd {port : Nat} {whole : BitVec 16} : OutKept (execOsellTrainingEnd port whole s) :=
  WellKept.ite h.modOport.settleLink h

theorem WellKept.execLinkStateUpdate {node port : Nat} {up : Bool} : OutKept (execLinkStateUpdate node port up s) :=
  h.modPkg.roundsCheck

end Sys2Proof.Machine
end

section
/-! What the functions of Sys2Proof/Machine/Service.lean keep: each leads from a well-kept state to a well-kept one. -/

namespace Sys2Proof.Machine

variable {s : State} (h : WellKept s)
include h

theorem WellKept.execCapFrame {f : List Byte} : OutKept (execCapFrame f s) :=
  WellKept.ite h.modPkg (WellKept.ite h h.modPkg.setClocks)

theorem WellKept.execThermalLimit : OutKept (execThermalLimit s) := h.modPkg.setClocks

theorem WellKept.execCurrentLimit : OutKept (execCurrentLimit s) := h.modPkg.setClocks

theorem WellKept.execThermalLimitRelease : OutKept (execThermalLimitRelease s) := h.modPkg.setClocks

theorem WellKept.execCurrentLimitRelease : OutKept (execCurrentLimitRelease s) := h.modPkg.setClocks

theorem WellKept.execThermalTrip : OutKept (execThermalTrip s) := h.modPkg.report

theorem WellKept.execHallKeyProvision {key : Nat} : OutKept (execHallKeyProvision key s) := h.modPkg

theorem WellKept.boot {image : List Byte} : WellKept (s.boot image) := WellKept.ite h.modPkg h.modPkg

theorem WellKept.execPowerUp {image : List Byte} : OutKept (execPowerUp image s) := by
  have hmem : Memory.wf (s.mem.filter fun p => isHost p.1) = true := Memory.filter_wf h.mem _
  have hempty : ([] : List Nat).Pairwise (· < ·) := .nil
  unfold Machine.execPowerUp
  extract_lets _ s0
  have h0 : WellKept s0 := { mem := hmem, empties := hempty, mtags := hempty, poison := hempty, ecc := hempty }
  clear_value s0
  exact h0.modPkg.boot

theorem WellKept.execFwptrWrite {v : Word} : OutKept (execFwptrWrite v s) := WellKept.ite h.modPkg h.modPkg.boot

theorem WellKept.execCalibrationDone {failed bad sizes : List Nat} : OutKept (execCalibrationDone failed bad sizes s) :=
  WellKept.ite h (WellKept.modPkg (h.foldl fun _ _ h => h.modClu))

theorem WellKept.execMemoryInitDone : OutKept (execMemoryInitDone s) := by
  unfold Machine.execMemoryInitDone
  split
  · exact h
  · exact { mem := Memory.filter_wf h.mem _, empties := .nil, mtags := .nil, poison := .nil, ecc := .nil }

theorem WellKept.execLiveFirmwareUpdate {image : List Byte} : OutKept (execLiveFirmwareUpdate image s) :=
  WellKept.ite h.modPkg h

theorem WellKept.execAttestationRequest {rack : Bool} : OutKept (execAttestationRequest rack s) := h.modPkg

theorem WellKept.execHreqWrite {p : Nat} {v : Word} : OutKept (execHreqWrite p v s) := WellKept.ite h h.raiseService

theorem WellKept.cxlDone {d : CxlDone} : WellKept (s.cxlDone d) := h.modPkg

theorem WellKept.execCxlMemRequest {p : Nat} {op : HostOp} : OutKept (execCxlMemRequest p op s) := by
  unfold Machine.execCxlMemRequest
  split
  · exact h.cxlDone
  · split
    · exact h
    · split
      · exact WellKept.ite h.askWrites h.place.cxlDone
      · next p op _ _ =>
        extract_lets bad s1
        have hbad : WellKept { s with ecc := bad.foldl delNat s.ecc, poison := bad.foldl addNat s.poison } :=
          { h with
            ecc := foldl_rising (fun _ _ hl => delNat_rising hl _) _ h.ecc
            poison := foldl_rising (fun _ _ hl => addNat_rising hl _) _ h.poison }
        have h1 : WellKept s1 := hbad.correct
        exact h1.cxlDone

theorem WellKept.hostWrite {pa : Nat} {bs : List Byte} : WellKept (s.hostWrite pa bs) := h.place

theorem WellKept.serveChannel {ch : Nat} : WellKept (s.serveChannel ch) := h.serveWords

theorem WellKept.execDramChannelRetrain {ch : Nat} {on : Bool} : OutKept (execDramChannelRetrain ch on s) :=
  WellKept.ite (WellKept.ite h.modPkg h) h.modPkg.serveChannel

theorem WellKept.execClusterRecalibration {k : Nat} {on : Bool} : OutKept (execClusterRecalibration k on s) := h.modClu

theorem WellKept.execClusterRetire {k : Nat} : OutKept (execClusterRetire k s) := by
  unfold Machine.execClusterRetire
  split
  · exact h
  · extract_lets s1
    have h1 : WellKept s1 := h.modClu
    split
    · exact h1
    · exact h1.raiseService

theorem WellKept.retireCtx {c : Nat} : WellKept (s.retireCtx c) := WellKept.ite h.unblock.drainAll.modCtx.exitThread h

theorem WellKept.retireMoving {m : Msg} : WellKept (s.retireMoving m) := by
  unfold State.retireMoving
  split
  · exact h
  · extract_lets t' u
    have ht' : WellKept t' := { h with }
    have hu : WellKept u := ht'.setCtx.closeThread
    exact hu.setCtx.endAway

theorem WellKept.retireArrivals {k : Nat} : WellKept (s.retireArrivals k) := by
  unfold State.retireArrivals
  extract_lets _ s1
  have h1 : WellKept s1 := h.foldl fun _ _ h => h.modCore
  refine h1.foldl fun s m h => ?_
  split
  · exact h.retireMoving
  · exact h.takeMsg.arriveRetired.getD h
  · exact h

theorem WellKept.dropBanks {k : Nat} : WellKept (s.dropBanks k) := by
  unfold State.dropBanks
  extract_lets s1 s2
  have h1 : WellKept s1 := h.foldl fun _ _ h => h.saveBank
  have h2 : WellKept s2 := h1.modClu
  exact
    { h2 with
      mem := Memory.filter_wf h2.mem _
      empties := h2.empties.filter _
      mtags := h2.mtags.filter _
      poison := h2.poison.filter _
      ecc := h2.ecc.filter _ }

theorem WellKept.reraise {c p : Nat} : WellKept (s.reraise c p) := by
  unfold State.reraise
  extract_lets _ s1 s2
  have h1 : WellKept s1 := h.modCtx
  have h2 : WellKept s2 := by
    unfold s2
    split
    · exact h1
    · exact h1.modClu
  exact h2.foldl fun _ _ h => h.raiseService

theorem WellKept.execClusterRetireFinish {k : Nat} : OutKept (execClusterRetireFinish k s) := by
  unfold Machine.execClusterRetireFinish
  split
  · exact h
  · extract_lets s1 s2 s3
    have h1 : WellKept s1 := h.foldl fun _ _ h => h.retireCtx
    have h2 : WellKept s2 := h1.retireArrivals.dropBanks.modClu
    have h3 : WellKept s3 := h2.modPkg
    split
    · exact h3
    · exact h3.reraise

end Sys2Proof.Machine
end

section
/-! What the functions of Sys2Proof/Machine/Dispatch.lean keep: each leads from a well-kept state to a well-kept one. -/

namespace Sys2Proof.Machine

variable {s : State} (h : WellKept s)
include h

theorem WellKept.exec {i : Instr} : OutKept (exec i s) := by
  unfold Machine.exec
  split
  · exact h.execAdd
  · exact h.execSub
  · exact h.execAnd
  · exact h.execOr
  · exact h.execXor
  · exact h.execAndn
  · exact h.execShl
  · exact h.execShr
  · exact h.execShra
  · exact h.execRot
  · exact h.execMin
  · exact h.execMax
  · exact h.execMinn
  · exact h.execMaxn
  · exact h.execAdds
  · exact h.execSubs
  · exact h.execAddi
  · exact h.execAndi
  · exact h.execOri
  · exact h.execXori
  · exact h.execShiShl
  · exact h.execShiShr
  · exact h.execShiShra
  · exact h.execShiRot
  · exact h.execCmp
  · exact h.execCmpi
  · exact h.execMul
  · exact h.execMulh
  · exact h.execMulhn
  · exact h.execMad
  · exact h.execDiv
  · exact h.execDivn
  · exact h.execRem
  · exact h.execRemn
  · exact h.execClz
  · exact h.execCtz
  · exact h.execPopc
  · exact h.execBrev
  · exact h.execBswap
  · exact h.execExtb
  · exact h.execInsb
  · exact h.execSel
  · exact h.execLea
  · exact h.execLdi
  · exact h.execWidf
  · exact h.execShape
  · exact h.execLocid
  · exact h.execFadd
  · exact h.execFsub
  · exact h.execFmul
  · exact h.execFdiv
  · exact h.execFmin
  · exact h.execFmax
  · exact h.execFsqrt
  · exact h.execFabs
  · exact h.execFneg
  · exact h.execFcpys
  · exact h.execFma
  · exact h.execFcmp
  · exact h.execFcvt
  · exact h.execFclass
  · exact h.execRcp
  · exact h.execRsq
  · exact h.execExp2
  · exact h.execLog2
  · exact h.execSinpi
  · exact h.execCospi
  · exact h.execTanh
  · exact h.execSigm
  · exact h.execBr
  · exact h.execCall
  · exact h.execBc
  · exact h.execBz
  · exact h.execJmpr
  · exact h.execCallr
  · exact h.execRet
  · exact h.execJtab
  · exact h.execExit
  · exact h.execNop
  · exact h.execLd
  · exact h.execSt
  · exact h.execFence
  · exact h.execLr
  · exact h.execSc
  · exact h.execAmoAdd
  · exact h.execAmoAnd
  · exact h.execAmoOr
  · exact h.execAmoXor
  · exact h.execAmoSwap
  · exact h.execAmoMin
  · exact h.execAmoMax
  · exact h.execAmoMinn
  · exact h.execAmoMaxn
  · exact h.execCas
  · exact h.execWaitrs
  · exact h.execRed
  · exact h.execXsrd
  · exact h.execLdfeRead
  · exact h.execLdfeTake
  · exact h.execStfePut
  · exact h.execStfeFill
  · exact h.execStfeClear
  · exact h.execPref
  · exact h.execClean
  · exact h.execInval
  · exact h.execInvalCluster
  · exact h.execLdc
  · exact h.execStc
  · exact h.execSpawn
  · exact h.execReap
  · exact h.execReapAny
  · exact h.execBind
  · exact h.execSemP
  · exact h.execSemV
  · exact h.execSemTry
  · exact h.execSend
  · exact h.execSendS
  · exact h.execOpenS
  · exact h.execClose
  · exact h.execWake
  · exact h.execRecv
  · exact h.execTryrecv
  · exact h.execRcall
  · exact h.execRreply
  · exact h.execBara
  · exact h.execBarw
  · exact h.execLlpush
  · exact h.execLlpop
  · exact h.execMigrate
  · exact h.execSpecb
  · exact h.execSpecc
  · exact h.execPause
  · exact h.execInstn
  · exact h.execEmit
  · exact h.execTest
  · exact h.execTestv
  · exact h.execRenounce
  · exact h.execEmits
  · exact h.execAbortw
  · exact h.execSuspw
  · exact h.execEndw
  · exact h.execSigforce
  · exact h.execLehrw
  · exact h.execRld
  · exact h.execRst
  · exact h.execRamo
  · exact h.execCderiv
  · exact h.execCget
  · exact h.execCclr
  · exact h.execVadd
  · exact h.execVsub
  · exact h.execVmul
  · exact h.execVfma
  · exact h.execVmin
  · exact h.execVmax
  · exact h.execVand
  · exact h.execVor
  · exact h.execVxor
  · exact h.execVshl
  · exact h.execVshr
  · exact h.execVcmp
  · exact h.execVsel
  · exact h.execVcvt
  · exact h.execVapx
  · exact h.execVabs
  · exact h.execVneg
  · exact h.execVred
  · exact h.execVscan
  · exact h.execVperm
  · exact h.execVbcast
  · exact h.execVmovx
  · exact h.execVld
  · exact h.execVst
  · exact h.execVgath
  · exact h.execVscat
  · exact h.execVsort
  · exact h.execVmerge
  · exact h.execVtopk
  · exact h.execPlog
  · exact h.execRep
  · exact h.execVcfg
  · exact h.execVcfgWr
  · exact h.execVcfgClr
  · exact h.execMxq
  · exact h.execMxwait
  · exact h.execMxwaitAll
  · exact h.execMxstat
  · exact h.execMxstatResume
  · exact h.execMxstatDrop
  · exact h.execMxstatSdrop
  · exact h.execCpq
  · exact h.execCpwait
  · exact h.execCpwaitAll
  · exact h.execSyncw
  · exact h.execSyncwReset
  · exact h.execSyncwait
  · exact h.execMbox
  · exact h.execMboxTry
  · exact h.execMboxSt
  · exact h.execGld
  · exact h.execGst
  · exact h.execGstep
  · exact h.execGwait
  · exact h.execGwaitOut
  · exact h.execFmt
  · exact h.execTrap
  · exact h.execBrk
  · exact h.execSysrd
  · exact h.execSyswr
  · exact h.execEret
  · exact h.execTlbinv
  · exact h.execHtset
  · exact h.execDtraceMark
  · exact h.execDtraceBon
  · exact h.execDtraceBoff
  · exact h.execDtraceSync
  · exact h.execPortEntryExecute
  · exact h.execRepPass
  · exact h.execMxqWindowSubmit
  · exact h.execMma
  · exact h.execMmai
  · exact h.execMmaq
  · exact h.execTload
  · exact h.execTstore
  · exact h.execTzero
  · exact h.execTcfg
  · exact h.execTrow
  · exact h.execGangJoin
  · exact h.execGangJoinComplete
  · exact h.execGangReduce
  · exact h.execScaleMissFill
  · exact h.execMatrixCompletion
  · exact h.execCopy
  · exact h.execGather
  · exact h.execScatter
  · exact h.execFill
  · exact h.execReduce
  · exact h.execHalox
  · exact h.execRcopy
  · exact h.execNotify
  · exact h.execCopyPacketComplete
  · exact h.execCopyHoldTimeout
  · exact h.execWatermarkAdvance
  · exact h.execMailboxPost
  · exact h.execMailboxTimeout
  · exact h.execLaunch
  · exact h.execBlockDispatch
  · exact h.execSchedulerEpoch
  · exact h.execLaunchComplete
  · exact h.execQregRegister
  · exact h.execQregUnregister
  · exact h.execTagArrival
  · exact h.execReleaseMarkerComplete
  · exact h.execHomeWrite
  · exact h.execAtomicAtPlace
  · exact h.execFeResend
  · exact h.execFeLimit
  · exact h.execLrLockExpiry
  · exact h.execStreamIdleEnd
  · exact h.execBankmodeWrite
  · exact h.execBankModeChangeDone
  · exact h.execFifoPush
  · exact h.execFifoPop
  · exact h.execHaloFillStart
  · exact h.execHaloFillComplete
  · exact h.execSigmaUpdate
  · exact h.execHaloFillAbandon
  · exact h.execLehrDecide
  · exact h.execInstantLimit
  · exact h.execFrameApply
  · exact h.execSignalEmission
  · exact h.execSignalRelease
  · exact h.execSignalQuery
  · exact h.execChannelWordArrival
  · exact h.execExitNotice
  · exact h.execBarrierArrival
  · exact h.execMigrationArrival
  · exact h.execMigrationResend
  · exact h.execRcallArrival
  · exact h.execLoadLevellingInterval
  · exact h.execLlEntriesArrive
  · exact h.execPageWalk
  · exact h.execStaWrite
  · exact h.execHtbaseWrite
  · exact h.execHtlenWrite
  · exact h.execPtrootWrite
  · exact h.execCapepochWrite
  · exact h.execPcapwhyWrite
  · exact h.execTracectlWrite
  · exact h.execTraceptrWrite
  · exact h.execEcauseWrite
  · exact h.execEventDelivery
  · exact h.execWatchdog
  · exact h.execSpill
  · exact h.execRestore
  · exact h.execSave
  · exact h.execPatrolScrub
  · exact h.execControlStateError
  · exact h.execReplayWaitTimeout
  · exact h.execFlitReceive
  · exact h.execLinkAckReceive
  · exact h.execLaneLossOfSignal
  · exact h.execRetrainComplete
  · exact h.execServiceRetrain
  · exact h.execLinkStateUpdate
  · exact h.execFabricForward
  · exact h.execFabricRequestIngress
  · exact h.execFabricResponse
  · exact h.execE2eResend
  · exact h.execRemoteTimeout
  · exact h.execRevisionExchange
  · exact h.execReductionContribution
  · exact h.execReductionRoundFail
  · exact h.execCapFrame
  · exact h.execThermalLimit
  · exact h.execCurrentLimit
  · exact h.execThermalTrip
  · exact h.execPowerUp
  · exact h.execCalibrationDone
  · exact h.execMemoryInitDone
  · exact h.execFwptrWrite
  · exact h.execAttestationRequest
  · exact h.execHreqWrite
  · exact h.execCxlMemRequest
  · exact h.execLiveFirmwareUpdate
  · exact h.execDramChannelRetrain
  · exact h.execClusterRecalibration
  · exact h.execClusterRetire
  · exact h.execClusterRetireFinish
  · exact h.execPartitionCreate
  · exact h.execIllegalOpcode
  · exact h.execOsellTrainingEnd
  · exact h.execThermalLimitRelease
  · exact h.execCurrentLimitRelease
  · exact h.execHallKeyProvision

end Sys2Proof.Machine
end

section
/-! What the functions of Sys2Proof/Machine/Due.lean keep: each leads from a well-kept state to a well-kept one. -/

namespace Sys2Proof.Machine

variable {s : State} (h : WellKept s)
include h

omit h in
theorem changed_kept {t : State} (ht : WellKept t) : OptKept WellKept (s.changed t) := OptKept.ite trivial ht

theorem WellKept.tryStep {f : Act} (hf : OutKept (f s)) : OptKept WellKept (s.tryStep f) := by
  unfold State.tryStep
  split
  · next t he => exact changed_kept (hf.of_eq he)
  · trivial

theorem WellKept.firstStep {l : List Act} (hl : AllKeep l) : OptKept WellKept (s.firstStep l) := by
  cases e : s.firstStep l with
  | none => trivial
  | some t =>
    obtain ⟨f, hf, hft⟩ := List.exists_of_findSome?_eq_some e
    exact (h.tryStep (hl f hf s h)).get hft

theorem WellKept.dueReply : OptKept WellKept s.dueReply :=
  OptKept.orElse (h.firstStep (AllKeep.map fun _ _ h => h.execTagArrival))
      (h.firstStep (AllKeep.map fun _ _ h => h.execEventDelivery))

theorem WellKept.dueBuffers : OptKept WellKept s.dueBuffers :=
  OptKept.orElse (h.firstStep (AllKeep.map fun _ _ h => h.execReleaseMarkerComplete))
    (OptKept.orElse (OptKept.findSome? fun _ => changed_kept h.sendReady)
        (h.firstStep (AllKeep.map fun _ _ h => h.execHomeWrite)))

theorem WellKept.dueTrace : OptKept WellKept s.dueTrace := OptKept.findSome? fun _ => changed_kept h.flushTrace

omit h in
theorem arrivalOf_kept {m : Msg} : ∀ s, WellKept s → OutKept (arrivalOf m s) := by
  unfold arrivalOf
  cases m.body with
  | word | wake | close | openS => exact fun _ h => h.execChannelWordArrival
  | emit => exact fun _ h => h.execSignalEmission
  | release => exact fun _ h => h.execSignalRelease
  | exitNotice => exact fun _ h => h.execExitNotice
  | barrier => exact fun _ h => h.execBarrierArrival
  | migrate => exact fun _ h => h.execMigrationArrival
  | rcall | rreply => exact fun _ h => h.execRcallArrival
  | entries => exact fun _ h => h.execLlEntriesArrive
  | sigma => exact fun _ h => h.execSigmaUpdate

theorem WellKept.dueMessage : OptKept WellKept s.dueMessage := h.firstStep (AllKeep.map fun _ => arrivalOf_kept)

theorem WellKept.saveHeads : OptKept WellKept s.saveHeads := by
  refine OptKept.findSome? fun k => OptKept.findSome? fun c => ?_
  split
  · exact changed_kept h.saveHeldAt
  · trivial

omit h in
theorem AllKeep.matrix {k : Nat}
    : AllKeep [execMma k, execMmai k, execMmaq k, execTload k, execTstore k, execTzero k, execTcfg k,
    execTrow k, execGangJoin k, execGangJoinComplete k, execGangReduce k, execScaleMissFill k, execMatrixCompletion k] :=
  AllKeep.cons (fun _ h => h.execMma) <| AllKeep.cons (fun _ h => h.execMmai) <| AllKeep.cons (fun _ h => h.execMmaq) <|
  AllKeep.cons (fun _ h => h.execTload) <| AllKeep.cons (fun _ h => h.execTstore) <| AllKeep.cons (fun _ h => h.execTzero) <|
  AllKeep.cons (fun _ h => h.execTcfg) <| AllKeep.cons (fun _ h => h.execTrow) <| AllKeep.cons (fun _ h => h.execGangJoin) <|
  AllKeep.cons (fun _ h => h.execGangJoinComplete) <| AllKeep.cons (fun _ h => h.execGangReduce) <|
  AllKeep.cons (fun _ h => h.execScaleMissFill) <| AllKeep.cons (fun _ h => h.execMatrixCompletion) AllKeep.nil

theorem WellKept.dueEngine : OptKept WellKept s.dueEngine :=
  OptKept.orElse h.saveHeads <| OptKept.orElse (h.firstStep (AllKeep.map fun _ _ h => h.execPortEntryExecute)) <|
    OptKept.orElse (h.firstStep (AllKeep.map fun _ _ h => h.execRepPass))
        (h.firstStep (AllKeep.flatMap fun _ => AllKeep.matrix))

omit h in
theorem AllKeep.queue {e p q : Nat}
    : AllKeep [execCopy e p q, execGather e p q, execScatter e p q, execFill e p q, execReduce e p q,
    execHalox e p q, execRcopy e p q, execNotify e p q] :=
  AllKeep.cons (fun _ h => h.execCopy) <| AllKeep.cons (fun _ h => h.execGather) <| AllKeep.cons
      (fun _ h => h.execScatter) <|
  AllKeep.cons (fun _ h => h.execFill) <| AllKeep.cons (fun _ h => h.execReduce) <| AllKeep.cons (fun _ h => h.execHalox) <|
  AllKeep.cons (fun _ h => h.execRcopy) <| AllKeep.cons (fun _ h => h.execNotify) AllKeep.nil

theorem WellKept.dueQueue : OptKept WellKept s.dueQueue := by
  refine OptKept.findSome? fun a => h.firstStep (AllKeep.append ?_ (AllKeep.cons (fun _ h => h.execLaunch) AllKeep.nil))
  split
  · exact AllKeep.nil
  · exact AllKeep.queue

theorem WellKept.duePacket : OptKept WellKept s.duePacket :=
  OptKept.findSome? fun _ => OptKept.orElse (changed_kept h.resumePk) <| OptKept.orElse
      (changed_kept h.pumpPk) <| h.firstStep <|
    AllKeep.cons (fun _ h => h.execWatermarkAdvance) <| AllKeep.cons (fun _ h => h.execMailboxPost) <|
      AllKeep.cons (fun _ h => h.execCopyPacketComplete) AllKeep.nil

theorem WellKept.dueFill : OptKept WellKept s.dueFill :=
  OptKept.orElse
    (OptKept.findSome? fun _ => OptKept.orElse (h.firstStep (AllKeep.cons (fun _ h => h.execHaloFillStart) AllKeep.nil)) <|
      OptKept.orElse (changed_kept h.pumpFill) (h.firstStep (AllKeep.cons (fun _ h => h.execHaloFillComplete) AllKeep.nil)))
    (OptKept.findSome? fun _ => changed_kept h.pumpGrid)

theorem WellKept.dueFabric : OptKept WellKept s.dueFabric :=
  OptKept.orElse (changed_kept h.pumpPeer) <|
    OptKept.orElse (h.firstStep (AllKeep.flatMap fun _ => AllKeep.map fun _ _ h => h.execFabricForward)) <|
      OptKept.orElse (h.firstStep (AllKeep.map fun _ _ h => h.execFabricForward))
          (OptKept.findSome? fun _ => changed_kept h.modOport)

theorem WellKept.dueEnds : OptKept WellKept s.dueEnds := by
  refine OptKept.orElse (OptKept.findSome? fun c => ?_) (OptKept.orElse (OptKept.mapAny fun _ => h.endBlock) ?_)
  · exact OptKept.ite (changed_kept h.closeThread) (OptKept.ite (changed_kept h.settleExit) trivial)
  · exact OptKept.findSome? fun _ => changed_kept h.admitNext

theorem WellKept.dueClock : OptKept WellKept s.dueClock :=
  OptKept.orElse (OptKept.findSome? fun _ => h.firstStep (AllKeep.cons (fun _ h => h.execSchedulerEpoch) AllKeep.nil))
    (OptKept.findSome? fun _ => h.firstStep (AllKeep.cons (fun _ h => h.execLoadLevellingInterval) AllKeep.nil))

theorem WellKept.dueLaunch : OptKept WellKept s.dueLaunch :=
  OptKept.orElse (OptKept.findSome? fun _ => changed_kept h.readyLaunches) <|
    OptKept.orElse (OptKept.findSome? fun _ => h.firstStep (AllKeep.flatMap fun _ => AllKeep.map
        fun _ _ h => h.execBlockDispatch))
      (h.firstStep (AllKeep.map fun _ _ h => h.execLaunchComplete))

theorem WellKept.dueLehr : OptKept WellKept s.dueLehr :=
  h.firstStep (AllKeep.flatMap fun _ => AllKeep.cons (fun _ h => h.execFrameApply) <|
    AllKeep.cons (fun _ h => h.execLehrDecide) AllKeep.nil)

theorem WellKept.dueCull : OptKept WellKept s.dueCull :=
  OptKept.findSome? fun _ => h.firstStep (AllKeep.cons (fun _ h => h.execSpill) <| AllKeep.cons (fun _ h => h.execRestore) <|
    AllKeep.cons (fun _ h => h.execSave) AllKeep.nil)

theorem WellKept.saveFor {c : Nat} : OptKept WellKept (s.saveFor c) := by
  unfold State.saveFor
  split
  · exact OptKept.mapAny fun _ => h.saveBank
  · trivial

theorem WellKept.dueWait : OptKept WellKept s.dueWait :=
  OptKept.findSome? fun _ => OptKept.orElse h.saveFor <| h.firstStep <| AllKeep.cons (fun _ h => h.execAtomicAtPlace) <|
    AllKeep.cons (fun _ h => h.execFeResend) <| AllKeep.cons (fun _ h => h.execSignalQuery) <|
      AllKeep.cons (fun _ h => h.execTagArrival) AllKeep.nil

theorem WellKept.due : OptKept OutKept s.due := by
  have hdue := OptKept.orElse h.dueReply <| OptKept.orElse h.dueBuffers <| OptKept.orElse h.dueTrace <|
    OptKept.orElse h.dueMessage <| OptKept.orElse h.dueEngine <| OptKept.orElse h.dueQueue <| OptKept.orElse h.duePacket <|
    OptKept.orElse h.dueFill <| OptKept.orElse h.dueFabric <| OptKept.orElse h.dueEnds <| OptKept.orElse h.dueClock <|
    OptKept.orElse h.dueLaunch <| OptKept.orElse h.dueLehr <| OptKept.orElse h.dueCull h.dueWait
  exact hdue.map fun _ ht => ht

end Sys2Proof.Machine
end

section
/-! What the functions of Sys2Proof/Machine/Issue.lean keep: each leads from a well-kept state to a well-kept one. -/

namespace Sys2Proof.Machine

variable {s : State} (h : WellKept s)
include h

theorem WellKept.fetchCorrect {c : Nat} : WellKept (s.fetchCorrect c) := WellKept.ite h h.correct

theorem WellKept.takeSlot {c : Nat} : WellKept (s.takeSlot c) := { h.fetchCorrect with }

theorem WellKept.tick : WellKept s.tick := { h with }

theorem WellKept.blockIssued {c : Nat} {i : Instr} : WellKept (s.blockIssued c i) := WellKept.ite h.modCtx h

theorem WellKept.turnOf {k : Nat} : WellKept (s.turnOf k) := WellKept.ite h.tick h

end Sys2Proof.Machine
end

section
/-! What the functions of Sys2Proof/Machine/Step.lean keep: each leads from a well-kept state to a well-kept one. -/

namespace Sys2Proof.Machine

variable {s : State} (h : WellKept s)
include h

theorem WellKept.issue {c : Nat} : OutKept (issue c s) := by
  unfold Machine.issue
  extract_lets s1
  have h1 : WellKept s1 := h.takeSlot
  split
  · exact h1.takeFault
  · split
    · next t he => exact WellKept.blockIssued (h1.exec.of_eq he)
    · exact h1.exec

theorem WellKept.step : OutKept (step s) := by
  have hr {r : List Turn} : WellKept { s with agenda := r } := { h with }
  unfold Machine.step
  split
  · exact OutKept.ite hr hr.exec
  · exact hr.upset
  · exact hr.copyError
  · exact hr.hostWrite
  · split
    · exact hr
    · extract_lets s1
      have h1 : WellKept s1 := hr.turnOf
      split
      · exact h1.issue
      · exact h1
  · split
    · trivial
    · split
      · trivial
      · split
        · next r he => exact h.due.get he
        · split
          · exact h.issue
          · split
            · exact h.tick.issue
            · exact h.tick

end Sys2Proof.Machine
end

section
/-! The invariant of the form, over one step. -/

namespace Sys2Proof.Machine

/-- Settles O59, by one lemma for each function of the model that makes a state: what it makes of a well-kept state is well
kept. -/
theorem stepsKeepTheForm : Obligations.StepsKeepTheForm := by
  intro s t hs ht
  have hstep : OutKept (step s) := hs.step
  rw [ht] at hstep
  exact hstep

end Sys2Proof.Machine
end

section
/-! What leaves the modes of the banks alone: a write at its place and the saving of a held bank change no `BANKMODE` and start no change
of mode. -/

namespace Sys2Proof.Machine

/-- The modes of the banks of every cluster, and the banks that are changing mode, are those of `m`. -/
def HasModes (m : Nat → Word × BitVec 32) (s : State) : Prop := ∀ k, ((s.clu k).bankmode, (s.clu k).busy) = m k

/-- A change of a cluster's record that leaves its banks' modes alone. -/
def Cluster.KeepsModes (f : Cluster → Cluster) : Prop := ∀ u, ((f u).bankmode, (f u).busy) = (u.bankmode, u.busy)

theorem SMap.at_map {α β : Type} (g : α → β) (f : α → α) (hg : ∀ x, g (f x) = g x) (d : α) (m : SMap α) (k : Nat) :
    g (SMap.at d (m.map fun p => (p.1, f p.2)) k) = g (SMap.at d m k) := by
  induction m with
  | nil => rfl
  | cons p r ih =>
    simp only [List.map_cons, SMap.at]
    split
    · rfl
    · split
      · exact hg p.2
      · exact ih

section
variable {m : Nat → Word × BitVec 32} {s : State} (h : HasModes m s)
include h

omit h in
theorem HasModes.foldl {α : Type} {s : State} {f : State → α → State} {l : List α} (h : HasModes m s)
    (hf : ∀ s a, HasModes m s → HasModes m (f s a)) : HasModes m (l.foldl f s) :=
  List.foldlRecOn l f h fun s hs a _ => hf s a hs

omit h in
theorem HasModes.ite {p : Prop} [Decidable p] {s t : State} (hs : HasModes m s) (ht : HasModes m t) :
    HasModes m (if p then s else t) := by
  split
  · exact hs
  · exact ht

theorem HasModes.modClu {k : Nat} {f : Cluster → Cluster} (hf : Cluster.KeepsModes f) : HasModes m (s.modClu k f) := fun j => by
  rw [State.modClu_clu]
  split
  · next hj => subst hj; exact (hf _).trans (h j)
  · exact h j

theorem HasModes.modCtx {c : Nat} {f : Ctx → Ctx} : HasModes m (s.modCtx c f) := h

theorem HasModes.giveReply {c : Nat} {r : Reply} : HasModes m (s.giveReply c r) := h.modCtx

theorem HasModes.modPkg {f : Pkg → Pkg} : HasModes m (s.modPkg f) := h

theorem HasModes.modDir {l : Nat} {f : DirLine → DirLine} : HasModes m (s.modDir l f) := h

theorem HasModes.rawWrite {bs : List (Nat × Byte)} : HasModes m (s.rawWrite bs) := h

theorem HasModes.refreshCopy {clu line : Nat} : HasModes m (s.refreshCopy clu line) := h.modClu fun _ => rfl

theorem HasModes.dirEvent {e : DirEv} : HasModes m (s.dirEvent e) := h.modClu fun _ => rfl

theorem HasModes.withdraw {c : Nat} : HasModes m (s.withdraw c) := by
  unfold State.withdraw
  extract_lets clu
  exact fun k => (SMap.at_map (fun u : Cluster => (u.bankmode, u.busy)) clu (fun _ => rfl) {} s.clus k).trans (h k)

theorem HasModes.restart {c : Nat} : HasModes m (s.restart c) := by
  unfold State.restart
  split
  · exact h
  · exact (HasModes.ite h.withdraw.modPkg h).modCtx.modClu fun _ => rfl

theorem HasModes.restartSpilled {clu key : Nat} : HasModes m (s.restartSpilled clu key) := by
  refine HasModes.modClu ?_ fun _ => rfl
  exact h

theorem HasModes.hitSpilled {clu line : Nat} : HasModes m (s.hitSpilled clu line) := h.foldl fun _ _ h => h.restartSpilled

theorem HasModes.hitReaders {clu line : Nat} : HasModes m (s.hitReaders clu line) :=
  (h.foldl fun _ _ h => HasModes.ite h.restart h).hitSpilled

theorem HasModes.applyLine {clu line : Nat} : HasModes m (s.applyLine clu line) := by
  refine HasModes.hitReaders (h.modClu ?_)
  exact fun _ => rfl

theorem HasModes.invalidate {clu line : Nat} : HasModes m (s.invalidate clu line) :=
  (HasModes.ite h.applyLine h).modClu fun _ => rfl

theorem HasModes.wakeWatches {line : Nat} : HasModes m (s.wakeWatches line) := by
  unfold State.wakeWatches
  extract_lets ws
  split
  · exact h
  · refine HasModes.modDir (h.foldl fun s w h => ?_)
    split
    · exact h.modPkg
    · exact HasModes.ite h.giveReply h.giveReply

theorem HasModes.noteWrite {wr : Writer} {line : Nat} : HasModes m (s.noteWrite wr line) := by
  unfold State.noteWrite
  extract_lets _ s1 s2 _ s3 s4 _ s5 s6
  have h1 : HasModes m s1 := h
  have h2 : HasModes m s2 := h1.wakeWatches
  have h3 : HasModes m s3 := h2.foldl fun _ _ h => h.invalidate
  have h4 : HasModes m s4 := by
    unfold s4
    split
    · exact h3
    · exact h3.refreshCopy
  have h5 : HasModes m s5 :=
    HasModes.ite h4.dirEvent (HasModes.ite (h4.foldl fun _ _ h => h.invalidate).modDir (HasModes.ite h4 h4.modDir))
  unfold s6
  split
  · exact h5
  · extract_lets t
    have ht : HasModes m t := HasModes.ite h5.modCtx h5
    exact HasModes.ite ht.hitReaders ht

theorem HasModes.fePerform {wr : Writer} {l : Nat} {f : FeMode} {v : Word} : HasModes m (s.fePerform wr l f v).2 := by
  have hempty : HasModes m { s with empties := addNat s.empties (l / 8), mtags := delNat s.mtags (l / 16) } := h
  cases f with
  | read => exact h
  | take | clear => exact hempty.noteWrite
  | put | fill => exact h.rawWrite.noteWrite

theorem HasModes.serveOne {r : FeReq} : HasModes m (s.serveOne r) := by
  have h1 : HasModes m (s.modClu (s.placeClu r.loc) (fun u => { u with retry := u.retry.erase r })) := h.modClu fun _ => rfl
  unfold State.serveOne
  split
  · exact h1.fePerform.refreshCopy.giveReply
  · exact h1.fePerform.modPkg

omit h in
theorem HasModes.serveWord {l n : Nat} {s : State} (h : HasModes m s) : HasModes m (State.serveWord l n s) := by
  induction n generalizing s with
  | zero => exact h
  | succ n ih =>
    unfold State.serveWord
    split
    · exact h
    · exact HasModes.ite h (ih h.serveOne)

theorem HasModes.serveWords {ls : List Nat} : HasModes m (s.serveWords ls) := h.foldl fun _ _ h => HasModes.ite h h.serveWord

theorem HasModes.place {wr : Writer} {bs : List (Nat × Byte)} : HasModes m (s.place wr bs) :=
  (h.rawWrite.foldl fun _ _ h => h.noteWrite).serveWords

theorem HasModes.areaWrite {p off : Nat} {bs : List Byte} : HasModes m (s.areaWrite p off bs) := by
  unfold State.areaWrite
  split
  · exact h
  · exact h.place

theorem HasModes.areaRows {p off : Nat} {rows : List (List Byte)} : HasModes m (s.areaRows p off rows) :=
  List.foldlRecOn (motive := fun a : State × Nat => HasModes m a.1) rows _ h fun _ ha _ _ => ha.areaWrite

theorem HasModes.writeOpaque {p off n : Nat} : HasModes m (s.writeOpaque p off n) := by
  have hfresh : HasModes m { s with fresh := s.fresh + n } := h
  exact hfresh.areaWrite

theorem HasModes.saveBank {clu : Nat} {b : BankHold} : HasModes m (s.saveBank clu b) := by
  refine HasModes.modClu ?_ fun _ => rfl
  exact h.areaRows.writeOpaque

end

end Sys2Proof.Machine
end

section
/-! Banks by their bits, maps and lists: the busy bits of a cluster, a key that is taken off a map, and memory and sets of places when a
range of places is dropped from them. -/

namespace Sys2Proof.Machine

/-! ## Busy bits -/

theorem bitOf_eq_getLsbD {n : Nat} (x : BitVec n) (i : Nat) : bitOf x i = x.getLsbD i :=
  (Nat.testBit_eq_decide_div_mod_eq).symm

theorem bitOf_set (x : BitVec 32) {b j : Nat} (hj : j < 32) : bitOf (x ||| 1#32 <<< b) j = (bitOf x j || decide (j = b)) := by
  simp only [bitOf_eq_getLsbD, BitVec.getLsbD_or, BitVec.getLsbD_shiftLeft, BitVec.getLsbD_one, hj]
  congr 1
  by_cases h : j = b
  · simp [h]
  · by_cases h' : j < b
    · simp [h, h']
    · simp [h, h', show j - b ≠ 0 by omega]

theorem bitOf_clear (x : BitVec 32) {b : Nat} (hb : b < 32) : bitOf (x &&& ~~~(1#32 <<< b)) b = false := by
  simp [bitOf_eq_getLsbD, hb]

theorem bitOf_foldl_set (l : List Nat) (x : BitVec 32) {j : Nat} (hj : j < 32) :
    bitOf (l.foldl (fun (m : BitVec 32) b => m ||| 1#32 <<< b) x) j = true ↔ bitOf x j = true ∨ j ∈ l := by
  induction l generalizing x with
  | nil => simp
  | cons b r ih => simp [ih, bitOf_set x hj, or_assoc]

/-! ## A key that is taken off a map -/

theorem SMap.at_of_no_key {α : Type} (d : α) {m : SMap α} {k : Nat} (h : ∀ p ∈ m, p.1 ≠ k) : SMap.at d m k = d := by
  induction m with
  | nil => rfl
  | cons p r ih =>
    simp only [SMap.at, if_neg (h p List.mem_cons_self).symm, ih fun q hq => h q (List.mem_cons_of_mem _ hq), ite_self]

@[simp] theorem SMap.at_del_self {α : Type} (d : α) (m : SMap α) (k : Nat) : SMap.at d (SMap.del m k) k = d :=
  SMap.at_of_no_key d fun _ hp => of_decide_eq_true (List.mem_filter.mp hp).2

/-! ## A range of places that is dropped -/

theorem hasNat_iff_mem {l : List Nat} (h : l.Pairwise (· < ·)) (k : Nat) : hasNat l k = true ↔ k ∈ l := by
  induction l with
  | nil => simp [hasNat]
  | cons a r ih =>
    obtain ⟨ha, hr⟩ := List.pairwise_cons.mp h
    simp only [hasNat]
    split
    · next hk => simpa using ⟨hk.ne, fun hm => absurd (ha k hm) (by omega)⟩
    · split
      · next hk => simp [hk]
      · next hk => simp [ih hr, hk]

theorem hasNat_filter {l : List Nat} (h : l.Pairwise (· < ·)) (f : Nat → Bool) (k : Nat) :
    hasNat (l.filter f) k = (hasNat l k && f k) := by
  rw [Bool.eq_iff_iff, hasNat_iff_mem (h.filter f)]
  simp [hasNat_iff_mem h]

theorem Memory.read_filter {m : Memory} {lo : Nat} (w : m.wfFrom lo = true) (f : Nat → Bool) (a : Nat) :
    Memory.read (m.filter fun p => f p.1) a = if f a = true then m.read a else 0 := by
  induction m generalizing lo with
  | nil => simp [Memory.read]
  | cons p r ih =>
    obtain ⟨x, b⟩ := p
    simp only [Memory.wfFrom, Bool.and_eq_true, decide_eq_true_eq] at w
    obtain ⟨-, hr⟩ := w
    rw [List.filter_cons, apply_ite (Memory.read · a)]
    simp only [Memory.read, ih hr]
    rcases lt_trichotomy a x with hlt | rfl | hgt
    · simp [hlt, Memory.read_below hr (show a < x + 1 by omega)]
    · simp [Memory.read_below hr (show a < a + 1 by omega)]
    · simp [show ¬ a < x by omega, show a ≠ x by omega]

end Sys2Proof.Machine
end

section
/-! The obligation on banks: a store to `BANKMODE`, the end of a change of mode, and the two ends of a FIFO bank. -/

namespace Sys2Proof.Machine

/-! ## A store to `BANKMODE` -/

theorem exec_bankmodeWrite (k : Nat) (v : Word) (s : State) : exec (.bankmodeWrite k v) s =
    .next ((((s.heldMoved k v).foldl (fun s h => s.saveBank k h) s).bankStore k v).getD s) := rfl

theorem State.bankStore_of_reserved {s : State} {k : Nat} {v : Word} (h : ∃ j < 32, bitsAt v (2 * j) 2 = 3) : s.bankStore k v = none := by
  obtain ⟨j, hj, h3⟩ := h
  exact if_pos (List.any_eq_true.mpr ⟨j, List.mem_range.mpr hj, decide_eq_true h3⟩)

theorem State.bankStore_of_modes {s : State} {k : Nat} {v : Word} {b : Nat} (h : ∀ j < 32, bitsAt v (2 * j) 2 ≠ 3) (hb : b < 32) :
    ∃ t, s.bankStore k v = some t ∧ (t.clu k).bankmode = v ∧ t.mem = s.mem ∧
      ((t.clu k).busyBank b = true ↔ (s.clu k).busyBank b = true ∨ (s.clu k).mode b ≠ bitsAt v (2 * b) 2) := by
  unfold State.bankStore
  rw [if_neg (by simpa using h)]
  refine ⟨_, rfl, by simp, rfl, ?_⟩
  simp [Cluster.busyBank, bitOf_foldl_set _ _ hb, hb]

theorem State.heldMoved_of_no_change {s : State} {k : Nat} {v : Word}
    (h : ∀ q ∈ (s.clu k).bankHeld, (s.clu k).mode q.bank = bitsAt v (2 * q.bank) 2) : s.heldMoved k v = [] :=
  List.filter_eq_nil_iff.mpr fun q hq => by simp [h q hq]

/-- The saving of the held banks changes no mode, so the store finds the modes that it would have found without it. -/
theorem bankmodeWrite_effect {s : State} {k b : Nat} {v : Word} (h : ∀ j < 32, bitsAt v (2 * j) 2 ≠ 3) (hb : b < 32) :
    ∃ t, exec (.bankmodeWrite k v) s = .next t ∧ (t.clu k).bankmode = v ∧
      ((∀ h ∈ (s.clu k).bankHeld, (s.clu k).mode h.bank = bitsAt v (2 * h.bank) 2) → t.mem = s.mem) ∧
      ((t.clu k).busyBank b = true ↔ (s.clu k).busyBank b = true ∨ (s.clu k).mode b ≠ bitsAt v (2 * b) 2) := by
  rw [exec_bankmodeWrite]
  have hm : HasModes (fun j => ((s.clu j).bankmode, (s.clu j).busy)) ((s.heldMoved k v).foldl (fun s h => s.saveBank k h) s) :=
    HasModes.foldl (fun _ => rfl) fun _ _ h => h.saveBank
  obtain ⟨t, ht, hmode, hmem, hbusy⟩ := State.bankStore_of_modes h hb
  obtain ⟨hmode', hbusy'⟩ := Prod.mk.inj (hm k)
  refine ⟨t, by rw [ht]; rfl, hmode, fun hh => ?_, ?_⟩
  · rw [hmem, State.heldMoved_of_no_change hh]
    rfl
  · rw [hbusy, Cluster.busyBank, Cluster.mode, hmode', hbusy']
    rfl

/-! ## Replies to those who wait at a port -/

@[simp] theorem State.giveReply_ctx (s : State) (c : Nat) (r : Reply) (d : Nat) : ((s.giveReply c r).ctx d).wait =
    if d = c then (s.ctx d).wait.map (fun y => { y with reply := some r }) else (s.ctx d).wait := by
  unfold State.giveReply
  rw [State.modCtx_ctx]
  split
  · next h => rw [h]
  · rfl

/-- A state differs from another in its contexts only. -/
def State.SameButCtxs (s t : State) : Prop := ∃ cs, t = { s with ctxs := cs }

theorem State.SameButCtxs.of_replies {α : Type} (f : α → Nat) (r : Reply) (ws : List α) (s : State) :
    s.SameButCtxs (ws.foldl (fun s w => s.giveReply (f w) r) s) :=
  List.foldlRecOn ws _ ⟨s.ctxs, rfl⟩ fun t ⟨cs, h⟩ w _ => ⟨(t.giveReply (f w) r).ctxs, by rw [h]; rfl⟩

/-- The same reply given twice to a context is that reply. -/
theorem State.wait_of_replies {α : Type} (f : α → Nat) (r : Reply) (ws : List α) (s : State) (c : Nat) :
    ((ws.foldl (fun s w => s.giveReply (f w) r) s).ctx c).wait =
      if ∃ w ∈ ws, f w = c then (s.ctx c).wait.map (fun y => { y with reply := some r }) else (s.ctx c).wait := by
  induction ws generalizing s with
  | nil => simp
  | cons w ws ih =>
    rw [List.foldl_cons, ih, State.giveReply_ctx]
    by_cases hw : f w = c
    · by_cases hr : ∃ x ∈ ws, f x = c <;> simp [hw, hr, Function.comp_def]
    · simp [hw, Ne.symm hw]

/-! ## The end of a change of mode -/

theorem State.serveBank_of_no_waiters {s : State} {k b : Nat} (h : (s.clu k).waiters b = []) : s.serveBank k b = s := by
  unfold State.serveBank
  rw [h]
  exact ite_self s

theorem State.serveRetries_of_none {s : State} {k b : Nat} (h : (s.clu k).retry = []) : s.serveRetries k b = s := by
  unfold State.serveRetries
  rw [h]
  rfl

/-- The bank `b` of cluster `k` no longer changes mode. -/
def State.endChange (s : State) (k b : Nat) : State :=
  s.modClu k (fun u => { u with busy := u.busy &&& ~~~(1#32 <<< b), pend := SMap.del u.pend b })

/-- The bank is clear and holds no FIFO words. -/
def State.emptyBank (s : State) (k b : Nat) : State := (s.clearBank k b).modClu k (fun u => { u with fifo := SMap.del u.fifo b })

/-- The reply of an access that waited at the port of a bank that leaves FIFO. -/
def portGone (b : Nat) : Reply := { exc := some { code := Cause.handleBounds, addr := fifoPtr b } }

/-- Those who wait at the port of a bank that is not in FIFO mode fault. -/
def State.closePort (s : State) (k b : Nat) : State :=
  (((s.clu k).waiters b).foldl (fun s w => s.giveReply w.1 (portGone b)) s).modClu k (fun u => { u with fifoWait := SMap.del u.fifoWait b })

@[simp] theorem State.clearBank_clu (s : State) (k b d : Nat) : (s.clearBank k b).clu d = s.clu d := rfl

@[simp] theorem State.endChange_clu (s : State) (k b : Nat) : (s.endChange k b).clu k =
    { s.clu k with busy := (s.clu k).busy &&& ~~~(1#32 <<< b), pend := SMap.del (s.clu k).pend b } := by
  simp [State.endChange]

@[simp] theorem State.emptyBank_clu (s : State) (k b : Nat) :
    (s.emptyBank k b).clu k = { s.clu k with fifo := SMap.del (s.clu k).fifo b } := by
  simp [State.emptyBank]

/-- What the closing of a port leaves and what it changes. -/
theorem State.closePort_effect (s : State) (k b : Nat) :
    ((s.closePort k b).clu k = { s.clu k with fifoWait := SMap.del (s.clu k).fifoWait b }) ∧ (s.closePort k b).mem = s.mem ∧
      (s.closePort k b).empties = s.empties ∧ (s.closePort k b).mtags = s.mtags ∧
      ∀ w ∈ (s.clu k).waiters b, ((s.closePort k b).ctx w.1).wait = (s.ctx w.1).wait.map (fun y => { y with reply := some (portGone b) }) := by
  have hwait := State.wait_of_replies (fun w : Nat × Reg × Option Word => w.1) (portGone b) ((s.clu k).waiters b) s
  obtain ⟨cs, hcs⟩ := State.SameButCtxs.of_replies (fun w : Nat × Reg × Option Word => w.1) (portGone b) ((s.clu k).waiters b) s
  rw [hcs] at hwait
  unfold State.closePort
  rw [hcs]
  refine ⟨by rw [State.modClu_clu, if_pos rfl]; rfl, rfl, rfl, rfl, fun w hw => ?_⟩
  rw [State.modClu_ctx_of, hwait, if_pos ⟨w, hw, rfl⟩]

theorem exec_bankModeChangeDone_of_settled {s : State} {k b : Nat} (h : (s.clu k).busyBank b = false) :
    exec (.bankModeChangeDone k b) s = .next s := by
  simp only [exec, execBankModeChangeDone, h]
  rfl

/-- When no write-through of the cluster stands in the way and no full-empty request waits there, a change of mode ends. -/
theorem exec_bankModeChangeDone {s s2 : State} {k b : Nat} (h : (s.clu k).busyBank b = true) (hr : (s.clu k).retry = [])
    (h0 : SMap.at ((s.clu k).mode b) (s.clu k).pend b = 0 → (s.clu k).mode b = 0)
    (hw : (s.clu k).mode b = 2 → (s.clu k).waiters b = [])
    (h2 : s2 = if SMap.at ((s.clu k).mode b) (s.clu k).pend b = (s.clu k).mode b then s.endChange k b else (s.endChange k b).emptyBank k b) :
    exec (.bankModeChangeDone k b) s = .next (if (s.clu k).mode b = 2 then s2 else s2.closePort k b) := by
  have hgone : ¬ (SMap.at ((s.clu k).mode b) (s.clu k).pend b = 0 ∧ (s.clu k).mode b ≠ 0 ∧
      ((s.clu k).throughs.map (·.line)).any (fun l => s.lockedFor l (s.throughCtx k l)) = true) := fun ⟨hz, hn, _⟩ => hn (h0 hz)
  have hs2 : (if SMap.at ((s.clu k).mode b) (s.clu k).pend b = (s.clu k).mode b then s.endChange k b
      else ((if SMap.at ((s.clu k).mode b) (s.clu k).pend b = 0 then (s.endChange k b).leaveCache k b else s.endChange k b).clearBank
        k b).modClu k (fun u => { u with fifo := SMap.del u.fifo b })) = s2 := by
    rw [h2]
    split
    · rfl
    · next hne => rw [if_neg fun hz => hne (hz.trans (h0 hz).symm)]; rfl
  have hretry : (s2.clu k).retry = [] := by
    rw [h2]
    split <;> simp [hr]
  have hwaiters : (s2.clu k).waiters b = (s.clu k).waiters b := by
    rw [h2]
    split <;> simp [Cluster.waiters]
  have hexec : exec (.bankModeChangeDone k b) s = .next (if (s.clu k).mode b = 2 then s2.serveBank k b
      else (s2.closePort k b).serveRetries k b) := by
    rw [← hs2]
    simp only [exec, execBankModeChangeDone, h, if_neg hgone]
    rfl
  rw [hexec, State.serveRetries_of_none (by rw [(s2.closePort_effect k b).1]; exact hretry)]
  split
  · next hm => rw [State.serveBank_of_no_waiters (hwaiters.trans (hw hm))]
  · rfl

theorem bankModeChange_back {s : State} {k b : Nat} (hb : b < 32) (h : (s.clu k).busyBank b = true)
    (hold : SMap.at ((s.clu k).mode b) (s.clu k).pend b = (s.clu k).mode b) (hw : (s.clu k).waiters b = []) (hr : (s.clu k).retry = []) :
    ∃ t, exec (.bankModeChangeDone k b) s = .next t ∧ (t.clu k).busyBank b = false ∧
      (t.clu k).bankmode = (s.clu k).bankmode ∧ (t.clu k).words b = (s.clu k).words b ∧ t.mem = s.mem ∧ t.empties = s.empties := by
  refine ⟨_, exec_bankModeChangeDone h hr hold.symm.trans (fun _ => hw) rfl, ?_⟩
  rw [if_pos hold]
  split
  · exact ⟨by simp [Cluster.busyBank, bitOf_clear _ hb], by simp, by simp [Cluster.words], rfl, rfl⟩
  · obtain ⟨hclu, hmem, hempties, -, -⟩ := (s.endChange k b).closePort_effect k b
    exact ⟨by simp [hclu, Cluster.busyBank, bitOf_clear _ hb], by simp [hclu], by simp [hclu, Cluster.words], hmem, hempties⟩

/-- The locations of bank `b` of cluster `k`. -/
abbrev InBank (k b l : Nat) : Prop := sramLoc k b 0 ≤ l ∧ l < sramLoc k b 0 + 65536

/-- The bytes of a bank read 0, its words are full and its tags gone, and every other place is as in `s`. -/
def BankCleared (s t : State) (k b : Nat) : Prop :=
  (∀ l, InBank k b l → t.mem.read l = 0 ∧ t.isFull l = true ∧ hasNat t.mtags (l / 16) = false) ∧
    ∀ l, ¬ InBank k b l → t.mem.read l = s.mem.read l ∧ t.isFull l = s.isFull l

theorem State.clearBank_cleared {s : State} (w : WellKept s) (k b : Nat) : BankCleared s (s.clearBank k b) k b := by
  have hread (l : Nat) : (s.clearBank k b).mem.read l = if InBank k b l then 0 else s.mem.read l := by
    refine (Memory.read_filter w.mem (fun l => !(decide (sramLoc k b 0 ≤ l) && decide (l < sramLoc k b 0 + 65536))) l).trans ?_
    simp only [← Bool.decide_and, Bool.not_eq_true', decide_eq_false_iff_not, ite_not]
  have hempty (g : Nat) : hasNat (s.clearBank k b).empties g =
      (hasNat s.empties g && !decide (sramLoc k b 0 / 8 ≤ g ∧ g < (sramLoc k b 0 + 65536) / 8)) :=
    (hasNat_filter w.empties _ g).trans (by rw [Bool.decide_and]; rfl)
  have htag (g : Nat) : hasNat (s.clearBank k b).mtags g =
      (hasNat s.mtags g && !decide (sramLoc k b 0 / 16 ≤ g ∧ g < (sramLoc k b 0 + 65536) / 16)) :=
    (hasNat_filter w.mtags _ g).trans (by rw [Bool.decide_and]; rfl)
  have ha : sramLoc k b 0 = 16 * (2 ^ 56 + k * 2 ^ 17 + b * 2 ^ 12) := by
    unfold sramLoc sramBase
    ring
  refine ⟨fun l hl => ?_, fun l hl => ?_⟩
  · have h8 : sramLoc k b 0 / 8 ≤ l / 8 ∧ l / 8 < (sramLoc k b 0 + 65536) / 8 := by omega
    have h16 : sramLoc k b 0 / 16 ≤ l / 16 ∧ l / 16 < (sramLoc k b 0 + 65536) / 16 := by omega
    rw [hread, State.isFull, hempty, htag]
    simp [hl, h8, h16]
  · have h8 : ¬ (sramLoc k b 0 / 8 ≤ l / 8 ∧ l / 8 < (sramLoc k b 0 + 65536) / 8) := by omega
    rw [hread, State.isFull, hempty, if_neg hl, decide_eq_false h8]
    simp [State.isFull]

theorem bankModeChange_moved {s : State} {k b : Nat} (hb : b < 32) (h : (s.clu k).busyBank b = true) (wk : WellKept s)
    (hne : SMap.at ((s.clu k).mode b) (s.clu k).pend b ≠ (s.clu k).mode b) (h0 : SMap.at ((s.clu k).mode b) (s.clu k).pend b ≠ 0)
    (hw : (s.clu k).mode b = 2 → (s.clu k).waiters b = []) (hr : (s.clu k).retry = []) :
    ∃ t, exec (.bankModeChangeDone k b) s = .next t ∧ (t.clu k).busyBank b = false ∧
      (t.clu k).bankmode = (s.clu k).bankmode ∧ (t.clu k).words b = [] ∧ BankCleared s t k b ∧
      ∀ w ∈ (s.clu k).waiters b, (t.ctx w.1).wait = (s.ctx w.1).wait.map (fun y => { y with reply := some (portGone b) }) := by
  refine ⟨_, exec_bankModeChangeDone h hr (fun hz => absurd hz h0) hw rfl, ?_⟩
  rw [if_neg hne]
  have hcleared : BankCleared s ((s.endChange k b).emptyBank k b) k b := State.clearBank_cleared wk k b
  split
  · next hm =>
    refine ⟨?_, ?_, ?_, hcleared, ?_⟩
    · simp [Cluster.busyBank, bitOf_clear _ hb]
    · simp
    · simp [Cluster.words]
    · simp [hw hm]
  · obtain ⟨hclu, hmem, hempties, htags, hwait⟩ := ((s.endChange k b).emptyBank k b).closePort_effect k b
    refine ⟨?_, ?_, ?_, ?_, ?_⟩
    · simp [hclu, Cluster.busyBank, bitOf_clear _ hb]
    · simp [hclu]
    · simp [hclu, Cluster.words]
    · unfold BankCleared State.isFull
      rw [hmem, hempties, htags]
      exact hcleared
    · intro w hw
      exact hwait w (by simpa [Cluster.waiters] using hw)

/-! ## The two ends of a FIFO bank -/

theorem exec_fifoPush (k b : Nat) (v : Word) (s : State) :
    exec (.fifoPush k b v) s = .next (if (s.clu k).canPush b then s.pushWord k b v else s) := rfl

theorem exec_fifoPop (k b : Nat) (s : State) :
    exec (.fifoPop k b) s = .next (if (s.clu k).canPop b then s.popWord k b else s) := rfl

theorem Cluster.canPush_iff (u : Cluster) (b : Nat) : u.canPush b = true ↔
    u.mode b = 2 ∧ u.busyBank b = false ∧ (u.words b).length < 8192 ∧ ∀ w ∈ u.waiters b, w.2.2 = none := by
  simp [Cluster.canPush, and_assoc]

theorem Cluster.canPop_iff (u : Cluster) (b : Nat) : u.canPop b = true ↔
    u.mode b = 2 ∧ u.busyBank b = false ∧ u.words b ≠ [] ∧ ∀ w ∈ u.waiters b, w.2.2.isSome = true := by
  simp [Cluster.canPop, and_assoc]

theorem State.fifoReply_of_scalar (s : State) {c : Nat} (h : (s.ctx c).vpart = none) (v : Word) (r : Reply) :
    s.fifoReply c v r = s.giveReply c r := by
  unfold State.fifoReply
  rw [h]

/-- The bank's words and its waiters, changed to these. -/
def State.setFifo (s : State) (k b : Nat) (ws : List Word) (qs : List (Nat × Reg × Option Word)) : State :=
  s.modClu k (fun u => { u with fifo := SMap.put u.fifo b ws, fifoWait := SMap.put u.fifoWait b qs })

@[simp] theorem State.setFifo_clu (s : State) (k b : Nat) (ws : List Word) (qs : List (Nat × Reg × Option Word)) :
    ((s.setFifo k b ws qs).clu k).words b = ws ∧ ((s.setFifo k b ws qs).clu k).waiters b = qs := by
  simp [State.setFifo, Cluster.words, Cluster.waiters, SMap.at_put]

/-- Loads that wait at an empty bank go on waiting. -/
theorem State.serveFifo_of_empty {s : State} {k b : Nat} (hw : (s.clu k).words b = []) (hq : ∀ q ∈ (s.clu k).waiters b, q.2.2 = none)
    (n : Nat) : State.serveFifo k b n s = s := by
  cases n with
  | zero => rfl
  | succ n =>
    unfold State.serveFifo
    extract_lets u
    split
    · rfl
    · next he => exact absurd (hq _ (he ▸ List.mem_cons_self)) (by simp)
    · rw [hw]

/-- Stores that wait at a full bank go on waiting. -/
theorem State.serveFifo_of_full {s : State} {k b : Nat} (hw : ((s.clu k).words b).length = 8192)
    (hq : ∀ q ∈ (s.clu k).waiters b, q.2.2.isSome = true) (n : Nat) : State.serveFifo k b n s = s := by
  cases n with
  | zero => rfl
  | succ n =>
    unfold State.serveFifo
    extract_lets u
    split
    · rfl
    · exact if_neg (by simp [u, hw])
    · next he => exact absurd (hq _ (he ▸ List.mem_cons_self)) (by simp)

theorem State.serveFifo_load {s : State} {k b c n : Nat} {d : Reg} {v : Word} {ws : List Word} {rest : List (Nat × Reg × Option Word)}
    (hq : (s.clu k).waiters b = (c, d, none) :: rest) (hw : (s.clu k).words b = v :: ws) (hv : (s.ctx c).vpart = none) :
    State.serveFifo k b (n + 1) s = State.serveFifo k b n ((s.setFifo k b ws rest).giveReply c { writes := [(d, v)] }) := by
  rw [State.serveFifo]
  simp only [hq, hw]
  exact congrArg _ (State.fifoReply_of_scalar (s.setFifo k b ws rest) hv v _)

theorem State.serveFifo_store {s : State} {k b c n : Nat} {d : Reg} {v : Word} {rest : List (Nat × Reg × Option Word)}
    (hq : (s.clu k).waiters b = (c, d, some v) :: rest) (hw : ((s.clu k).words b).length < 8192) (hv : (s.ctx c).vpart = none) :
    State.serveFifo k b (n + 1) s = State.serveFifo k b n ((s.setFifo k b ((s.clu k).words b ++ [v]) rest).giveReply c {}) := by
  rw [State.serveFifo]
  simp only [hq, hw]
  exact congrArg _ (State.fifoReply_of_scalar (s.setFifo k b ((s.clu k).words b ++ [v]) rest) hv v _)

/-- The words of the bank, changed to these. -/
def State.setWords (s : State) (k b : Nat) (ws : List Word) : State := s.modClu k (fun u => { u with fifo := SMap.put u.fifo b ws })

@[simp] theorem State.setWords_clu (s : State) (k b : Nat) (ws : List Word) :
    ((s.setWords k b ws).clu k).words b = ws ∧ ((s.setWords k b ws).clu k).waiters b = (s.clu k).waiters b ∧
      ((s.setWords k b ws).clu k).busyBank b = (s.clu k).busyBank b := by
  simp [State.setWords, Cluster.words, Cluster.waiters, SMap.at_put, Cluster.busyBank]

theorem State.pushWord_eq (s : State) (k b : Nat) (v : Word) :
    s.pushWord k b v = (s.setWords k b ((s.clu k).words b ++ [v])).serveBank k b := rfl

theorem State.popWord_eq (s : State) (k b : Nat) : s.popWord k b = (s.setWords k b (((s.clu k).words b).drop 1)).serveBank k b := rfl

theorem State.serveBank_of_waiters {s : State} {k b : Nat} {q : Nat × Reg × Option Word} {rest : List (Nat × Reg × Option Word)}
    (hb : (s.clu k).busyBank b = false) (hq : (s.clu k).waiters b = q :: rest) :
    s.serveBank k b = State.serveFifo k b (rest.length + 1) s := by
  unfold State.serveBank
  rw [if_neg (by simp [hb]), hq]
  rfl

theorem fifoPush_of_no_waiters {s : State} {k b : Nat} {v : Word} (h : (s.clu k).canPush b = true) (hq : (s.clu k).waiters b = []) :
    exec (.fifoPush k b v) s = .next (s.modClu k (fun u => { u with fifo := SMap.put u.fifo b (u.words b ++ [v]) })) := by
  rw [exec_fifoPush, if_pos h, State.pushWord_eq, State.serveBank_of_no_waiters (by simp [hq])]
  rfl

theorem fifoPop_of_no_waiters {s : State} {k b : Nat} (h : (s.clu k).canPop b = true) (hq : (s.clu k).waiters b = []) :
    exec (.fifoPop k b) s = .next (s.modClu k (fun u => { u with fifo := SMap.put u.fifo b ((u.words b).drop 1) })) := by
  rw [exec_fifoPop, if_pos h, State.popWord_eq, State.serveBank_of_no_waiters (by simp [hq])]
  rfl

/-- The word that arrives at an empty bank goes to the load that has waited longest; the loads behind it go on waiting. -/
theorem fifoPush_to_load {s : State} {k b c : Nat} {d : Reg} {v : Word} {rest : List (Nat × Reg × Option Word)}
    (h : (s.clu k).canPush b = true) (hq : (s.clu k).waiters b = (c, d, none) :: rest) (hw : (s.clu k).words b = [])
    (hv : (s.ctx c).vpart = none) :
    exec (.fifoPush k b v) s =
      .next (((s.setWords k b [v]).setFifo k b [] rest).giveReply c { writes := [(d, v)] }) := by
  obtain ⟨-, hbusy, -, hloads⟩ := (s.clu k).canPush_iff b |>.mp h
  have hrest : ∀ q ∈ rest, q.2.2 = none := fun q hm => hloads q (hq ▸ List.mem_cons_of_mem _ hm)
  obtain ⟨hwords, hwaiters, hbusy'⟩ := State.setWords_clu s k b [v]
  rw [exec_fifoPush, if_pos h, State.pushWord_eq, hw, List.nil_append,
    State.serveBank_of_waiters (hbusy'.trans hbusy) (hwaiters.trans hq), State.serveFifo_load (hwaiters.trans hq) hwords hv]
  rw [State.serveFifo_of_empty]
  · exact (State.setFifo_clu _ k b [] rest).1
  · intro q hm
    exact hrest q ((State.setFifo_clu (s.setWords k b [v]) k b [] rest).2 ▸ hm)

/-- The room that a load makes in a full bank goes to the store that has waited longest; the stores behind it go on waiting. -/
theorem fifoPop_to_store {s : State} {k b c : Nat} {d : Reg} {w : Word} {rest : List (Nat × Reg × Option Word)}
    (h : (s.clu k).canPop b = true) (hq : (s.clu k).waiters b = (c, d, some w) :: rest) (hw : ((s.clu k).words b).length = 8192)
    (hv : (s.ctx c).vpart = none) :
    exec (.fifoPop k b) s = .next (((s.setWords k b (((s.clu k).words b).drop 1)).setFifo k b
      (((s.clu k).words b).drop 1 ++ [w]) rest).giveReply c {}) := by
  obtain ⟨-, hbusy, -, hstores⟩ := (s.clu k).canPop_iff b |>.mp h
  have hrest : ∀ q ∈ rest, q.2.2.isSome = true := fun q hm => hstores q (hq ▸ List.mem_cons_of_mem _ hm)
  obtain ⟨hwords, hwaiters, hbusy'⟩ := State.setWords_clu s k b (((s.clu k).words b).drop 1)
  rw [exec_fifoPop, if_pos h, State.popWord_eq, State.serveBank_of_waiters (hbusy'.trans hbusy) (hwaiters.trans hq),
    State.serveFifo_store (hwaiters.trans hq) (by simp [hw]) hv, hwords]
  rw [State.serveFifo_of_full]
  · exact (congrArg List.length (State.setFifo_clu _ k b _ rest).1).trans (by simp [hw])
  · intro q hm
    exact hrest q ((State.setFifo_clu (s.setWords k b (((s.clu k).words b).drop 1)) k b _ rest).2 ▸ hm)

/-- What is left when the port's oldest waiter has its reply. -/
theorem served_effect (s : State) (k b c : Nat) (ws ws' : List Word) (qs : List (Nat × Reg × Option Word)) (r : Reply) :
    let t := ((s.setWords k b ws).setFifo k b ws' qs).giveReply c r
    (t.clu k).words b = ws' ∧ (t.clu k).waiters b = qs ∧ (t.ctx c).wait = (s.ctx c).wait.map (fun y => { y with reply := some r }) ∧
      t.mem = s.mem := by
  obtain ⟨hwords, hwaiters⟩ := State.setFifo_clu (s.setWords k b ws) k b ws' qs
  exact ⟨hwords, hwaiters, by rw [State.giveReply_ctx, if_pos rfl]; rfl, rfl⟩

/-- Settles O47, by what each of the four instructions does to the cluster's record: the store through the saving of held banks, which
changes no mode, the end of a change by its two ways, and the ends of a FIFO bank with and without one who waits. -/
theorem banksAndFifos : Obligations.BanksAndFifos := by
  intro s k b v hb u locs
  refine ⟨fun h3 => ?_, fun h3 => bankmodeWrite_effect h3 hb, exec_bankModeChangeDone_of_settled, fun hbusy => ⟨?_, ?_⟩, fun h => ?_,
    fun h => ⟨fifoPush_of_no_waiters h, fun c d rest hq hw hv => ?_⟩, fun h => ?_,
    fun h => ⟨fifoPop_of_no_waiters h, fun c d w rest hq hw hv => ?_⟩, u.canPush_iff b⟩
  · rw [exec_bankmodeWrite, State.bankStore_of_reserved h3]
    rfl
  · exact bankModeChange_back hb hbusy
  · intro wk hne h0 hw hr
    obtain ⟨t, ht, hsettled, hmode, hwords, ⟨hin, hout⟩, hwait⟩ := bankModeChange_moved hb hbusy wk hne h0 hw hr
    exact ⟨t, ht, hsettled, hmode, hwords, hin, hout, fun _ => hwait⟩
  · rw [exec_fifoPush, if_neg (Bool.eq_false_iff.mp h)]
  · exact ⟨_, fifoPush_to_load h hq hw hv, served_effect s k b c [v] [] rest _⟩
  · rw [exec_fifoPop, if_neg (Bool.eq_false_iff.mp h)]
  · exact ⟨_, fifoPop_to_store h hq hw hv, served_effect s k b c _ _ rest _⟩

end Sys2Proof.Machine
end

section
/-! Channels of physical addresses: where a line stands in its channel, and why hash, channel and offset say the address again. -/

namespace Sys2Proof.Machine

theorem channelOffset_eq {w a : Nat} (hw : w ≤ 30) (ha : a < 2 ^ 39) : channelOffset w a = a / 2 ^ (9 + w) * 128 + a % 128 := by
  have hlt : a / 2 ^ (9 + w) < 2 ^ (30 - w) := by
    rw [Nat.div_lt_iff_lt_mul (by positivity), ← pow_add, show 30 - w + (9 + w) = 39 by omega]
    exact ha
  rw [channelOffset, Nat.mod_eq_of_lt hlt]
  rfl

theorem lt_dramLimit_iff {p : Part} {a : Nat} (hw : p.width ≤ 30) (ha : a < 2 ^ 39) :
    a < dramLimit p ↔ channelOffset p.width a < 192 * 2 ^ 20 := by
  have hlimit : dramLimit p = 3 * 2 ^ 19 * 2 ^ (9 + p.width) := by
    rw [dramLimit]
    ring
  rw [hlimit, ← Nat.div_lt_iff_lt_mul (by positivity), channelOffset_eq hw ha]
  omega

/-- A word of the hash: field `i` of the address above its 512-byte lines. -/
def hashField (w pa i : Nat) : Nat := pa / 2 ^ 9 % 2 ^ 30 / 2 ^ (w * i) % 2 ^ w

theorem foldl_xor_init (f : Nat → Nat) (l : List Nat) (x : Nat) :
    l.foldl (fun h i => h ^^^ f i) x = x ^^^ l.foldl (fun h i => h ^^^ f i) 0 := by
  induction l generalizing x with
  | nil => simp
  | cons i r ih => rw [List.foldl_cons, List.foldl_cons, ih, ih (0 ^^^ f i), Nat.zero_xor, Nat.xor_assoc]

/-- The hash is its lowest field and the fields above it. -/
theorem sliceHash_eq {w : Nat} (hw : 0 < w) (pa : Nat) : sliceHash w pa =
    hashField w pa 0 ^^^ (List.range ((29 + w) / w - 1)).foldl (fun h i => h ^^^ hashField w pa (i + 1)) 0 := by
  have hn : (30 + w - 1) / (if w = 0 then 1 else w) = (29 + w) / w - 1 + 1 := by
    rw [if_neg hw.ne', show 30 + w - 1 = 29 + w by omega]
    have : 0 < (29 + w) / w := Nat.div_pos (by omega) hw
    omega
  rw [sliceHash, hn, List.range_succ_eq_map, List.foldl_cons, List.foldl_map]
  exact (foldl_xor_init (fun i => hashField w pa (i + 1)) _ _).trans (by rw [Nat.zero_xor]; rfl)

theorem hashField_zero {w a : Nat} (ha : a < 2 ^ 39) : hashField w a 0 = a / 2 ^ 9 % 2 ^ w := by
  have hlt : a / 2 ^ 9 < 2 ^ 30 := by omega
  rw [hashField, Nat.mod_eq_of_lt hlt, Nat.mul_zero, pow_zero, Nat.div_one]

theorem hashField_succ {w a : Nat} (ha : a < 2 ^ 39) (i : Nat) : hashField w a (i + 1) = a / 2 ^ (9 + w) / 2 ^ (w * i) % 2 ^ w := by
  have hlt : a / 2 ^ 9 < 2 ^ 30 := by omega
  have hexp : 9 + w * (i + 1) = 9 + w + w * i := by ring
  rw [hashField, Nat.mod_eq_of_lt hlt, Nat.div_div_eq_div_mul, Nat.div_div_eq_div_mul, ← pow_add, ← pow_add, hexp]

/-- Addresses that agree above the lowest field of the hash, and in the hash, agree in that field. -/
theorem lowest_field_of_sliceHash {w a b : Nat} (hw : 0 < w) (ha : a < 2 ^ 39) (hb : b < 2 ^ 39)
    (hhi : a / 2 ^ (9 + w) = b / 2 ^ (9 + w)) (hh : sliceHash w a = sliceHash w b) : a / 2 ^ 9 % 2 ^ w = b / 2 ^ 9 % 2 ^ w := by
  simp only [sliceHash_eq hw, hashField_succ ha, hashField_succ hb, hhi, hashField_zero ha, hashField_zero hb] at hh
  exact Nat.xor_left_injective hh

theorem address_of_hash_channel_offset {w a b : Nat} (hw : 0 < w) (hw' : w ≤ 30) (ha : a < 2 ^ 39) (hb : b < 2 ^ 39)
    (hh : sliceHash w a = sliceHash w b) (hc : channelOf a = channelOf b) (ho : channelOffset w a = channelOffset w b) : a = b := by
  rw [channelOffset_eq hw' ha, channelOffset_eq hw' hb] at ho
  have hhi : a / 2 ^ (9 + w) = b / 2 ^ (9 + w) := by omega
  have hlow := lowest_field_of_sliceHash hw ha hb hhi hh
  rw [pow_add, ← Nat.div_div_eq_div_mul, ← Nat.div_div_eq_div_mul] at hhi
  have hline : a / 2 ^ 9 = b / 2 ^ 9 := by rw [← Nat.div_add_mod (a / 2 ^ 9) (2 ^ w), hhi, hlow, Nat.div_add_mod]
  have hchan : a / 2 ^ 7 % 4 = b / 2 ^ 7 % 4 := by
    unfold channelOf at hc
    have hset (x : Nat) : x / 2 ^ 11 = x / 2 ^ 9 / 2 ^ 2 := by rw [Nat.div_div_eq_div_mul, ← pow_add]
    rw [hset a, hset b, hline] at hc
    exact Nat.xor_left_injective hc
  omega

theorem channelOffsets : Claim.ChannelOffsets := by
  intro p w a b hw hw' ha hb
  refine ⟨?_, fun h => h ▸ lt_dramLimit_iff (by omega) ha, address_of_hash_channel_offset (by omega) (by omega) ha hb⟩
  rw [channelOffset_eq (by omega) ha, Nat.shiftRight_eq_div_pow, Nat.shiftLeft_eq]

end Sys2Proof.Machine
end

section
/-! Pointers that name an entry of the handle table: the fields of the entry's word, and what each check decides. -/

namespace Sys2Proof.Machine

theorem HEntry.ofNat_valid (raw : BitVec 256) : (HEntry.ofNat raw.toNat).valid = raw.getLsbD 176 :=
  (Nat.testBit_eq_decide_div_mod_eq).symm

theorem HEntry.ofNat_priv (raw : BitVec 256) : (HEntry.ofNat raw.toNat).priv = raw.getLsbD 177 :=
  (Nat.testBit_eq_decide_div_mod_eq).symm

theorem BitVec.toNat_extractLsb'_eq {n : Nat} (x : BitVec n) (lo len : Nat) :
    (x.extractLsb' lo len).toNat = x.toNat / 2 ^ lo % 2 ^ len := by
  rw [BitVec.extractLsb'_toNat, Nat.shiftRight_eq_div_pow]

theorem HEntry.ofNat_perm (raw : BitVec 256) : (HEntry.ofNat raw.toNat).perm = (raw.extractLsb' 168 8).toNat :=
  (BitVec.toNat_extractLsb'_eq raw 168 8).symm

theorem HEntry.ofNat_len (raw : BitVec 256) : (HEntry.ofNat raw.toNat).len = (raw.extractLsb' 64 52).toNat :=
  (BitVec.toNat_extractLsb'_eq raw 64 52).symm

theorem handle_eq (ptr : Word) : (ptr.extractLsb' 52 12).toNat = ptr.toNat / 2 ^ 52 := by
  have := ptr.isLt
  rw [BitVec.toNat_extractLsb'_eq]
  omega

theorem State.resolve_of_reserved {s : State} {w : Who} {ptr : Word} {size need : Nat}
    (h : ptr.toNat / 2 ^ 52 = 0 ∨ (4 ≤ ptr.toNat / 2 ^ 52 ∧ ptr.toNat / 2 ^ 52 < 16)) :
    s.resolve w ptr size need = .error { code := Cause.handleInvalid, addr := ptr } :=
  if_pos (h.imp_right fun ⟨hlo, hhi⟩ => ⟨hlo, Nat.le_of_lt_succ hhi⟩)

/-- The checks of an entry of the handle table, in order. -/
def HEntry.check (e : HEntry) (sup : Bool) (ptr : Word) (size need : Nat) : Except Exc Obj :=
  if !e.valid then .error { code := Cause.handleInvalid, addr := ptr }
  else if e.priv && !sup then .error { code := Cause.handlePerm, addr := ptr }
  else if !covers e.perm need then .error { code := Cause.handlePerm, addr := ptr }
  else if e.len < ptr.toNat % 2 ^ 52 + size then .error { code := Cause.handleBounds, addr := ptr }
  else .ok (.table e (ptr.toNat % 2 ^ 52))

/-- The checks of an entry as it has been read; one that cannot be read counts as not valid. -/
def HEntry.checkRead (sup : Bool) (ptr : Word) (size need : Nat) : Except Cause (BitVec 256) → Except Exc Obj
  | .error k => .error { code := Cause.handleInvalid, addr := ptr, info := k.setWidth 64 }
  | .ok raw => (HEntry.ofNat raw.toNat).check sup ptr size need

section
variable {e : HEntry} {sup : Bool} {ptr : Word} {size need : Nat}

theorem HEntry.check_of_invalid (h : e.valid = false) :
    e.check sup ptr size need = .error { code := Cause.handleInvalid, addr := ptr } := by
  simp [HEntry.check, h]

theorem HEntry.check_of_priv (h : e.valid = true) (hp : e.priv = true) (hs : sup = false) :
    e.check sup ptr size need = .error { code := Cause.handlePerm, addr := ptr } := by
  simp [HEntry.check, h, hp, hs]

/-- Past validity and privilege, the rights decide and then the bounds. -/
theorem HEntry.check_of_open (h : e.valid = true) (hp : e.priv = false ∨ sup = true) : e.check sup ptr size need =
    if e.perm &&& need ≠ need then .error { code := Cause.handlePerm, addr := ptr }
    else if e.len < ptr.toNat % 2 ^ 52 + size then .error { code := Cause.handleBounds, addr := ptr }
    else .ok (.table e (ptr.toNat % 2 ^ 52)) := by
  have hpriv : (e.priv && !sup) = false := by rcases hp with hp | hp <;> simp [hp]
  simp [HEntry.check, h, hpriv, covers]

end

section
variable {s : State} {w : Who} {ptr : Word} {size need : Nat} (h16 : 16 ≤ ptr.toNat / 2 ^ 52)
include h16

theorem State.resolve_of_table : s.resolve w ptr size need =
    if (s.part w.part).htlen.toNat ≤ ptr.toNat / 2 ^ 52 then .error { code := Cause.handleInvalid, addr := ptr }
    else HEntry.checkRead w.sup ptr size need (s.handleRaw w.clu w.part (ptr.toNat / 2 ^ 52)) := by
  unfold State.resolve
  extract_lets h off bad
  rw [if_neg (show ¬ (h = 0 ∨ (4 ≤ h ∧ h ≤ 15)) by omega), if_neg (show ¬ h = 1 by omega), if_neg (show ¬ h = 2 by omega),
    if_neg (show ¬ h = 3 by omega)]
  rfl

theorem State.resolve_of_beyond (h : (s.part w.part).htlen.toNat ≤ ptr.toNat / 2 ^ 52) :
    s.resolve w ptr size need = .error { code := Cause.handleInvalid, addr := ptr } := by
  rw [State.resolve_of_table h16, if_pos h]

theorem State.resolve_of_unread (h : ptr.toNat / 2 ^ 52 < (s.part w.part).htlen.toNat) {k : Cause}
    (hk : s.handleRaw w.clu w.part (ptr.toNat / 2 ^ 52) = .error k) :
    s.resolve w ptr size need = .error { code := Cause.handleInvalid, addr := ptr, info := k.setWidth 64 } := by
  rw [State.resolve_of_table h16, if_neg (by omega), hk]
  rfl

theorem State.resolve_of_entry (h : ptr.toNat / 2 ^ 52 < (s.part w.part).htlen.toNat) {raw : BitVec 256}
    (hraw : s.handleRaw w.clu w.part (ptr.toNat / 2 ^ 52) = .ok raw) :
    s.resolve w ptr size need = (HEntry.ofNat raw.toNat).check w.sup ptr size need := by
  rw [State.resolve_of_table h16, if_neg (by omega), hraw]
  rfl

end

theorem pointerChecks : Claim.PointerChecks := by
  intro s w ptr size need h off stops
  have hh : h = ptr.toNat / 2 ^ 52 := handle_eq ptr
  have hoff : off = ptr.toNat % 2 ^ 52 := by rw [← Nat.div_one ptr.toNat]; exact BitVec.toNat_extractLsb'_eq ptr 0 52
  rw [hh, hoff]
  refine ⟨State.resolve_of_reserved, State.resolve_of_beyond, fun h16 hin raw hraw => ?_,
    fun h16 hin k hk => State.resolve_of_unread h16 hin hk⟩
  simp only [stops, State.resolve_of_entry h16 hin hraw, ← HEntry.ofNat_valid, ← HEntry.ofNat_priv, ← HEntry.ofNat_perm,
    ← HEntry.ofNat_len]
  refine ⟨HEntry.check_of_invalid, HEntry.check_of_priv, fun hv hp => ⟨fun hn => ?_, fun hn => ⟨fun hb => ?_, fun hb => ?_⟩⟩⟩
  · rw [HEntry.check_of_open hv hp, if_pos hn]
  · rw [HEntry.check_of_open hv hp, if_neg (not_not_intro hn), if_pos hb]
  · rw [HEntry.check_of_open hv hp, if_neg (not_not_intro hn), if_neg (Nat.not_lt.mpr hb)]

end Sys2Proof.Machine
end

section
/-! A walk of five levels: one step per valid entry, and the rights of the leaf. -/

namespace Sys2Proof.Machine

/-- No place holds poison or an error. -/
def State.Sound (s : State) : Prop := s.poison = [] ∧ s.ecc = []

theorem State.errAt_of_sound {s : State} (h : s.Sound) (ls : List Nat) : s.errAt ls = none := by
  obtain ⟨hp, he⟩ := h
  simp [State.errAt, hp, he]

/-- The entry that a walk reads in the table at `t`. -/
def State.entryAt (s : State) (p t i : Nat) : Nat := s.peekN (dramBase p + (t + 8 * i)) 8

section
variable {s : State} {p va fuel lv t : Nat}

theorem State.walkFrom_of_beyond (h : dramLimit (s.part p) ≤ t + 8 * ptIndex lv va) :
    s.walkFrom p va (fuel + 1) lv t = .error Cause.walkError := if_pos h

/-- An entry that names a table takes the walk to it. -/
theorem State.walkFrom_of_table {n : Nat} (hs : s.Sound) (hin : t + 8 * ptIndex lv va < dramLimit (s.part p)) (hlv : lv < 4)
    (he : s.entryAt p t (ptIndex lv va) = n + 1) (hn : n % 4096 = 0) (hn' : n < 2 ^ 52) :
    s.walkFrom p va (fuel + 1) lv t = s.walkFrom p va fuel (lv + 1) n := by
  have htable : (n + 1) / 2 ^ 8 * 2 ^ 8 = n := by omega
  have halign : n % (if lv = 3 then 256 else 4096) = 0 := by split <;> omega
  unfold State.entryAt at he
  rw [State.walkFrom, State.errAt_of_sound hs, he]
  simp only [htable]
  rw [if_neg (by omega), if_neg (by simp), if_neg (by omega), if_neg (by omega), if_neg (by omega), if_neg (by omega),
    if_neg (not_not_intro halign)]

/-- A leaf of 64 KiB ends the walk. -/
theorem State.walkFrom_of_leaf {leaf : Nat} (hs : s.Sound) (hin : t + 8 * ptIndex 4 va < dramLimit (s.part p))
    (he : s.entryAt p t (ptIndex 4 va) = leaf) (h4 : leaf % 4 = 3) (h2 : leaf / 4 % 2 = 0) (h7 : leaf / 2 ^ 7 % 2 = 0)
    (h8 : leaf / 2 ^ 8 % 2 ^ 8 = 0) (hlt : leaf < 2 ^ 52) : s.walkFrom p va (fuel + 1) 4 t = .ok (BitVec.ofNat 64 leaf, 16) := by
  have halign : leaf / 2 ^ 8 * 2 ^ 8 % 2 ^ ptShift 4 = 0 := by
    change leaf / 2 ^ 8 * 2 ^ 8 % 2 ^ 16 = 0
    omega
  unfold State.entryAt at he
  rw [State.walkFrom, State.errAt_of_sound hs, he]
  rw [if_neg (by omega), if_neg (by simp), if_neg (by omega), if_neg (by omega), if_pos (by omega), if_neg (by omega)]
  rfl

end

theorem State.leafOf_of_no_copies {s : State} {u : Nat} (ht : s.tlbOf u = []) (hw : s.walks = []) (p va : Nat) :
    s.leafOf u p va = s.walkFrom p va 5 0 (s.part p).ptroot.toNat := by
  unfold State.leafOf State.walkFor State.walkStart
  rw [ht, hw]
  rfl

/-- The checks of a leaf of 64 KiB, in order. -/
theorem State.xlate_of_leaf {s : State} {clu p need va leaf : Nat} {host sup : Bool}
    (h : s.leafOf clu p va = .ok (BitVec.ofNat 64 leaf, 16)) (h8 : leaf / 2 ^ 8 % 2 ^ 8 = 0) (hlt : leaf < 2 ^ 52) :
    s.xlate clu p host sup need va =
      if host = false ∧ dramLimit (s.part p) ≤ leaf / 2 ^ 16 * 2 ^ 16 + va % 2 ^ 16 then .error Cause.walkError
      else if ¬ (covers (leaf / 8 % 8) (pageNeed need) = true ∧ (sup = true ∨ leaf / 2 ^ 6 % 2 = 1)) then .error Cause.pagePerm
      else .ok (if host then hostBase + (leaf / 2 ^ 16 * 2 ^ 16 + va % 2 ^ 16)
        else dramBase p + (leaf / 2 ^ 16 * 2 ^ 16 + va % 2 ^ 16)) := by
  have hleaf : (BitVec.ofNat 64 leaf).toNat = leaf := by
    rw [BitVec.toNat_ofNat]
    omega
  have hpage : leaf % 2 ^ 52 / 2 ^ 8 * 2 ^ 8 = leaf / 2 ^ 16 * 2 ^ 16 := by omega
  unfold State.xlate
  rw [h]
  simp only [hleaf, hpage]
  congr 1
  · cases host <;> simp
  · have huser : decide (leaf / 2 ^ 6 % 2 = 0) = !decide (leaf / 2 ^ 6 % 2 = 1) := by
      rcases Nat.mod_two_eq_zero_or_one (leaf / 2 ^ 6) with hu | hu <;> simp only [hu] <;> rfl
    rw [huser]
    congr 1
    cases covers (leaf / 8 % 8) (pageNeed need) <;> cases sup <;> simp

theorem State.xlate_of_error {s : State} {clu p need va : Nat} {host sup : Bool} {c : Cause} (h : s.leafOf clu p va = .error c) :
    s.xlate clu p host sup need va = .error c := by
  unfold State.xlate
  rw [h]

@[simp] theorem ptIndex_zero (va : Nat) : ptIndex 0 va = va / 2 ^ 48 % 512 := by simp [ptIndex]
@[simp] theorem ptIndex_one (va : Nat) : ptIndex 1 va = va / 2 ^ 39 % 512 := by simp [ptIndex]
@[simp] theorem ptIndex_two (va : Nat) : ptIndex 2 va = va / 2 ^ 30 % 512 := by simp [ptIndex]
@[simp] theorem ptIndex_three (va : Nat) : ptIndex 3 va = va / 2 ^ 21 % 512 := by simp [ptIndex]
@[simp] theorem ptIndex_four (va : Nat) : ptIndex 4 va = va / 2 ^ 16 % 32 := by simp [ptIndex]

theorem ptIndex_lt {lv : Nat} (va : Nat) : ptIndex lv va < 512 := by
  unfold ptIndex
  split
  · exact (Nat.mod_lt _ (by decide)).trans (by decide)
  · exact Nat.mod_lt _ (by decide)

theorem fiveLevelWalk : Claim.FiveLevelWalk := by
  intro s clu p need va host sup t0 t1 t2 t3 t4 leaf at_ isTable htlb hwalks hpoison hecc hroot
  have hs : s.Sound := ⟨hpoison, hecc⟩
  have hleafOf : s.leafOf clu p va = s.walkFrom p va 5 0 t0 := by rw [State.leafOf_of_no_copies htlb hwalks, hroot]
  refine ⟨fun hbeyond => ?_, fun hin e0 e1 e2 e3 e4 h4 h2 h7 h8 hlt => ?_⟩
  · exact State.xlate_of_error (hleafOf.trans (State.walkFrom_of_beyond (by rw [ptIndex_zero]; exact hbeyond)))
  · have step {fuel lv t n : Nat} (ht : t ∈ [t0, t1, t2, t3, t4]) (hlv : lv < 4)
        (he : isTable (s.entryAt p t (ptIndex lv va)) n) : s.walkFrom p va (fuel + 1) lv t = s.walkFrom p va fuel (lv + 1) n := by
      obtain ⟨he, hn, hn'⟩ := he
      have htable := hin t ht
      have hindex : ptIndex lv va < 512 := ptIndex_lt va
      exact State.walkFrom_of_table hs (by omega) hlv he hn hn'
    have hwalk : s.walkFrom p va 5 0 t0 = .ok (BitVec.ofNat 64 leaf, 16) := calc
      s.walkFrom p va 5 0 t0 = s.walkFrom p va 4 1 t1 := step (by simp) (by decide) (by rw [ptIndex_zero]; exact e0)
      _ = s.walkFrom p va 3 2 t2 := step (by simp) (by decide) (by rw [ptIndex_one]; exact e1)
      _ = s.walkFrom p va 2 3 t3 := step (by simp) (by decide) (by rw [ptIndex_two]; exact e2)
      _ = s.walkFrom p va 1 4 t4 := step (by simp) (by decide) (by rw [ptIndex_three]; exact e3)
      _ = .ok (BitVec.ofNat 64 leaf, 16) := by
        have hindex : ptIndex 4 va < 512 := ptIndex_lt va
        have htable := hin t4 (by simp)
        exact State.walkFrom_of_leaf hs (by omega) (by rw [ptIndex_four]; exact e4) h4 h2 h7 h8 hlt
    rw [State.xlate_of_leaf (hleafOf.trans hwalk) h8 hlt]
    refine ⟨fun hdev hout => if_pos ⟨hdev, hout⟩, fun hin => ?_⟩
    have hinside : ¬ (host = false ∧ dramLimit (s.part p) ≤ leaf / 2 ^ 16 * 2 ^ 16 + va % 2 ^ 16) := by
      rintro ⟨hdev, hout⟩
      rcases hin with hhost | hlt
      · exact absurd (hdev.symm.trans hhost) (by decide)
      · exact Nat.not_lt.mpr hout hlt
    rw [if_neg hinside]
    exact ⟨fun hno => if_pos hno, fun hmay => if_neg (not_not_intro hmay)⟩

end Sys2Proof.Machine
end

section
/-! The obligation on pointers and translation, from its three parts. -/

namespace Sys2Proof.Machine

/-- Settles O19: the checks of an entry in their order, the walk's five steps and the leaf's rights, and the line that hash, channel and
offset give back. -/
theorem pointersAndTranslation : Obligations.PointersAndTranslation := ⟨pointerChecks, fiveLevelWalk, channelOffsets⟩

end Sys2Proof.Machine
end

section
/-! How a packed word shows its fields again (05 R70 to R78): a layout says where the fields of a word stand, and whether they overlap
is a closed computation. -/

namespace Sys2Proof

/-! ## One field put on top of a word -/

theorem fld_add_high {lo k n : Nat} (v w : Nat) (h : k + n ≤ lo) : fld (v * 2 ^ lo + w) k n = fld w k n := by
  obtain ⟨d, rfl⟩ := Nat.exists_eq_add_of_le h
  have : v * 2 ^ (k + n + d) = 2 ^ k * (2 ^ n * (v * 2 ^ d)) := by rw [Nat.pow_add, Nat.pow_add]; ring
  unfold fld
  rw [this, Nat.mul_add_div (by positivity), Nat.mul_add_mod]

/-- A word whose `n` bits from bit `lo` up are zero, cut there. -/
theorem eq_of_fld_zero {w lo n : Nat} (h : fld w lo n = 0) : w = 2 ^ (lo + n) * (w / 2 ^ (lo + n)) + w % 2 ^ lo := by
  unfold fld at h
  have hlow := Nat.div_add_mod w (2 ^ lo)
  have hhigh := Nat.div_add_mod (w / 2 ^ lo) (2 ^ n)
  rw [h, Nat.div_div_eq_div_mul, ← Nat.pow_add, Nat.add_zero] at hhigh
  conv_lhs => rw [← hlow, ← hhigh]
  rw [Nat.pow_add, Nat.mul_assoc]

theorem fld_add_low {v w lo m k n : Nat} (hv : v < 2 ^ m) (hw : fld w lo m = 0) (h : lo + m ≤ k) :
    fld (v * 2 ^ lo + w) k n = fld w k n := by
  have hlt : v * 2 ^ lo + w % 2 ^ lo < 2 ^ (lo + m) := calc
    v * 2 ^ lo + w % 2 ^ lo < v * 2 ^ lo + 2 ^ lo := by gcongr; exact Nat.mod_lt _ (by positivity)
    _ = (v + 1) * 2 ^ lo := by ring
    _ ≤ 2 ^ m * 2 ^ lo := by gcongr; exact hv
    _ = 2 ^ (lo + m) := by ring
  have hdiv : (v * 2 ^ lo + w) / 2 ^ (lo + m) = w / 2 ^ (lo + m) := by
    conv_lhs => rw [eq_of_fld_zero hw]
    rw [Nat.add_left_comm, Nat.mul_add_div (by positivity), Nat.div_eq_of_lt hlt, Nat.add_zero]
  obtain ⟨d, rfl⟩ := Nat.exists_eq_add_of_le h
  unfold fld
  rw [Nat.pow_add _ (lo + m), ← Nat.div_div_eq_div_mul, ← Nat.div_div_eq_div_mul, hdiv]

theorem fld_add_same {v w lo n : Nat} (hv : v < 2 ^ n) (hw : fld w lo n = 0) : fld (v * 2 ^ lo + w) lo n = v := by
  unfold fld at hw ⊢
  rw [Nat.mul_comm, Nat.mul_add_div (by positivity), Nat.add_mod, hw, Nat.add_zero, Nat.mod_mod, Nat.mod_eq_of_lt hv]

/-! ## Layouts -/

/-- Where the fields of a word stand: the lowest bit and the width of each. -/
abbrev Layout := List (Nat × Nat)

/-- A value for each field of a layout. -/
def Operands : Layout → Type
  | [] => Unit
  | (_, n) :: L => BitVec n × Operands L

/-- The fields as `pack` takes them. -/
def placed : (L : Layout) → Operands L → List (Nat × Nat)
  | [], _ => []
  | (lo, _) :: L, (v, vs) => (v.toNat, lo) :: placed L vs

/-- The window of `n` bits from bit `k` up meets no field of the layout. -/
def Layout.free (L : Layout) (k n : Nat) : Bool := L.all fun f => Nat.ble (f.1 + f.2) k || Nat.ble (k + n) f.1

/-- The fields of the layout overlap neither each other nor a bit that is set in the constant part. -/
def Layout.fits (base : Nat) : Layout → Bool
  | [] => true
  | (lo, n) :: L => Nat.beq (base / 2 ^ lo % 2 ^ n) 0 && Layout.free L lo n && Layout.fits base L

/-- The word holds the values of the layout's fields. -/
def HoldsOperands (w : Nat) : (L : Layout) → Operands L → Prop
  | [], _ => True
  | (lo, n) :: L, (v, vs) => fld w lo n = v.toNat ∧ HoldsOperands w L vs

/-- Every window beside the layout's fields shows the constant part of the word. -/
def ShowsBase (w base : Nat) (L : Layout) : Prop := ∀ k n, L.free k n = true → fld w k n = base / 2 ^ k % 2 ^ n

theorem Layout.free_cons {lo m k n : Nat} {L : Layout} :
    Layout.free ((lo, m) :: L) k n = true ↔ (lo + m ≤ k ∨ k + n ≤ lo) ∧ L.free k n = true := by
  simp [Layout.free]

theorem Layout.fits_cons {base lo n : Nat} {L : Layout} :
    Layout.fits base ((lo, n) :: L) = true ↔ fld base lo n = 0 ∧ L.free lo n = true ∧ L.fits base = true := by
  simp [Layout.fits, and_assoc, fld]

/-- A field that has been added changes no window beside it. -/
theorem fld_add_beside {n : Nat} {v : BitVec n} {w lo k m : Nat} (hw : fld w lo n = 0) (h : lo + n ≤ k ∨ k + m ≤ lo) :
    fld (v.toNat * 2 ^ lo + w) k m = fld w k m :=
  h.elim (fld_add_low v.isLt hw) (fld_add_high _ _)

theorem showsBase_pack {base : Nat} {L : Layout} (hfit : L.fits base = true) (vs : Operands L) :
    ShowsBase (pack base (placed L vs)) base L := by
  induction L with
  | nil => exact fun _ _ _ => rfl
  | cons f L ih =>
    obtain ⟨hbase, hfree, hL⟩ := Layout.fits_cons.mp hfit
    intro k n hk
    obtain ⟨hbeside, hrest⟩ := Layout.free_cons.mp hk
    exact (fld_add_beside ((ih hL vs.2 _ _ hfree).trans hbase) hbeside).trans (ih hL vs.2 k n hrest)

/-- Adding a field beside the layout leaves what the word holds. -/
theorem HoldsOperands.add {m : Nat} {v : BitVec m} {w lo : Nat} {L : Layout} {vs : Operands L} (h : HoldsOperands w L vs)
    (hw : fld w lo m = 0) (hfree : L.free lo m = true) : HoldsOperands (v.toNat * 2 ^ lo + w) L vs := by
  induction L with
  | nil => trivial
  | cons f L ih =>
    obtain ⟨hf, hL⟩ := h
    obtain ⟨hbeside, hrest⟩ := Layout.free_cons.mp hfree
    exact ⟨(fld_add_beside hw hbeside.symm).trans hf, ih hL hrest⟩

theorem holdsOperands_pack {base : Nat} {L : Layout} (hfit : L.fits base = true) (vs : Operands L) :
    HoldsOperands (pack base (placed L vs)) L vs := by
  induction L with
  | nil => trivial
  | cons f L ih =>
    obtain ⟨hbase, hfree, hL⟩ := Layout.fits_cons.mp hfit
    have hclear := (showsBase_pack hL vs.2 _ _ hfree).trans hbase
    exact ⟨fld_add_same vs.1.isLt hclear, (ih hL vs.2).add hclear hfree⟩

theorem bits_of_fld {n w lo : Nat} {v : BitVec n} (h : fld w lo n = v.toNat) : bits n w lo = v := by
  unfold bits
  rw [h, BitVec.ofNat_toNat, BitVec.setWidth_eq]

end Sys2Proof
end

section
/-! From an instruction's words to the decoder of its major opcode (05 R68, R76, R78): a lemma for each way the words are laid out. -/

namespace Sys2Proof

/-- Decoding an instruction's words gives it back, whatever follows them. -/
def RoundTrip (i : Instr) : Prop := i.wf = true → ∀ r, decode (encode i ++ r) = .ok i

/-- The decoder of the major opcode `maj`. -/
def decMajor (maj : Nat) (x : Raw) : Except Reject Instr :=
  if maj ≤ 0x0B then decGroup0 maj x
  else if maj ≤ 0x16 then decGroup1 maj x
  else if maj ≤ 0x22 then decGroup2 maj x
  else if maj ≤ 0x2D then decGroup3 maj x
  else if maj ≤ 0x39 then decGroup4 maj x
  else if maj ≤ 0x44 then decGroup5 maj x
  else if maj ≤ 0x4F then decGroup6 maj x
  else if maj ≤ 0x5A then decGroup7 maj x
  else if maj ≤ 0x6B then decGroup8 maj x
  else if maj ≤ 0x79 then decGroup9 maj x
  else decGroup10 maj x

theorem decodeRaw_eq (x : Raw) : decodeRaw x = decMajor (fld x.w 2 7) x := rfl

theorem decode_of_raw {ws : List Nat} {x : Raw} {i : Instr} (hx : Raw.of ws = some x) (hdec : decodeRaw x = .ok i)
    (hwf : i.wf = true) : decode ws = .ok i := by
  simp [decode, hx, hdec, hwf]

theorem Raw.of_word {w : Nat} (h : w % 4 = 0) (r : List Nat) : Raw.of (w :: r) = some ⟨0, w, 0, 0, 0⟩ := by
  simp [Raw.of, h]

theorem Raw.of_lit {w : Nat} (h : w % 4 = 1) (l m : Nat) (r : List Nat) :
    Raw.of (w :: l :: m :: r) = some ⟨1, w, 0, 0, l + m * 2 ^ 32⟩ := by
  simp [Raw.of, h]

theorem Raw.of_ext {w : Nat} (h : w % 4 = 2) (a b : Nat) (r : List Nat) : Raw.of (w :: a :: b :: r) = some ⟨2, w, a, b, 0⟩ := by
  simp [Raw.of, h]

theorem Raw.of_extLit {w : Nat} (h : w % 4 = 3) (a b l m : Nat) (r : List Nat) :
    Raw.of (w :: a :: b :: l :: m :: r) = some ⟨3, w, a, b, l + m * 2 ^ 32⟩ := by
  simp [Raw.of, h]

theorem ofNat_halves (v : Word) : BitVec.ofNat 64 (v.toNat % 2 ^ 32 + v.toNat / 2 ^ 32 * 2 ^ 32) = v := by
  rw [Nat.mul_comm, Nat.mod_add_div, BitVec.ofNat_toNat, BitVec.setWidth_eq]

/-- The layout is one of a first word: it leaves LEN, which is `len`, and the major opcode alone. -/
def Layout.isFirst (base len : Nat) (L : Layout) : Bool :=
  L.fits base && L.free 0 1 && L.free 0 2 && L.free 2 7 && Nat.beq (base % 4) len

/-- What a first word shows: the operands in their fields, and the constant part elsewhere, but for the lowest bit of LEN, which
tells whether a literal follows. -/
structure FirstWord (base : Nat) (L : Layout) (vs : Operands L) (len w : Nat) : Prop where
  len : w % 4 = len
  holds : HoldsOperands w L vs
  shows : ShowsBase w base ((0, 1) :: L)

section
variable {base len : Nat} {L : Layout}

theorem Layout.isFirst_iff : L.isFirst base len = true ↔
    L.fits base = true ∧ L.free 0 1 = true ∧ L.free 0 2 = true ∧ L.free 2 7 = true ∧ base % 4 = len := by
  simp [Layout.isFirst, and_assoc]

/-- The major opcode of a first word is that of its constant part. -/
theorem FirstWord.decodeRaw {vs : Operands L} {x : Raw} {l : Nat} (hL : L.isFirst base len = true) (hx : FirstWord base L vs l x.w) :
    decodeRaw x = decMajor (base / 2 ^ 2 % 2 ^ 7) x := by
  obtain ⟨-, -, -, hmaj, -⟩ := Layout.isFirst_iff.mp hL
  rw [decodeRaw_eq, hx.shows 2 7 hmaj]

variable (hL : L.isFirst base len = true) (vs : Operands L)
include hL

theorem firstWord_pack : FirstWord base L vs len (pack base (placed L vs)) := by
  obtain ⟨hfits, -, hlen, -, hbase⟩ := Layout.isFirst_iff.mp hL
  refine ⟨?_, holdsOperands_pack hfits vs, fun k n hk => showsBase_pack hfits vs k n (Layout.free_cons.mp hk).2⟩
  simpa [fld, hbase] using showsBase_pack hfits vs 0 2 hlen

/-- LEN with a literal: one more. -/
theorem firstWord_pack_succ (heven : len % 2 = 0) : FirstWord base L vs (len + 1) (pack base (placed L vs) + 1) := by
  obtain ⟨hfits, hbit, -, -, -⟩ := Layout.isFirst_iff.mp hL
  obtain ⟨hlen, hholds, hshows⟩ := firstWord_pack hL vs
  have hclear : fld (pack base (placed L vs)) 0 1 = 0 := by simp [fld]; omega
  have hadd : pack base (placed L vs) + 1 = (1#1).toNat * 2 ^ 0 + pack base (placed L vs) := Nat.add_comm _ _
  refine ⟨by omega, hadd ▸ hholds.add hclear hbit, fun k n hk => ?_⟩
  rw [hadd, fld_add_beside hclear (Layout.free_cons.mp hk).1]
  exact hshows k n hk

end

section
variable (L : Layout) (vs : Operands L) {base : Nat} {i : Instr}

/-- An instruction of one word (05 R70, R75, R77). -/
theorem RoundTrip.word (henc : encode i = [pack base (placed L vs)]) (hL : L.isFirst base 0 = true)
    (hdec : i.wf = true → ∀ x : Raw, x.len = 0 → HoldsOperands x.w L vs → ShowsBase x.w base ((0, 1) :: L) →
      decMajor (base / 2 ^ 2 % 2 ^ 7) x = .ok i) : RoundTrip i := by
  intro hwf r
  have hw := firstWord_pack hL vs
  rw [henc]
  exact decode_of_raw (Raw.of_word hw.len r) ((FirstWord.decodeRaw hL hw).trans (hdec hwf _ rfl hw.holds hw.shows)) hwf

/-- An instruction of one word, or with a literal in place of the field at `lo` (05 R71 to R74, R78). -/
theorem RoundTrip.imm {n : Nat} (lo : Nat) (p : Imm n) (henc : encode i = encImm (pack base (placed L vs)) lo p)
    (hL : Layout.isFirst base 0 ((lo, n) :: L) = true)
    (hdec : i.wf = true → ∀ x : Raw, (x.len = 0 ∨ x.len = 1) → x.imm n x.w lo = p → ¬ (x.long = true ∧ ¬ fld x.w lo n = 0) →
      HoldsOperands x.w L vs → ShowsBase x.w base ((0, 1) :: (lo, n) :: L) → decMajor (base / 2 ^ 2 % 2 ^ 7) x = .ok i) :
    RoundTrip i := by
  intro hwf r
  obtain ⟨hfits, hbit, hlen, hmaj, hbase⟩ := Layout.isFirst_iff.mp hL
  rw [henc]
  cases p with
  | short v =>
    have hw := firstWord_pack hL (v, vs)
    have hword : pack base (placed L vs) + v.toNat * 2 ^ lo = pack base (placed ((lo, n) :: L) (v, vs)) := Nat.add_comm _ _
    rw [encImm, hword]
    refine decode_of_raw (Raw.of_word hw.len r) ((FirstWord.decodeRaw hL hw).trans
      (hdec hwf _ (.inl rfl) ?_ (by simp [Raw.long]) hw.holds.2 hw.shows)) hwf
    simp [Raw.imm, Raw.long, bits_of_fld hw.holds.1]
  | lit v =>
    obtain ⟨hfield, hfree, hL'⟩ := Layout.fits_cons.mp hfits
    have hL1 : L.isFirst base 0 = true := Layout.isFirst_iff.mpr
      ⟨hL', (Layout.free_cons.mp hbit).2, (Layout.free_cons.mp hlen).2, (Layout.free_cons.mp hmaj).2, hbase⟩
    have hw := firstWord_pack_succ hL1 vs rfl
    have hshows : ShowsBase (pack base (placed L vs) + 1) base ((0, 1) :: (lo, n) :: L) := fun k m hk => by
      obtain ⟨hbit, hk⟩ := Layout.free_cons.mp hk
      exact hw.shows k m (Layout.free_cons.mpr ⟨hbit, (Layout.free_cons.mp hk).2⟩)
    have hzero : fld (pack base (placed L vs) + 1) lo n = 0 :=
      (hw.shows lo n (Layout.free_cons.mpr ⟨(Layout.free_cons.mp hbit).1.symm, hfree⟩)).trans hfield
    refine decode_of_raw (Raw.of_lit hw.len _ _ r) ((FirstWord.decodeRaw hL1 hw).trans
      (hdec hwf _ (.inr rfl) ?_ (fun h => h.2 hzero) hw.holds hshows)) hwf
    simp only [Raw.imm, Raw.long, ofNat_halves, true_or, decide_true, if_true]

variable (L₁ : Layout) (vs₁ : Operands L₁)

/-- An instruction of three words (05 R76). -/
theorem RoundTrip.ext (L₂ : Layout) (vs₂ : Operands L₂)
    (henc : encode i = [pack base (placed L vs), pack 0 (placed L₁ vs₁), pack 0 (placed L₂ vs₂)])
    (hL : L.isFirst base 2 = true) (hL₁ : L₁.fits 0 = true) (hL₂ : L₂.fits 0 = true)
    (hdec : i.wf = true → ∀ x : Raw, x.len = 2 → HoldsOperands x.w L vs → ShowsBase x.w base ((0, 1) :: L) →
      HoldsOperands x.e1 L₁ vs₁ → ShowsBase x.e1 0 L₁ → HoldsOperands x.e2 L₂ vs₂ → ShowsBase x.e2 0 L₂ →
      decMajor (base / 2 ^ 2 % 2 ^ 7) x = .ok i) : RoundTrip i := by
  intro hwf r
  have hw := firstWord_pack hL vs
  rw [henc]
  exact decode_of_raw (Raw.of_ext hw.len _ _ r) ((FirstWord.decodeRaw hL hw).trans (hdec hwf _ rfl hw.holds hw.shows
    (holdsOperands_pack hL₁ vs₁) (showsBase_pack hL₁ vs₁) (holdsOperands_pack hL₂ vs₂) (showsBase_pack hL₂ vs₂))) hwf

/-- An instruction of three words whose last is its immediate, or of five with a literal in place of that (05 R76, R78). -/
theorem RoundTrip.extImm (p : Imm 32) (henc : encode i = encX (pack base (placed L vs)) (pack 0 (placed L₁ vs₁)) p)
    (hL : L.isFirst base 2 = true) (hL₁ : L₁.fits 0 = true)
    (hdec : i.wf = true → ∀ x : Raw, (x.len = 2 ∨ x.len = 3) → x.imm 32 x.e2 0 = p → ¬ (x.long = true ∧ ¬ fld x.e2 0 32 = 0) →
      HoldsOperands x.w L vs → ShowsBase x.w base ((0, 1) :: L) → HoldsOperands x.e1 L₁ vs₁ → ShowsBase x.e1 0 L₁ →
      decMajor (base / 2 ^ 2 % 2 ^ 7) x = .ok i) : RoundTrip i := by
  intro hwf r
  have hholds₁ := holdsOperands_pack hL₁ vs₁
  have hshows₁ := showsBase_pack hL₁ vs₁
  rw [henc]
  cases p with
  | short v =>
    have hw := firstWord_pack hL vs
    have hfield : fld v.toNat 0 32 = v.toNat := by simp [fld, Nat.mod_eq_of_lt v.isLt]
    refine decode_of_raw (Raw.of_ext hw.len _ _ r) ((FirstWord.decodeRaw hL hw).trans
      (hdec hwf _ (.inl rfl) ?_ (by simp [Raw.long]) hw.holds hw.shows hholds₁ hshows₁)) hwf
    simp [Raw.imm, Raw.long, bits_of_fld hfield]
  | lit v =>
    have hw := firstWord_pack_succ hL vs rfl
    refine decode_of_raw (Raw.of_extLit hw.len _ _ _ _ r) ((FirstWord.decodeRaw hL hw).trans
      (hdec hwf _ (.inr rfl) ?_ (by simp [fld]) hw.holds hw.shows hholds₁ hshows₁)) hwf
    simp only [Raw.imm, Raw.long, ofNat_halves, or_true, decide_true, if_true]

end
end Sys2Proof
end

section
/-! Decoding gives every instruction back, one lemma for the instructions of one layout. Each lemma says where the operands stand; what
is left is to run the decoder of the major opcode on the operands' fields and on the windows beside them that it looks at. -/

namespace Sys2Proof

/-- A `PLOG` operation that the encoding admits is one of the eight (08 R179). -/
theorem lt_of_plogOk {f s a b : Nat} (h : plogOk f s a b = true) : f < 8 := by
  unfold plogOk at h
  split_ifs at h
  case neg => simp only [Bool.and_eq_true, decide_eq_true_eq] at h; exact h.1.1.1
  all_goals omega

/-! ## Form A, the register form (05 R70) -/

theorem roundTrip_dab (d a b : Reg) :
    List.Forall RoundTrip [.mul d a b, .mulh d a b, .mulhn d a b, .mad d a b, .div d a b, .divn d a b, .rem d a b, .remn d a b,
      .cderiv d a b, .cget d a b, .cpq d a b, .syncwait d a b] := by
  and_intros
  all_goals
    refine .word [(9, 4), (13, 4), (17, 4)] (d, a, b, ()) rfl rfl fun _ x hlen ⟨hd, ha, hb, _⟩ beside => ?_
    simp [decMajor, decGroup0, decGroup5, decGroup8, dec09, dec3F, dec68, dec6B, bits, hlen, beside 21 11 rfl, hd, ha, hb]

theorem roundTrip_da (d a : Reg) :
    List.Forall RoundTrip [.clz d a, .ctz d a, .popc d a, .brev d a, .bswap d a, .widf d a, .shape d a, .locid d a, .callr d a,
      .reap d a, .semTry d a, .openS d a, .llpush d a, .cclr d a, .vcfgWr d a, .mxq d a, .mxstat d a, .mbox d a, .mboxTry d a] := by
  and_intros
  all_goals
    refine .word [(9, 4), (13, 4)] (d, a, ()) rfl rfl fun _ x hlen ⟨hd, ha, _⟩ beside => ?_
    simp [decMajor, decGroup0, decGroup1, decGroup2, decGroup4, decGroup5, decGroup8, decGroup9, dec0A, dec10, dec1C, dec31, dec33,
      dec34, dec37, dec3F, dec5E, dec60, dec62, dec6C, bits, hlen, beside 17 4 rfl, beside 21 11 rfl, hd, ha]

theorem roundTrip_ab (a b : Reg) :
    List.Forall RoundTrip [.send a b, .sendS a b, .wake a b, .specb a b, .syncw a b, .syncwReset a b, .tlbinv a b, .htset a b] := by
  and_intros
  all_goals
    refine .word [(13, 4), (17, 4)] (a, b, ()) rfl rfl fun _ x hlen ⟨ha, hb, _⟩ beside => ?_
    simp [decMajor, decGroup4, decGroup8, decGroup10, dec34, dec37, dec6A, dec7A, bits, hlen, beside 9 4 rfl, beside 21 11 rfl, ha,
      hb]

theorem roundTrip_db (d b : Reg) : List.Forall RoundTrip [.recv d b, .tryrecv d b, .llpop d b] := by
  and_intros
  all_goals
    refine .word [(9, 4), (17, 4)] (d, b, ()) rfl rfl fun _ x hlen ⟨hd, hb, _⟩ beside => ?_
    simp [decMajor, decGroup4, dec35, dec37, bits, hlen, beside 13 4 rfl, beside 21 11 rfl, hd, hb]

theorem roundTrip_d (d : Reg) : List.Forall RoundTrip [.reapAny d, .instn d, .vcfg d, .vcfgClr d, .mboxSt d] := by
  and_intros
  all_goals
    refine .word [(9, 4)] (d, ()) rfl rfl fun _ x hlen ⟨hd, _⟩ beside => ?_
    simp [decMajor, decGroup4, decGroup8, decGroup9, dec31, dec38, dec5E, dec6C, bits, hlen, beside 13 8 rfl, beside 21 11 rfl, hd]

theorem roundTrip_a (a : Reg) :
    List.Forall RoundTrip [.jmpr a, .ret a, .semP a, .semV a, .close a, .migrate a, .renounce a, .mxwait a, .cpwait a,
      .dtraceMark a] := by
  and_intros
  all_goals
    refine .word [(13, 4)] (a, ()) rfl rfl fun _ x hlen ⟨ha, _⟩ beside => ?_
    simp [decMajor, decGroup2, decGroup4, decGroup5, decGroup8, decGroup10, dec1C, dec33, dec34, dec37, dec3A, dec61, dec69, dec7B,
      bits, hlen, beside 9 4 rfl, beside 17 4 rfl, beside 21 11 rfl, ha]

theorem roundTrip_bare :
    List.Forall RoundTrip [.nop, .specc, .pause, .mxwaitAll, .mxstatResume, .mxstatDrop, .mxstatSdrop, .cpwaitAll, .eret,
      .dtraceBon, .dtraceBoff, .dtraceSync] := by
  and_intros
  all_goals
    refine .word [] () rfl rfl fun _ x hlen _ beside => ?_
    simp [decMajor, decGroup2, decGroup4, decGroup8, decGroup9, decGroup10, dec1F, dec37, dec38, dec61, dec62, dec69, dec79, dec7B,
      hlen, beside 9 12 rfl, beside 9 23 rfl, beside 21 11 rfl]

theorem roundTrip_alu (w : BitVec 2) (d a b : Reg) :
    List.Forall RoundTrip [.add w d a b, .sub w d a b, .and w d a b, .or w d a b, .xor w d a b, .andn w d a b, .shl w d a b,
      .shr w d a b, .shra w d a b, .rot w d a b, .min w d a b, .max w d a b, .minn w d a b, .maxn w d a b, .adds w d a b,
      .subs w d a b] := by
  and_intros
  all_goals
    refine .word [(25, 2), (9, 4), (13, 4), (17, 4)] (w, d, a, b, ()) rfl rfl fun _ x hlen ⟨hw, hd, ha, hb, _⟩ beside => ?_
    simp [decMajor, decGroup0, dec01, bits, hlen, beside 21 4 rfl, beside 27 5 rfl, hw, hd, ha, hb]

theorem roundTrip_shi (w : BitVec 2) (c : BitVec 6) (d a : Reg) :
    List.Forall RoundTrip [.shiShl w c d a, .shiShr w c d a, .shiShra w c d a, .shiRot w c d a] := by
  and_intros
  all_goals
    refine .word [(28, 2), (17, 6), (9, 4), (13, 4)] (w, c, d, a, ()) rfl rfl fun _ x hlen ⟨hw, hc, hd, ha, _⟩ beside => ?_
    simp [decMajor, decGroup0, dec06, bits, hlen, beside 23 5 rfl, beside 30 2 rfl, hw, hc, hd, ha]

theorem roundTrip_cmp (c : BitVec 3) (d a b : Reg) : RoundTrip (.cmp c d a b) := by
  refine .word [(21, 3), (9, 4), (13, 4), (17, 4)] (c, d, a, b, ()) rfl rfl fun hwf x hlen ⟨hc, hd, ha, hb, _⟩ beside => ?_
  simp only [Instr.wf, decide_eq_true_eq] at hwf
  simp [decMajor, decGroup0, dec07, bits, hlen, beside 24 8 rfl, hc, hd, ha, hb, hwf]

theorem roundTrip_lea (s : BitVec 3) (d a b : Reg) : RoundTrip (.lea s d a b) := by
  refine .word [(21, 3), (9, 4), (13, 4), (17, 4)] (s, d, a, b, ()) rfl rfl fun _ x hlen ⟨hs, hd, ha, hb, _⟩ beside => ?_
  simp [decMajor, decGroup1, dec0E, bits, hlen, beside 24 8 rfl, hs, hd, ha, hb]

theorem roundTrip_extb (s : BitVec 1) (l p : BitVec 6) (d a : Reg) : RoundTrip (.extb s l p d a) := by
  refine .word [(29, 1), (23, 6), (17, 6), (9, 4), (13, 4)] (s, l, p, d, a, ()) rfl rfl fun _ x hlen ⟨hs, hl, hp, hd, ha, _⟩
    beside => ?_
  simp [decMajor, decGroup0, dec0B, bits, hlen, beside 30 2 rfl, hs, hl, hp, hd, ha]

theorem roundTrip_insb (l p : BitVec 6) (d a : Reg) : RoundTrip (.insb l p d a) := by
  refine .word [(23, 6), (17, 6), (9, 4), (13, 4)] (l, p, d, a, ()) rfl rfl fun _ x hlen ⟨hl, hp, hd, ha, _⟩ beside => ?_
  simp [decMajor, decGroup1, dec0C, bits, hlen, beside 29 3 rfl, hl, hp, hd, ha]

theorem roundTrip_sel (c d a b : Reg) : RoundTrip (.sel c d a b) := by
  refine .word [(21, 4), (9, 4), (13, 4), (17, 4)] (c, d, a, b, ()) rfl rfl fun _ x hlen ⟨hc, hd, ha, hb, _⟩ beside => ?_
  simp [decMajor, decGroup1, dec0D, bits, hlen, beside 25 7 rfl, hc, hd, ha, hb]

theorem roundTrip_float_dab (f : BitVec 3) (r : BitVec 2) (d a b : Reg) :
    List.Forall RoundTrip [.fadd f r d a b, .fsub f r d a b, .fmul f r d a b, .fdiv f r d a b, .fmin f r d a b, .fmax f r d a b,
      .fcpys f r d a b, .fma f r d a b] := by
  and_intros
  all_goals
    refine .word [(29, 3), (27, 2), (9, 4), (13, 4), (17, 4)] (f, r, d, a, b, ()) rfl rfl fun hwf x hlen ⟨hf, hr, hd, ha, hb, _⟩
      beside => ?_
    simp only [Instr.wf, decide_eq_true_eq] at hwf
    simp [decMajor, decGroup1, dec11, dec12, bits, hlen, beside 21 4 rfl, beside 21 6 rfl, beside 25 2 rfl, hf, hr, hd, ha, hb, hwf]

theorem roundTrip_float_da (f : BitVec 3) (r : BitVec 2) (d a : Reg) :
    List.Forall RoundTrip [.fsqrt f r d a, .fabs f r d a, .fneg f r d a] := by
  and_intros
  all_goals
    refine .word [(29, 3), (27, 2), (9, 4), (13, 4)] (f, r, d, a, ()) rfl rfl fun hwf x hlen ⟨hf, hr, hd, ha, _⟩ beside => ?_
    simp only [Instr.wf, decide_eq_true_eq] at hwf
    simp [decMajor, decGroup1, dec11, bits, hlen, beside 17 4 rfl, beside 21 4 rfl, beside 25 2 rfl, hf, hr, hd, ha, hwf]

theorem roundTrip_fcmp (f c : BitVec 3) (d a b : Reg) : RoundTrip (.fcmp f c d a b) := by
  refine .word [(29, 3), (21, 3), (9, 4), (13, 4), (17, 4)] (f, c, d, a, b, ()) rfl rfl fun hwf x hlen ⟨hf, hc, hd, ha, hb, _⟩
    beside => ?_
  simp only [Instr.wf, Bool.and_eq_true, decide_eq_true_eq] at hwf
  simp [decMajor, decGroup1, dec13, bits, hlen, beside 24 5 rfl, hf, hc, hd, ha, hb, hwf]

theorem roundTrip_fcvt (r : BitVec 1) (t s : BitVec 5) (d a : Reg) : RoundTrip (.fcvt r t s d a) := by
  refine .word [(31, 1), (26, 5), (21, 5), (9, 4), (13, 4)] (r, t, s, d, a, ()) rfl rfl fun hwf x hlen ⟨hr, ht, hs, hd, ha, _⟩
    beside => ?_
  simp only [Instr.wf, Bool.not_eq_true'] at hwf
  simp [decMajor, decGroup1, dec14, bits, hlen, beside 17 4 rfl, hr, ht, hs, hd, ha, hwf]

theorem roundTrip_fclass (f : BitVec 3) (d a : Reg) : RoundTrip (.fclass f d a) := by
  refine .word [(29, 3), (9, 4), (13, 4)] (f, d, a, ()) rfl rfl fun hwf x hlen ⟨hf, hd, ha, _⟩ beside => ?_
  simp only [Instr.wf, decide_eq_true_eq] at hwf
  simp [decMajor, decGroup1, dec15, bits, hlen, beside 17 4 rfl, beside 21 8 rfl, hf, hd, ha, hwf]

theorem roundTrip_approx (f : BitVec 3) (d a : Reg) :
    List.Forall RoundTrip [.rcp f d a, .rsq f d a, .exp2 f d a, .log2 f d a, .sinpi f d a, .cospi f d a, .tanh f d a,
      .sigm f d a] := by
  and_intros
  all_goals
    refine .word [(29, 3), (9, 4), (13, 4)] (f, d, a, ()) rfl rfl fun hwf x hlen ⟨hf, hd, ha, _⟩ beside => ?_
    simp only [Instr.wf, Bool.and_eq_true, decide_eq_true_eq] at hwf
    have hne : f.toNat ≠ 0 := by omega
    simp [decMajor, decGroup1, dec16, bits, hlen, beside 17 4 rfl, beside 21 8 rfl, hf, hd, ha, hwf, hne]

theorem roundTrip_exit (c : BitVec 8) : RoundTrip (.exit c) := by
  refine .word [(17, 8)] (c, ()) rfl rfl fun _ x hlen ⟨hc, _⟩ beside => ?_
  simp [decMajor, decGroup2, dec1E, bits, hlen, beside 9 8 rfl, beside 25 7 rfl, hc]

theorem roundTrip_fence (scp k : BitVec 2) : RoundTrip (.fence scp k) := by
  refine .word [(23, 2), (21, 2)] (scp, k, ()) rfl rfl fun hwf x hlen ⟨hscp, hk, _⟩ beside => ?_
  simp only [Instr.wf, decide_eq_true_eq] at hwf
  have hne : k.toNat ≠ 0 := by omega
  simp [decMajor, decGroup2, dec22, bits, hlen, beside 9 12 rfl, beside 25 7 rfl, hscp, hk, hne]

theorem roundTrip_spawn (k : BitVec 3) (c a b : Reg) : RoundTrip (.spawn k c a b) := by
  refine .word [(25, 3), (21, 4), (13, 4), (17, 4)] (k, c, a, b, ()) rfl rfl fun hwf x hlen ⟨hk, hc, ha, hb, _⟩ beside => ?_
  simp only [Instr.wf, decide_eq_true_eq] at hwf
  have hne : k.toNat ≠ 7 := by omega
  simp [decMajor, decGroup4, dec30, bits, hlen, beside 9 4 rfl, beside 28 4 rfl, hk, hc, ha, hb, hne]

theorem roundTrip_bind (k : BitVec 3) : RoundTrip (.bind k) := by
  refine .word [(21, 3)] (k, ()) rfl rfl fun hwf x hlen ⟨hk, _⟩ beside => ?_
  simp only [Instr.wf, decide_eq_true_eq] at hwf
  have hne : k.toNat ≠ 7 := by omega
  simp [decMajor, decGroup4, dec32, bits, hlen, beside 9 12 rfl, beside 24 8 rfl, hk, hne]

theorem roundTrip_emit (k : BitVec 2) (a b : Reg) : RoundTrip (.emit k a b) := by
  refine .word [(21, 2), (13, 4), (17, 4)] (k, a, b, ()) rfl rfl fun hwf x hlen ⟨hk, ha, hb, _⟩ beside => ?_
  simp only [Instr.wf, decide_eq_true_eq] at hwf
  have hne : k.toNat ≠ 3 := by omega
  simp [decMajor, decGroup4, dec39, bits, hlen, beside 9 4 rfl, beside 23 9 rfl, hk, ha, hb, hne]

theorem roundTrip_test (q : BitVec 2) (d a : Reg) : List.Forall RoundTrip [.test q d a, .testv q d a] := by
  and_intros
  all_goals
    refine .word [(17, 2), (9, 4), (13, 4)] (q, d, a, ()) rfl rfl fun _ x hlen ⟨hq, hd, ha, _⟩ beside => ?_
    simp [decMajor, decGroup5, dec3A, bits, hlen, beside 19 2 rfl, beside 21 11 rfl, hq, hd, ha]

theorem roundTrip_rep (t : BitVec 3) (l : BitVec 4) (a : Reg) : RoundTrip (.rep t l a) := by
  refine .word [(25, 3), (21, 4), (13, 4)] (t, l, a, ()) rfl rfl fun _ x hlen ⟨ht, hl, ha, _⟩ beside => ?_
  simp [decMajor, decGroup8, dec5D, bits, hlen, beside 9 4 rfl, beside 17 4 rfl, beside 28 4 rfl, ht, hl, ha]

theorem roundTrip_trap_brk (c : BitVec 15) : List.Forall RoundTrip [.trap c, .brk c] := by
  and_intros
  all_goals
    refine .word [(17, 15)] (c, ()) rfl rfl fun _ x hlen ⟨hc, _⟩ beside => ?_
    simp [decMajor, decGroup9, dec75, dec76, bits, hlen, beside 9 8 rfl, hc]

theorem roundTrip_sysrd (n : BitVec 12) (d : Reg) : RoundTrip (.sysrd n d) := by
  refine .word [(17, 12), (9, 4)] (n, d, ()) rfl rfl fun _ x hlen ⟨hn, hd, _⟩ beside => ?_
  simp [decMajor, decGroup9, dec77, bits, hlen, beside 13 4 rfl, beside 29 3 rfl, hn, hd]

theorem roundTrip_syswr (n : BitVec 12) (a : Reg) : RoundTrip (.syswr n a) := by
  refine .word [(17, 12), (13, 4)] (n, a, ()) rfl rfl fun _ x hlen ⟨hn, ha, _⟩ beside => ?_
  simp [decMajor, decGroup9, dec78, bits, hlen, beside 9 4 rfl, beside 29 3 rfl, hn, ha]

/-! ## Forms I, M, Mo and B: a field that a literal can replace (05 R71 to R74, R78) -/

theorem roundTrip_immediate (d a : Reg) (p : Imm 15) :
    List.Forall RoundTrip [.addi d a p, .andi d a p, .ori d a p, .xori d a p] := by
  and_intros
  all_goals
    refine .imm [(9, 4), (13, 4)] (d, a, ()) 17 p rfl rfl fun _ x hlen himm hzero ⟨hd, ha, _⟩ _ => ?_
    simp [decMajor, decGroup0, dec02, dec03, dec04, dec05, bits, hlen, himm, hzero, hd, ha]

theorem roundTrip_cmpi (c : BitVec 3) (d a : Reg) (p : Imm 12) : RoundTrip (.cmpi c d a p) := by
  refine .imm [(29, 3), (9, 4), (13, 4)] (c, d, a, ()) 17 p rfl rfl fun hwf x hlen himm hzero ⟨hc, hd, ha, _⟩ _ => ?_
  simp only [Instr.wf, decide_eq_true_eq] at hwf
  simp [decMajor, decGroup0, dec08, bits, hlen, himm, hzero, hc, hd, ha, hwf]

theorem roundTrip_ldi (d : Reg) (p : Imm 15) : RoundTrip (.ldi d p) := by
  refine .imm [(9, 4)] (d, ()) 17 p rfl rfl fun _ x hlen himm hzero ⟨hd, _⟩ beside => ?_
  simp [decMajor, decGroup1, dec0F, bits, hlen, himm, hzero, beside 13 4 rfl, hd]

theorem roundTrip_memory (scp o : BitVec 2) (z : BitVec 3) (d a : Reg) (p : Imm 8) :
    List.Forall RoundTrip [.ld scp o z d a p, .st scp o z d a p, .lr scp o z d a p, .sc scp o z d a p, .waitrs scp o z d a p] := by
  and_intros
  all_goals
    refine .imm [(22, 2), (20, 2), (17, 3), (9, 4), (13, 4)] (scp, o, z, d, a, ()) 24 p rfl rfl fun _ x hlen himm hzero
      ⟨hscp, ho, hz, hd, ha, _⟩ _ => ?_
    simp [decMajor, decGroup2, decGroup3, dec20, dec21, dec23, dec24, dec27, bits, hlen, himm, hzero, hscp, ho, hz, hd, ha]

theorem roundTrip_capability (scp o : BitVec 2) (d a : Reg) (p : Imm 8) :
    List.Forall RoundTrip [.ldc scp o d a p, .stc scp o d a p] := by
  and_intros
  all_goals
    refine .imm [(22, 2), (20, 2), (9, 4), (13, 4)] (scp, o, d, a, ()) 24 p rfl rfl fun _ x hlen himm hzero ⟨hscp, ho, hd, ha, _⟩
      beside => ?_
    simp [decMajor, decGroup3, decGroup4, dec2D, dec2E, bits, hlen, himm, hzero, beside 17 3 rfl, hscp, ho, hd, ha]

theorem roundTrip_amo (scp o : BitVec 2) (z : BitVec 3) (d a : Reg) (p : Imm 4) :
    List.Forall RoundTrip [.amoAdd scp o z d a p, .amoAnd scp o z d a p, .amoOr scp o z d a p, .amoXor scp o z d a p,
      .amoSwap scp o z d a p, .amoMin scp o z d a p, .amoMax scp o z d a p, .amoMinn scp o z d a p, .amoMaxn scp o z d a p] := by
  and_intros
  all_goals
    refine .imm [(22, 2), (20, 2), (17, 3), (9, 4), (13, 4)] (scp, o, z, d, a, ()) 24 p rfl rfl fun _ x hlen himm hzero
      ⟨hscp, ho, hz, hd, ha, _⟩ beside => ?_
    simp [decMajor, decGroup3, dec25, bits, hlen, himm, hzero, beside 28 4 rfl, hscp, ho, hz, hd, ha]

theorem roundTrip_fullEmpty (scp : BitVec 2) (d a : Reg) (p : Imm 4) :
    List.Forall RoundTrip [.ldfeRead scp d a p, .ldfeTake scp d a p, .stfePut scp d a p, .stfeFill scp d a p] := by
  and_intros
  all_goals
    refine .imm [(22, 2), (9, 4), (13, 4)] (scp, d, a, ()) 24 p rfl rfl fun _ x hlen himm hzero ⟨hscp, hd, ha, _⟩ beside => ?_
    simp [decMajor, decGroup3, dec2A, dec2B, bits, hlen, himm, hzero, beside 17 3 rfl, beside 20 2 rfl, beside 28 4 rfl, hscp, hd,
      ha]

theorem roundTrip_stfeClear_maintenance (scp : BitVec 2) (a : Reg) (p : Imm 4) :
    List.Forall RoundTrip [.stfeClear scp a p, .pref scp a p, .clean scp a p, .inval scp a p] := by
  and_intros
  all_goals
    refine .imm [(22, 2), (13, 4)] (scp, a, ()) 24 p rfl rfl fun _ x hlen himm hzero ⟨hscp, ha, _⟩ beside => ?_
    simp [decMajor, decGroup3, dec2B, dec2C, bits, hlen, himm, hzero, beside 9 4 rfl, beside 17 3 rfl, beside 17 5 rfl,
      beside 20 2 rfl, beside 28 4 rfl, hscp, ha]

theorem roundTrip_invalCluster (scp : BitVec 2) (d a : Reg) (p : Imm 4) : RoundTrip (.invalCluster scp d a p) := by
  refine .imm [(22, 2), (9, 4), (13, 4)] (scp, d, a, ()) 24 p rfl rfl fun hwf x hlen himm hzero ⟨hscp, hd, ha, _⟩ beside => ?_
  simp only [Instr.wf, decide_eq_true_eq] at hwf
  have hne : d.toNat ≠ 0 := by omega
  simp [decMajor, decGroup3, dec2C, bits, hlen, himm, hzero, beside 17 5 rfl, beside 28 4 rfl, hscp, hd, ha, hne]

theorem roundTrip_br_call (o : Imm 23) : List.Forall RoundTrip [.br o, .call o] := by
  and_intros
  all_goals
    refine .imm [] () 9 o rfl rfl fun _ x hlen himm hzero _ _ => ?_
    simp [decMajor, decGroup2, dec18, dec1B, hlen, himm, hzero]

theorem roundTrip_bc (c : BitVec 3) (b a : Reg) (o : Imm 12) : RoundTrip (.bc c b a o) := by
  refine .imm [(17, 3), (13, 4), (9, 4)] (c, b, a, ()) 20 o rfl rfl fun _ x hlen himm hzero ⟨hc, hb, ha, _⟩ _ => ?_
  simp [decMajor, decGroup2, dec19, bits, hlen, himm, hzero, hc, hb, ha]

theorem roundTrip_bz (c : BitVec 3) (a : Reg) (o : Imm 12) : RoundTrip (.bz c a o) := by
  refine .imm [(17, 3), (9, 4)] (c, a, ()) 20 o rfl rfl fun _ x hlen himm hzero ⟨hc, ha, _⟩ beside => ?_
  simp [decMajor, decGroup2, dec1A, bits, hlen, himm, hzero, beside 13 4 rfl, hc, ha]

/-! ## Forms V and P (05 R75, R77) -/

theorem roundTrip_vector_variant (s : BitVec 1) (f : BitVec 4) (q : PReg) (d a b : VReg) :
    List.Forall RoundTrip [.vadd s f q d a b, .vsub s f q d a b, .vmul s f q d a b, .vfma s f q d a b, .vshr s f q d a b] := by
  and_intros
  all_goals
    refine .word [(31, 1), (27, 4), (24, 3), (9, 5), (14, 5), (19, 5)] (s, f, q, d, a, b, ()) rfl rfl fun hwf x hlen
      ⟨hs, hf, hq, hd, ha, hb, _⟩ _ => ?_
    simp only [Instr.wf, Bool.and_eq_true, decide_eq_true_eq] at hwf
    simp [decMajor, decGroup5, decGroup6, dec40, dec41, dec42, dec43, dec4A, bits, hlen, hs, hf, hq, hd, ha, hb, hwf]

theorem roundTrip_vcvt (s : BitVec 1) (f : BitVec 4) (q : PReg) (d a b : VReg) : RoundTrip (.vcvt s f q d a b) := by
  refine .word [(31, 1), (27, 4), (24, 3), (9, 5), (14, 5), (19, 5)] (s, f, q, d, a, b, ()) rfl rfl fun hwf x hlen
    ⟨hs, hf, hq, hd, ha, hb, _⟩ _ => ?_
  simp only [Instr.wf, Bool.and_eq_true, decide_eq_true_eq] at hwf
  have hne : f.toNat ≠ 15 := by omega
  simp [decMajor, decGroup6, dec4D, bits, hlen, hs, hf, hq, hd, ha, hb, hne]

theorem roundTrip_vector (s : BitVec 1) (q : PReg) (d a b : VReg) :
    List.Forall RoundTrip [.vmin s q d a b, .vmax s q d a b, .vand s q d a b, .vor s q d a b, .vxor s q d a b, .vshl s q d a b,
      .vsel s q d a b] := by
  and_intros
  all_goals
    refine .word [(31, 1), (24, 3), (9, 5), (14, 5), (19, 5)] (s, q, d, a, b, ()) rfl rfl fun _ x hlen ⟨hs, hq, hd, ha, hb, _⟩
      beside => ?_
    simp [decMajor, decGroup5, decGroup6, dec44, dec45, dec46, dec47, dec48, dec49, dec4C, bits, hlen, beside 27 4 rfl, hs, hq, hd,
      ha, hb]

theorem roundTrip_vcmp (s : BitVec 1) (f : BitVec 4) (q d : PReg) (a b : VReg) : RoundTrip (.vcmp s f q d a b) := by
  refine .word [(31, 1), (27, 4), (24, 3), (9, 3), (14, 5), (19, 5)] (s, f, q, d, a, b, ()) rfl rfl fun hwf x hlen
    ⟨hs, hf, hq, hd, ha, hb, _⟩ beside => ?_
  simp only [Instr.wf, Bool.and_eq_true, decide_eq_true_eq] at hwf
  simp [decMajor, decGroup6, dec4B, bits, hlen, beside 12 2 rfl, hs, hf, hq, hd, ha, hb, hwf]

theorem roundTrip_vector_da (f : BitVec 4) (q : PReg) (d a : VReg) :
    List.Forall RoundTrip [.vapx f q d a, .vred f q d a, .vscan f q d a] := by
  and_intros
  all_goals
    refine .word [(27, 4), (24, 3), (9, 5), (14, 5)] (f, q, d, a, ()) rfl rfl fun hwf x hlen ⟨hf, hq, hd, ha, _⟩ beside => ?_
    simp only [Instr.wf, Bool.not_eq_true', decide_eq_true_eq] at hwf
    simp [decMajor, decGroup6, decGroup7, dec4E, dec50, dec51, bits, hlen, beside 19 5 rfl, beside 31 1 rfl, hf, hq, hd, ha, hwf]

theorem roundTrip_vabs_vneg (q : PReg) (d a : VReg) : List.Forall RoundTrip [.vabs q d a, .vneg q d a] := by
  and_intros
  all_goals
    refine .word [(24, 3), (9, 5), (14, 5)] (q, d, a, ()) rfl rfl fun _ x hlen ⟨hq, hd, ha, _⟩ beside => ?_
    simp [decMajor, decGroup6, dec4F, bits, hlen, beside 19 5 rfl, beside 27 4 rfl, beside 31 1 rfl, hq, hd, ha]

theorem roundTrip_vperm (q : PReg) (d a b : VReg) : RoundTrip (.vperm q d a b) := by
  refine .word [(24, 3), (9, 5), (14, 5), (19, 5)] (q, d, a, b, ()) rfl rfl fun _ x hlen ⟨hq, hd, ha, hb, _⟩ beside => ?_
  simp [decMajor, decGroup7, dec52, bits, hlen, beside 27 4 rfl, beside 31 1 rfl, hq, hd, ha, hb]

theorem roundTrip_vbcast_vtopk (f : BitVec 1) (q : PReg) (d a : VReg) (b : Reg) :
    List.Forall RoundTrip [.vbcast f q d a b, .vtopk f q d a b] := by
  and_intros
  all_goals
    refine .word [(27, 1), (24, 3), (9, 5), (14, 5), (19, 4)] (f, q, d, a, b, ()) rfl rfl fun _ x hlen ⟨hf, hq, hd, ha, hb, _⟩
      beside => ?_
    simp [decMajor, decGroup7, decGroup8, dec53, dec5B, bits, hlen, beside 23 1 rfl, beside 28 3 rfl, beside 31 1 rfl, hf, hq, hd,
      ha, hb]

theorem roundTrip_vmovx (f : BitVec 2) (d a : VReg) (b : Reg) : RoundTrip (.vmovx f d a b) := by
  refine .word [(27, 2), (9, 5), (14, 5), (19, 4)] (f, d, a, b, ()) rfl rfl fun _ x hlen ⟨hf, hd, ha, hb, _⟩ beside => ?_
  simp [decMajor, decGroup7, dec54, bits, hlen, beside 23 4 rfl, beside 29 2 rfl, beside 31 1 rfl, hf, hd, ha, hb]

theorem roundTrip_vld_vst (s : BitVec 1) (q : PReg) (d : VReg) (a : Reg) (b : VReg) :
    List.Forall RoundTrip [.vld s q d a b, .vst s q d a b] := by
  and_intros
  all_goals
    refine .word [(31, 1), (24, 3), (9, 5), (14, 4), (19, 5)] (s, q, d, a, b, ()) rfl rfl fun _ x hlen ⟨hs, hq, hd, ha, hb, _⟩
      beside => ?_
    simp [decMajor, decGroup7, dec55, dec56, bits, hlen, beside 18 1 rfl, beside 27 4 rfl, hs, hq, hd, ha, hb]

theorem roundTrip_vsort (n k : BitVec 1) (q : PReg) (d a : VReg) : RoundTrip (.vsort n k q d a) := by
  refine .word [(28, 1), (27, 1), (24, 3), (9, 5), (14, 5)] (n, k, q, d, a, ()) rfl rfl fun _ x hlen ⟨hn, hk, hq, hd, ha, _⟩
    beside => ?_
  simp [decMajor, decGroup7, dec59, bits, hlen, beside 19 5 rfl, beside 29 2 rfl, beside 31 1 rfl, hn, hk, hq, hd, ha]

theorem roundTrip_vmerge (h n k : BitVec 1) (q : PReg) (d a b : VReg) : RoundTrip (.vmerge h n k q d a b) := by
  refine .word [(29, 1), (28, 1), (27, 1), (24, 3), (9, 5), (14, 5), (19, 5)] (h, n, k, q, d, a, b, ()) rfl rfl fun _ x hlen
    ⟨hh, hn, hk, hq, hd, ha, hb, _⟩ beside => ?_
  simp [decMajor, decGroup7, dec5A, bits, hlen, beside 30 1 rfl, beside 31 1 rfl, hh, hn, hk, hq, hd, ha, hb]

theorem roundTrip_plog (s : BitVec 1) (f : BitVec 4) (d a : PReg) (b : VReg) : RoundTrip (.plog s f d a b) := by
  refine .word [(31, 1), (27, 4), (9, 3), (14, 3), (19, 5)] (s, f, d, a, b, ()) rfl rfl fun hwf x hlen ⟨hs, hf, hd, ha, hb, _⟩
    beside => ?_
  have hlt : f.toNat < 8 := lt_of_plogOk hwf
  simp [decMajor, decGroup8, dec5C, bits, hlen, beside 12 2 rfl, beside 17 2 rfl, beside 24 3 rfl, hs, hf, hd, ha, hb, hlt]

theorem roundTrip_fmt (s : BitVec 1) (g : BitVec 2) (f : BitVec 5) : RoundTrip (.fmt s g f) := by
  refine .word [(16, 1), (14, 2), (9, 5)] (s, g, f, ()) rfl rfl fun _ x hlen ⟨hs, hg, hf, _⟩ beside => ?_
  simp [decMajor, decGroup9, dec74, bits, hlen, beside 17 15 rfl, hs, hg, hf]

/-! ## Form X, the extended form (05 R76) -/

theorem roundTrip_jtab (a : Reg) (n : BitVec 32) (t : BitVec 30) : RoundTrip (.jtab a n t) := by
  refine .ext [(13, 4)] (a, ()) [(0, 32)] (n, ()) [(2, 30)] (t, ()) rfl rfl rfl rfl fun _ x hlen ⟨ha, _⟩ beside ⟨hn, _⟩ _ ⟨ht, _⟩
    beside₂ => ?_
  simp [decMajor, decGroup2, dec1D, bits, hlen, beside 9 4 rfl, beside 17 4 rfl, beside 21 11 rfl, beside₂ 0 2 rfl, ha, hn, ht]

theorem roundTrip_rcall (a b : Reg) (k : BitVec 1) (p : BitVec 32) : RoundTrip (.rcall a b k p) := by
  refine .ext [(13, 4), (17, 4)] (a, b, ()) [(0, 1)] (k, ()) [(0, 32)] (p, ()) rfl rfl rfl rfl fun _ x hlen ⟨ha, hb, _⟩ beside
    ⟨hk, _⟩ beside₁ ⟨hp, _⟩ _ => ?_
  simp [decMajor, decGroup4, dec36, bits, hlen, beside 9 4 rfl, beside 21 11 rfl, beside₁ 1 31 rfl, ha, hb, hk, hp]

theorem roundTrip_rreply_suspw (a : Reg) : List.Forall RoundTrip [.rreply a, .suspw a] := by
  and_intros
  all_goals
    refine .ext [(13, 4)] (a, ()) [] () [] () rfl rfl rfl rfl fun _ x hlen ⟨ha, _⟩ beside _ beside₁ _ beside₂ => ?_
    simp [decMajor, decGroup4, decGroup5, dec36, dec3B, bits, hlen, beside 9 4 rfl, beside 17 4 rfl, beside 21 11 rfl,
      beside₁ 0 32 rfl, beside₂ 0 32 rfl, ha]

theorem roundTrip_bara (d : Reg) (bar : BitVec 4) (n : BitVec 16) : RoundTrip (.bara d bar n) := by
  refine .ext [(9, 4)] (d, ()) [(16, 4), (0, 16)] (bar, n, ()) [] () rfl rfl rfl rfl fun _ x hlen ⟨hd, _⟩ beside ⟨hbar, hn, _⟩
    beside₁ _ beside₂ => ?_
  simp [decMajor, decGroup4, dec36, bits, hlen, beside 13 8 rfl, beside 21 11 rfl, beside₁ 20 12 rfl, beside₂ 0 32 rfl, hd, hbar,
    hn]

theorem roundTrip_barw (a : Reg) (bar : BitVec 4) : RoundTrip (.barw a bar) := by
  refine .ext [(13, 4)] (a, ()) [(16, 4)] (bar, ()) [] () rfl rfl rfl rfl fun _ x hlen ⟨ha, _⟩ beside ⟨hbar, _⟩ beside₁ _
    beside₂ => ?_
  simp [decMajor, decGroup4, dec36, bits, hlen, beside 9 4 rfl, beside 17 4 rfl, beside 21 11 rfl, beside₁ 0 16 rfl,
    beside₁ 20 12 rfl, beside₂ 0 32 rfl, ha, hbar]

theorem roundTrip_emits_sigforce (sl : BitVec 2) (a b : Reg) : List.Forall RoundTrip [.emits sl a b, .sigforce sl a b] := by
  and_intros
  all_goals
    refine .ext [(13, 4), (17, 4)] (a, b, ()) [(0, 2)] (sl, ()) [] () rfl rfl rfl rfl fun _ x hlen ⟨ha, hb, _⟩ beside ⟨hsl, _⟩
      beside₁ _ beside₂ => ?_
    simp [decMajor, decGroup5, dec3A, dec3B, bits, hlen, beside 9 4 rfl, beside 21 11 rfl, beside₁ 2 30 rfl, beside₂ 0 32 rfl, ha,
      hb, hsl]

theorem roundTrip_abortw (a : Reg) (p : BitVec 32) : RoundTrip (.abortw a p) := by
  refine .ext [(13, 4)] (a, ()) [] () [(0, 32)] (p, ()) rfl rfl rfl rfl fun _ x hlen ⟨ha, _⟩ beside _ beside₁ ⟨hp, _⟩ _ => ?_
  simp [decMajor, decGroup5, dec3B, bits, hlen, beside 9 4 rfl, beside 17 4 rfl, beside 21 11 rfl, beside₁ 0 32 rfl, ha, hp]

theorem roundTrip_endw : RoundTrip (.endw) := by
  refine .ext [] () [] () [] () rfl rfl rfl rfl fun _ x hlen _ beside _ beside₁ _ beside₂ => ?_
  simp [decMajor, decGroup5, dec3B, hlen, beside 9 12 rfl, beside 21 11 rfl, beside₁ 0 32 rfl, beside₂ 0 32 rfl]

theorem roundTrip_lehrw (k : BitVec 1) (n : BitVec 16) (d a : Reg) : RoundTrip (.lehrw k n d a) := by
  refine .ext [(9, 4), (13, 4)] (d, a, ()) [(16, 1), (0, 16)] (k, n, ()) [] () rfl rfl rfl rfl fun _ x hlen ⟨hd, ha, _⟩ beside
    ⟨hk, hn, _⟩ beside₁ _ beside₂ => ?_
  simp [decMajor, decGroup5, dec3B, bits, hlen, beside 17 4 rfl, beside 21 11 rfl, beside₁ 17 15 rfl, beside₂ 0 32 rfl, hd, ha, hk,
    hn]

theorem roundTrip_gld_gst (d a b : Reg) (p : BitVec 32) : List.Forall RoundTrip [.gld d a b p, .gst d a b p] := by
  and_intros
  all_goals
    refine .ext [(9, 4), (13, 4), (17, 4)] (d, a, b, ()) [] () [(0, 32)] (p, ()) rfl rfl rfl rfl fun _ x hlen ⟨hd, ha, hb, _⟩ beside
      _ beside₁ ⟨hp, _⟩ _ => ?_
    simp [decMajor, decGroup9, dec70, dec71, bits, hlen, beside 21 11 rfl, beside₁ 0 32 rfl, hd, ha, hb, hp]

theorem roundTrip_gstep_gwait (a b : Reg) : List.Forall RoundTrip [.gstep a b, .gwait a b, .gwaitOut a b] := by
  and_intros
  all_goals
    refine .ext [(13, 4), (17, 4)] (a, b, ()) [] () [] () rfl rfl rfl rfl fun _ x hlen ⟨ha, hb, _⟩ beside _ beside₁ _ beside₂ => ?_
    simp [decMajor, decGroup9, dec72, dec73, bits, hlen, beside 9 4 rfl, beside 21 11 rfl, beside₁ 0 32 rfl, beside₂ 0 32 rfl, ha,
      hb]

theorem roundTrip_vgath_vscat (a : Reg) (sh p : BitVec 3) (q : PReg) (vi d : VReg) (disp : BitVec 32) : List.Forall RoundTrip
    [.vgath a sh p q vi d disp, .vscat a sh p q vi d disp] := by
  and_intros
  all_goals
    refine .ext [(13, 4)] (a, ()) [(16, 3), (13, 3), (10, 3), (5, 5), (0, 5)] (sh, p, q, vi, d, ()) [(0, 32)] (disp, ()) rfl rfl rfl
      rfl fun _ x hlen ⟨ha, _⟩ beside ⟨hsh, hp, hq, hvi, hd, _⟩ beside₁ ⟨hdisp, _⟩ _ => ?_
    simp [decMajor, decGroup7, dec57, dec58, bits, hlen, beside 9 4 rfl, beside 17 4 rfl, beside 21 11 rfl, beside₁ 19 13 rfl, ha,
      hsh, hp, hq, hvi, hd, hdisp]

theorem roundTrip_cas (z : BitVec 3) (scp o : BitVec 2) (d a b : Reg) (p : Imm 32) : RoundTrip (.cas z scp o d a b p) := by
  refine .extImm [(9, 4), (13, 4), (17, 4)] (d, a, b, ()) [(4, 3), (2, 2), (0, 2)] (z, scp, o, ()) p rfl rfl rfl fun _ x hlen himm
    hzero ⟨hd, ha, hb, _⟩ beside ⟨hz, hscp, ho, _⟩ beside₁ => ?_
  simp [decMajor, decGroup3, dec26, bits, hlen, himm, hzero, beside 21 11 rfl, beside₁ 7 25 rfl, hd, ha, hb, hz, hscp, ho]

theorem roundTrip_red (f : BitVec 5) (scp o : BitVec 2) (a b : Reg) (p : Imm 32) : RoundTrip (.red f scp o a b p) := by
  refine .extImm [(13, 4), (17, 4)] (a, b, ()) [(7, 5), (2, 2), (0, 2)] (f, scp, o, ()) p rfl rfl rfl fun _ x hlen himm hzero
    ⟨ha, hb, _⟩ beside ⟨hf, hscp, ho, _⟩ beside₁ => ?_
  simp [decMajor, decGroup3, dec28, bits, hlen, himm, hzero, beside 9 4 rfl, beside 21 11 rfl, beside₁ 4 3 rfl, beside₁ 12 20 rfl,
    ha, hb, hf, hscp, ho]

theorem roundTrip_xsrd (k : BitVec 1) (f : BitVec 5) (scp o : BitVec 2) (d a : Reg) (p : Imm 32) :
    RoundTrip (.xsrd k f scp o d a p) := by
  refine .extImm [(9, 4), (13, 4)] (d, a, ()) [(12, 1), (7, 5), (2, 2), (0, 2)] (k, f, scp, o, ()) p rfl rfl rfl fun _ x hlen himm
    hzero ⟨hd, ha, _⟩ beside ⟨hk, hf, hscp, ho, _⟩ beside₁ => ?_
  simp [decMajor, decGroup3, dec29, bits, hlen, himm, hzero, beside 17 4 rfl, beside 21 11 rfl, beside₁ 4 3 rfl, beside₁ 13 19 rfl,
    hd, ha, hk, hf, hscp, ho]

theorem roundTrip_rld_rst (m : BitVec 4) (o : BitVec 2) (z : BitVec 3) (d a b : Reg) (p : Imm 32) : List.Forall RoundTrip
    [.rld m o z d a b p, .rst m o z d a b p] := by
  and_intros
  all_goals
    refine .extImm [(9, 4), (13, 4), (17, 4)] (d, a, b, ()) [(12, 4), (8, 2), (4, 3)] (m, o, z, ()) p rfl rfl rfl fun _ x hlen himm
      hzero ⟨hd, ha, hb, _⟩ beside ⟨hm, ho, hz, _⟩ beside₁ => ?_
    simp [decMajor, decGroup5, dec3C, dec3D, bits, hlen, himm, hzero, beside 21 11 rfl, beside₁ 0 4 rfl, beside₁ 7 1 rfl,
      beside₁ 10 2 rfl, beside₁ 16 16 rfl, hd, ha, hb, hm, ho, hz]

theorem roundTrip_ramo (o : BitVec 2) (z : BitVec 3) (k : BitVec 4) (d a b : Reg) (p : Imm 32) :
    RoundTrip (.ramo o z k d a b p) := by
  refine .extImm [(9, 4), (13, 4), (17, 4)] (d, a, b, ()) [(8, 2), (4, 3), (0, 4)] (o, z, k, ()) p rfl rfl rfl fun _ x hlen himm
    hzero ⟨hd, ha, hb, _⟩ beside ⟨ho, hz, hk, _⟩ beside₁ => ?_
  simp [decMajor, decGroup5, dec3E, bits, hlen, himm, hzero, beside 21 11 rfl, beside₁ 7 1 rfl, beside₁ 10 22 rfl, hd, ha, hb, ho,
    hz, hk]

end Sys2Proof
end

section
/-! The obligations on decoding, from the lemmas of the layouts. -/

namespace Sys2Proof

theorem RoundTrip.of_mem {l : List Instr} {i : Instr} (h : l.Forall RoundTrip) (hi : i ∈ l) : RoundTrip i :=
  List.forall_iff_forall_mem.mp h i hi

theorem roundTrip_of_encodable (i : Instr) (henc : i.encodable = true) : RoundTrip i := by
  cases i
  case mul d a b | mulh d a b | mulhn d a b | mad d a b | div d a b | divn d a b | rem d a b | remn d a b | cderiv d a b |
      cget d a b | cpq d a b | syncwait d a b =>
    exact RoundTrip.of_mem (roundTrip_dab d a b) (by simp)
  case clz d a | ctz d a | popc d a | brev d a | bswap d a | widf d a | shape d a | locid d a | callr d a | reap d a | semTry d a |
      openS d a | llpush d a | cclr d a | vcfgWr d a | mxq d a | mxstat d a | mbox d a | mboxTry d a =>
    exact RoundTrip.of_mem (roundTrip_da d a) (by simp)
  case send a b | sendS a b | wake a b | specb a b | syncw a b | syncwReset a b | tlbinv a b | htset a b =>
    exact RoundTrip.of_mem (roundTrip_ab a b) (by simp)
  case recv d b | tryrecv d b | llpop d b => exact RoundTrip.of_mem (roundTrip_db d b) (by simp)
  case reapAny d | instn d | vcfg d | vcfgClr d | mboxSt d => exact RoundTrip.of_mem (roundTrip_d d) (by simp)
  case jmpr a | ret a | semP a | semV a | close a | migrate a | renounce a | mxwait a | cpwait a | dtraceMark a =>
    exact RoundTrip.of_mem (roundTrip_a a) (by simp)
  case nop | specc | pause | mxwaitAll | mxstatResume | mxstatDrop | mxstatSdrop | cpwaitAll | eret | dtraceBon | dtraceBoff |
      dtraceSync =>
    exact RoundTrip.of_mem roundTrip_bare (by simp)
  case add w d a b | sub w d a b | and w d a b | or w d a b | xor w d a b | andn w d a b | shl w d a b | shr w d a b | shra w d a b
      | rot w d a b | min w d a b | max w d a b | minn w d a b | maxn w d a b | adds w d a b | subs w d a b =>
    exact RoundTrip.of_mem (roundTrip_alu w d a b) (by simp)
  case shiShl w c d a | shiShr w c d a | shiShra w c d a | shiRot w c d a =>
    exact RoundTrip.of_mem (roundTrip_shi w c d a) (by simp)
  case cmp c d a b => exact roundTrip_cmp c d a b
  case lea s d a b => exact roundTrip_lea s d a b
  case extb s l p d a => exact roundTrip_extb s l p d a
  case insb l p d a => exact roundTrip_insb l p d a
  case sel c d a b => exact roundTrip_sel c d a b
  case fadd f r d a b | fsub f r d a b | fmul f r d a b | fdiv f r d a b | fmin f r d a b | fmax f r d a b | fcpys f r d a b |
      fma f r d a b =>
    exact RoundTrip.of_mem (roundTrip_float_dab f r d a b) (by simp)
  case fsqrt f r d a | fabs f r d a | fneg f r d a => exact RoundTrip.of_mem (roundTrip_float_da f r d a) (by simp)
  case fcmp f c d a b => exact roundTrip_fcmp f c d a b
  case fcvt r t s d a => exact roundTrip_fcvt r t s d a
  case fclass f d a => exact roundTrip_fclass f d a
  case rcp f d a | rsq f d a | exp2 f d a | log2 f d a | sinpi f d a | cospi f d a | tanh f d a | sigm f d a =>
    exact RoundTrip.of_mem (roundTrip_approx f d a) (by simp)
  case exit c => exact roundTrip_exit c
  case fence scp k => exact roundTrip_fence scp k
  case spawn k c a b => exact roundTrip_spawn k c a b
  case bind k => exact roundTrip_bind k
  case emit k a b => exact roundTrip_emit k a b
  case test q d a | testv q d a => exact RoundTrip.of_mem (roundTrip_test q d a) (by simp)
  case rep t l a => exact roundTrip_rep t l a
  case trap c | brk c => exact RoundTrip.of_mem (roundTrip_trap_brk c) (by simp)
  case sysrd n d => exact roundTrip_sysrd n d
  case syswr n a => exact roundTrip_syswr n a
  case addi d a p | andi d a p | ori d a p | xori d a p => exact RoundTrip.of_mem (roundTrip_immediate d a p) (by simp)
  case cmpi c d a p => exact roundTrip_cmpi c d a p
  case ldi d p => exact roundTrip_ldi d p
  case ld scp o z d a p | st scp o z d a p | lr scp o z d a p | sc scp o z d a p | waitrs scp o z d a p =>
    exact RoundTrip.of_mem (roundTrip_memory scp o z d a p) (by simp)
  case ldc scp o d a p | stc scp o d a p => exact RoundTrip.of_mem (roundTrip_capability scp o d a p) (by simp)
  case amoAdd scp o z d a p | amoAnd scp o z d a p | amoOr scp o z d a p | amoXor scp o z d a p | amoSwap scp o z d a p |
      amoMin scp o z d a p | amoMax scp o z d a p | amoMinn scp o z d a p | amoMaxn scp o z d a p =>
    exact RoundTrip.of_mem (roundTrip_amo scp o z d a p) (by simp)
  case ldfeRead scp d a p | ldfeTake scp d a p | stfePut scp d a p | stfeFill scp d a p =>
    exact RoundTrip.of_mem (roundTrip_fullEmpty scp d a p) (by simp)
  case stfeClear scp a p | pref scp a p | clean scp a p | inval scp a p =>
    exact RoundTrip.of_mem (roundTrip_stfeClear_maintenance scp a p) (by simp)
  case invalCluster scp d a p => exact roundTrip_invalCluster scp d a p
  case br o | call o => exact RoundTrip.of_mem (roundTrip_br_call o) (by simp)
  case bc c b a o => exact roundTrip_bc c b a o
  case bz c a o => exact roundTrip_bz c a o
  case vadd s f q d a b | vsub s f q d a b | vmul s f q d a b | vfma s f q d a b | vshr s f q d a b =>
    exact RoundTrip.of_mem (roundTrip_vector_variant s f q d a b) (by simp)
  case vcvt s f q d a b => exact roundTrip_vcvt s f q d a b
  case vmin s q d a b | vmax s q d a b | vand s q d a b | vor s q d a b | vxor s q d a b | vshl s q d a b | vsel s q d a b =>
    exact RoundTrip.of_mem (roundTrip_vector s q d a b) (by simp)
  case vcmp s f q d a b => exact roundTrip_vcmp s f q d a b
  case vapx f q d a | vred f q d a | vscan f q d a => exact RoundTrip.of_mem (roundTrip_vector_da f q d a) (by simp)
  case vabs q d a | vneg q d a => exact RoundTrip.of_mem (roundTrip_vabs_vneg q d a) (by simp)
  case vperm q d a b => exact roundTrip_vperm q d a b
  case vbcast f q d a b | vtopk f q d a b => exact RoundTrip.of_mem (roundTrip_vbcast_vtopk f q d a b) (by simp)
  case vmovx f d a b => exact roundTrip_vmovx f d a b
  case vld s q d a b | vst s q d a b => exact RoundTrip.of_mem (roundTrip_vld_vst s q d a b) (by simp)
  case vsort n k q d a => exact roundTrip_vsort n k q d a
  case vmerge h n k q d a b => exact roundTrip_vmerge h n k q d a b
  case plog s f d a b => exact roundTrip_plog s f d a b
  case fmt s g f => exact roundTrip_fmt s g f
  case jtab a n t => exact roundTrip_jtab a n t
  case rcall a b k p => exact roundTrip_rcall a b k p
  case rreply a | suspw a => exact RoundTrip.of_mem (roundTrip_rreply_suspw a) (by simp)
  case bara d bar n => exact roundTrip_bara d bar n
  case barw a bar => exact roundTrip_barw a bar
  case emits sl a b | sigforce sl a b => exact RoundTrip.of_mem (roundTrip_emits_sigforce sl a b) (by simp)
  case abortw a p => exact roundTrip_abortw a p
  case endw => exact roundTrip_endw
  case lehrw k n d a => exact roundTrip_lehrw k n d a
  case gld d a b p | gst d a b p => exact RoundTrip.of_mem (roundTrip_gld_gst d a b p) (by simp)
  case gstep a b | gwait a b | gwaitOut a b => exact RoundTrip.of_mem (roundTrip_gstep_gwait a b) (by simp)
  case vgath a sh p q vi d disp | vscat a sh p q vi d disp =>
    exact RoundTrip.of_mem (roundTrip_vgath_vscat a sh p q vi d disp) (by simp)
  case cas z scp o d a b p => exact roundTrip_cas z scp o d a b p
  case red f scp o a b p => exact roundTrip_red f scp o a b p
  case xsrd k f scp o d a p => exact roundTrip_xsrd k f scp o d a p
  case rld m o z d a b p | rst m o z d a b p => exact RoundTrip.of_mem (roundTrip_rld_rst m o z d a b p) (by simp)
  case ramo o z k d a b p => exact roundTrip_ramo o z k d a b p
  all_goals cases henc

/-- Settles O54, by the layout of each instruction's words. -/
theorem decodeOfEncode : Obligations.DecodeOfEncode := fun i r hwf henc => roundTrip_of_encodable i henc hwf r

/-- Settles O53: the accepted words are encodings, read back by `decodeOfEncode`; the others fail at the check that their bits name. -/
theorem wordsDecode : Obligations.WordsDecode :=
  ⟨decodeOfEncode (.add 0 3 1 2) [] rfl rfl, decodeOfEncode (.adds 3 3 1 2) [] rfl rfl,
    decodeOfEncode (.ldi 3 (.lit 0x0123456789ABCDEF)) [] rfl rfl, decodeOfEncode (.ld 0 0 6 4 3 (.short 2)) [] rfl rfl,
    decodeOfEncode (.trap 3) [] rfl rfl, decodeOfEncode .eret [] rfl rfl, decodeOfEncode (.vmul 0 0 0 8 0 16) [] rfl rfl,
    by decide, by decide, by decide, by decide⟩

end Sys2Proof
end

section
/-! Which fault comes first (05 R82): an instruction of the running context passes its gate, and the gate's first failed row
is its fault. -/

namespace Sys2Proof.Machine

section
variable {s : State} {g : Gate} {len : Nat} {body : State → Res} {i : Instr}

/-- Row 4 of 05 R82: in user mode a supervisor's instruction stops here, whether or not a format is pending. -/
theorem State.run_privileged (hpriv : g.priv = true) (huser : s.me.sta.sup = false) :
    s.run g len body = s.takeFault s.cur { code := Cause.privileged } := by
  unfold State.me at huser
  exact if_pos (by simp [hpriv, huser])

/-- Row 6 of 05 R82: where no format is pending, an engine's instruction of an unbound thread stops here. -/
theorem State.run_noBinding (hpriv : g.priv = false) (hplain : s.me.sta.pp = false)
    (hbind : (g.vec = true ∧ s.me.sta.bind ≠ 1) ∨ (g.mat = true ∧ s.me.sta.bind ≠ 2)) :
    s.run g len body = s.takeFault s.cur { code := Cause.noBinding } := by
  unfold State.me at hplain hbind
  unfold State.run
  rw [if_neg (by simp [hpriv]), if_neg (by simp [hplain]), if_pos (by simpa using hbind)]

theorem faults_privileged (huser : s.me.sta.sup = false) (hexec : exec i s = goes (s.run g len body)) (hpriv : g.priv = true) :
    Claim.Faults s i Cause.privileged 0 0 :=
  hexec.trans (congrArg goes (State.run_privileged hpriv huser))

theorem faults_unboundVec (hplain : s.me.sta.pp = false) (hbind : s.me.sta.bind ≠ 1) (hexec : exec i s = goes (s.run g len body))
    (hpriv : g.priv = false) (hvec : g.vec = true) : Claim.Faults s i Cause.noBinding 0 0 :=
  hexec.trans (congrArg goes (State.run_noBinding hpriv hplain (.inl ⟨hvec, hbind⟩)))

theorem faults_unboundMat (hplain : s.me.sta.pp = false) (hbind : s.me.sta.bind ≠ 2) (hexec : exec i s = goes (s.run g len body))
    (hpriv : g.priv = false) (hmat : g.mat = true) : Claim.Faults s i Cause.noBinding 0 0 :=
  hexec.trans (congrArg goes (State.run_noBinding hpriv hplain (.inr ⟨hmat, hbind⟩)))

end

/-- Settles O14: each listed instruction runs behind a gate, and the gate's rows are tried in the order of 05 R82. -/
theorem orderOfChecks : Obligations.OrderOfChecks := by
  intro s a b d v q p
  refine ⟨fun huser => ?_, fun hplain hbind => ?_, fun hplain hbind => ?_, rfl⟩
  all_goals refine List.forall_iff_forall_mem.mp ?_
  · and_intros
    all_goals exact faults_privileged huser rfl rfl
  · and_intros
    all_goals exact faults_unboundVec hplain hbind rfl rfl rfl
  · and_intros
    all_goals exact faults_unboundMat hplain hbind rfl rfl rfl

end Sys2Proof.Machine
end

section
/-! One step by the turn that the agenda names first (02 R30, R32; 05 R82; 17 R391). -/

namespace Sys2Proof.Machine

section
variable {s : State} {c : Nat} {ws : List Nat}

theorem State.nextInstr_of_decode {i : Instr} (hfetch : s.fetch c (s.ctx c).pc = .ok ws) (hdec : decode ws = .ok i) :
    s.nextInstr c = .ok i := by
  simp [State.nextInstr, hfetch, hdec]

theorem State.nextInstr_of_illegal (hfetch : s.fetch c (s.ctx c).pc = .ok ws) (hdec : decode ws = .error .illegalOpcode) :
    s.nextInstr c = .error { code := Cause.illegalOpcode } := by
  simp [State.nextInstr, hfetch, hdec]

theorem State.nextInstr_of_reserved (hfetch : s.fetch c (s.ctx c).pc = .ok ws) (hdec : decode ws = .error .reservedBits) :
    s.nextInstr c = .error { code := Cause.reservedBits } := by
  simp [State.nextInstr, hfetch, hdec]

theorem State.nextInstr_of_unfetched {ptr : Word} {k : Cause} (hfetch : s.fetch c (s.ctx c).pc = .error (ptr, k)) :
    s.nextInstr c = .error { code := Cause.fetchFault, addr := ptr, info := k.setWidth 64 } := by
  simp [State.nextInstr, hfetch]

theorem State.blockIssued_of_fixed {i : Instr} (h : s.variable c i = false) : s.blockIssued c i = s := by
  simp [State.blockIssued, h]

/-! What an issue slot does, by what is found at the pc. -/

theorem issue_of_error {e : Exc} (h : (s.takeSlot c).nextInstr c = .error e) :
    issue c s = .next ((s.takeSlot c).takeFault c e) := by
  simp [issue, h]

theorem issue_of_next {i : Instr} {t : State} (h : (s.takeSlot c).nextInstr c = .ok i) (hexec : exec i (s.takeSlot c) = .next t) :
    issue c s = .next (t.blockIssued c i) := by
  simp [issue, h, hexec]

theorem issue_of_stop {i : Instr} (h : (s.takeSlot c).nextInstr c = .ok i) (hexec : ∀ t, exec i (s.takeSlot c) ≠ .next t) :
    issue c s = exec i (s.takeSlot c) := by
  cases hx : exec i (s.takeSlot c) with
  | next t => exact absurd hx (hexec t)
  | fault e => simp [issue, h, hx]
  | refused e => simp [issue, h, hx]

end

/-- A core's slot on the agenda is the picked context's issue. -/
theorem step_issue {s : State} {k c : Nat} {r : List Turn} (hagenda : s.agenda = .issue k :: r) (hpower : s.pkg.tripped = false)
    (hpick : (({ s with agenda := r } : State).turnOf k).pick k = some c) :
    step s = issue c (({ s with agenda := r } : State).turnOf k) := by
  simp [step, hagenda, hpower, hpick]

theorem step_device {s : State} {i : Instr} {r : List Turn} (hagenda : s.agenda = .device i :: r) :
    step s = if s.pkg.tripped && !onStandby i then .next { s with agenda := r } else exec i { s with agenda := r } := by
  simp [step, hagenda]

/-- Settles O55: an issue slot goes by what stands at the pc, and a device turn by whether the device has power. -/
theorem stepRunsTheDecodedInstruction : Obligations.StepRunsTheDecodedInstruction := by
  intro s k c i r s1
  refine ⟨fun hagenda hpower hpick => ?_, fun hagenda => ?_⟩
  · have hstep : step s = issue c s1 := step_issue hagenda hpower hpick
    rw [hstep]
    refine ⟨rfl, fun ws hfetch hdec => ⟨fun t hexec => ?_, fun hstop => ?_⟩, fun ws hfetch hdec => ?_, fun ws hfetch hdec => ?_,
      fun ptr e hfetch => ?_⟩
    · have hnext := issue_of_next (State.nextInstr_of_decode hfetch hdec) hexec
      exact ⟨hnext, fun hfixed => by rw [hnext, State.blockIssued_of_fixed hfixed]⟩
    · exact issue_of_stop (State.nextInstr_of_decode hfetch hdec) hstop
    · exact issue_of_error (State.nextInstr_of_illegal hfetch hdec)
    · exact issue_of_error (State.nextInstr_of_reserved hfetch hdec)
    · exact issue_of_error (State.nextInstr_of_unfetched hfetch)
  · rw [step_device hagenda]
    refine ⟨fun hpower => if_neg ?_, fun htrip hstandby => if_pos (by simp [htrip, hstandby])⟩
    rcases hpower with hpower | hstandby
    · simp [hpower]
    · simp [hstandby]

end Sys2Proof.Machine
end

section
/-! Rounding a value that the format holds (06 R103 to R106): no place of the value is lost, in any mode, so the bits come back. -/

namespace Sys2Proof.Machine

/-! ## The length of a number -/

theorem bitLen_le_iff {m k : Nat} : bitLen m ≤ k ↔ m < 2 ^ k := by
  unfold bitLen
  split
  next hzero => simp [hzero]
  next hne => exact Nat.succ_le_iff.trans (Nat.log2_lt hne)

theorem lt_two_pow_bitLen (m : Nat) : m < 2 ^ bitLen m := bitLen_le_iff.mp le_rfl

theorem mul_two_pow_lt {m sh k : Nat} (h : bitLen m + sh = k) : m * 2 ^ sh < 2 ^ k := by
  rw [← h, pow_add]
  exact Nat.mul_lt_mul_of_pos_right (lt_two_pow_bitLen m) (Nat.two_pow_pos sh)

theorem bitLen_two_pow_add {k r : Nat} (hr : r < 2 ^ k) : bitLen (2 ^ k + r) = k + 1 := by
  refine Nat.le_antisymm (bitLen_le_iff.mpr (by omega)) (Nat.lt_of_not_le fun hle => ?_)
  have := bitLen_le_iff.mp hle
  omega

/-! ## Rounding that loses nothing -/

theorem roundUnits_zero (rm : Nat) (neg : Bool) (m : Nat) : roundUnits rm neg m 0 false = (m, false) := by
  simp [roundUnits, Nat.mod_one]

/-- A multiple of `2^q` needs no rounding onto the multiples of `2^q`. -/
theorem roundAt_of_le (rm : Nat) (neg : Bool) (m : Nat) {e q : Int} (hq : q ≤ e) :
    roundAt rm neg m e q false = (m * 2 ^ (e - q).toNat, false) := by
  unfold roundAt
  split
  next heq =>
    obtain rfl : e = q := by omega
    simp [roundUnits_zero]
  next => rfl

/-- A value on the grid of the format and inside its range keeps its place there. Its last place in the format is `q`. -/
theorem roundF_of_fits {f : FFmt} (rm : Nat) (satf neg : Bool) {m : Nat} {e q : Int} (hne : m ≠ 0) (hlen : bitLen m ≤ f.fb + 1)
    (hgrid : f.qmin ≤ e) (hrange : e + bitLen m - 1 ≤ f.bias) (hq : q = max (e + bitLen m - 1 - f.fb) f.qmin) :
    roundF f rm satf (.fin neg m e false) = (f.zero neg + (q - f.qmin).toNat * 2 ^ f.fb + m * 2 ^ (e - q).toNat, 0) := by
  obtain ⟨q1, hq1⟩ : ∃ q1 : Int, q1 = e + bitLen m - 1 - f.fb := ⟨_, rfl⟩
  have hnoCarry : m * 2 ^ (e - q1).toNat ≠ 2 ^ (f.fb + 1) := Nat.ne_of_lt (mul_two_pow_lt (by omega))
  have hlast : (if q1 < f.qmin then f.qmin else q1) = q := by split <;> omega
  have hwhole1 := roundAt_of_le rm neg m (show q1 ≤ e by omega)
  have hwhole := roundAt_of_le rm neg m (show q ≤ e by omega)
  simp [roundF, hne, ← hq1, hwhole1, hnoCarry, not_lt.mpr hrange, hlast, hwhole]

/-! ## The bits of a format -/

/-- The exponent field has room for a bias of at least 1, as in every format of 06 R103. -/
def FFmt.Wide (f : FFmt) : Prop := 2 ≤ f.eb

theorem wide_fffFmt (f : Nat) : (fffFmt f).Wide := by
  unfold fffFmt FFmt.Wide
  split_ifs <;> decide

section
variable {f : FFmt} (hwide : f.Wide)
include hwide

theorem FFmt.Wide.one_le_bias : 1 ≤ f.bias := by
  have : 2 ^ 1 ≤ 2 ^ (f.eb - 1) := Nat.pow_le_pow_right (by decide) (Nat.le_sub_one_of_lt hwide)
  unfold FFmt.bias
  omega

theorem FFmt.Wide.two_pow_eb : 2 ^ f.eb = 2 * f.bias + 2 := by
  have hsplit : 2 ^ f.eb = 2 ^ (f.eb - 1) * 2 := by
    rw [← pow_succ, Nat.sub_add_cancel (Nat.one_le_of_lt hwide)]
  have := hwide.one_le_bias
  unfold FFmt.bias at *
  omega

/-- 1 in a format, with either sign. -/
theorem FFmt.Wide.roundF_one (rm : Nat) (satf neg : Bool) :
    roundF f rm satf (.fin neg 1 0 false) = (f.bias * 2 ^ f.fb + neg.toNat * 2 ^ (f.eb + f.fb), 0) := by
  have hbias := hwide.one_le_bias
  have hlen : bitLen 1 = 1 := by decide
  have hplace : (-(f.fb : Int) - f.qmin).toNat + 1 = f.bias := by unfold FFmt.qmin; omega
  have hshift : (0 - -(f.fb : Int)).toNat = f.fb := by omega
  rw [roundF_of_fits rm satf neg (q := -(f.fb : Int)) one_ne_zero (by omega) (by unfold FFmt.qmin; omega) (by omega)
    (by unfold FFmt.qmin; omega), ← hplace, hshift, FFmt.zero]
  congr 1
  ring

end

/-- The bits of a float are its sign, its exponent and its fraction. -/
theorem FFmt.bits_eq (f : FFmt) {w : Nat} (hw : w < 2 ^ f.width) :
    w = f.zero (decide (w / 2 ^ (f.eb + f.fb) = 1)) + w / 2 ^ f.fb % 2 ^ f.eb * 2 ^ f.fb + w % 2 ^ f.fb := by
  have hsign : w / 2 ^ (f.eb + f.fb) < 2 := by
    rw [Nat.div_lt_iff_lt_mul (by positivity), ← pow_succ']
    exact hw
  have hneg : (decide (w / 2 ^ (f.eb + f.fb) = 1)).toNat = w / 2 ^ f.fb / 2 ^ f.eb := by
    rw [Nat.div_div_eq_div_mul, ← pow_add, Nat.add_comm f.fb]
    interval_cases w / 2 ^ (f.eb + f.fb) <;> rfl
  have hhigh := Nat.div_add_mod' (w / 2 ^ f.fb) (2 ^ f.eb)
  have hlow := Nat.div_add_mod' w (2 ^ f.fb)
  unfold FFmt.zero
  rw [hneg, pow_add, ← Nat.mul_assoc, ← Nat.add_mul, hhigh, hlow]

/-- 06 R103, R104: the four kinds of value that bits can stand for, and the bits of each kind that is no NaN. -/
theorem FFmt.value_cases (f : FFmt) (a : Nat) :
    f.value a = .nan ∨
    (∃ neg, f.value a = .inf neg ∧ a % 2 ^ f.width = f.inf neg) ∨
    (∃ neg fr, fr < 2 ^ f.fb ∧ f.value a = .fin neg fr f.qmin false ∧ a % 2 ^ f.width = f.zero neg + fr) ∨
    (∃ (neg : Bool) (ex fr : Nat), fr < 2 ^ f.fb ∧ ex ≠ 0 ∧ ex < 2 ^ f.eb - 1 ∧
      f.value a = .fin neg (2 ^ f.fb + fr) (f.qmin + ((ex : Int) - 1)) false ∧
      a % 2 ^ f.width = f.zero neg + ex * 2 ^ f.fb + fr) := by
  have hbits := f.bits_eq (Nat.mod_lt a (Nat.two_pow_pos f.width))
  have hfrac := Nat.mod_lt (a % 2 ^ f.width) (Nat.two_pow_pos f.fb)
  have hexp := Nat.mod_lt (a % 2 ^ f.width / 2 ^ f.fb) (Nat.two_pow_pos f.eb)
  by_cases hmax : a % 2 ^ f.width / 2 ^ f.fb % 2 ^ f.eb = 2 ^ f.eb - 1
  · by_cases hinf : a % 2 ^ f.width % 2 ^ f.fb = 0
    · refine .inr (.inl ⟨_, (if_pos hmax).trans (if_pos hinf), hbits.trans ?_⟩)
      rw [hmax, hinf, FFmt.inf, FFmt.zero, Nat.add_zero, Nat.add_comm]
    · exact .inl ((if_pos hmax).trans (if_neg hinf))
  · by_cases hsub : a % 2 ^ f.width / 2 ^ f.fb % 2 ^ f.eb = 0
    · refine .inr (.inr (.inl ⟨_, _, hfrac, (if_neg hmax).trans (if_pos hsub), hbits.trans ?_⟩))
      rw [hsub, Nat.zero_mul, Nat.add_zero]
    · exact .inr (.inr (.inr ⟨_, _, _, hfrac, hsub, by omega, (if_neg hmax).trans (if_neg hsub), hbits⟩))

/-! ## Rounding the value of a float -/

@[simp] theorem roundF_nan (f : FFmt) (rm : Nat) (satf : Bool) : roundF f rm satf .nan = (f.qnan, 0) := rfl

@[simp] theorem roundF_inf (f : FFmt) (rm : Nat) (satf neg : Bool) : roundF f rm satf (.inf neg) = (f.inf neg, 0) := rfl

@[simp] theorem roundF_zero (f : FFmt) (rm : Nat) (satf neg : Bool) (e : Int) :
    roundF f rm satf (.fin neg 0 e false) = (f.zero neg, 0) := by
  simp [roundF]

theorem roundF_subnormal {f : FFmt} (rm : Nat) (satf neg : Bool) {fr : Nat} (hfrac : fr < 2 ^ f.fb) :
    roundF f rm satf (.fin neg fr f.qmin false) = (f.zero neg + fr, 0) := by
  by_cases hzero : fr = 0
  · simp [hzero]
  · have hlen := bitLen_le_iff.mpr hfrac
    have hmin : f.qmin = 1 - (f.bias : Int) - f.fb := rfl
    rw [roundF_of_fits rm satf neg (q := f.qmin) hzero (by omega) le_rfl (by omega) (by omega)]
    simp

theorem FFmt.Wide.roundF_normal {f : FFmt} (hwide : f.Wide) (rm : Nat) (satf neg : Bool) {ex fr : Nat} (hfrac : fr < 2 ^ f.fb)
    (hlow : ex ≠ 0) (hhigh : ex < 2 ^ f.eb - 1) :
    roundF f rm satf (.fin neg (2 ^ f.fb + fr) (f.qmin + ((ex : Int) - 1)) false) = (f.zero neg + ex * 2 ^ f.fb + fr, 0) := by
  have hlen := bitLen_two_pow_add hfrac
  have heb := hwide.two_pow_eb
  have hmin : f.qmin = 1 - (f.bias : Int) - f.fb := rfl
  have hpos := Nat.two_pow_pos f.fb
  have hplace : (f.qmin + ((ex : Int) - 1) - f.qmin).toNat = ex - 1 := by omega
  have hlead : ex * 2 ^ f.fb = (ex - 1) * 2 ^ f.fb + 2 ^ f.fb := by
    rw [← Nat.succ_mul, Nat.succ_eq_add_one, Nat.sub_add_cancel (Nat.pos_of_ne_zero hlow)]
  rw [roundF_of_fits rm satf neg (q := f.qmin + ((ex : Int) - 1)) (by omega) (by omega) (by omega) (by omega) (by omega),
    hplace, hlead, sub_self, Int.toNat_zero, pow_zero, mul_one]
  congr 1
  ring

/-- 06 R106: the bits of a float that is no NaN are the rounding of its value, and a NaN is made canonical. -/
theorem FFmt.Wide.roundF_value {f : FFmt} (hwide : f.Wide) (rm : Nat) (satf : Bool) (a : Nat) :
    roundF f rm satf (f.value a) = (if f.value a = .nan then f.qnan else a % 2 ^ f.width, 0) := by
  rcases f.value_cases a with
    hval | ⟨neg, hval, hbits⟩ | ⟨neg, fr, hfrac, hval, hbits⟩ | ⟨neg, ex, fr, hfrac, hlow, hhigh, hval, hbits⟩
  case inl => simp [hval]
  case inr.inl => simp [hval, hbits]
  case inr.inr.inl => simp [hval, hbits, roundF_subnormal rm satf neg hfrac]
  case inr.inr.inr => simp [hval, hbits, hwide.roundF_normal rm satf neg hfrac hlow hhigh]

theorem roundingKeepsWhatFits : Claim.RoundingKeepsWhatFits :=
  fun f rm a st _ => (wide_fffFmt f).roundF_value rm st a

end Sys2Proof.Machine
end

section
/-! Invalid operations and division by zero (06 R107): what each operation gives where its operands are infinite, zero
or negative. -/

namespace Sys2Proof.Machine

/-! ## The kinds of value -/

theorem FVal.isNan_iff {v : FVal} : v.isNan = true ↔ v = .nan := by cases v <;> simp [FVal.isNan]

theorem FVal.isInf_iff {v : FVal} : v.isInf = true ↔ ∃ n, v = .inf n := by cases v <;> simp [FVal.isInf]

theorem FVal.isZero_iff {v : FVal} : v.isZero = true ↔ ∃ n e st, v = .fin n 0 e st := by cases v <;> simp [FVal.isZero]

/-- A finite value other than zero. -/
theorem FVal.finite_nonzero {v : FVal} (hnan : v.isNan = false) (hinf : v.isInf = false) (hzero : v.isZero = false) :
    ∃ n m e st, m ≠ 0 ∧ v = .fin n m e st := by
  cases v with
  | nan => cases hnan
  | inf n => cases hinf
  | fin n m e st => exact ⟨n, m, e, st, of_decide_eq_false hzero, rfl⟩

/-- A value below zero. -/
theorem FVal.negative_cases {v : FVal} (hnan : v.isNan = false) (hneg : v.isNeg = true) (hzero : v.isZero = false) :
    v = .inf true ∨ ∃ m e st, m ≠ 0 ∧ v = .fin true m e st := by
  cases v with
  | nan => cases hnan
  | inf n => exact .inl (congrArg FVal.inf hneg)
  | fin n m e st => exact .inr ⟨m, e, st, of_decide_eq_false hzero, by rw [show n = true from hneg]⟩

@[simp] theorem FVal.isNan_nan : FVal.nan.isNan = true := rfl

@[simp] theorem FVal.isNan_inf (n : Bool) : (FVal.inf n).isNan = false := rfl

section
variable {f : FFmt} {a b : Nat}

/-! ## Each invalid operation -/

theorem fAdd_inf_opposite {n : Bool} (rm : Nat) (st : Bool) (hx : f.value a = .inf n) (hy : f.value b = .inf (!n)) :
    fAdd f rm st a b = (f.qnan, fNV) := by
  simp [fAdd, hx, hy, fSum, invalidOf]

theorem fSub_inf_same {n : Bool} (rm : Nat) (st : Bool) (hx : f.value a = .inf n) (hy : f.value b = .inf n) :
    fSub f rm st a b = (f.qnan, fNV) := by
  simp [fSub, hx, hy, FVal.neg, fSum, invalidOf]

/-- A product that is no number though its factors are is invalid, whatever a fused sum adds to it (07 R144). -/
theorem fMul_fMad_invalid (rm : Nat) (st : Bool) (hprod : fProd (f.value a) (f.value b) = .nan)
    (hx : (f.value a).isNan = false) (hy : (f.value b).isNan = false) :
    fMul f rm st a b = (f.qnan, fNV) ∧ ∀ d, fMad f rm st a b d = (f.qnan, fNV) := by
  simp [fMul, fMad, hprod, hx, hy, fSum, invalidOf]

theorem fDiv_zero_zero (rm : Nat) (st : Bool) (hx : (f.value a).isZero = true) (hy : (f.value b).isZero = true) :
    fDiv f rm st a b = (f.qnan, fNV) := by
  obtain ⟨n, e, s, hx⟩ := FVal.isZero_iff.mp hx
  obtain ⟨k, g, t, hy⟩ := FVal.isZero_iff.mp hy
  simp [fDiv, hx, hy]

theorem fDiv_inf_inf (rm : Nat) (st : Bool) (hx : (f.value a).isInf = true) (hy : (f.value b).isInf = true) :
    fDiv f rm st a b = (f.qnan, fNV) := by
  obtain ⟨n, hx⟩ := FVal.isInf_iff.mp hx
  obtain ⟨k, hy⟩ := FVal.isInf_iff.mp hy
  simp [fDiv, hx, hy]

theorem fDiv_by_zero (rm : Nat) (st : Bool) (hnan : (f.value a).isNan = false) (hinf : (f.value a).isInf = false)
    (hzero : (f.value a).isZero = false) (hy : (f.value b).isZero = true) :
    fDiv f rm st a b = (f.inf ((f.value a).isNeg != (f.value b).isNeg), fDZ) := by
  obtain ⟨k, g, t, hy⟩ := FVal.isZero_iff.mp hy
  obtain ⟨n, m, e, s, hm, hx⟩ := FVal.finite_nonzero hnan hinf hzero
  simp [fDiv, hx, hy, hm, FVal.isNeg]

theorem fSqrt_negative (rm : Nat) (st : Bool) (hnan : (f.value a).isNan = false) (hneg : (f.value a).isNeg = true)
    (hzero : (f.value a).isZero = false) : fSqrt f rm st a = (f.qnan, fNV) := by
  rcases FVal.negative_cases hnan hneg hzero with hx | ⟨m, e, s, hm, hx⟩
  · simp [fSqrt, hx]
  · simp [fSqrt, hx, hm]

end

/-! ## Products of zero and infinity -/

theorem fProd_zero_inf {x y : FVal} (hx : x.isZero = true) (hy : y.isInf = true) : fProd x y = .nan := by
  obtain ⟨n, e, st, rfl⟩ := FVal.isZero_iff.mp hx
  obtain ⟨k, rfl⟩ := FVal.isInf_iff.mp hy
  simp [fProd]

theorem fProd_inf_zero {x y : FVal} (hx : x.isInf = true) (hy : y.isZero = true) : fProd x y = .nan := by
  obtain ⟨n, rfl⟩ := FVal.isInf_iff.mp hx
  obtain ⟨k, e, st, rfl⟩ := FVal.isZero_iff.mp hy
  simp [fProd]

theorem FVal.isNan_of_isZero {v : FVal} (h : v.isZero = true) : v.isNan = false := by
  obtain ⟨n, e, st, rfl⟩ := FVal.isZero_iff.mp h
  rfl

theorem FVal.isNan_of_isInf {v : FVal} (h : v.isInf = true) : v.isNan = false := by
  obtain ⟨n, rfl⟩ := FVal.isInf_iff.mp h
  rfl

theorem invalidOperations : Claim.InvalidOperations := by
  intro f rm a b st g x y nv
  refine ⟨fun n => fAdd_inf_opposite rm st, fun n => fSub_inf_same rm st, fun hx hy => ?_, fun hx hy => ?_,
    fDiv_zero_zero rm st, fDiv_inf_inf rm st, fSqrt_negative rm st, fDiv_by_zero rm st⟩
  · exact fMul_fMad_invalid rm st (fProd_zero_inf hx hy) (FVal.isNan_of_isZero hx) (FVal.isNan_of_isInf hy)
  · exact fMul_fMad_invalid rm st (fProd_inf_zero hx hy) (FVal.isNan_of_isInf hx) (FVal.isNan_of_isZero hy)

end Sys2Proof.Machine
end

section
/-! The special and exact cases of the approximate functions (06 R122), and how the instructions complete (07 R148). -/

namespace Sys2Proof.Machine

/-- A plain thread's float instruction ends with its result written and its flags raised. -/
theorem Plain.putsF {s : State} (h : Plain s) {i : Instr} {body : State → Res} {d : Reg} {r : Nat × BitVec 5}
    (hexec : exec i s = goes (s.run scalarGate 4 body)) (hbody : body s = s.writesF d r) : Claim.PutsF s i d r := by
  unfold Claim.PutsF
  rw [hexec, h.run, hbody, State.writesF, h.finish_done, State.modCtx_modCtx]
  simp only [State.after, Ctx.raise_pc, Ctx.setReg_pc]
  rfl

section
variable {f : FFmt} {a : Nat}

/-! ## NaN -/

theorem apx_nan (fn : Nat) (hx : f.value a = .nan) : apx fn f a = (f.qnan, 0) := by
  unfold apx
  split_ifs
  · simp [apxRcp, hx]
  · simp [apxRsq, hx]
  · simp [apxExp2, hx]
  · simp [apxLog2, hx]
  · simp [apxSinpi, hx]
  · simp [apxCospi, hx]
  · simp [apxTanh, hx]
  · simp [apxSigm, hx]

/-! ## Zeros -/

variable {n : Bool} {e : Int} {st : Bool}

theorem overPow_zero (n : Bool) (e : Int) (least : Nat) : overPow n 0 e least = (0, max least (-e).toNat) := by
  simp [overPow, unitsOf]

theorem apxRcp_zero (hx : f.value a = .fin n 0 e st) : apxRcp f a = (f.inf n, fDZ) := by simp [apxRcp, hx]

theorem apxRsq_zero (hx : f.value a = .fin n 0 e st) : apxRsq f a = (f.inf n, fDZ) := by simp [apxRsq, hx]

theorem apxLog2_zero (hx : f.value a = .fin n 0 e st) : apxLog2 f a = (f.inf true, fDZ) := by simp [apxLog2, hx]

theorem apxTanh_zero (hx : f.value a = .fin n 0 e st) : apxTanh f a = (f.zero n, 0) := by simp [apxTanh, hx]

theorem apxExp2_zero (hx : f.value a = .fin n 0 e st) : apxExp2 f a = apxExact f (.fin false 1 0 false) := by
  simp [apxExp2, hx, overPow_zero, exp2Of, clampExp]

theorem apxSinpi_zero (hx : f.value a = .fin n 0 e st) : apxSinpi f a = (f.zero n, 0) := by
  simp [apxSinpi, hx, overPow_zero, sinpiOf, apxExact]

/-- SINPI of 1/2 is 1. -/
theorem sinpiOf_half (f : FFmt) {k : Nat} (hk : 1 ≤ k) (nz : Bool) :
    sinpiOf f (2 ^ (k - 1)) k nz = apxExact f (.fin false 1 0 false) := by
  have hturn : ((2 * 2 ^ (k - 1) : Int) % (4 * 2 ^ k)).toNat = 2 ^ k := by
    have hpos := Nat.two_pow_pos k
    rw [← pow_succ', Nat.sub_add_cancel hk, Int.emod_eq_of_lt (by positivity) (by norm_cast; omega)]
    norm_cast
  simp [sinpiOf, hturn]

theorem apxCospi_zero (hx : f.value a = .fin n 0 e st) : apxCospi f a = apxExact f (.fin false 1 0 false) := by
  simp only [apxCospi, hx, overPow_zero, zero_add]
  exact sinpiOf_half f (le_max_left _ _) false

/-! ## Values below zero -/

theorem apxRsq_negative (hnan : (f.value a).isNan = false) (hneg : (f.value a).isNeg = true) (hzero : (f.value a).isZero = false) :
    apxRsq f a = (f.qnan, fNV) := by
  rcases FVal.negative_cases hnan hneg hzero with hx | ⟨m, e, s, hm, hx⟩
  · simp [apxRsq, hx]
  · simp [apxRsq, hx, hm]

theorem apxLog2_negative (hnan : (f.value a).isNan = false) (hneg : (f.value a).isNeg = true) (hzero : (f.value a).isZero = false) :
    apxLog2 f a = (f.qnan, fNV) := by
  rcases FVal.negative_cases hnan hneg hzero with hx | ⟨m, e, s, hm, hx⟩
  · simp [apxLog2, hx]
  · simp [apxLog2, hx, hm]

/-! ## Infinities -/

theorem apxSinpi_inf (hx : f.value a = .inf n) : apxSinpi f a = (f.qnan, fNV) := by simp [apxSinpi, hx]

theorem apxCospi_inf (hx : f.value a = .inf n) : apxCospi f a = (f.qnan, fNV) := by simp [apxCospi, hx]

theorem apxRcp_inf (hx : f.value a = .inf n) : apxRcp f a = (f.zero n, 0) := by simp [apxRcp, hx]

theorem apxTanh_inf (hx : f.value a = .inf n) : apxTanh f a = apxExact f (.fin n 1 0 false) := by simp [apxTanh, hx]

theorem apxExp2_inf (hx : f.value a = .inf n) : apxExp2 f a = (if n then 0 else f.inf false, 0) := by
  cases n <;> simp [apxExp2, hx, FFmt.zero]

theorem apxSigm_inf (hx : f.value a = .inf n) :
    apxSigm f a = if n then (0, 0) else apxExact f (.fin false 1 0 false) := by
  cases n <;> simp [apxSigm, hx, FFmt.zero]

end

/-- 1 as an exact result of a special case, with either sign. -/
theorem FFmt.Wide.apxExact_one {f : FFmt} (hwide : f.Wide) (n : Bool) :
    apxExact f (.fin n 1 0 false) = (f.bias * 2 ^ f.fb + n.toNat * 2 ^ (f.eb + f.fb), 0) := hwide.roundF_one 0 false n

theorem FFmt.Wide.apxExact_pos_one {f : FFmt} (hwide : f.Wide) : apxExact f (.fin false 1 0 false) = (f.bias * 2 ^ f.fb, 0) := by
  simp [hwide.apxExact_one]

theorem approximateFunctions : Claim.ApproximateFunctions := by
  intro s f d a hplain _ _ g x v one nan bad
  have hwide : g.Wide := wide_fffFmt f.toNat
  refine ⟨?completes, fun hnan fn _ => apx_nan fn (FVal.isNan_iff.mp hnan), fun hzero => ?zero,
    fun hnan hneg hzero => ⟨apxRsq_negative hnan hneg hzero, apxLog2_negative hnan hneg hzero⟩, fun hinf => ?inf⟩
  case completes =>
    and_intros
    all_goals exact hplain.putsF rfl rfl
  case zero =>
    obtain ⟨n, e, st, hv⟩ := FVal.isZero_iff.mp hzero
    have hsign : v.isNeg = n := by rw [hv]; rfl
    rw [hsign]
    exact ⟨apxRcp_zero hv, apxRsq_zero hv, apxLog2_zero hv, (apxExp2_zero hv).trans hwide.apxExact_pos_one, apxTanh_zero hv,
      apxSinpi_zero hv, (apxCospi_zero hv).trans hwide.apxExact_pos_one⟩
  case inf =>
    obtain ⟨n, hv⟩ := FVal.isInf_iff.mp hinf
    have hsign : v.isNeg = n := by rw [hv]; rfl
    rw [hsign]
    refine ⟨apxSinpi_inf hv, apxCospi_inf hv, apxRcp_inf hv, (apxTanh_inf hv).trans (hwide.apxExact_one n), apxExp2_inf hv,
      (apxSigm_inf hv).trans ?_⟩
    rw [hwide.apxExact_pos_one]
    cases n <;> rfl

/-- Settles O5: a float's own value needs no rounding, and each special case of 06 R107 and R122 is decided by the kinds of the
operands. -/
theorem roundingAndApproximateFunctions : Obligations.RoundingAndApproximateFunctions :=
  ⟨⟨roundingKeepsWhatFits, invalidOperations⟩, approximateFunctions⟩

end Sys2Proof.Machine
end

section
/-! Elements of vector and predicate registers (08 R157, R160): what an element reads after it, or another, has been replaced, and what
replacing the active elements of a register leaves. -/

namespace Sys2Proof.Machine

/-! ## Fields of bits -/

theorem testBit_bitsAt {k : Nat} (x : BitVec k) (lo n i : Nat) :
    (bitsAt x lo n).testBit i = (decide (i < n) && x.getLsbD (lo + i)) := by
  simp [bitsAt, Nat.testBit_mod_two_pow, Nat.testBit_div_two_pow, BitVec.getLsbD, Nat.add_comm]

/-- A number above, in and below a field of its bits. -/
theorem testBit_three {m f r lo n : Nat} (hf : f < 2 ^ n) (hr : r < 2 ^ lo) (i : Nat) :
    (2 ^ lo * (2 ^ n * m + f) + r).testBit i =
      if i < lo then r.testBit i else if i < lo + n then f.testBit (i - lo) else m.testBit (i - lo - n) := by
  rw [Nat.testBit_two_pow_mul_add _ hr, Nat.testBit_two_pow_mul_add _ hf]
  by_cases hlo : i < lo
  · rw [if_pos hlo, if_pos hlo]
  · rw [if_neg hlo, if_neg hlo]
    simp only [Nat.sub_lt_iff_lt_add (Nat.le_of_not_lt hlo), Nat.add_comm n]

theorem getLsbD_putBits {k : Nat} (x : BitVec k) {lo n : Nat} (hfits : lo + n ≤ k) (v i : Nat) :
    (putBits x lo n v).getLsbD i = if lo ≤ i ∧ i < lo + n then v.testBit (i - lo) else x.getLsbD i := by
  obtain ⟨m, f, r, hf, hr, hx⟩ : ∃ m f r, f < 2 ^ n ∧ r < 2 ^ lo ∧ x.toNat = 2 ^ lo * (2 ^ n * m + f) + r :=
    ⟨x.toNat / 2 ^ lo / 2 ^ n, x.toNat / 2 ^ lo % 2 ^ n, x.toNat % 2 ^ lo, Nat.mod_lt _ (Nat.two_pow_pos n),
      Nat.mod_lt _ (Nat.two_pow_pos lo), by rw [Nat.div_add_mod, Nat.div_add_mod]⟩
  have hfield : x.toNat / 2 ^ lo % 2 ^ n = f := by
    rw [hx, Nat.mul_add_div (Nat.two_pow_pos lo), Nat.div_eq_of_lt hr, Nat.add_zero, Nat.mul_add_mod, Nat.mod_eq_of_lt hf]
  have hput : x.toNat - f * 2 ^ lo + v % 2 ^ n * 2 ^ lo = 2 ^ lo * (2 ^ n * m + v % 2 ^ n) + r := by
    rw [hx, Nat.mul_add (2 ^ lo), Nat.mul_add (2 ^ lo), Nat.mul_comm f, Nat.mul_comm (v % 2 ^ n)]
    omega
  have hbit : x.getLsbD i = x.toNat.testBit i := rfl
  rw [putBits, hfield, hput, BitVec.getLsbD_ofNat, testBit_three (Nat.mod_lt _ (Nat.two_pow_pos n)) hr]
  by_cases hi : i < k
  · rw [hbit, hx, testBit_three hf hr, Nat.testBit_mod_two_pow]
    simp only [hi, decide_true, Bool.true_and]
    split_ifs <;> first | omega | simp <;> omega
  · have hout : ¬ (lo ≤ i ∧ i < lo + n) := by omega
    rw [if_neg hout, BitVec.getLsbD_of_ge x i (by omega), decide_eq_false hi, Bool.false_and]

/-! ## Elements -/

section
variable {k : Nat} (v : BitVec k) (b : Nat)

theorem lane_lt (i : Nat) : lane v b i < 2 ^ b := Nat.mod_lt _ (Nat.two_pow_pos b)

@[simp] theorem lane_mod (i : Nat) : lane v b i % 2 ^ b = lane v b i := Nat.mod_eq_of_lt (lane_lt v b i)

/-- An element after one within the register has been replaced. -/
theorem lane_setLane {i : Nat} (hfits : b * (i + 1) ≤ k) (x j : Nat) :
    lane (setLane v b i x) b j = if j = i then x % 2 ^ b else lane v b j := by
  refine Nat.eq_of_testBit_eq fun t => ?_
  have hwhere : (b * i ≤ b * j + t ∧ b * j + t < b * i + b) ∧ t < b ↔ j = i ∧ t < b := by
    refine ⟨fun ⟨⟨hlo, hhi⟩, ht⟩ => ⟨?_, ht⟩, fun ⟨hj, ht⟩ => by subst hj; omega⟩
    rcases Nat.lt_trichotomy j i with h | h | h
    · have := Nat.mul_le_mul_left b (Nat.succ_le_of_lt h)
      rw [Nat.mul_succ] at this; omega
    · exact h
    · have := Nat.mul_le_mul_left b (Nat.succ_le_of_lt h)
      rw [Nat.mul_succ] at this; omega
  rw [lane, testBit_bitsAt, setLane, getLsbD_putBits v (Nat.mul_succ b i ▸ hfits)]
  by_cases ht : t < b
  · simp only [ht, and_true] at hwhere
    simp only [hwhere]
    split_ifs with hj
    · subst hj; simp [ht, Nat.testBit_mod_two_pow]
    · simp [lane, testBit_bitsAt, ht]
  · split_ifs <;> simp [lane, testBit_bitsAt, ht, Nat.testBit_mod_two_pow]

end

/-! ## The active elements of a register -/

section
variable {old : VWord} {b : Nat} {act : Nat → Bool} {f : Nat → Nat × BitVec 5}

theorem mapLanes_succ (n : Nat) : mapLanes old b (n + 1) act f =
    if act n then (setLane (mapLanes old b n act f).1 b n (f n).1, (mapLanes old b n act f).2 ||| (f n).2) else mapLanes old b n act f := by
  simp [mapLanes, List.range_succ]

theorem lane_mapLanes (n : Nat) (hfits : b * n ≤ 1024) (i : Nat) :
    lane (mapLanes old b n act f).1 b i = if i < n ∧ act i = true then (f i).1 % 2 ^ b else lane old b i := by
  induction n with
  | zero => simp [mapLanes]
  | succ n ih =>
    have hn : b * n ≤ 1024 := le_trans (Nat.mul_le_mul_left b (Nat.le_succ n)) hfits
    rw [mapLanes_succ]
    by_cases hact : act n = true
    · rw [if_pos hact, lane_setLane _ _ hfits, ih hn]
      by_cases hi : i = n
      · subst hi; simp [hact]
      · simp only [hi, if_false, show (i < n + 1) = (i < n) from by simp; omega]
    · rw [if_neg hact, ih hn]
      by_cases hi : i = n
      · subst hi; simp [hact]
      · simp only [show (i < n + 1) = (i < n) from by simp; omega]

theorem flags_mapLanes (n : Nat) :
    (mapLanes old b n act f).2 = (List.range n).foldl (fun a i => if act i then a ||| (f i).2 else a) 0 := by
  induction n with
  | zero => rfl
  | succ n ih =>
    rw [mapLanes_succ, List.range_succ, List.foldl_append, ← ih]
    by_cases hact : act n = true <;> simp [hact]

end

/-- Replacing the active bits of a predicate, one after another. -/
theorem getLsbD_foldl_putBits (act t : Nat → Bool) (old : BitVec 256) (n : Nat) (hn : n ≤ 256) (j : Nat) :
    ((List.range n).foldl (fun m i => if act i then putBits m i 1 (t i).toNat else m) old).getLsbD j =
      if j < n ∧ act j = true then t j else old.getLsbD j := by
  induction n with
  | zero => simp
  | succ n ih =>
    rw [List.range_succ, List.foldl_append]
    simp only [List.foldl_cons, List.foldl_nil]
    by_cases hact : act n = true
    · rw [if_pos hact, getLsbD_putBits _ (by omega), ih (by omega)]
      by_cases hj : j = n
      · subst hj; cases t j <;> simp [hact]
      · rw [if_neg (by omega)]
        simp only [show (j < n + 1) = (j < n) from by simp; omega]
    · rw [if_neg hact, ih (by omega)]
      by_cases hj : j = n
      · subst hj; simp [hact]
      · simp only [show (j < n + 1) = (j < n) from by simp; omega]

/-- The elements of a format fill a register. -/
theorem codeBits_mul_lanes (f : Nat) : codeBits f * lanes f ≤ 1024 := by
  unfold lanes
  split
  · simp [*]
  · exact Nat.mul_div_le _ _

end Sys2Proof.Machine
end

section
/-! What a vector port's operations change and leave (08 R156, R158, R161, R166): its registers, its predicates, `VPCFG`, and its
control: the queue, the running repetition and the repetition buffer. -/

namespace Sys2Proof.Machine

/-! ## The state's ports -/

@[simp] theorem State.modPort_port_same (s : State) (k p : Nat) (f : Port → Port) : (s.modPort k p f).port k p = f (s.port k p) :=
  (SMap.at_put _ _ _ _ _).trans (if_pos rfl)

/-! ## Registers, predicates and flags -/

/-- What runs a port: its queue, its repetition, and the repetition buffer. -/
def Port.control (q : Port) : List VEntry × Option Nat × List VEntry := (q.queue, q.rep, q.repBuf)

section
variable (q : Port) (n : Nat) (r : VReg)

@[simp] theorem VReg.toNat_mod : r.toNat % 32 = r.toNat := Nat.mod_eq_of_lt r.isLt

@[simp] theorem Port.vreg_setV (v : VWord) (m : Nat) : (q.setV n v).vreg m = if m = n then v else q.vreg m := SMap.at_put _ _ _ _ _
@[simp] theorem Port.preg_setV (v : VWord) (m : Nat) : (q.setV n v).preg m = q.preg m := rfl
@[simp] theorem Port.cfg_setV (v : VWord) : (q.setV n v).cfg = q.cfg := rfl
@[simp] theorem Port.control_setV (v : VWord) : (q.setV n v).control = q.control := rfl

@[simp] theorem Port.vreg_setP (v : BitVec 256) (m : Nat) : (q.setP n v).vreg m = q.vreg m := rfl
@[simp] theorem Port.preg_setP (v : BitVec 256) (m : Nat) : (q.setP n v).preg m = if m = n then v else q.preg m := SMap.at_put _ _ _ _ _
@[simp] theorem Port.cfg_setP (v : BitVec 256) : (q.setP n v).cfg = q.cfg := rfl
@[simp] theorem Port.control_setP (v : BitVec 256) : (q.setP n v).control = q.control := rfl

@[simp] theorem Port.vreg_raise (f : BitVec 5) (m : Nat) : (q.raise f).vreg m = q.vreg m := rfl
@[simp] theorem Port.preg_raise (f : BitVec 5) (m : Nat) : (q.raise f).preg m = q.preg m := rfl
@[simp] theorem Port.cfg_raise (f : BitVec 5) : (q.raise f).cfg = q.cfg ||| (f.setWidth 64 <<< 16) := rfl
@[simp] theorem Port.control_raise (f : BitVec 5) : (q.raise f).control = q.control := rfl

@[simp] theorem Port.vreg_mark (u : VUse) (bad : Bool) (m : Nat) : (q.mark u bad).vreg m = q.vreg m := rfl
@[simp] theorem Port.preg_mark (u : VUse) (bad : Bool) (m : Nat) : (q.mark u bad).preg m = q.preg m := rfl
@[simp] theorem Port.cfg_mark (u : VUse) (bad : Bool) : (q.mark u bad).cfg = q.cfg := rfl
@[simp] theorem Port.control_mark (u : VUse) (bad : Bool) : (q.mark u bad).control = q.control := rfl

@[simp] theorem Port.control_elementwise (e : VEntry) (qp d : Nat) (f : Nat → Nat × BitVec 5) :
    (q.elementwise e qp d f).control = q.control := rfl
@[simp] theorem Port.control_putPairs (f d : Nat) (l : List SortPair) : (q.putPairs f d l).control = q.control := rfl

/-- An instruction of the port computes registers, predicates and flags, and leaves the control. -/
@[simp] theorem Port.control_compute (e : VEntry) : (q.compute e n).control = q.control := by
  unfold Port.compute
  split
  any_goals rfl
  · split_ifs <;> rfl

@[simp] theorem Port.control_execute (e : VEntry) : (q.execute e n).control = q.control := q.control_compute n e

end

/-- Entries executed one after another leave the control. -/
theorem Port.control_foldl_execute (l : List VEntry) (n : Nat) (q : Port) :
    (l.foldl (fun q b => q.execute b n) q).control = q.control := by
  induction l generalizing q with
  | nil => rfl
  | cons b l ih => exact (ih _).trans (q.control_execute n b)

/-! ## An entry at the head of the queue -/

/-- An instruction that uses its port alone: it accesses no memory and starts no repetition (08 R161). -/
def Instr.alone : Instr → Bool
  | .rep _ _ _ | .vld _ _ _ _ _ | .vst _ _ _ _ _ => false
  | _ => true

theorem VEntry.isMem_of_alone {e : VEntry} (h : Instr.alone e.ins = true) : e.isMem = false := by
  unfold VEntry.isMem
  split
  · rename_i hi; rw [hi] at h; cases h
  · rename_i hi; rw [hi] at h; cases h
  · rfl

/-- A port that nothing holds executes an entry that uses the port alone. -/
theorem State.portStep_of_alone {s : State} {core p c : Nat} {e : VEntry} {r : List VEntry} (hq : (s.port core p).queue = e :: r)
    (huser : s.engineUser core p = some c) (hkept : s.engKept core p = false) (hrep : (s.port core p).rep = none)
    (h : Instr.alone e.ins = true) : s.portStep core p = s.modPort core p (fun q => (q.execute e 0).pop) := by
  unfold State.portStep
  simp only [hq, huser, hkept, hrep, VEntry.isMem_of_alone h, Option.isSome_none, Bool.false_and, Bool.or_self, Bool.false_eq_true, if_false]
  split
  · rename_i hi; rw [hi] at h; cases h
  · rename_i hi; rw [hi] at h; cases h
  · rename_i hi; rw [hi] at h; cases h
  · rfl

/-- Where an entry uses the port alone, the port becomes what the instruction computes. -/
theorem portGives_of_alone {s : State} {core p : Nat} {e : VEntry} {good : Port → Prop} (h : Instr.alone e.ins = true)
    (hgood : good ((s.port core p).execute e 0).pop) : Claim.PortGives s core p e good := by
  intro c r hq huser hkept hrep
  have hcontrol := (s.port core p).control_execute 0 e
  simp only [Port.control, Prod.mk.injEq] at hcontrol
  obtain ⟨hqueue, hrep', hbuf⟩ := hcontrol
  refine ⟨_, congrArg Host.Outcome.next (State.portStep_of_alone hq huser hkept hrep h), ?_, hrep'.trans hrep, hbuf, hgood⟩
  simp [Port.pop, hqueue, hq]

/-- What is said of registers, predicates and `VPCFG` alone need only hold of what the instruction computes. -/
theorem portGives_of_compute {s : State} {core p : Nat} {e : VEntry} {i : Instr} {good : Port → Prop} (hins : e.ins = i)
    (h : Instr.alone i = true)
    (hgood : ∀ t : Port, (∀ n, t.vreg n = ((s.port core p).compute e 0).vreg n) → (∀ n, t.preg n = ((s.port core p).compute e 0).preg n) →
      t.cfg = ((s.port core p).compute e 0).cfg → good t) : Claim.PortGives s core p e good :=
  portGives_of_alone (hins ▸ h) (hgood _ (fun _ => rfl) (fun _ => rfl) rfl)

end Sys2Proof.Machine
end

section
/-! The obligation on elementwise vector operations (08 R168 to R171): what an operation computes in a lane, and the port that it gives. -/

namespace Sys2Proof.Machine

/-! ## Elementwise operations, lane by lane -/

section
variable {s : State} {core p : Nat} {e : VEntry} {i : Instr} {qp d : Nat}

/-- An elementwise operation whose results agree with `f`'s in the bits of a lane, and in the flags. -/
theorem Port.elementwise_spec (q : Port) {f g : Nat → Nat × BitVec 5}
    (hfg : ∀ j, (g j).1 % 2 ^ codeBits e.fmt = (f j).1 % 2 ^ codeBits e.fmt ∧ (g j).2 = (f j).2) :
    Claim.Elementwise q e qp d f (q.elementwise e qp d g) := by
  unfold Claim.Elementwise Port.elementwise
  refine ⟨fun j hj => ?_, fun r hr => ?_, fun r => ?_, ?_⟩
  · simp [lane_mapLanes _ (codeBits_mul_lanes e.fmt), hj, (hfg j).1]
  · simp [hr]
  · simp
  · simp [flags_mapLanes, (hfg _).2]

theorem elementwise_gives {f : Nat → Nat × BitVec 5} (g : Nat → Nat × BitVec 5) (hins : e.ins = i) (halone : Instr.alone i = true)
    (hcompute : (s.port core p).compute e 0 = (s.port core p).elementwise e qp d g)
    (hfg : ∀ j, (g j).1 % 2 ^ codeBits e.fmt = (f j).1 % 2 ^ codeBits e.fmt ∧ (g j).2 = (f j).2) :
    Claim.PortGives s core p e (Claim.Elementwise (s.port core p) e qp d f) := by
  refine portGives_of_alone (hins ▸ halone) ?_
  have hspec := (s.port core p).elementwise_spec (qp := qp) (d := d) hfg
  rw [← hcompute] at hspec
  exact hspec

end

/-! ## Integers of a format (06 R101) -/

theorem isFloatCode_of_fmtF {f : Nat} (h : fmtF f = true) : isFloatCode f = true := by
  simp only [fmtF, isFloatCode, decide_eq_true_eq, Bool.and_eq_true] at *
  omega

theorem isFloatCode_of_fmtA {f : Nat} (h : fmtA f = true) : isFloatCode f = false := by
  simp only [fmtA, isFloatCode, decide_eq_true_eq, Bool.and_eq_false_iff, decide_eq_false_iff_not] at *
  omega

theorem fmtF_of_fmtA {f : Nat} (h : fmtA f = true) : fmtF f = false := by
  simp only [fmtA, fmtF, decide_eq_true_eq, decide_eq_false_iff_not] at *
  omega

theorem codeBits_of_fmtA {f : Nat} (h : fmtA f = true) : codeBits f = intBits f := by
  have hfloat := isFloatCode_of_fmtA h
  simp only [fmtA, decide_eq_true_eq] at h
  simp [codeBits, hfloat, show f ≠ 0x0D by omega, show f ≠ 0x0E by omega, show f ≠ 0x11 by omega]

theorem intBits_pos (f : Nat) : 0 < intBits f := by
  unfold intBits
  split
  · decide
  · positivity

theorem signedOf_range {w : Nat} (hw : 0 < w) (n : Nat) : -(2 ^ (w - 1) : Int) ≤ signedOf w n ∧ signedOf w n ≤ 2 ^ (w - 1) - 1 := by
  obtain ⟨k, rfl⟩ : ∃ k, w = k + 1 := ⟨w - 1, by omega⟩
  have hlt : n % 2 ^ (k + 1) < 2 ^ (k + 1) := Nat.mod_lt _ (Nat.two_pow_pos _)
  have hcast : ((2 ^ k : Nat) : Int) = 2 ^ k := by norm_cast
  have hmod : ((n % 2 ^ (k + 1) : Nat) : Int) = (n : Int) % 2 ^ (k + 1) := by norm_cast
  rw [pow_succ] at hlt
  simp only [signedOf, Nat.add_sub_cancel, ← hmod]
  have hpow : (2 : Int) ^ (k + 1) = 2 * 2 ^ k := by rw [pow_succ]; ring
  split <;> omega

/-- What an element of an integer format stands for lies in the format's range. -/
theorem intValue_range (f n : Nat) : intMin f ≤ intValue f n ∧ intValue f n ≤ intMax f := by
  unfold intMin intMax intValue
  split
  · exact signedOf_range (intBits_pos f) n
  · have hpos : (0 : Int) < 2 ^ intBits f := by positivity
    exact ⟨Int.emod_nonneg _ hpos.ne', Int.le_sub_one_of_lt (Int.emod_lt_of_pos _ hpos)⟩

theorem intResult_eq_intLane (f : Nat) (sat_ : Bool) (v : Int) : intResult f sat_ v = Claim.intLane f sat_ v := rfl

/-- Saturation leaves a value in the range. -/
theorem wrapTo_eq_intLane {f : Nat} (sat_ : Bool) {v : Int} (hv : intMin f ≤ v ∧ v ≤ intMax f) :
    wrapTo (intBits f) v = Claim.intLane f sat_ v := by
  unfold Claim.intLane
  rw [min_eq_right hv.2, max_eq_right hv.1, ite_self]
  rfl

/-! ## Arithmetic (08 R168) -/

/-- An operation on the integers of a format of `w` bits: the operands, and the old destination. -/
def VOp.onInts (o : VOp) (w : Nat) (u v t : Int) : Int :=
  match o with
  | .add => u + v
  | .sub => u - v
  | .mul => u * v
  | .hi => u * v / 2 ^ w
  | .fma => t + u * v
  | .min => Min.min u v
  | .max => Max.max u v
  | .abs => |u|
  | .neg => -u

/-- An operation on the floats of a format. There is no high half of their product. -/
def VOp.onFloats (o : VOp) (g : FFmt) (rm : Nat) (sat_ : Bool) (u v t : Nat) : Nat × BitVec 5 :=
  match o with
  | .add => fAdd g rm sat_ u v
  | .sub => fSub g rm sat_ u v
  | .mul => fMul g rm sat_ u v
  | .hi => (0, 0)
  | .fma => fMad g rm sat_ u v t
  | .min => (fPick g false u v, 0)
  | .max => (fPick g true u v, 0)
  | .abs => (fSign g u false, 0)
  | .neg => (fSign g u (!fNegBit g u), 0)

theorem VOp.apply_of_fmtF {f : Nat} (h : fmtF f = true) (o : VOp) (rm : Nat) (sat_ : Bool) (x y z : Nat) :
    o.apply f rm sat_ x y z = o.onFloats (codeFmt f) rm sat_ x y z := by
  unfold VOp.apply
  rw [if_pos (isFloatCode_of_fmtF h)]
  cases o <;> rfl

/-- The lesser and the greater of two values need no saturation: they are in range. -/
theorem VOp.apply_of_fmtA {f : Nat} (h : fmtA f = true) (o : VOp) (rm : Nat) (sat_ : Bool) (x y z : Nat) :
    o.apply f rm sat_ x y z = (Claim.intLane f sat_ (o.onInts (codeBits f) (intValue f x) (intValue f y) (intValue f z)), 0) := by
  have hx := intValue_range f x
  have hy := intValue_range f y
  unfold VOp.apply
  rw [if_neg (by simp [isFloatCode_of_fmtA h]), codeBits_of_fmtA h]
  cases o
  case min =>
    have hmin : intMin f ≤ Min.min (intValue f x) (intValue f y) ∧ Min.min (intValue f x) (intValue f y) ≤ intMax f :=
      ⟨le_min hx.1 hy.1, min_le_of_left_le hx.2⟩
    simp only [onInts, ← min_def, wrapTo_eq_intLane sat_ hmin]
  case max =>
    have hmax : intMin f ≤ Max.max (intValue f x) (intValue f y) ∧ Max.max (intValue f x) (intValue f y) ≤ intMax f :=
      ⟨le_max_of_le_left hx.1, max_le hx.2 hy.2⟩
    simp only [onInts, ← max_def, wrapTo_eq_intLane sat_ hmax]
  case abs =>
    have habs : (if intValue f x < 0 then -intValue f x else intValue f x) = |intValue f x| := by
      split
      · exact (abs_of_neg ‹_›).symm
      · exact (abs_of_nonneg (by omega)).symm
    simp only [onInts, habs, intResult_eq_intLane]
  all_goals rfl

/-- The arithmetic instructions: operation, form, predicate, destination and sources. -/
def Instr.arith? : Instr → Option (VOp × BitVec 1 × PReg × VReg × VReg × VReg)
  | .vadd sg _ p d a b => some (.add, sg, p, d, a, b)
  | .vsub sg _ p d a b => some (.sub, sg, p, d, a, b)
  | .vmul sg k p d a b => some (if k = 4 then .hi else .mul, sg, p, d, a, b)
  | .vfma sg _ p d a b => some (.fma, sg, p, d, a, b)
  | .vmin sg p d a b => some (.min, sg, p, d, a, b)
  | .vmax sg p d a b => some (.max, sg, p, d, a, b)
  | .vabs p d a => some (.abs, 0, p, d, a, a)
  | .vneg p d a => some (.neg, 0, p, d, a, a)
  | _ => none

section
variable (s : State) (core p : Nat) {e : VEntry} {i : Instr} {sg : BitVec 1} {qp : PReg} {d a b : VReg}

theorem Port.compute_of_arith {o : VOp} (q : Port) (h : Instr.arith? e.ins = some (o, sg, qp, d, a, b)) :
    q.compute e 0 = q.arith e o sg qp.toNat d.toNat a.toNat b.toNat ∧ Instr.alone e.ins = true := by
  unfold Instr.arith? at h
  split at h
  all_goals
    rename_i hins
    simp only [Option.some.injEq, Prod.mk.injEq, reduceCtorEq] at h
  all_goals
    obtain ⟨rfl, rfl, rfl, rfl, rfl, rfl⟩ := h
    simp [Port.compute, hins, Instr.alone]

/-- An arithmetic instruction: floats of a float format, integers, saturated or wrapped, of an integer format. -/
theorem arith_gives {o : VOp} (hins : e.ins = i) (h : Instr.arith? i = some (o, sg, qp, d, a, b))
    (hfmt : fmtA e.fmt = true ∨ fmtF e.fmt = true) :
    Claim.PortGives s core p e (Claim.Elementwise (s.port core p) e qp.toNat d.toNat (fun j =>
      let x := lane ((s.port core p).vreg a.toNat) (codeBits e.fmt) j
      let y := (s.port core p).operand e sg b.toNat j
      let z := lane ((s.port core p).vreg d.toNat) (codeBits e.fmt) j
      if fmtF e.fmt then o.onFloats (codeFmt e.fmt) e.rm e.sat x y z
      else (Claim.intLane e.fmt e.sat (o.onInts (codeBits e.fmt) (intValue e.fmt x) (intValue e.fmt y) (intValue e.fmt z)), 0))) := by
  subst hins
  obtain ⟨hcompute, halone⟩ := (s.port core p).compute_of_arith h
  refine elementwise_gives _ rfl halone hcompute fun j => ?_
  rcases hfmt with h | h
  · simp only [VOp.apply_of_fmtA h, fmtF_of_fmtA h, Bool.false_eq_true, if_false, and_self]
  · simp only [VOp.apply_of_fmtF h, h, if_true, and_self]

end

/-! ## Shifts (08 R169) -/

theorem signedOf_eq_toInt {w : Nat} (hw : 0 < w) (n : Nat) : signedOf w n = (BitVec.ofNat w n).toInt := by
  obtain ⟨k, rfl⟩ : ∃ k, w = k + 1 := ⟨w - 1, by omega⟩
  rw [BitVec.toInt_eq_toNat_cond, BitVec.toNat_ofNat, signedOf, Nat.add_sub_cancel]
  have hhalf : n % 2 ^ (k + 1) < 2 ^ k ↔ 2 * (n % 2 ^ (k + 1)) < 2 ^ (k + 1) := by rw [pow_succ]; omega
  simp only [hhalf]
  norm_cast

theorem wrapTo_eq_ofInt (w : Nat) (v : Int) : wrapTo w v = (BitVec.ofInt w v).toNat := by
  rw [BitVec.toNat_ofInt, wrapTo]
  norm_cast

theorem vShift_shra {w : Nat} (hw : 0 < w) (a count : Nat) :
    vShift 2 w a count = ((BitVec.ofNat w a).sshiftRight (count % w)).toNat := by
  rw [BitVec.sshiftRight_eq, Int.shiftRight_eq_div_pow, ← signedOf_eq_toInt hw, ← wrapTo_eq_ofInt]
  simp [vShift, hw.ne']

section
variable {w a : Nat} (ha : a < 2 ^ w) (hw : 0 < w) (count : Nat)
include ha hw

theorem vShift_shl : vShift 0 w a count = (BitVec.ofNat w a <<< (count % w)).toNat := by
  simp [vShift, hw.ne', Nat.mod_eq_of_lt ha, Nat.shiftLeft_eq]

theorem vShift_shr : vShift 1 w a count = (BitVec.ofNat w a >>> (count % w)).toNat := by
  simp [vShift, hw.ne', Nat.mod_eq_of_lt ha, Nat.shiftRight_eq_div_pow]

/-- A rotation joins the low bits, moved up, and the high bits, moved down: they do not meet. -/
theorem vShift_rot : vShift 3 w a count = ((BitVec.ofNat w a).rotateRight (count % w)).toNat := by
  generalize hc : count % w = c
  have hcw : c < w := hc ▸ Nat.mod_lt _ hw
  have hpow : 2 ^ w = 2 ^ c * 2 ^ (w - c) := by rw [← pow_add, Nat.add_sub_cancel' hcw.le]
  have hlow : a * 2 ^ (w - c) % 2 ^ w = a % 2 ^ c * 2 ^ (w - c) := by rw [hpow, Nat.mul_mod_mul_right]
  have hhigh : a / 2 ^ c < 2 ^ (w - c) := Nat.div_lt_of_lt_mul (hpow ▸ ha)
  have hsum : a / 2 ^ c + a % 2 ^ c * 2 ^ (w - c) < 2 ^ w := by
    have hmod : a % 2 ^ c + 1 ≤ 2 ^ c := Nat.mod_lt _ (Nat.two_pow_pos c)
    have := Nat.mul_le_mul_right (2 ^ (w - c)) hmod
    rw [← hpow, Nat.add_mul] at this
    omega
  have hmodel : vShift 3 w a count = a / 2 ^ c + a % 2 ^ c * 2 ^ (w - c) := by
    simp only [vShift, hw.ne', if_false, hc, OfNat.ofNat_ne_zero, OfNat.ofNat_ne_one, Nat.reduceEqDiff]
    rw [Nat.add_mod, hlow, Nat.mod_eq_of_lt (lt_of_lt_of_le hhigh (Nat.pow_le_pow_right (by decide) (Nat.sub_le w c))),
      Nat.mod_eq_of_lt hsum]
  rw [hmodel, BitVec.toNat_rotateRight, BitVec.toNat_ofNat, Nat.mod_eq_of_lt ha, Nat.mod_eq_of_lt hcw, Nat.shiftLeft_eq, hlow,
    Nat.shiftRight_eq_div_pow, ← Nat.shiftLeft_eq, Nat.or_comm, ← Nat.shiftLeft_add_eq_or_of_lt hhigh, Nat.add_comm]
end

/-! ## Bitwise instructions and shifts -/

/-- The bitwise instructions and the shifts: the operation on elements of a width, form, predicate, destination and sources. -/
def Instr.bitwise? : Instr → Option ((Nat → Nat → Nat → Nat) × BitVec 1 × PReg × VReg × VReg × VReg)
  | .vand sg p d a b => some (fun _ => (· &&& ·), sg, p, d, a, b)
  | .vor sg p d a b => some (fun _ => (· ||| ·), sg, p, d, a, b)
  | .vxor sg p d a b => some (fun _ => (· ^^^ ·), sg, p, d, a, b)
  | .vshl sg p d a b => some (vShift 0, sg, p, d, a, b)
  | .vshr sg k p d a b => some (vShift (k.toNat + 1), sg, p, d, a, b)
  | _ => none

section
variable (s : State) (core p : Nat) {e : VEntry} {i : Instr} {sg : BitVec 1} {qp : PReg} {d a b : VReg} {f : Nat → Nat → Nat → Nat}

theorem Port.compute_of_bitwise (q : Port) (h : Instr.bitwise? e.ins = some (f, sg, qp, d, a, b)) :
    q.compute e 0 = q.bitwise e sg qp.toNat d.toNat a.toNat b.toNat (f (codeBits e.fmt)) ∧ Instr.alone e.ins = true := by
  unfold Instr.bitwise? at h
  split at h
  all_goals
    rename_i hins
    simp only [Option.some.injEq, Prod.mk.injEq, reduceCtorEq] at h
  all_goals
    obtain ⟨rfl, rfl, rfl, rfl, rfl, rfl⟩ := h
    simp [Port.compute, hins, Instr.alone]

theorem bitwise_gives (hins : e.ins = i) (h : Instr.bitwise? i = some (f, sg, qp, d, a, b)) :
    Claim.PortGives s core p e (Claim.Elementwise (s.port core p) e qp.toNat d.toNat (fun j =>
      (f (codeBits e.fmt) (lane ((s.port core p).vreg a.toNat) (codeBits e.fmt) j) ((s.port core p).operand e sg b.toNat j), 0))) := by
  subst hins
  obtain ⟨hcompute, halone⟩ := (s.port core p).compute_of_bitwise h
  exact elementwise_gives _ rfl halone hcompute fun j => ⟨rfl, rfl⟩

/-- A shift takes its count modulo the width of the elements. -/
theorem shift_gives {k : Nat} {g : BitVec (codeBits e.fmt) → Nat → BitVec (codeBits e.fmt)} (hins : e.ins = i)
    (h : Instr.bitwise? i = some (vShift k, sg, qp, d, a, b))
    (hshift : ∀ {x}, x < 2 ^ codeBits e.fmt → 0 < codeBits e.fmt → ∀ count, vShift k (codeBits e.fmt) x count =
      (g (BitVec.ofNat _ x) (count % codeBits e.fmt)).toNat) (hfmt : fmtA e.fmt = true) :
    Claim.PortGives s core p e (Claim.Elementwise (s.port core p) e qp.toNat d.toNat (fun j =>
      ((g (BitVec.ofNat _ (lane ((s.port core p).vreg a.toNat) (codeBits e.fmt) j))
        ((s.port core p).operand e sg b.toNat j % codeBits e.fmt)).toNat, 0))) := by
  have hw : 0 < codeBits e.fmt := codeBits_of_fmtA hfmt ▸ intBits_pos e.fmt
  have hgives := bitwise_gives s core p hins h
  simpa only [hshift (lane_lt _ _ _) hw] using hgives

end

/-! ## Comparison and selection (08 R170, R171) -/

theorem le_of_fmtAll {f : Nat} (h : fmtAll f = true) : f ≤ 16 := by
  simp only [fmtAll, fmtA, fmtF, Bool.or_eq_true, decide_eq_true_eq] at h
  omega

theorem fmtAll_of_class {f : Nat} (h : fmtA f = true ∨ fmtF f = true) : fmtAll f = true := by
  simp only [fmtAll, Bool.or_eq_true]
  exact .inl h

theorem four_le_codeBits {f : Nat} (h : fmtAll f = true) : 4 ≤ codeBits f := by
  have hall : ∀ f ≤ 16, fmtAll f = true → 4 ≤ codeBits f := by decide
  exact hall f (le_of_fmtAll h) h

theorem lanes_le_256 {f : Nat} (h : fmtAll f = true) : lanes f ≤ 256 := by
  have hbits := four_le_codeBits h
  unfold lanes
  rw [if_neg (by omega)]
  exact Nat.div_le_of_le_mul (by omega)

/-- Comparison of elements of class A or F (08 R170). -/
theorem vCompare_eq {f c : Nat} (h : fmtA f = true ∨ fmtF f = true) (x y : Nat) :
    vCompare f c x y = if fmtF f then fCompare (codeFmt f) c x y else match c with
      | 0 => decide (intValue f x = intValue f y)
      | 1 => decide (intValue f x ≠ intValue f y)
      | 2 => decide (intValue f x < intValue f y)
      | _ => decide (intValue f x ≤ intValue f y) := by
  unfold vCompare
  rcases h with h | h
  · simp only [isFloatCode_of_fmtA h, fmtF_of_fmtA h, Bool.false_eq_true, if_false]
    rcases c with _ | _ | _ | c <;> rfl
  · rw [if_pos (isFloatCode_of_fmtF h), if_pos h]

section
variable {q : Port} {e : VEntry} {sg : BitVec 1} {qp pd : PReg} {d a b : VReg} {k : BitVec 4}

theorem Port.compute_vcmp (h : e.ins = .vcmp sg k qp pd a b) :
    q.compute e 0 = q.setP pd.toNat ((List.range (lanes e.fmt)).foldl (fun m i => if q.active qp.toNat i then
        putBits m i 1 (vCompare e.fmt k.toNat (lane (q.vreg a.toNat) (codeBits e.fmt) i) (q.operand e sg b.toNat i)).toNat else m)
      (BitVec.ofNat 256 ((q.preg pd.toNat).toNat % 2 ^ lanes e.fmt))) := by
  simp [Port.compute, h]

/-- A comparison writes the active bits; the bits beyond the lanes become 0. -/
theorem Port.preg_compute_vcmp (h : e.ins = .vcmp sg k qp pd a b) (hfmt : fmtAll e.fmt = true) {i : Nat} (hi : i < 256) :
    ((q.compute e 0).preg pd.toNat).getLsbD i = (decide (i < lanes e.fmt) && (if q.active qp.toNat i then
      vCompare e.fmt k.toNat (lane (q.vreg a.toNat) (codeBits e.fmt) i) (q.operand e sg b.toNat i) else (q.preg pd.toNat).getLsbD i)) := by
  have hbit : (q.preg pd.toNat).toNat.testBit i = (q.preg pd.toNat).getLsbD i := rfl
  rw [Port.compute_vcmp h, Port.preg_setP, if_pos rfl, getLsbD_foldl_putBits (q.active qp.toNat) _ _ _ (lanes_le_256 hfmt),
    BitVec.getLsbD_ofNat, Nat.testBit_mod_two_pow, hbit]
  by_cases hlane : i < lanes e.fmt <;> simp [hlane, hi]

theorem Port.compute_vsel (h : e.ins = .vsel sg qp d a b) :
    q.compute e 0 = q.setV d.toNat (mapLanes (q.vreg d.toNat) (codeBits e.fmt) (lanes e.fmt) (fun _ => true) (fun i =>
      (if q.active qp.toNat i then lane (q.vreg a.toNat) (codeBits e.fmt) i else q.operand e sg b.toNat i, 0))).1 := by
  simp [Port.compute, h]

@[simp] theorem Port.operand_mod (i : Nat) :
    q.operand e sg b.toNat i % 2 ^ codeBits e.fmt = q.operand e sg b.toNat i := by
  unfold Port.operand
  split
  · exact Nat.mod_mod _ _
  · exact lane_mod _ _ _

end

/-- Settles O36. -/
theorem vectorElements : Obligations.VectorElements := by
  intro s core p e sg k qp pd d a b hfmt q w g x y z iv act el ar sh
  refine ⟨?add, ?sub, ?mul, ?hi, ?fma, ?min, ?max, ?sign, ?and, ?or, ?xor, ?shl, ?shr, ?shra, ?rot, ?cmp, ?sel⟩
  case add => exact fun hins => (arith_gives s core p hins rfl hfmt :)
  case sub => exact fun hins => (arith_gives s core p hins rfl hfmt :)
  case mul =>
    intro hk hins
    have hop : Instr.arith? (.vmul sg k qp d a b) = some (.mul, sg, qp, d, a, b) := by rw [Instr.arith?, if_neg hk]
    exact (arith_gives s core p hins hop hfmt :)
  case hi => exact fun _ hins => (arith_gives s core p hins rfl hfmt :)
  case fma => exact fun hins => (arith_gives s core p hins rfl hfmt :)
  case min => exact fun hins => (arith_gives s core p hins rfl hfmt :)
  case max => exact fun hins => (arith_gives s core p hins rfl hfmt :)
  case sign => exact fun _ => ⟨fun hins => (arith_gives s core p hins rfl hfmt :), fun hins => (arith_gives s core p hins rfl hfmt :)⟩
  case and => exact fun hins => (bitwise_gives s core p hins rfl :)
  case or => exact fun hins => (bitwise_gives s core p hins rfl :)
  case xor => exact fun hins => (bitwise_gives s core p hins rfl :)
  case shl => exact fun hA hins => shift_gives s core p (k := 0) (g := fun u c => u <<< c) hins rfl vShift_shl hA
  case shr => exact fun hA hins => shift_gives s core p (k := 1) (g := fun u c => u >>> c) hins rfl vShift_shr hA
  case shra => exact fun hA hins => shift_gives s core p (k := 2) (g := fun u c => u.sshiftRight c) hins rfl (fun _ hw => vShift_shra hw _) hA
  case rot => exact fun hA hins => shift_gives s core p (k := 3) (g := fun u c => u.rotateRight c) hins rfl vShift_rot hA
  case cmp =>
    intro _ hins
    have hcompute := Port.compute_vcmp (q := s.port core p) hins
    refine portGives_of_compute hins rfl fun t hv hp hcfg =>
      ⟨fun r => by simp [hv, hcompute, q], fun r hr => by simp [hp, hcompute, hr, q], by simp [hcfg, hcompute, q], fun j hj => ?_⟩
    rw [hp, Port.preg_compute_vcmp hins (fmtAll_of_class hfmt) hj, vCompare_eq hfmt]
    rfl
  case sel =>
    intro hins
    have hcompute := Port.compute_vsel (q := s.port core p) hins
    refine portGives_of_compute hins rfl fun t hv hp hcfg =>
      ⟨fun j hj => ?_, fun r hr => by simp [hv, hcompute, hr, q], fun r => by simp [hp, hcompute, q], by simp [hcfg, hcompute, q]⟩
    rw [hv, hcompute, Port.vreg_setV, if_pos rfl, lane_mapLanes _ (codeBits_mul_lanes e.fmt), if_pos ⟨hj, rfl⟩]
    split
    · exact lane_mod _ _ _
    · exact Port.operand_mod _

end Sys2Proof.Machine
end

section
/-! Vector conversion, reduction, scan, permutation, broadcast, moves from scalars, and logic on predicates (08 R172 to R179). -/

namespace Sys2Proof.Machine

section
variable {s : State} {core p : Nat} {e : VEntry} {i : Instr}

theorem lanes_pos {f : Nat} (h : fmtAll f = true) : 0 < lanes f := by
  have hall : ∀ f ≤ 16, fmtAll f = true → 0 < lanes f := by decide
  exact hall f (le_of_fmtAll h) h

/-! ## The elementwise forms (08 R173, R175 to R177) -/

section
variable {q : Port} {k : BitVec 4} {qp : PReg} {d a b : VReg} {r : Reg}

theorem Port.compute_vapx (h : e.ins = .vapx k qp d a) : q.compute e 0 = q.elementwise e qp.toNat d.toNat (fun i =>
    apx k.toNat (codeFmt e.fmt) (lane (q.vreg a.toNat) (codeBits e.fmt) i)) := by
  simp only [Port.compute, h, Nat.add_zero, VReg.toNat_mod]

/-- Variants 0 to 7 of `VSCAN` take an element's own value in, variants 8 to 15 stop before it. -/
theorem Port.compute_vscan (h : e.ins = .vscan k qp d a) : q.compute e 0 = q.elementwise e qp.toNat d.toNat (fun i =>
    vReduce (k.toNat % 8) e.fmt e.rm e.sat (q.members e qp.toNat a.toNat (if 8 ≤ k.toNat then i else i + 1))) := by
  simp only [Port.compute, h, Nat.add_zero, VReg.toNat_mod]

theorem Port.compute_vperm (h : e.ins = .vperm qp d a b) : q.compute e 0 = q.elementwise e qp.toNat d.toNat (fun i =>
    let j := lane (q.vreg b.toNat) (codeBits e.fmt) i
    (if j < lanes e.fmt then lane (q.vreg a.toNat) (codeBits e.fmt) j else 0, 0)) := by
  simp only [Port.compute, h, Nat.add_zero, VReg.toNat_mod]

theorem Port.compute_vbcast_scalar (h : e.ins = .vbcast 0 qp d a r) : q.compute e 0 = q.elementwise e qp.toNat d.toNat (fun _ =>
    ((e.xs.getD 0 0).toNat % 2 ^ codeBits e.fmt, 0)) := by
  simp only [Port.compute, h, Nat.add_zero, VReg.toNat_mod, show (0 : BitVec 1) ≠ 1 by decide, if_false]

theorem Port.compute_vbcast_element (h : e.ins = .vbcast 1 qp d a r) : q.compute e 0 = q.elementwise e qp.toNat d.toNat (fun _ =>
    (lane (q.vreg a.toNat) (codeBits e.fmt) (e.xs.getD 0 0).toNat, 0)) := by
  simp only [Port.compute, h, Nat.add_zero, VReg.toNat_mod, if_true]

end

/-! ## Conversion (08 R172) -/

theorem cvtLanes_pos (k : BitVec 4) {f : Nat} (h : fmtAll f = true) : 0 < cvtLanes (cvtSource k.toNat) f := by
  have hsource : ∀ k : BitVec 4, 0 < lanes (cvtSource k.toNat) := by decide
  unfold cvtLanes
  split
  · decide
  · exact lt_min (hsource k) (lanes_pos h)

/-- A conversion without a parts word converts the first elements, by the scale entry in `VPCFG`. -/
theorem Port.compute_vcvt {q : Port} {k : BitVec 4} {qp : PReg} {d a b : VReg} (h : e.ins = .vcvt 0 k qp d a b) :
    q.compute e 0 =
      let src := cvtSource k.toNat
      let c := cvtLanes src e.fmt
      let z := mapLanes (q.vreg d.toNat) (codeBits e.fmt) (lanes e.fmt)
        (fun i => decide (i / (if c = 0 then 1 else c) = 0) && q.active qp.toNat i)
        (fun i => cvtOne src e.fmt e.rm e.sat (q.cfg.toNat / 2 ^ 32) (lane (q.vreg a.toNat) (codeBits src) i))
      (q.setV d.toNat z.1).raise z.2 := by
  have hscale : bitsAt q.cfg 32 32 = q.cfg.toNat / 2 ^ 32 := Nat.mod_eq_of_lt (Nat.div_lt_of_lt_mul q.cfg.isLt)
  simp [Port.compute, h, cvtParts, hscale]

/-! ## Reduction (06 R119; 08 R174) -/

theorem Port.compute_vred {q : Port} {k : BitVec 4} {qp : PReg} {d a : VReg} (h : e.ins = .vred k qp d a) :
    q.compute e 0 =
      let z := vReduce k.toNat e.fmt e.rm e.sat (q.members e qp.toNat a.toNat (lanes e.fmt))
      (q.setV d.toNat (BitVec.ofNat 1024 (z.1 % 2 ^ codeBits e.fmt))).raise z.2 := by
  simp [Port.compute, h]

/-- The least of a start and some elements is below each, and one of them. -/
theorem foldl_min_spec {α : Type} [LinearOrder α] (l : List α) (m : α) :
    l.foldl min m ≤ m ∧ (∀ j ∈ l, l.foldl min m ≤ j) ∧ (l.foldl min m = m ∨ l.foldl min m ∈ l) := by
  induction l generalizing m with
  | nil => simp
  | cons a l ih =>
    obtain ⟨hstart, hall, hone⟩ := ih (min m a)
    refine ⟨hstart.trans (min_le_left _ _), List.forall_mem_cons.mpr ⟨hstart.trans (min_le_right _ _), hall⟩, ?_⟩
    rcases hone with h | h
    · rcases min_choice m a with hm | hm
      · exact .inl (h.trans hm)
      · exact .inr (List.mem_cons.mpr (.inl (h.trans hm)))
    · exact .inr (List.mem_cons_of_mem _ h)

/-- The least of some elements, where the start lies above them all. -/
theorem foldl_min_mem {α : Type} [LinearOrder α] {l : List α} {m : α} (hne : l ≠ []) (hm : ∀ j ∈ l, j ≤ m) : l.foldl min m ∈ l := by
  obtain ⟨_, hall, h | h⟩ := foldl_min_spec l m
  · obtain ⟨j, hj⟩ := List.exists_mem_of_ne_nil l hne
    have : l.foldl min m = j := le_antisymm (hall j hj) ((hm j hj).trans h.ge)
    exact this ▸ hj
  · exact h

section
variable {f : Nat} (hA : fmtA f = true) (rm : Nat) (sat_ : Bool) (l : List Nat)
include hA

theorem vReduce_add : vReduce 0 f rm sat_ l = (Claim.intLane f sat_ (l.map (intValue f)).sum, 0) := by
  unfold vReduce
  rw [if_neg (by simp [isFloatCode_of_fmtA hA])]
  rfl

theorem vReduce_min : vReduce 1 f rm sat_ l = (Claim.intLane f false ((l.map (intValue f)).foldl min (intMax f)), 0) := by
  unfold vReduce
  rw [if_neg (by simp [isFloatCode_of_fmtA hA]), List.foldl_map]
  rfl

theorem vReduce_max : vReduce 2 f rm sat_ l = (Claim.intLane f false ((l.map (intValue f)).foldl max (intMin f)), 0) := by
  unfold vReduce
  rw [if_neg (by simp [isFloatCode_of_fmtA hA]), List.foldl_map]
  rfl

/-- The reductions of integers: the sum, the least and the greatest (06 R119). -/
theorem vReduce_ints :
    let iv := l.map (intValue f)
    vReduce 0 f rm sat_ l = (Claim.intLane f sat_ iv.sum, 0) ∧
    (l ≠ [] → ∃ lo ∈ iv, ∃ hi ∈ iv, (∀ j ∈ iv, lo ≤ j ∧ j ≤ hi) ∧
      vReduce 1 f rm sat_ l = (Claim.intLane f false lo, 0) ∧ vReduce 2 f rm sat_ l = (Claim.intLane f false hi, 0)) := by
  intro iv
  refine ⟨vReduce_add hA rm sat_ l, fun hne => ?_⟩
  have hiv : iv ≠ [] := by simpa [iv] using hne
  have hrange : ∀ j ∈ iv, intMin f ≤ j ∧ j ≤ intMax f := by
    intro j hj
    obtain ⟨n, -, rfl⟩ := List.mem_map.mp hj
    exact intValue_range f n
  obtain ⟨-, hlo, -⟩ := foldl_min_spec iv (intMax f)
  obtain ⟨-, hhi, -⟩ := foldl_min_spec (α := Intᵒᵈ) iv (intMin f)
  exact ⟨_, foldl_min_mem hiv fun j hj => (hrange j hj).2, _, foldl_min_mem (α := Intᵒᵈ) hiv fun j hj => (hrange j hj).1,
    fun j hj => ⟨hlo j hj, hhi j hj⟩, vReduce_min hA rm sat_ l, vReduce_max hA rm sat_ l⟩

end

/-! ## Moves from scalars and logic on predicates (08 R178, R179) -/

theorem Port.compute_vmovx_element {q : Port} {d a : VReg} {r : Reg} (h : e.ins = .vmovx 1 d a r) :
    q.compute e 0 = q.setV d.toNat (setLane (q.vreg d.toNat) (codeBits e.fmt) (e.xs.getD 0 0).toNat (e.xs.getD 1 0).toNat) := by
  simp [Port.compute, h]

theorem Port.compute_vmovx_predicate {q : Port} {d a : VReg} {r : Reg} (h : e.ins = .vmovx 3 d a r) :
    q.compute e 0 = q.setP (d.toNat % 8) (setLane (q.preg (d.toNat % 8)) 64 (e.xs.getD 0 0).toNat (e.xs.getD 1 0).toNat) := by
  simp [Port.compute, h]

/-- `PLOG`'s operations, 0 to 7, on one bit: of its sources `u` and `v`, at index `i`, with the scalar `x`. -/
def plogBit (k : Nat) (u v : Bool) (i x : Nat) : Bool :=
  match k with
  | 0 => u && v
  | 1 => u || v
  | 2 => u != v
  | 3 => u && !v
  | 4 => !u
  | 5 => true
  | 6 => false
  | _ => decide (i < x)

theorem getElem_below (n x : Nat) {i : Nat} (hi : i < n) : (BitVec.ofNat n (2 ^ min x n - 1))[i] = decide (i < x) := by
  rw [← BitVec.getLsbD_eq_getElem hi, BitVec.getLsbD_ofNat, Nat.testBit_two_pow_sub_one]
  simp [hi]

theorem Port.preg_compute_plog {q : Port} {sg : BitVec 1} {k : BitVec 4} {pd pa : PReg} {b : VReg} (h : e.ins = .plog sg k pd pa b)
    (hk : k.toNat < 8) {i : Nat} (hi : i < 256) :
    ((q.compute e 0).preg pd.toNat).getLsbD i =
      plogBit k.toNat ((q.preg pa.toNat).getLsbD i) ((q.preg (b.toNat % 8)).getLsbD i) i (e.xs.getD 0 0).toNat := by
  have hcases : ∀ k : BitVec 4, k.toNat < 8 → k = 0 ∨ k = 1 ∨ k = 2 ∨ k = 3 ∨ k = 4 ∨ k = 5 ∨ k = 6 ∨ k = 7 := by decide
  rcases hcases k hk with rfl | rfl | rfl | rfl | rfl | rfl | rfl | rfl
  all_goals simp [Port.compute, h, plogBit, hi, getElem_below, -BitVec.reduceAllOnes]

theorem Port.compute_plog_frame {q : Port} {sg : BitVec 1} {k : BitVec 4} {pd pa : PReg} {b : VReg} (h : e.ins = .plog sg k pd pa b) :
    ∃ z, q.compute e 0 = q.setP pd.toNat z := by
  simp only [Port.compute, h]
  exact ⟨_, rfl⟩

end

theorem vectorMovesAndReductions : Claim.VectorMovesAndReductions := by
  intro s core p e sg k qp pd pa d a b r hfmt q w n x act v el member frame
  have hbits := codeBits_mul_lanes e.fmt
  refine ⟨?cvt, ?apx, ?red, ?scan, ?scanBefore, fun hA l => vReduce_ints hA _ _ l, ?perm, ?bcastScalar, ?bcastElement, ?toElement,
    ?toPredicate, ?plog⟩
  case cvt =>
    intro _ hins src c _
    have hc : 0 < c := cvtLanes_pos k hfmt
    have hpart (j : Nat) : j / (if c = 0 then 1 else c) = 0 ↔ j < c := by rw [if_neg hc.ne', Nat.div_eq_zero_iff_lt hc]
    have hcompute := Port.compute_vcvt (q := s.port core p) hins
    refine portGives_of_compute hins rfl fun t hv hp _ => ⟨⟨fun j hj => ?_, fun j => ?_⟩, fun j hj => ?_⟩
    · rw [hv, hcompute]; simp [hj, q]
    · rw [hp, hcompute]; simp [q]
    · rw [hv, hcompute]
      simp only [Port.vreg_raise, Port.vreg_setV, if_true]
      rw [lane_mapLanes _ hbits]
      have hj' : j < lanes e.fmt := hj
      simp only [hj', true_and, Bool.and_eq_true, decide_eq_true_eq]
      simp only [show (j / (if cvtLanes (cvtSource k.toNat) e.fmt = 0 then 1 else cvtLanes (cvtSource k.toNat) e.fmt) = 0) = (j < c) from
        propext (hpart j)]
      rfl
  case apx => exact fun hins => elementwise_gives _ hins rfl (Port.compute_vapx hins) fun _ => ⟨rfl, rfl⟩
  case red =>
    intro hins
    have hcompute := Port.compute_vred (q := s.port core p) hins
    refine portGives_of_compute hins rfl fun t hv hp _ => ⟨⟨fun j hj => ?_, fun j => ?_⟩, ?_⟩
    · rw [hv, hcompute]; simp [hj, q]
    · rw [hp, hcompute]; simp [q]
    · rw [hv, hcompute]; simp; rfl
  case scan =>
    intro hk hins
    refine elementwise_gives _ hins rfl (Port.compute_vscan hins) fun j => ?_
    rw [Nat.mod_eq_of_lt hk, if_neg (Nat.not_le.mpr hk)]
    exact ⟨rfl, rfl⟩
  case scanBefore =>
    intro hk hins
    refine elementwise_gives _ hins rfl (Port.compute_vscan hins) fun j => ?_
    rw [show k.toNat % 8 = k.toNat - 8 by have := k.isLt; omega, if_pos hk]
    exact ⟨rfl, rfl⟩
  case perm => exact fun hins => elementwise_gives _ hins rfl (Port.compute_vperm hins) fun _ => ⟨rfl, rfl⟩
  case bcastScalar => exact fun hins => elementwise_gives _ hins rfl (Port.compute_vbcast_scalar hins) fun _ => ⟨Nat.mod_mod _ _, rfl⟩
  case bcastElement => exact fun _ hins => elementwise_gives _ hins rfl (Port.compute_vbcast_element hins) fun _ => ⟨rfl, rfl⟩
  case toElement =>
    intro hv' hins
    have hcompute := Port.compute_vmovx_element (q := s.port core p) hins
    have hfits : w * (v + 1) ≤ 1024 := le_trans (Nat.mul_le_mul_left w hv') hbits
    refine portGives_of_compute hins rfl fun t hv hp hcfg =>
      ⟨⟨fun j hj => by rw [hv, hcompute]; simp [hj, q], fun j => by rw [hp, hcompute]; simp [q]⟩, by rw [hcfg, hcompute]; rfl, fun j hj => ?_⟩
    rw [hv, hcompute, Port.vreg_setV, if_pos rfl, lane_setLane _ _ hfits]
  case toPredicate =>
    intro hv' hins
    have hcompute := Port.compute_vmovx_predicate (q := s.port core p) hins
    have hfits : 64 * (v + 1) ≤ 256 := by omega
    refine portGives_of_compute hins rfl fun t hv hp hcfg =>
      ⟨fun j => by rw [hv, hcompute]; simp [q], by rw [hcfg, hcompute]; rfl, fun j hj => by rw [hp, hcompute]; simp [hj, q], fun j hj => ?_⟩
    rw [hp, hcompute, Port.preg_setP, if_pos rfl, lane_setLane _ _ hfits, Nat.mod_eq_of_lt (BitVec.isLt _)]
  case plog =>
    intro hk hins
    obtain ⟨z, hcompute⟩ := Port.compute_plog_frame (q := s.port core p) hins
    refine portGives_of_compute hins rfl fun t hv hp hcfg =>
      ⟨fun j => by rw [hv, hcompute]; simp [q], by rw [hcfg, hcompute]; rfl, fun j hj => by rw [hp, hcompute]; simp [hj, q], fun j hj => ?_⟩
    rw [hp, Port.preg_compute_plog hins hk hj]
    rfl

end Sys2Proof.Machine
end

section
/-! Sorting, merging and the greatest pairs (08 R184): the order of the pairs, insertion, and the lanes that sorted pairs take. -/

namespace Sys2Proof.Machine

/-! ## The key line -/

/-- A finite value's number. -/
def finNumber (n : Bool) (m : Nat) (e : Int) : ℚ := (if n then -(m : ℚ) else m) * 2 ^ e

/-- Where a value stands on the key line (08 R184): NaN below or above all, the infinities, the numbers between them, -0 below +0. -/
def FVal.rank (low : Bool) : FVal → ℤ ×ₗ ℚ ×ₗ ℕ
  | .nan => toLex (if low then -2 else 2, toLex (0, 0))
  | .inf n => toLex (if n then -1 else 1, toLex (0, 0))
  | .fin n m e _ => toLex (0, toLex (finNumber n m e, if n = true ∧ m = 0 then 0 else 1))

/-- Where a key stands. -/
def keyRank (f : Nat) (low : Bool) (a : Nat) : ℤ ×ₗ ℚ ×ₗ ℕ :=
  if isFloatCode f then ((codeFmt f).value a).rank low else toLex (intValue f a, toLex (0, 0))

theorem unitsOf_eq (n : Bool) (m : Nat) {e q : Int} (h : q ≤ e) : (unitsOf n m e q : ℚ) = finNumber n m e * 2 ^ (-q) := by
  have hpow : (2 : ℚ) ^ e * 2 ^ (-q) = 2 ^ (e - q).toNat := by
    rw [← zpow_add₀ (by norm_num), ← zpow_natCast, Int.toNat_of_nonneg (by omega), sub_eq_add_neg]
  unfold unitsOf finNumber
  rw [mul_assoc, hpow]
  cases n <;> simp

theorem finNumber_eq_zero_iff {n : Bool} {m : Nat} {e : Int} : finNumber n m e = 0 ↔ m = 0 := by
  have hpow : (2 : ℚ) ^ e ≠ 0 := zpow_ne_zero _ (by norm_num)
  cases n <;> simp [finNumber, hpow]

theorem unitsOf_lt_iff (n k : Bool) (m p : Nat) (e g : Int) :
    unitsOf n m e (min e g) < unitsOf k p g (min e g) ↔ finNumber n m e < finNumber k p g := by
  have hpow : (0 : ℚ) < 2 ^ (-(min e g)) := zpow_pos (by norm_num) _
  rw [← Int.cast_lt (R := ℚ), unitsOf_eq n m (min_le_left e g), unitsOf_eq k p (min_le_right e g), mul_lt_mul_iff_left₀ hpow]

/-- Whether a value lies below another on the key line. -/
def FVal.below (low : Bool) (x y : FVal) : Bool :=
  if x.isNan && y.isNan then false
  else if x.isNan then low
  else if y.isNan then !low
  else fLess x y || (x.isZero && y.isZero && x.isNeg && !y.isNeg)

theorem keyLess_of_float {f : Nat} (h : isFloatCode f = true) (low : Bool) (a b : Nat) :
    keyLess f low a b = FVal.below low ((codeFmt f).value a) ((codeFmt f).value b) := if_pos h

theorem FVal.below_iff (low : Bool) (x y : FVal) : FVal.below low x y = true ↔ x.rank low < y.rank low := by
  cases x with
  | nan =>
    cases y with
    | nan => simp [below, rank, isNan]
    | inf k => cases k <;> cases low <;> simp [below, rank, isNan, Prod.Lex.toLex_lt_toLex]
    | fin k p g => cases low <;> simp [below, rank, isNan, Prod.Lex.toLex_lt_toLex]
  | inf n =>
    cases y with
    | nan => cases n <;> cases low <;> simp [below, rank, isNan, Prod.Lex.toLex_lt_toLex]
    | inf k => cases n <;> cases k <;> simp [below, rank, isNan, isZero, fLess, Prod.Lex.toLex_lt_toLex]
    | fin k p g => cases n <;> simp [below, rank, isNan, isZero, fLess, Prod.Lex.toLex_lt_toLex]
  | fin n m e =>
    cases y with
    | nan => cases low <;> simp [below, rank, isNan, Prod.Lex.toLex_lt_toLex]
    | inf k => cases k <;> simp [below, rank, isNan, isZero, fLess, Prod.Lex.toLex_lt_toLex]
    | fin k p g =>
      simp [below, rank, isNan, isZero, isNeg, fLess, Prod.Lex.toLex_lt_toLex, unitsOf_lt_iff]
      refine or_congr_right ⟨fun ⟨⟨⟨hm, hp⟩, hn⟩, hk⟩ => ?_, fun ⟨heq, htie⟩ => ?_⟩
      · simp [hm, hp, hn, hk, finNumber]
      · have hx : n = true ∧ m = 0 := by
          by_contra h
          rw [if_neg h] at htie
          split at htie <;> omega
        have hp : p = 0 := finNumber_eq_zero_iff.mp (heq.symm.trans (finNumber_eq_zero_iff.mpr hx.2))
        have hk : k = false := by
          cases k
          · rfl
          · rw [if_pos hx, if_pos ⟨rfl, hp⟩] at htie; omega
        exact ⟨⟨⟨hx.2, hp⟩, hx.1⟩, hk⟩

theorem keyLess_iff (f : Nat) (low : Bool) (a b : Nat) : keyLess f low a b = true ↔ keyRank f low a < keyRank f low b := by
  unfold keyRank
  by_cases h : isFloatCode f = true
  · rw [keyLess_of_float h, FVal.below_iff, if_pos h, if_pos h]
  · simp [keyLess, h, Prod.Lex.toLex_lt_toLex]

/-! ## The order of pairs -/

section
variable {f : Nat} {down low : Bool}

/-- A pair comes before another by its key, upwards or downwards, then by its index, then by its position. -/
theorem pairBefore_iff (u v : SortPair) : pairBefore f down low u v = true ↔
    (if down then keyRank f low v.key < keyRank f low u.key else keyRank f low u.key < keyRank f low v.key) ∨
      keyRank f low u.key = keyRank f low v.key ∧ (u.idx < v.idx ∨ u.idx = v.idx ∧ u.pos < v.pos) := by
  unfold pairBefore
  simp only [keyLess_iff]
  rcases lt_trichotomy (keyRank f low u.key) (keyRank f low v.key) with h | h | h
  · cases down <;> simp [h, h.ne, h.not_gt]
  · by_cases hidx : u.idx = v.idx <;> simp [h, hidx]
  · cases down <;> simp [h, h.ne', h.not_gt]

theorem pairBefore_trans {u v w : SortPair} (huv : pairBefore f down low u v = true) (hvw : pairBefore f down low v w = true) :
    pairBefore f down low u w = true := by
  rw [pairBefore_iff] at *
  rcases huv with huv | ⟨huv, hidx⟩ <;> rcases hvw with hvw | ⟨hvw, hidx'⟩
  · left; cases down
    · exact lt_trans huv hvw
    · exact lt_trans hvw huv
  · rw [← hvw]; exact .inl huv
  · rw [huv]; exact .inl hvw
  · exact .inr ⟨huv.trans hvw, by omega⟩

/-- Of two pairs at different positions one comes before the other. -/
theorem pairBefore_total {u v : SortPair} (hpos : u.pos ≠ v.pos) (h : ¬ pairBefore f down low u v = true) :
    pairBefore f down low v u = true := by
  rw [pairBefore_iff] at *
  rcases lt_trichotomy (keyRank f low u.key) (keyRank f low v.key) with hk | hk | hk
  · cases down
    · exact absurd (.inl hk) h
    · exact .inl hk
  · exact .inr ⟨hk.symm, by simp only [hk, true_and] at h; omega⟩
  · cases down
    · exact .inl hk
    · exact absurd (.inl hk) h

/-! ## Insertion -/

theorem insPair_perm (u : SortPair) (l : List SortPair) : (insPair f down low u l).Perm (u :: l) := by
  induction l with
  | nil => exact .refl _
  | cons r l ih =>
    unfold insPair
    split
    · exact .refl _
    · exact (ih.cons r).trans (.swap u r l)

theorem insPair_sorted {u : SortPair} {l : List SortPair} (hl : l.Pairwise (fun u v => pairBefore f down low u v = true))
    (hpos : ∀ r ∈ l, u.pos ≠ r.pos) : (insPair f down low u l).Pairwise (fun u v => pairBefore f down low u v = true) := by
  induction l with
  | nil => exact List.pairwise_singleton _ _
  | cons r l ih =>
    obtain ⟨hr, hrest⟩ := List.pairwise_cons.mp hl
    unfold insPair
    split
    · next hbefore =>
      exact List.pairwise_cons.mpr ⟨List.forall_mem_cons.mpr ⟨hbefore, fun v hv => pairBefore_trans hbefore (hr v hv)⟩, hl⟩
    · next hafter =>
      refine List.pairwise_cons.mpr ⟨fun v hv => ?_, ih hrest fun v hv => hpos v (List.mem_cons_of_mem _ hv)⟩
      rcases List.mem_cons.mp ((insPair_perm u l).mem_iff.mp hv) with rfl | hv
      · exact pairBefore_total (hpos r List.mem_cons_self) hafter
      · exact hr v hv

variable (f down low) in
/-- The pairs, each inserted in its place. -/
def sortPairs (l : List SortPair) : List SortPair := l.foldr (insPair f down low) []

theorem sortPairs_perm (l : List SortPair) : (sortPairs f down low l).Perm l := by
  induction l with
  | nil => exact .refl _
  | cons u l ih => exact (insPair_perm u _).trans (ih.cons u)

theorem sortPairs_sorted {l : List SortPair} (hpos : l.Pairwise (fun u v => u.pos ≠ v.pos)) :
    (sortPairs f down low l).Pairwise (fun u v => pairBefore f down low u v = true) := by
  induction l with
  | nil => exact .nil
  | cons u l ih =>
    obtain ⟨hu, hrest⟩ := List.pairwise_cons.mp hpos
    exact insPair_sorted (ih hrest) fun r hr => hu r ((sortPairs_perm l).mem_iff.mp hr)

end

/-! ## The pairs of a register -/

section
variable (q : Port) (qp f a base : Nat)

theorem Port.pairs_length_le : (q.pairs qp f a base).length ≤ min (lanes f) 32 := by
  simpa [Port.pairs] using List.length_filter_le (q.active qp) (List.range (min (lanes f) 32))

/-- A pair's key and index are elements, and its position is within the run. -/
theorem Port.mem_pairs {u : SortPair} (h : u ∈ q.pairs qp f a base) :
    (u.key < 2 ^ codeBits f ∧ u.idx < 2 ^ 32) ∧ base ≤ u.pos ∧ u.pos < base + min (lanes f) 32 := by
  obtain ⟨j, hj, rfl⟩ := List.mem_map.mp h
  have hj' := List.mem_range.mp (List.mem_filter.mp hj).1
  exact ⟨⟨lane_lt _ _ _, lane_lt _ _ _⟩, Nat.le_add_right _ _, Nat.add_lt_add_left hj' base⟩

theorem Port.pairs_pos : (q.pairs qp f a base).Pairwise (fun u v => u.pos ≠ v.pos) := by
  refine List.pairwise_map.mpr ((List.nodup_range.filter _).imp fun h => ?_)
  exact fun heq => h (Nat.add_left_cancel heq)

/-- The runs of two registers, one behind the other. -/
theorem Port.pairs_append_pos (b : Nat) :
    (q.pairs qp f a 0 ++ q.pairs qp f b (min (lanes f) 32)).Pairwise (fun u v => u.pos ≠ v.pos) := by
  refine List.pairwise_append.mpr ⟨q.pairs_pos qp f a 0, q.pairs_pos qp f b _, fun u hu v hv => ?_⟩
  have hfirst := (q.mem_pairs qp f a 0 hu).2
  have hsecond := (q.mem_pairs qp f b _ hv).2
  omega

end

/-! ## The lanes that pairs take -/

/-- Elements written one after another from lane `k` up. -/
theorem lane_foldl_setLane {α : Type} (g : α → Nat) {b : Nat} (l : List α) (k : Nat) (v : VWord) (hfits : b * (k + l.length) ≤ 1024) (j : Nat) :
    lane ((l.zipIdx k).foldl (fun v p => setLane v b p.2 (g p.1)) v) b j =
      if h : k ≤ j ∧ j < k + l.length then g (l[j - k]'(by omega)) % 2 ^ b else lane v b j := by
  induction l generalizing k v with
  | nil => simp
  | cons a l ih =>
    rw [List.length_cons] at hfits
    have hfits' : b * (k + 1 + l.length) ≤ 1024 := by rwa [Nat.add_assoc, Nat.add_comm 1]
    have hk : b * (k + 1) ≤ 1024 := le_trans (Nat.mul_le_mul_left b (by omega)) hfits
    rw [List.zipIdx_cons, List.foldl_cons, ih (k + 1) _ hfits', lane_setLane _ _ hk]
    by_cases hj : j = k
    · subst hj; simp
    · by_cases hin : k + 1 ≤ j ∧ j < k + 1 + l.length
      · rw [dif_pos hin, dif_pos (by simp only [List.length_cons]; omega)]
        have hnext : j - k = j - (k + 1) + 1 := by omega
        simp only [hnext, List.getElem_cons_succ]
      · rw [dif_neg hin, if_neg hj, dif_neg (by simp only [List.length_cons]; omega)]

/-- A pair that an element of a format and one of 32 bits hold. -/
def SortPair.Fits (f : Nat) (u : SortPair) : Prop := u.key < 2 ^ codeBits f ∧ u.idx < 2 ^ 32

/-- The port `t` is `q` with some pairs in lanes 0 up of registers `d` and `d + 1`: every lane beyond them, and every other register,
has stayed. -/
def Port.TakesPairs (q : Port) (f d : Nat) (l : List SortPair) (t : Port) : Prop :=
  (∀ j < min (lanes f) 32, ∀ u, l[j]? = some u → lane (t.vreg d) (codeBits f) j = u.key ∧ lane (t.vreg (d + 1)) 32 j = u.idx) ∧
  (∀ j, l.length ≤ j → j < lanes f → lane (t.vreg d) (codeBits f) j = lane (q.vreg d) (codeBits f) j) ∧
  (∀ j, l.length ≤ j → j < 32 → lane (t.vreg (d + 1)) 32 j = lane (q.vreg (d + 1)) 32 j) ∧
  (∀ n, n ≠ d → n ≠ d + 1 → t.vreg n = q.vreg n) ∧ (∀ n, t.preg n = q.preg n) ∧ t.cfg = q.cfg

theorem Port.putPairs_takes (q : Port) {f d : Nat} {l : List SortPair} (hlen : l.length ≤ min (lanes f) 32)
    (hl : ∀ u ∈ l, u.Fits f) : q.TakesPairs f d l (q.putPairs f d l) := by
  have hkeys : codeBits f * (0 + l.length) ≤ 1024 :=
    le_trans (Nat.mul_le_mul_left _ (by omega)) (codeBits_mul_lanes f)
  have hidxs : 32 * (0 + l.length) ≤ 1024 := by omega
  simp only [Port.TakesPairs, Port.putPairs, Port.vreg_setV, Nat.succ_ne_self, (Nat.succ_ne_self d).symm, if_true, if_false]
  simp only [lane_foldl_setLane (fun u : SortPair => u.key) l 0 _ hkeys, lane_foldl_setLane (fun u : SortPair => u.idx) l 0 _ hidxs]
  refine ⟨fun j _ u hu => ?_, fun j hj _ => dif_neg (by omega), fun j hj _ => dif_neg (by omega), fun n hd hd' => ?_, fun n => rfl, rfl⟩
  · obtain ⟨hj, rfl⟩ := List.getElem?_eq_some_iff.mp hu
    obtain ⟨hkey, hidx⟩ := hl _ (List.getElem_mem hj)
    rw [dif_pos (by omega), dif_pos (by omega)]
    exact ⟨Nat.mod_eq_of_lt hkey, Nat.mod_eq_of_lt hidx⟩
  · rw [if_neg hd', if_neg hd]

/-- A port that an instruction of pairs gives. -/
theorem Port.TakesPairs.of_compute {q t : Port} {e : VEntry} {d : Nat} {l : List SortPair} (hcompute : q.compute e 0 = q.putPairs e.fmt d l)
    (hlen : l.length ≤ min (lanes e.fmt) 32) (hl : ∀ u ∈ l, u.Fits e.fmt) (hv : ∀ n, t.vreg n = (q.compute e 0).vreg n)
    (hp : ∀ n, t.preg n = (q.compute e 0).preg n) (hcfg : t.cfg = (q.compute e 0).cfg) : q.TakesPairs e.fmt d l t := by
  unfold Port.TakesPairs
  simp only [hv, hp, hcfg, hcompute]
  exact q.putPairs_takes hlen hl

theorem vectorSorting : Claim.VectorSorting := by
  intro s core p e h m o qp d a b r _ _ q w c from_ order put
  have hrun (v : VReg) (base : Nat) : ∀ u ∈ from_ v base, u.Fits e.fmt := fun u hu => (q.mem_pairs qp.toNat e.fmt v.toNat base hu).1
  have hone (down : Bool) : ∀ u ∈ sortPairs e.fmt down (decide (m = 1)) (from_ a 0), u.Fits e.fmt :=
    fun u hu => hrun a 0 u ((sortPairs_perm _).mem_iff.mp hu)
  have hlength (down : Bool) : (sortPairs e.fmt down (decide (m = 1)) (from_ a 0)).length ≤ c :=
    (sortPairs_perm _).length_eq.trans_le (q.pairs_length_le qp.toNat e.fmt a.toNat 0)
  refine ⟨fun hins => ?_, fun hins => ?_, fun hins _ => ?_⟩
  · have hcompute : q.compute e 0 = q.putPairs e.fmt d.toNat (sortPairs e.fmt (decide (o = 1)) (decide (m = 1)) (from_ a 0)) := by
      simp only [Port.compute, hins]; rfl
    exact portGives_of_compute hins rfl fun t hv hp hcfg => ⟨_, sortPairs_perm _, sortPairs_sorted (q.pairs_pos _ _ _ _),
      Port.TakesPairs.of_compute hcompute (hlength _) (hone _) hv hp hcfg⟩
  · have hcompute : q.compute e 0 = q.putPairs e.fmt d.toNat
        (((sortPairs e.fmt (decide (o = 1)) (decide (m = 1)) (from_ a 0 ++ from_ b c)).drop (h.toNat * c)).take c) := by
      simp only [Port.compute, hins]; rfl
    have hboth : ∀ u ∈ ((sortPairs e.fmt (decide (o = 1)) (decide (m = 1)) (from_ a 0 ++ from_ b c)).drop (h.toNat * c)).take c,
        u.Fits e.fmt := fun u hu =>
      (List.mem_append.mp ((sortPairs_perm _).mem_iff.mp (List.mem_of_mem_drop (List.mem_of_mem_take hu)))).elim (hrun a 0 u) (hrun b c u)
    exact portGives_of_compute hins rfl fun t hv hp hcfg => ⟨_, sortPairs_perm _, sortPairs_sorted (q.pairs_append_pos _ _ _ _),
      Port.TakesPairs.of_compute hcompute (List.length_take_le _ _) hboth hv hp hcfg⟩
  · have hcompute : q.compute e 0 = q.putPairs e.fmt d.toNat
        ((sortPairs e.fmt true (decide (m = 1)) (from_ a 0)).take (e.xs.getD 0 0).toNat) := by
      simp only [Port.compute, hins]; rfl
    exact portGives_of_compute hins rfl fun t hv hp hcfg => ⟨_, sortPairs_perm _, sortPairs_sorted (q.pairs_pos _ _ _ _),
      Port.TakesPairs.of_compute hcompute (le_trans (List.length_take_le' _ _) (hlength _)) (fun u hu => hone _ u (List.mem_of_mem_take hu)) hv hp hcfg⟩

/-- Settles O37. -/
theorem vectorMovesReductionsAndSorting : Obligations.VectorMovesReductionsAndSorting := ⟨vectorMovesAndReductions, vectorSorting⟩

end Sys2Proof.Machine
end

section
/-! What a load leaves (10 R209, R213; 11 R252; 15 R359): the copies and marks that it moves are the cluster's, so memory, the vector
ports and the record of a thread that is not speculative stay as they are. -/

namespace Sys2Proof.Machine

/-- In `t` memory, the vector ports, the running context's number and the record of context `c` are those of `s`. -/
structure Leaves (c : Nat) (s t : State) : Prop where
  mem : t.mem = s.mem
  ports : t.ports = s.ports
  cur : t.cur = s.cur
  ctx : t.ctx c = s.ctx c

section
variable {c : Nat} {s t : State} (h : Leaves c s t)

theorem Leaves.refl (c : Nat) (s : State) : Leaves c s s := ⟨rfl, rfl, rfl, rfl⟩

include h

theorem Leaves.port (k p : Nat) : t.port k p = s.port k p := by unfold State.port; rw [h.ports]

theorem Leaves.modClu {k : Nat} {f : Cluster → Cluster} : Leaves c s (t.modClu k f) := ⟨h.mem, h.ports, h.cur, h.ctx⟩

theorem Leaves.modPkg {f : Pkg → Pkg} : Leaves c s (t.modPkg f) := ⟨h.mem, h.ports, h.cur, h.ctx⟩

theorem Leaves.modDir {l : Nat} {f : DirLine → DirLine} : Leaves c s (t.modDir l f) := ⟨h.mem, h.ports, h.cur, h.ctx⟩

theorem Leaves.modCore {k : Nat} {f : CoreSt → CoreSt} : Leaves c s (t.modCore k f) := ⟨h.mem, h.ports, h.cur, h.ctx⟩

theorem Leaves.modCtx {d : Nat} {f : Ctx → Ctx} (hd : d ≠ c) : Leaves c s (t.modCtx d f) :=
  ⟨h.mem, h.ports, h.cur, by rw [State.modCtx_ctx, if_neg hd.symm]; exact h.ctx⟩

theorem Leaves.dirEvent {e : DirEv} : Leaves c s (t.dirEvent e) := by
  unfold State.dirEvent
  exact h.modClu

omit h in
theorem Leaves.ite {p : Prop} [Decidable p] {a b : State} (ha : Leaves c s a) (hb : Leaves c s b) : Leaves c s (if p then a else b) := by
  split
  · exact ha
  · exact hb

omit h in
theorem Leaves.foldl {α : Type} {t : State} {f : State → α → State} {l : List α} (h : Leaves c s t)
    (hf : ∀ t a, Leaves c s t → Leaves c s (f t a)) : Leaves c s (l.foldl f t) :=
  List.foldlRecOn l f h fun t ht a _ => hf t a ht

/-! ## A restart, and the inbox (10 R213; 15 R359) -/

theorem Leaves.withdraw {d : Nat} (hd : d ≠ c) : Leaves c s (t.withdraw d) := by
  unfold State.withdraw
  extract_lets
  refine Leaves.modCtx ?_ hd
  exact ⟨h.mem, h.ports, h.cur, h.ctx⟩

theorem Leaves.restart {d : Nat} (hd : d ≠ c) : Leaves c s (t.restart d) := by
  unfold State.restart
  split
  · exact h
  · exact ((Leaves.ite (h.withdraw hd).modPkg h).modCtx hd).modClu

theorem Leaves.restartSpilled {clu key : Nat} : Leaves c s (t.restartSpilled clu key) := by
  refine Leaves.modClu ?_
  exact ⟨h.mem, h.ports, h.cur, h.ctx⟩

theorem Leaves.hitSpilled {clu line : Nat} : Leaves c s (t.hitSpilled clu line) := h.foldl fun _ _ h => h.restartSpilled

/-- A thread that is not speculative is not restarted. -/
theorem Leaves.hitReaders (hspec : (s.ctx c).spec = none) {clu line : Nat} : Leaves c s (t.hitReaders clu line) := by
  refine Leaves.hitSpilled (h.foldl fun t d h => ?_)
  split
  · next hd =>
    refine h.restart fun hdc => ?_
    rw [hdc, h.ctx, hspec] at hd
    exact absurd hd (by simp)
  · exact h

theorem Leaves.applyInbox (hspec : (s.ctx c).spec = none) {clu : Nat} : Leaves c s (t.applyInbox clu) :=
  (h.foldl fun _ _ h => h.modClu.hitReaders hspec).modClu

theorem Leaves.tileSeen (hspec : (s.ctx c).spec = none) {clu : Nat} {lines : List Nat} {all : Bool} :
    Leaves c s (t.tileSeen clu lines all) := Leaves.ite (h.applyInbox hspec) h

/-! ## The cluster's copies (03 R47; 10 R236) -/

theorem Leaves.recordSharer {line clu : Nat} : Leaves c s (t.recordSharer line clu) :=
  Leaves.ite h (Leaves.ite h.modDir (Leaves.ite h.modDir h.modDir.dirEvent))

theorem Leaves.touchLine {clu line : Nat} : Leaves c s (t.touchLine clu line) := by
  unfold State.touchLine
  split
  · exact h
  · exact h.modClu

theorem Leaves.keepLine {clu line : Nat} {data : BitVec 1024} {through : Bool} : Leaves c s (t.keepLine clu line data through).2 := by
  unfold State.keepLine
  extract_lets way
  clear_value way
  cases way
  · exact h
  · exact h.modClu.touchLine

theorem Leaves.fillLine (hspec : (s.ctx c).spec = none) {clu line : Nat} {keep : Bool} : Leaves c s (t.fillLine clu line keep) := by
  unfold State.fillLine
  extract_lets
  exact Leaves.ite h (Leaves.ite h.touchLine (Leaves.ite (h.tileSeen hspec).recordSharer (h.tileSeen hspec).recordSharer.keepLine))

theorem Leaves.correct {ls : List Nat} : Leaves c s (t.correct ls) := by
  unfold State.correct
  extract_lets
  refine Leaves.ite h (Leaves.modPkg ?_)
  exact ⟨h.mem, h.ports, h.cur, h.ctx⟩

theorem Leaves.errMet {ls : List Nat} : Leaves c s (t.errMet ls) := by
  unfold State.errMet
  split
  · exact h
  · split
    · exact h
    · exact ⟨h.mem, h.ports, h.cur, h.ctx⟩

theorem Leaves.freshen (hspec : (s.ctx c).spec = none) {d : Nat} {ls : List Nat} : Leaves c s (t.freshen d ls) := by
  have hdraw : Leaves c s t.draw.2 := ⟨h.mem, h.ports, h.cur, h.ctx⟩
  exact Leaves.ite (hdraw.applyInbox hspec) hdraw

theorem Leaves.loadBytes (hspec : (s.ctx c).spec = none) {d : Nat} {ls : List Nat} {keep : Bool} {na : List Nat} :
    Leaves c s (t.loadBytes d ls keep na).2 := (h.freshen hspec).correct.foldl fun _ _ h => h.fillLine hspec

theorem Leaves.vecLoad (hspec : (s.ctx c).spec = none) {d f : Nat} {segs : List (Nat × List Nat)} {na : List Nat} {old : VWord} :
    Leaves c s (t.vecLoad d f segs na old).2.2 := (h.loadBytes hspec).errMet

end

/-! ## What the detectors see (03 R51) -/

/-- The two differ in what the cores' detectors have seen, and in nothing else; the entries that a core can read are the same. -/
def SameButDetectors (s t : State) : Prop := t = { s with cores := t.cores } ∧ ∀ k, (t.core k).shared = (s.core k).shared

section
variable {s t u : State}

theorem SameButDetectors.refl (s : State) : SameButDetectors s s := ⟨rfl, fun _ => rfl⟩

theorem SameButDetectors.trans (h : SameButDetectors s t) (h' : SameButDetectors t u) : SameButDetectors s u :=
  ⟨h'.1.trans (by rw [h.1]), fun k => (h'.2 k).trans (h.2 k)⟩

theorem SameButDetectors.leaves (h : SameButDetectors s t) (c : Nat) : Leaves c s t := by
  rw [h.1]
  exact ⟨rfl, rfl, rfl, rfl⟩

theorem sameButDetectors_coreStream (s : State) (ptr : Word) : SameButDetectors s (s.coreStream ptr).2 := by
  unfold State.coreStream
  split
  · exact .refl s
  · refine ⟨rfl, fun k => ?_⟩
    dsimp only
    rw [State.modCore_core]
    split
    · next hk => rw [hk]
    · rfl

theorem sameButDetectors_vecStream (s : State) (es : List VElem) : SameButDetectors s (s.vecStream es).2 :=
  List.foldlRecOn (motive := fun a : List Nat × State => SameButDetectors s a.2) es _ (.refl s) fun a ha e _ =>
    ha.trans (sameButDetectors_coreStream a.2 e.2.1)

/-- Which bytes a load fetches, and whether a read is held, the detectors do not decide. -/
theorem SameButDetectors.fetched (h : SameButDetectors s t) (c : Nat) (ls : List Nat) : t.fetched c ls = s.fetched c ls := by
  have hctx : (t.ctx c).buf = (s.ctx c).buf := congrArg Ctx.buf (h.leaves c).ctx
  have htag : ∀ l, t.taggedByte c l = s.taggedByte c l := fun l => by rw [h.1]; rfl
  unfold State.fetched
  simp only [hctx, htag, h.2]

theorem SameButDetectors.readsHeld (h : SameButDetectors s t) (clu : Nat) (lines : List Nat) :
    t.readsHeld clu lines = s.readsHeld clu lines := by
  rw [h.1]
  rfl

end

end Sys2Proof.Machine
end

section
/-! How a vector instruction of the running thread issues (05 R82, R86; 08 R159, R161, R162): its gate, its entry, and the queue. -/

namespace Sys2Proof.Machine

section
variable {s : State} {g : Gate} {len : Nat} {body : State → Res}

/-! ## The gate -/

/-- Row 5 of 05 R82: a pending `FMT` stops an instruction that takes no format. -/
theorem State.run_prefixOrphan (hpriv : g.priv = false) (hfmt : g.fmt = false) (hpp : s.me.sta.pp = true) :
    s.run g len body = s.takeFault s.cur { code := Cause.prefixOrphan } := by
  unfold State.me at hpp
  unfold State.run
  rw [if_neg (by simp [hpriv]), if_pos (by simp [hpp, hfmt])]

/-- Row 6 of 05 R82, where a format may be pending for the instruction. -/
theorem State.run_noPort (hpriv : g.priv = false) (hfmt : g.fmt = true ∨ s.me.sta.pp = false) (hvec : g.vec = true) (hbind : s.me.sta.bind ≠ 1) :
    s.run g len body = s.takeFault s.cur { code := Cause.noBinding } := by
  unfold State.me at hfmt hbind
  unfold State.run
  rw [if_neg (by simp [hpriv]), if_neg (by rcases hfmt with hfmt | hfmt <;> simp [hfmt]), if_pos (by simpa [hvec] using .inl hbind)]

variable (h : Claim.Ported s)
include h

theorem run_of_ported (hpriv : g.priv = false) (hmat : g.mat = false) (hfmt : g.fmt = true ∨ s.me.sta.pp = false) :
    s.run g len body = s.finish s.cur len (body s) := by
  have hbind := h.bind
  have hspec := h.spec
  unfold State.me at hfmt hbind hspec
  rcases hfmt with hfmt | hfmt <;> simp [State.run, hpriv, hmat, hfmt, hbind, hspec]

theorem complete_of_ported (t : State) (pc : Word) : t.complete s.cur s.me pc = t.modCtx s.cur (fun x => { x with pc := pc }) := by
  unfold State.complete
  rcases h.step_ with hstep | hstep <;> simp [hstep, h.due]

theorem finish_done_of_ported (t : State) :
    s.finish s.cur len (.done t) = t.modCtx s.cur (fun x => { x with pc := s.me.pc + BitVec.ofNat 64 len }) :=
  complete_of_ported h t _

end

/-! ## The entry -/

section
variable (s : State) (i : Instr)

theorem myPort_eq : s.myPort = Claim.port s := rfl

/-- The format of a pending `FMT`, or the port's default, is the format in force. -/
theorem vFormat_eq_format : vFormat (if s.me.sta.pp then some s.me.sta.pfx else none) (Claim.port s).cfg = Claim.format s := by
  unfold Claim.format
  split
  · simp [vFormat, bitsAt, bitOf_eq_getLsbD]
  · simp [vFormat, bitsAt, bitOf_eq_getLsbD]

/-- What an entry is fixed to at issue (08 R159): format and saturation in force, rounding mode, and scalar operands. -/
def State.issued (s : State) (i : Instr) : VEntry where
  ins := i
  fmt := (Claim.format s).1
  sat := (Claim.format s).2
  rm := rrMode (BitVec.ofNat 3 ((Claim.port s).cfg.toNat / 256)) (vRound i)
  xs := (vScalars i).map s.me.reg

theorem myEntry_eq : s.myEntry i = s.issued i := by
  have hrm : BitVec.ofNat 3 (bitsAt (Claim.port s).cfg 8 3) = BitVec.ofNat 3 ((Claim.port s).cfg.toNat / 256) :=
    BitVec.eq_of_toNat_eq (by simp [bitsAt])
  rw [State.issued, ← hrm, ← vFormat_eq_format]
  rfl

end

/-! ## The queue -/

section
variable {s : State} {len : Nat} {e : VEntry}

theorem enqueue_of_full (hfull : 8 ≤ (Claim.port s).queue.length) :
    s.finish s.cur len (s.enqueue e) = s.block s.cur .drain len := by
  unfold State.enqueue
  rw [if_pos (by exact hfull)]
  rfl

theorem enqueue_of_room (h : Claim.Ported s) (hroom : (Claim.port s).queue.length < 8) : s.finish s.cur 4 (s.enqueue e) = Claim.queued s e := by
  unfold State.enqueue
  rw [if_neg (by exact Nat.not_le.mpr hroom), finish_done_of_ported h]
  exact State.modCtx_modCtx _ _ _ _

end

/-- Issue to the port (08 R159, R161, R162): a reserved format or operand faults, a full queue makes the thread wait, and otherwise the entry is
queued. -/
theorem vissue_of_ported {s : State} (h : Claim.Ported s) {i : Instr} {g : Gate} (hexec : exec i s = goes (s.run g 4 (fun s => s.vissue i)))
    (hpriv : g.priv = false) (hmat : g.mat = false) (hfmt : g.fmt = true ∨ s.me.sta.pp = false) :
    (vBad i (s.issued i).fmt (s.issued i).xs (Claim.port s).cfg = true → Claim.Faults s i Cause.reservedBits 0 0) ∧
    (vBad i (s.issued i).fmt (s.issued i).xs (Claim.port s).cfg = false →
      (8 ≤ (Claim.port s).queue.length → Claim.Waits s i 4 .drain) ∧
      ((Claim.port s).queue.length < 8 → exec i s = .next (Claim.queued s (s.issued i)))) := by
  have hrun : exec i s = .next (s.finish s.cur 4 (s.vissue i)) := hexec.trans (congrArg goes (run_of_ported h hpriv hmat hfmt))
  unfold Claim.Faults Claim.Waits
  simp only [hrun, State.vissue, myEntry_eq, myPort_eq]
  refine ⟨fun hbad => ?_, fun hgood => ⟨fun hfull => ?_, fun hroom => ?_⟩⟩
  · rw [if_pos hbad]; rfl
  · rw [if_neg (by rw [hgood]; exact Bool.false_ne_true), enqueue_of_full hfull]
  · rw [if_neg (by rw [hgood]; exact Bool.false_ne_true), enqueue_of_room h hroom]

theorem portIssue : Claim.PortIssue := by
  intro s sg hh m o f qp pd pa d a b r port log fm xs rm
  have hport : ∀ i ∈ port, exec i s = goes (s.run vecGate 4 (fun s => s.vissue i)) := by
    refine List.forall_iff_forall_mem.mp ?_
    and_intros
    all_goals rfl
  have hlog : exec log s = goes (s.run { vec := true } 4 (fun s => s.vissue log)) := rfl
  refine ⟨fun _ hbind => ⟨fun i hi => ?_, fun hpp => ?_⟩, fun _ hpp => ?_, fun h i hi => ?_⟩
  · exact (hport i hi).trans (congrArg goes (State.run_noPort rfl (.inl rfl) rfl hbind))
  · exact hlog.trans (congrArg goes (State.run_noPort rfl (.inr hpp) rfl hbind))
  · exact hlog.trans (congrArg goes (State.run_prefixOrphan rfl rfl hpp))
  · rcases hi with hi | ⟨rfl, hpp⟩
    · exact vissue_of_ported h (hport i hi) rfl rfl (.inl rfl)
    · exact vissue_of_ported h hlog rfl rfl (.inr hpp)

/-! ## Passes (08 R166) -/

section
variable {q : Port} {e : VEntry} {r : List VEntry} {j : Nat} (hq : q.queue = e :: r) (hrep : q.rep = some j)
include hq hrep

theorem Port.pass_queue_of_last (hlast : (e.xs.getD 0 0).toNat ≤ j + 1) : q.pass.queue = r ∧ q.pass.rep = none := by
  have hcontrol := Port.control_foldl_execute q.repBuf (j * repStep e.ins) q
  simp only [Port.control, Prod.mk.injEq] at hcontrol
  obtain ⟨hqueue, -, -⟩ := hcontrol
  simp only [Port.pass, hq, hrep, if_pos hlast, Port.pop, hqueue, List.drop_one, List.tail_cons, and_self]

theorem Port.pass_queue_of_more (hmore : j + 1 < (e.xs.getD 0 0).toNat) : q.pass.queue = e :: r ∧ q.pass.rep = some (j + 1) := by
  have hcontrol := Port.control_foldl_execute q.repBuf (j * repStep e.ins) q
  simp only [Port.control, Prod.mk.injEq] at hcontrol
  obtain ⟨hqueue, -, -⟩ := hcontrol
  simp only [Port.pass, hq, hrep, if_neg (Nat.not_le.mpr hmore), hqueue, and_self]

end

theorem passesComplete : Claim.PassesComplete := by
  intro s core p c j e r hq hrep huser hkept
  have hexec : exec (.repPass core p) s = .next (s.modPort core p Port.pass) := by
    refine congrArg goes (if_neg ?_)
    simp [hkept, huser]
  refine ⟨_, hexec, rfl, fun hlast => ?_, fun hmore => ?_⟩
  · rw [State.modPort_port_same]
    exact Port.pass_queue_of_last hq hrep hlast
  · rw [State.modPort_port_same]
    exact Port.pass_queue_of_more hq hrep hmore

end Sys2Proof.Machine
end

section
/-! Where a vector instruction of the running thread completes (08 R158, R165, R166, R180 to R182): the configuration and a repetition on a
drained port, and memory forms whose active elements pass their checks and lie in memory. -/

namespace Sys2Proof.Machine

/-! ## Completion -/

/-- The instruction completes: the thread's port becomes a good one, the pc moves on, and memory stays. -/
def Completes (s : State) (i : Instr) (len : Nat) (good : Port → Prop) : Prop :=
  ∃ t, exec i s = .next t ∧ good (Claim.port t) ∧ (t.ctx s.cur).pc = s.me.pc + BitVec.ofNat 64 len ∧ t.mem = s.mem

/-- In `t` memory, the ports and the running context's number are those of `s`, and the thread has the same port. -/
structure SamePlace (s t : State) : Prop where
  mem : t.mem = s.mem
  ports : t.ports = s.ports
  cur : t.cur = s.cur
  port : (t.ctx s.cur).sta.port = s.me.sta.port

theorem Leaves.samePlace {s t : State} (h : Leaves s.cur s t) : SamePlace s t := ⟨h.mem, h.ports, h.cur, by rw [h.ctx]; rfl⟩

section
variable {s : State} (h : Claim.Ported s) {i : Instr} {g : Gate} {len : Nat} {body : State → Res} {good : Port → Prop}
  (hexec : exec i s = goes (s.run g len body)) (hpriv : g.priv = false) (hmat : g.mat = false) (hfmt : g.fmt = true ∨ s.me.sta.pp = false)
include h hexec hpriv hmat hfmt

theorem completes_of_done {t : State} (hbody : body s = .done t) (hmem : t.mem = s.mem) (hcur : t.cur = s.cur)
    (hport : (t.ctx s.cur).sta.port = s.me.sta.port) (hgood : good (t.port (coreOf s.cur) s.me.sta.port.toNat)) :
    Completes s i len good := by
  refine ⟨_, hexec.trans (congrArg goes (run_of_ported h hpriv hmat hfmt)), ?_, ?_, ?_⟩
  all_goals rw [hbody, finish_done_of_ported h]
  · simpa [Claim.port, State.me, hcur, hport] using hgood
  · simp
  · exact hmem

/-- It completes with a change to the thread's port. -/
theorem completes_of_modMyPort {t : State} {f : Port → Port} (hbody : body s = .done ((t.modMyPort f).clearPrefix)) (ht : SamePlace s t)
    (hgood : good (f (Claim.port s))) : Completes s i len good := by
  obtain ⟨hmem, hports, hcur, hport⟩ := ht
  have hsame : t.port (coreOf s.cur) s.me.sta.port.toNat = Claim.port s := by unfold State.port Claim.port State.port; rw [hports]
  refine completes_of_done h hexec hpriv hmat hfmt hbody hmem hcur ?_ ?_
  · simp [State.modMyPort, State.clearPrefix, hcur, hport]
  · simpa [State.modMyPort, State.clearPrefix, hcur, hport, hsame] using hgood

end

theorem portIdle_of_drained {s : State} (hqueue : (Claim.port s).queue = []) (hrep : (Claim.port s).rep = none) : s.portIdle = true := by
  have hlt : (s.ctx s.cur).sta.port.toNat < 4 := (s.ctx s.cur).sta.port.isLt
  unfold State.portIdle State.drained
  rw [if_pos hlt]
  unfold Claim.port State.me at hqueue hrep
  simp [hqueue, hrep]

/-! ## Configuration (08 R158) and repetition (08 R165) -/

section
variable {s : State} (h : Claim.Ported s) (hpp : s.me.sta.pp = false) (hqueue : (Claim.port s).queue = []) (hrep : (Claim.port s).rep = none)
  {i : Instr} {body : State → Res} (hexec : exec i s = goes (s.run { vec := true } 4 body))
include h hpp hqueue hrep hexec

theorem vcfg_completes {d : Reg} {new : Word → Word} {good : Port → Prop} (hbody : body s = s.vcfg d new)
    (hgood : good { Claim.port s with cfg := new (Claim.port s).cfg }) : Completes s i 4 good := by
  have hdone : body s = .done ((s.modMyPort (fun q => { q with cfg := new q.cfg })).setReg d s.myPort.cfg) := by
    rw [hbody, State.vcfg, portIdle_of_drained hqueue hrep]
    rfl
  refine completes_of_done h hexec rfl rfl (.inr hpp) hdone rfl rfl ?_ ?_
  · simp [State.setReg, State.modMyPort, State.me]
  · simpa [State.setReg, State.modMyPort, State.me, Claim.port] using hgood

end

theorem vcfgBad_of_fields {v : Word} (h21 : v.toNat / 2 ^ 21 % 2 ^ 11 = 0) (h11 : v.toNat / 2 ^ 11 % 32 = 0) (h8 : v.toNat / 2 ^ 8 % 8 ≤ 4)
    (h5 : v.toNat / 32 % 4 ≠ 3) (hfmt : fmtAll (v.toNat % 32) = true) : vcfgBad v = false := by
  norm_num at h21 h11 h8
  simp [vcfgBad, bitsAt, h21, h11, h8, h5, hfmt]

section
variable {s : State} (h : Claim.Ported s) (hpp : s.me.sta.pp = false) (hqueue : (Claim.port s).queue = []) (hrep : (Claim.port s).rep = none)
  (d a : Reg)
include h hpp hqueue hrep

theorem vcfgRead_completes : Completes s (.vcfg d) 4 (fun p => p = Claim.port s) :=
  vcfg_completes h hpp hqueue hrep (body := fun s => s.vcfg d id) rfl rfl rfl

/-- `VCFG.clr` clears the sticky flags, and leaves the rest of `VPCFG`. -/
theorem vcfgClr_completes :
    Completes s (.vcfgClr d) 4 (fun p => ∀ i < 64, p.cfg.getLsbD i = (decide (i < 16 ∨ 21 ≤ i) && (Claim.port s).cfg.getLsbD i)) := by
  refine vcfg_completes h hpp hqueue hrep (body := fun s => s.vcfg d (fun v => putBits v 16 5 0)) rfl rfl fun k _ => ?_
  rw [getLsbD_putBits _ (by decide)]
  by_cases hin : 16 ≤ k ∧ k < 16 + 5
  · have hout : ¬ (k < 16 ∨ 21 ≤ k) := by omega
    simp [hin, hout]
  · have hout : k < 16 ∨ 21 ≤ k := by omega
    rw [if_neg hin, decide_eq_true hout, Bool.true_and]

theorem vcfgWr_completes (hgood : vcfgBad (s.me.reg a) = false) : Completes s (.vcfgWr d a) 4 (fun p => p.cfg = s.me.reg a) := by
  refine vcfg_completes h hpp hqueue hrep (new := fun _ => s.me.reg a)
    (body := fun s => if vcfgBad (s.reg a) then Res.bad Cause.reservedBits else s.vcfg d (fun _ => s.reg a)) rfl (if_neg ?_) rfl
  exact hgood ▸ Bool.false_ne_true

end

theorem rep_completes {s : State} (h : Claim.Ported s) (hpp : s.me.sta.pp = false) (hqueue : (Claim.port s).queue = [])
    (hbuf : (Claim.port s).repBuf = []) {t : BitVec 3} {l : BitVec 4} {a : Reg} {body : List VEntry} {next : Word}
    (hcount : (s.me.reg a).toNat ≤ 65535)
    (hcapture : s.capture s.me (Claim.port s).cfg (2 * (l.toNat + 1) + 1) (l.toNat + 1) (s.me.pc + 4) none = .ok (body, next)) :
    ∃ u, exec (.rep t l a) s = .next u ∧ (Claim.port u).repBuf = body ∧ (u.ctx s.cur).pc = next ∧ u.mem = s.mem := by
  have hbody : execRep t l a s = .next (s.finish s.cur 4 (.stay ((s.modMyPort (fun q =>
      { q with queue := q.queue ++ [vEntry (.rep t l a) s.me none (Claim.port s).cfg], repBuf := body })).complete s.cur s.me next))) := by
    unfold execRep
    rw [run_of_ported h rfl rfl (.inr hpp)]
    unfold State.me Claim.port at *
    unfold State.me at *
    simp only [State.myPort, State.reg, hqueue, hbuf, hcapture, if_neg (Nat.not_lt.mpr hcount)]
    rfl
  refine ⟨_, hbody, ?_, ?_, ?_⟩
  all_goals rw [State.finish, complete_of_ported h]
  · simp [Claim.port, State.me, State.modMyPort]
  · simp
  · rfl

/-! ## Elements that pass their checks (08 R180) -/

/-- The active elements pass their checks and lie in memory, where nothing holds them. -/
def State.Reaches (s : State) (es : List VElem) (n need : Nat) (wr : Bool) (ps : List (Nat × Word)) : Prop :=
  let ls := (es.filterMap VElem.mem?).flatMap (·.2)
  s.vecElems n need wr ps = .ok es ∧ (∀ e ∈ es, e.mem?.isSome = true) ∧ s.waterHold s.me.part ls = none ∧ ls.find? (s.bankKept s.cur) = none ∧
    (wr = false → ∀ k ∈ linesOf ls, s.copyBusy (cluOf s.cur) k = false)

theorem length_filterMap_of_isSome {α β : Type} {f : α → Option β} {l : List α} (h : ∀ a ∈ l, (f a).isSome = true) :
    (l.filterMap f).length = l.length := by
  induction l with
  | nil => rfl
  | cons a l ih =>
    obtain ⟨b, hb⟩ := Option.isSome_iff_exists.mp (h a List.mem_cons_self)
    rw [List.filterMap_cons_some hb, List.length_cons, List.length_cons, ih fun x hx => h x (List.mem_cons_of_mem a hx)]

theorem vecCheck_of_reaches {s : State} {es : List VElem} {n need : Nat} {wr : Bool} {ps : List (Nat × Word)}
    (h : s.Reaches es n need wr ps) (go : State → List (Nat × List Nat) → List Nat → Res) (far : List VElem → List Nat → State → Res) :
    ∃ na u, SameButDetectors s u ∧ s.vecCheck ps n need wr go far = go u (es.filterMap VElem.mem?) na := by
  obtain ⟨hok, hmem, hwater, hbank, hbusy⟩ := h
  have hfree : (!wr && (linesOf ((es.filterMap VElem.mem?).flatMap (·.2))).any (fun k => s.copyBusy (cluOf s.cur) k)) = false := by
    cases wr with
    | false => simpa using hbusy rfl
    | true => rfl
  refine ⟨(unkept es).foldl addNat (s.vecStream es).1, _, sameButDetectors_vecStream s es, ?_⟩
  unfold State.vecCheck
  unfold State.me at hwater
  simp only [hok, hfree, State.myPart, hwater, hbank, length_filterMap_of_isSome hmem, Bool.false_eq_true, if_false, if_true]

/-! ## Loads and stores (08 R180, R181) -/

section
variable {s : State} (h : Claim.Ported s) (hqueue : (Claim.port s).queue = []) (hrep : (Claim.port s).rep = none) {es : List VElem}
include h hqueue hrep

/-- The active elements of a load or a store at `x`, each `st` bytes from the last where the form is strided. -/
def straightPtrs (q : Port) (x st : Word) (f : Nat) (sg : BitVec 1) (qp : Nat) : List (Nat × Word) :=
  ((List.range (lanes f)).filter (q.active qp)).map (fun k =>
    (k, x + (if sg = 1 then BitVec.ofNat 64 k * st else BitVec.ofNat 64 (k * codeBits f / 8))))

/-- A load or a store whose elements lie in memory enters the queue. -/
theorem vmem_completes {i : Instr} {qp : PReg} {d need : Nat} {wr : Bool} {sg : BitVec 1} {x st : Word}
    (hexec : exec i s = goes (s.run vecGate 4 (fun s => s.vmem i qp.toNat d need wr)))
    (hgood : vBad i (s.issued i).fmt (s.issued i).xs (Claim.port s).cfg = false)
    (hxs : (s.issued i).xs = if sg = 1 then [x, st] else [x])
    (hreach : s.Reaches es (elemBytes (s.issued i).fmt) need wr (straightPtrs (Claim.port s) x st (s.issued i).fmt sg qp.toNat)) :
    Completes s i 4 (fun p => ∃ e, p.queue = [e] ∧ e.ins = i ∧ e.fmt = (Claim.format s).1) := by
  obtain ⟨na, u, hu, hcheck⟩ := vecCheck_of_reaches hreach
    (fun u l na => u.enqueue { s.issued i with segs := l, keep := true, na := na })
    (State.vecFar (s.issued i).fmt ((s.issued i).use 0) d (if wr then some ((Claim.port s).vreg d) else none))
  have hport : u.myPort = Claim.port s := by
    unfold State.myPort Claim.port State.me
    rw [(hu.leaves s.cur).port, (hu.leaves s.cur).cur, (hu.leaves s.cur).ctx]
  have hbody : s.vmem i qp.toNat d need wr = .done ((u.modMyPort (fun q => { q with queue := q.queue ++
      [{ s.issued i with segs := es.filterMap VElem.mem?, keep := true, na := na }] })).clearPrefix) := by
    refine Eq.trans ?_ (hcheck.trans ?_)
    · unfold State.vmem
      simp only [myEntry_eq, myPort_eq, hgood, hqueue, portIdle_of_drained hqueue hrep, Bool.true_eq_false, and_false, Bool.false_eq_true,
        if_false, List.length_nil, Nat.reduceLeDiff, straightPtrs]
      by_cases hsg : sg = 1
      · rw [if_pos hsg] at hxs
        simp only [if_pos hsg, hxs, List.getD_cons_zero, List.getElem?_cons_succ, List.getElem?_cons_zero]
      · rw [if_neg hsg] at hxs
        simp only [if_neg hsg, hxs, List.getD_cons_zero, List.getElem?_cons_succ, List.getElem?_nil]
    · rw [State.enqueue, hport, if_neg (by simp [hqueue])]
  exact completes_of_modMyPort h hexec rfl rfl (.inl rfl) hbody (hu.leaves s.cur).samePlace ⟨_, congrArg (· ++ _) hqueue, rfl, rfl⟩

/-! ## Gathers and scatters (08 R182) -/

/-- What a gather or a scatter reads and writes of the port. -/
def gatherUse (f : Nat) (qp : PReg) (vi d : VReg) (store : Bool) : VUse where
  vsrc := if store then [d.toNat] else [vi.toNat]
  vdst := if store then [] else [d.toNat]
  whole := decide (min (lanes f) 32 = lanes f)
  qp := qp.toNat

/-- A gather with its elements' locations: it waits for a place, or loads them. -/
def State.gatherLoad (c : Nat) (e : VEntry) (q : Port) (u : VUse) (d : VReg) (t : State) (l : List (Nat × List Nat)) (na : List Nat) : Res :=
  if t.readsHeld (cluOf c) (t.fetched c (l.flatMap (·.2))) then .wait t (.place ((l.flatMap (·.2)).headD 0))
  else
    let w := t.vecLoad c e.fmt l na (q.vreg d.toNat)
    .done ((w.2.2.modMyPort (fun q => (q.setV d.toNat w.1).mark u (w.2.1 || q.marked u))).clearPrefix)

/-- A scatter with its elements' locations: it stores them, or waits. -/
def State.scatterStore (c : Nat) (e : VEntry) (q : Port) (u : VUse) (d : VReg) (t : State) (l : List (Nat × List Nat)) (na : List Nat) : Res :=
  match t.vecStore c e.fmt l (q.vreg d.toNat) na (q.marked u) with
  | (t1, false) => .wait t1 (t.vecWhy (l.flatMap (·.2)))
  | (t1, true) => .done t1.clearPrefix

section
variable {i : Instr} {sh p : BitVec 3} {qp : PReg} {vi d : VReg} {disp : BitVec 32} {x : Word}
  (hgood : vBad i (s.issued i).fmt [x] (Claim.port s).cfg = false) (hxs : (s.issued i).xs = [x])
include hgood hxs

omit h in
/-- A gather or a scatter on a drained port checks its elements, and goes on with their locations. -/
theorem gather_of_drained {store : Bool} : ∃ far, s.gather i sh p qp vi d disp store =
    s.vecCheck (gatherPtrs (Claim.port s) x (s.issued i).fmt sh.toNat p.toNat qp.toNat vi.toNat (disp.signExtend 64))
      (elemBytes (s.issued i).fmt) (if store then needW else needR) store
      (fun t l na => if store then State.scatterStore s.cur (s.issued i) (Claim.port s) (gatherUse (s.issued i).fmt qp vi d store) d t l na
        else State.gatherLoad s.cur (s.issued i) (Claim.port s) (gatherUse (s.issued i).fmt qp vi d store) d t l na) far := by
  refine ⟨State.vecFar (s.issued i).fmt (gatherUse (s.issued i).fmt qp vi d store) d.toNat
    (if store then some ((Claim.port s).vreg d.toNat) else none), ?_⟩
  unfold State.gather
  simp only [myEntry_eq, myPort_eq, hgood, portIdle_of_drained hqueue hrep, Bool.true_eq_false, Bool.false_eq_true, if_false, hxs,
    List.getD_cons_zero]
  rfl

/-- A gather puts what it loads into its register, and leaves the others. -/
theorem gather_completes (hexec : exec i s = goes (s.run vecGate 12 (fun s => s.gather i sh p qp vi d disp false)))
    (hreach : s.Reaches es (elemBytes (s.issued i).fmt) needR false
      (gatherPtrs (Claim.port s) x (s.issued i).fmt sh.toNat p.toNat qp.toNat vi.toNat (disp.signExtend 64)))
    (hheld : s.readsHeld (cluOf s.cur) (s.fetched s.cur ((es.filterMap VElem.mem?).flatMap (·.2))) = false) :
    Completes s i 12 (fun q => ∀ n, n ≠ d.toNat → q.vreg n = (Claim.port s).vreg n) := by
  obtain ⟨far, hgather⟩ := gather_of_drained (sh := sh) (p := p) (qp := qp) (vi := vi) (d := d) (disp := disp) (store := false) hqueue hrep hgood hxs
  obtain ⟨na, t, ht, hcheck⟩ := vecCheck_of_reaches hreach
    (State.gatherLoad s.cur (s.issued i) (Claim.port s) (gatherUse (s.issued i).fmt qp vi d false) d) far
  have hfree : t.readsHeld (cluOf s.cur) (t.fetched s.cur ((es.filterMap VElem.mem?).flatMap (·.2))) = false := by
    rw [ht.readsHeld, ht.fetched, hheld]
  have hdone := (hgather.trans hcheck).trans (if_neg (by rw [hfree]; exact Bool.false_ne_true))
  refine completes_of_modMyPort h hexec rfl rfl (.inl rfl) hdone ((ht.leaves s.cur).vecLoad h.spec).samePlace fun n hn => ?_
  simp [hn]

end

end

end Sys2Proof.Machine
end

section
/-! A store into a buffer with room (10 R209), and the scatter that enters one (08 R182). -/

namespace Sys2Proof.Machine

/-! ## The distinct lines of some locations -/

theorem mem_addNat_iff {l : List Nat} {k a : Nat} : a ∈ addNat l k ↔ a = k ∨ a ∈ l := by
  refine ⟨mem_addNat, fun h => ?_⟩
  induction l with
  | nil => simpa [addNat] using h
  | cons b r ih =>
    simp only [addNat]
    split
    · simpa using h
    · split
      · next hk => simpa [hk] using h
      · grind

theorem mem_linesOf {ls : List Nat} {a : Nat} : a ∈ linesOf ls ↔ ∃ l ∈ ls, lineOf l = a := by
  unfold linesOf
  suffices ∀ acc, a ∈ ls.foldl (fun acc l => addNat acc (lineOf l)) acc ↔ a ∈ acc ∨ ∃ l ∈ ls, lineOf l = a by simpa using this []
  induction ls with
  | nil => simp
  | cons b ls ih =>
    intro acc
    rw [List.foldl_cons, ih, mem_addNat_iff]
    simp only [List.mem_cons, exists_eq_or_imp]
    tauto

theorem nodup_linesOf (ls : List Nat) : (linesOf ls).Nodup :=
  (List.foldlRecOn (motive := fun acc : List Nat => acc.Pairwise (· < ·)) ls _ List.Pairwise.nil fun _ h l _ => addNat_rising h (lineOf l)).imp
    fun h => h.ne

theorem length_linesOf_le {ls ms : List Nat} (h : ∀ l ∈ ls, l ∈ ms) : (linesOf ls).length ≤ (linesOf ms).length :=
  ((nodup_linesOf ls).subperm fun a ha => by
    obtain ⟨l, hl, hla⟩ := mem_linesOf.mp ha
    exact mem_linesOf.mpr ⟨l, h l hl, hla⟩).length_le

/-! ## Room in the buffer -/

/-- The two differ in what the buffer of context `c` holds, if in anything. -/
structure OnlyBuffer (c : Nat) (s t : State) : Prop where
  mem : t.mem = s.mem
  ports : t.ports = s.ports
  cur : t.cur = s.cur
  cores : t.cores = s.cores
  sta : (t.ctx c).sta = (s.ctx c).sta

/-- The buffer holds at most `n` entries and no marker. -/
def Holds (n : Nat) (b : List BufItem) : Prop := b.length ≤ n ∧ ∀ i ∈ b, ∃ e, i = .entry e

section
variable {c : Nat} {s t u : State}

theorem OnlyBuffer.refl (c : Nat) (s : State) : OnlyBuffer c s s := ⟨rfl, rfl, rfl, rfl, rfl⟩

theorem OnlyBuffer.trans (h : OnlyBuffer c s t) (h' : OnlyBuffer c t u) : OnlyBuffer c s u :=
  ⟨h'.mem.trans h.mem, h'.ports.trans h.ports, h'.cur.trans h.cur, h'.cores.trans h.cores, h'.sta.trans h.sta⟩

theorem onlyBuffer_setCtx (s : State) (c : Nat) (b : List BufItem) : OnlyBuffer c s (s.setCtx c { s.ctx c with buf := b }) :=
  ⟨rfl, rfl, rfl, rfl, by simp⟩

theorem entriesOf_length_le (b : List BufItem) : (entriesOf b).length ≤ b.length := List.length_filterMap_le _ _

/-- The entries of the context's core that it can read. -/
def State.sharedOf (s : State) (c : Nat) : Nat := ((s.core (coreOf c)).shared.filter (fun p => decide (p.1 = c))).length

/-- With room in the buffer, the bytes of a line enter it at once. -/
theorem bufferLine_of_room {n line : Nat} {bs : List (Nat × Byte)} {nt wc keep : Bool} {rel : Option (BitVec 2)} (hbuf : Holds n (s.ctx c).buf)
    (hroom : n + s.sharedOf c < 8) :
    ∃ t, s.bufferLine c line bs nt wc keep rel = some t ∧ OnlyBuffer c s t ∧ Holds (n + 1) (t.ctx c).buf := by
  obtain ⟨hlen, hentries⟩ := hbuf
  have htail : ((s.ctx c).buf.reverse.takeWhile (fun i => match i with | .marker _ => false | _ => true)).reverse = (s.ctx c).buf := by
    rw [List.takeWhile_eq_self_iff.mpr, List.reverse_reverse]
    intro i hi
    obtain ⟨e, rfl⟩ := hentries i (List.mem_reverse.mp hi)
    rfl
  have hfree : (entriesOf (s.ctx c).buf).length + s.sharedOf c + 0 < 8 := by
    have := entriesOf_length_le (s.ctx c).buf
    omega
  unfold State.bufferLine
  extract_lets x tail front merge inst fresh m sh
  have htail' : tail = x.buf := htail
  have hfront : front = [] := by simp [front, htail']
  split
  · refine ⟨_, rfl, onlyBuffer_setCtx s c _, ?_, ?_⟩
    · simpa [hfront, htail'] using hlen.trans (Nat.le_succ n)
    · simp only [State.setCtx_ctx, if_true, hfront, htail', List.nil_append, List.mem_map]
      rintro _ ⟨i, hi, rfl⟩
      obtain ⟨e, rfl⟩ := hentries i hi
      dsimp only
      split <;> exact ⟨_, rfl⟩
  · rw [if_pos (show m + sh + 0 < 8 from hfree)]
    refine ⟨_, rfl, onlyBuffer_setCtx s c _, ?_, ?_⟩
    · simpa using hlen
    · simp only [State.setCtx_ctx, if_true, List.mem_append, List.mem_singleton]
      rintro i (hi | rfl)
      · exact hentries i hi
      · exact ⟨_, rfl⟩

theorem OnlyBuffer.sharedOf (h : OnlyBuffer c s t) : t.sharedOf c = s.sharedOf c := by
  unfold State.sharedOf State.core
  rw [h.cores]

/-- With room in the buffer for their lines, the bytes of a store enter it at once. -/
theorem bufferBytes_of_room {bs : List (Nat × Byte)} {nt wc keep : Bool} {rel : Option (BitVec 2)} {na : List Nat} (hbuf : (s.ctx c).buf = [])
    (hroom : s.sharedOf c + (linesOf (bs.map (·.1))).length ≤ 8) :
    ∃ t, s.bufferBytes c bs nt wc keep rel 0 na = some t ∧ OnlyBuffer c s t := by
  unfold State.bufferBytes
  generalize linesOf (bs.map (·.1)) = lines at hroom
  suffices ∀ (n : Nat) (t : State), Holds n (t.ctx c).buf → n + t.sharedOf c + lines.length ≤ 8 → ∃ u, lines.foldl (fun o l =>
      match o with
      | none => none
      | some s => s.bufferLine c l (bs.filter (fun b => decide (lineOf b.1 = l))) nt wc (keep && !decide (l ∈ na)) rel 0) (some t) = some u ∧
      OnlyBuffer c t u from this 0 s (by simp [Holds, hbuf]) (by omega)
  clear hroom
  induction lines with
  | nil => exact fun _ t _ _ => ⟨t, rfl, .refl c t⟩
  | cons l lines ih =>
    intro n t hbuf hroom
    rw [List.length_cons] at hroom
    obtain ⟨u, hline, htu, hbuf'⟩ := bufferLine_of_room (line := l) (bs := bs.filter (fun b => decide (lineOf b.1 = l))) (nt := nt) (wc := wc)
      (keep := keep && !decide (l ∈ na)) (rel := rel) hbuf (by omega)
    obtain ⟨w, hrest, huw⟩ := ih (n + 1) u hbuf' (by rw [htu.sharedOf]; omega)
    refine ⟨w, ?_, htu.trans huw⟩
    rw [List.foldl_cons, ← hrest]
    exact congrArg (List.foldl _ · lines) hline

theorem OnlyBuffer.untagBytes (h : OnlyBuffer c s t) {d : Nat} {ls : List Nat} : OnlyBuffer c s (t.untagBytes d ls) := by
  unfold State.untagBytes
  split
  · exact h
  · exact ⟨h.mem, h.ports, h.cur, h.cores, h.sta⟩

theorem OnlyBuffer.samePlace (h : OnlyBuffer s.cur s t) : SamePlace s t := ⟨h.mem, h.ports, h.cur, congrArg _ h.sta⟩

end

/-! ## The bytes of a register's elements (08 R181) -/

/-- Elements of whole bytes write theirs one after another, every bit of each. -/
theorem vecBytes_of_bytes {f : Nat} (hf : codeBits f ≠ 4) (segs : List (Nat × List Nat)) (v : VWord) :
    vecBytes f segs v =
      segs.flatMap (fun p => (p.2.zip (leBytes (elemBytes f) (lane v (codeBits f) p.1))).map (fun b => (b.1, b.2, 0xFF#8))) := by
  unfold vecBytes
  simp only [if_neg hf, List.foldl_append_eq_append, List.nil_append, List.flatMap_def]

section
variable {s t : State} {c f : Nat} {segs : List (Nat × List Nat)} {v : VWord} {na : List Nat}

/-- A vector store of whole bytes enters a buffer with room for its lines. -/
theorem vecStore_of_room (hf : codeBits f ≠ 4) (hbuf : (s.ctx c).buf = [])
    (hroom : s.sharedOf c + (linesOf (segs.flatMap (·.2))).length ≤ 8) :
    ∃ t, s.vecStore c f segs v na false = (t, true) ∧ OnlyBuffer c s t := by
  have hmask : (vecBytes f segs v).any (fun b => decide (b.2.2 ≠ 0xFF#8)) = false := by
    simp [vecBytes_of_bytes hf]
  have hlines : (linesOf ((vecBytes f segs v).map (·.1))).length ≤ (linesOf (segs.flatMap (·.2))).length := by
    refine length_linesOf_le fun l hl => ?_
    rw [vecBytes_of_bytes hf] at hl
    simp only [List.map_flatMap, List.map_map, List.mem_flatMap, List.mem_map] at hl ⊢
    obtain ⟨p, hp, z, hz, rfl⟩ := hl
    exact ⟨p, hp, (List.of_mem_zip hz).1⟩
  obtain ⟨t, ht, hst⟩ := bufferBytes_of_room (bs := (vecBytes f segs v).map (fun b => (b.1, b.2.1))) (nt := false) (wc := false) (keep := true)
    (rel := none) (na := na) hbuf (by rw [List.map_map]; exact (Nat.add_le_add_left hlines _).trans hroom)
  refine ⟨t.untagBytes c ((vecBytes f segs v).map (·.1)), ?_, hst.untagBytes⟩
  unfold State.vecStore
  simp only [hmask, ht, Bool.or_self, Bool.false_eq_true, Nat.reduceLeDiff, decide_false, if_false]

end

/-! ## Scatters (08 R182) -/

theorem SameButDetectors.sharedOf {s t : State} (h : SameButDetectors s t) (c : Nat) : t.sharedOf c = s.sharedOf c := by
  unfold State.sharedOf
  rw [h.2]

theorem marked_of_clean {q : Port} (hv : q.vpoison = 0) (hq : q.qpoison = 0) (u : VUse) : q.marked u = false := by
  simp [Port.marked, hv, hq, bitOf_eq_getLsbD]

section
variable {s : State} (h : Claim.Ported s) (hqueue : (Claim.port s).queue = []) (hrep : (Claim.port s).rep = none) {es : List VElem}
  {i : Instr} {sh p : BitVec 3} {qp : PReg} {vi d : VReg} {disp : BitVec 32} {x : Word}
  (hgood : vBad i (s.issued i).fmt [x] (Claim.port s).cfg = false) (hxs : (s.issued i).xs = [x])
include h hqueue hrep hgood hxs

/-- A scatter from clean registers into a buffer with room leaves the port. -/
theorem scatter_completes (hexec : exec i s = goes (s.run vecGate 12 (fun s => s.gather i sh p qp vi d disp true)))
    (hreach : s.Reaches es (elemBytes (s.issued i).fmt) needW true
      (gatherPtrs (Claim.port s) x (s.issued i).fmt sh.toNat p.toNat qp.toNat vi.toNat (disp.signExtend 64)))
    (hf : codeBits (s.issued i).fmt ≠ 4) (hv : (Claim.port s).vpoison = 0) (hq : (Claim.port s).qpoison = 0) (hbuf : s.me.buf = [])
    (hroom : s.sharedOf s.cur + (linesOf ((es.filterMap VElem.mem?).flatMap (·.2))).length ≤ 8) :
    Completes s i 12 (fun q => q = Claim.port s) := by
  obtain ⟨far, hgather⟩ := gather_of_drained (sh := sh) (p := p) (qp := qp) (vi := vi) (d := d) (disp := disp) (store := true) hqueue hrep hgood hxs
  obtain ⟨na, t, ht, hcheck⟩ := vecCheck_of_reaches hreach
    (State.scatterStore s.cur (s.issued i) (Claim.port s) (gatherUse (s.issued i).fmt qp vi d true) d) far
  have hleaves := ht.leaves s.cur
  obtain ⟨u, hstore, htu⟩ := vecStore_of_room (s := t) (c := s.cur) (v := (Claim.port s).vreg d.toNat) (na := na) hf (by rw [hleaves.ctx]; exact hbuf)
    (by rw [ht.sharedOf]; exact hroom)
  have hdone : s.gather i sh p qp vi d disp true = .done u.clearPrefix := by
    refine (hgather.trans hcheck).trans ?_
    unfold State.scatterStore
    rw [marked_of_clean hv hq, hstore]
  have hcur : u.cur = s.cur := htu.cur.trans hleaves.cur
  have hsta : (u.ctx s.cur).sta.port = s.me.sta.port := by rw [htu.sta, hleaves.ctx]; rfl
  refine completes_of_done h hexec rfl rfl (.inl rfl) hdone (htu.mem.trans hleaves.mem) hcur ?_ ?_
  · simp [State.clearPrefix, hcur, hsta]
  · unfold State.clearPrefix State.port Claim.port State.port
    rw [State.modCtx_ports, htu.ports, hleaves.ports]

end

/-! ## The forms together -/

theorem vectorFormsComplete : Claim.VectorFormsComplete := by
  intro s sg sh pt t3 l4 qp d b vi x a disp es h hqueue hrep q fm w c straight indexed ls reach done entered
  refine ⟨fun hfmt hw => ?_, fun hgood hreach hheld => ?_, fun hgood hreach hf hv hq hbuf hroom => ?_, fun hpp => ⟨?_, ?_, ?_, ?_⟩⟩
  · have hplain : (!fmtAll fm.1 || (decide (sg = 1) && decide (w = 4))) = false := by simpa [hfmt] using hw
    have hxs : (vScalars (.vld sg qp d a b)).map s.me.reg = if sg = 1 then [s.me.reg a, s.me.reg (bReg b)] else [s.me.reg a] :=
      apply_ite _ _ _ _
    exact ⟨vmem_completes h hqueue hrep rfl hplain hxs, vmem_completes h hqueue hrep rfl hplain hxs⟩
  · exact gather_completes h hqueue hrep hgood rfl rfl hreach hheld
  · have hentries : Claim.entries s = s.sharedOf s.cur := by simp [Claim.entries, hbuf, entriesOf, State.sharedOf]
    exact scatter_completes h hqueue hrep hgood rfl rfl hreach hf hv hq hbuf (hentries ▸ hroom)
  · exact vcfgRead_completes h hpp hqueue hrep x
  · exact vcfgClr_completes h hpp hqueue hrep x
  · exact fun h21 h11 h8 h5 hfmt => vcfgWr_completes h hpp hqueue hrep x a (vcfgBad_of_fields h21 h11 h8 h5 hfmt)
  · exact fun body next hcount hbuf hcapture => rep_completes h hpp hqueue hbuf hcount hcapture

/-- Settles O35: issue, the forms that complete on a drained port, and the passes of a repetition. -/
theorem vectorIssue : Obligations.VectorIssue := ⟨portIssue, vectorFormsComplete, passesComplete⟩

end Sys2Proof.Machine
end

section
/-! A vector load of a speculative thread (08 R161; 10 R213; 11 R252; 15 R359): a reply that carries a tile's mark makes the cluster apply
its inbox, and an invalidation of a line that the thread has read takes the thread back to its checkpoint, registers and all. -/

namespace Sys2Proof.Machine

/-- A port that nothing holds executes the load at the head of its queue. -/
theorem State.portStep_of_load {s : State} {core p c : Nat} {e : VEntry} {r : List VEntry} {sg : BitVec 1} {qp : PReg} {d : VReg} {a : Reg} {b : VReg}
    (hq : (s.port core p).queue = e :: r) (huser : s.engineUser core p = some c) (hkept : s.engKept core p = false)
    (hrep : (s.port core p).rep = none) (hins : e.ins = .vld sg qp d a b)
    (hwater : s.waterHold (s.ctx c).part (e.segs.flatMap (·.2)) = none) (hbank : (e.segs.flatMap (·.2)).find? (s.bankKept c) = none)
    (hheld : s.readsHeld (cluOf c) (s.fetched c (e.segs.flatMap (·.2))) = false)
    (hbusy : ∀ k ∈ linesOf (e.segs.flatMap (·.2)), s.copyBusy (cluOf c) k = false) :
    let w := s.vecLoad c e.fmt e.segs e.na ((s.port core p).vreg d.toNat)
    s.portStep core p = w.2.2.modPort core p
      (fun q => ((q.setV d.toNat w.1).mark (e.use 0) (w.2.1 || q.marked (e.use 0))).pop) := by
  have hnone : (e.segs.flatMap (·.2)).any (s.bankKept c) = false := by
    simpa using hbank
  have hfree : (linesOf (e.segs.flatMap (·.2))).any (fun l => s.copyBusy (cluOf c) l) = false := by
    simpa using hbusy
  unfold State.portStep
  simp only [hq, huser, hkept, hrep, hwater, hnone, hheld, hfree, hins, Option.isSome_none, Bool.and_false, Bool.or_self, Bool.false_eq_true,
    if_false]

theorem State.freshen_of_tileReply {s : State} {c : Nat} {ls : List Nat} (h : s.tileReply (cluOf c) (s.fetched c ls) = true) :
    s.freshen c ls = ({ s with fresh := s.fresh + 1 } : State).applyInbox (cluOf c) :=
  if_pos (Bool.or_eq_true _ _ ▸ .inr h)

@[simp] theorem State.errMet_ctx_of (s : State) (ls : List Nat) (d : Nat) : (s.errMet ls).ctx d = s.ctx d := by
  unfold State.errMet
  split
  · rfl
  · split <;> rfl

/-- A queued load of the line 0. -/
def loadEntry : VEntry := { ins := .vld 0 0 0 0 0, fmt := 11, segs := [(0, span 0 4)] }

/-- A checkpoint whose registers are all 1. -/
def savedRegisters : Checkpoint := { x := Vector.replicate 16 1, tags := 0, sta := { bind := 1 }, pc := 0, iter := 0, base := 0 }

/-- A speculative thread with a queued load of line 0, which a tile store has marked. It has read line 1, whose invalidation stands in its
cluster's inbox, and its checkpoint holds other registers than it has. -/
def restartingLoad : State :=
  { ctxs := [(0, { slot := .ready, sta := { bind := 1 }, readSet := [1], spec := some savedRegisters })],
    ports := [(0, { queue := [loadEntry] })], clus := [(0, { inbox := [1] })], tiles := [0] }

/-- The load restarts the thread. -/
theorem restartingLoad_portStep_x : ((restartingLoad.portStep 0 0).ctx 0).x = Vector.replicate 16 1 := by
  have hfresh := State.freshen_of_tileReply (s := restartingLoad) (c := 0) (ls := span 0 4) (by decide)
  have hls : loadEntry.segs.flatMap (·.2) = span 0 4 := by decide
  rw [State.portStep_of_load (c := 0) (e := loadEntry) (r := []) rfl (by decide) (by decide) rfl rfl (by decide) (by decide) (by decide)
    (by decide), State.modPort_ctx_of]
  simp only [State.vecLoad, State.loadBytes, State.errMet_ctx_of, hls, hfresh]
  decide

/-- Refutes O38: the clause of `Claim.PortSteps` on a load says that the thread's registers stay, and a speculative thread whose load makes its
cluster apply an invalidation of a line it has read restarts with the registers of its checkpoint. -/
theorem not_vectorMemoryAndControl : ¬ Obligations.VectorMemoryAndControl := by
  rintro ⟨-, -, hsteps⟩
  obtain ⟨-, -, hload, -⟩ := hsteps restartingLoad 0 0 0 loadEntry [] 0 0 0 0 0 0 0 rfl (by decide) (by decide)
  obtain ⟨u, w, -, hexec, -, -, hx, -⟩ := hload rfl rfl ⟨by decide, by decide⟩ (by decide) (by decide)
  obtain rfl : restartingLoad.portStep 0 0 = u := Host.Outcome.next.inj hexec
  rw [restartingLoad_portStep_x] at hx
  exact absurd hx (by decide)

end Sys2Proof.Machine
end

section
/-! The instructions of the matrix unit (09 R190 to R195): each runs behind the gate of a binding, and its own rules end in one of four ways. -/

namespace Sys2Proof.Machine

/-! ## How an instruction of the unit ends -/

section
variable {s : State} (h : Calm s) (hbind : s.me.sta.bind = 2) {i : Instr} {body : State → Res}
  (hexec : exec i s = goes (s.run { mat := true } 4 body))
include h hbind hexec

theorem exec_of_bound : exec i s = .next (s.finish s.cur 4 (body s)) :=
  hexec.trans (congrArg goes (h.run nofun nofun fun _ => hbind))

theorem ends_of_bound {u : State} (hbody : body s = .done u) : Claim.Ends s i 4 u :=
  (exec_of_bound h hbind hexec).trans (by rw [hbody, h.finish_done])

theorem faults_of_bound {e : Exc} (hbody : body s = .fault e) : Claim.Faults s i e.code e.addr e.info :=
  (exec_of_bound h hbind hexec).trans (by rw [hbody]; rfl)

theorem waits_of_bound {w : Why} (hbody : body s = .wait s w) : Claim.Waits s i 4 w :=
  (exec_of_bound h hbind hexec).trans (by rw [hbody]; rfl)

theorem puts_of_bound {d : Reg} {v : Word} (hbody : body s = .done (s.setReg d v)) : Claim.Puts s i 4 d v :=
  hexec.trans (congrArg goes (h.run_writes nofun nofun (fun _ => hbind) hbody))

end

/-! ## Submission (09 R191, R192) -/

section
variable {s w : State} {r : BitVec 512} {d : Reg}

/-- The command that the running thread's record becomes. -/
def State.cmdOf (s : State) (c : Nat) (r : BitVec 512) : MCmd :=
  { record := r, ctx := c, ticket := (s.mat (coreOf c)).accepted.toNat, part := (s.ctx c).part, launch := (s.ctx c).launch, tag := s.phaseOf c,
    sup := (s.ctx c).sta.sup }

theorem State.mxSubmit_of_bad {e : Exc} (hcheck : s.mxCheck (coreOf s.cur) r = some e) : s.mxSubmit r d = .fault e := by
  simp [State.mxSubmit, hcheck]

theorem State.mxSubmit_of_full (hcheck : s.mxCheck (coreOf s.cur) r = none) (hfull : 4 ≤ (s.mat (coreOf s.cur)).queue.length) :
    s.mxSubmit r d = .wait s .mxqueue := by
  simp [State.mxSubmit, hcheck, hfull]

theorem State.mxSubmit_of_room (hcheck : s.mxCheck (coreOf s.cur) r = none) (hroom : (s.mat (coreOf s.cur)).queue.length < 4)
    (hrelease : s.release s.cur 2 = (w, true)) :
    s.mxSubmit r d = .done ((w.modMat (coreOf s.cur) (fun m =>
      { m with accepted := m.accepted + 1, queue := m.queue ++ [w.cmdOf s.cur r], scopes := m.scopes ++ [rscope r] })).setReg d
        (w.mat (coreOf s.cur)).accepted) := by
  simp [State.mxSubmit, hcheck, hrelease, not_le.mpr hroom, State.cmdOf]

/-- The staging window with the low 8 bytes of a record replaced. -/
def State.staged (s : State) (sr : Nat) (v : Word) : BitVec 512 :=
  putBits (SMap.at 0 (s.mat (coreOf s.cur)).staging (sr % 32)) 0 64 v.toNat

section
variable {sr : Nat} {v : Word}

/-- The store to bytes 0 to 7 of a staging record whose record is refused (09 R190). -/
theorem State.mxWindowStore_of_bad {e : Exc} (hcheck : s.mxCheck (coreOf s.cur) (s.staged sr v) = some e) :
    s.mxWindowStore (64 * (sr % 32)) v = .fault e := by
  simp only [State.staged] at hcheck
  simp only [State.mxWindowStore, Nat.mul_div_cancel_left _ (by decide : 0 < 64), Nat.mul_mod_right, Nat.mul_zero, if_true, hcheck]

/-- The store to bytes 0 to 7 of a staging record whose record is taken: it is staged, and submitted. -/
theorem State.mxWindowStore_of_good (hcheck : s.mxCheck (coreOf s.cur) (s.staged sr v) = none) :
    s.mxWindowStore (64 * (sr % 32)) v =
      (s.modMat (coreOf s.cur) (fun m => { m with staging := SMap.put m.staging (sr % 32) (s.staged sr v) })).mxSubmit (s.staged sr v) 0 := by
  simp only [State.staged] at hcheck ⊢
  simp only [State.mxWindowStore, Nat.mul_div_cancel_left _ (by decide : 0 < 64), Nat.mul_mod_right, Nat.mul_zero, if_true, hcheck]

end

end

/-- An instruction of the calm thread that submits a record in `t`, the machine as its access has left it. -/
theorem submits_of_bound {s t : State} {i : Instr} {body : State → Res} {r : BitVec 512} {d : Reg} (h : Calm s) (hbind : s.me.sta.bind = 2)
    (hexec : exec i s = goes (s.run { mat := true } 4 body)) (hbody : body s = t.mxSubmit r d) (hcur : t.cur = s.cur) :
    (∀ e, t.mxCheck (coreOf s.cur) r = some e → Claim.Faults s i e.code e.addr e.info) ∧
    (t.mxCheck (coreOf s.cur) r = none →
      (4 ≤ (t.mat (coreOf s.cur)).queue.length → exec i s = .next (t.block s.cur .mxqueue 4)) ∧
      ((t.mat (coreOf s.cur)).queue.length < 4 → ∀ w, t.release t.cur 2 = (w, true) →
        Claim.Ends s i 4 ((w.modMat (coreOf s.cur) (fun m =>
          { m with accepted := m.accepted + 1, queue := m.queue ++ [w.cmdOf s.cur r], scopes := m.scopes ++ [rscope r] })).setReg d
            (w.mat (coreOf s.cur)).accepted))) := by
  rw [← hcur]
  refine ⟨fun e hcheck => ?_, fun hcheck => ⟨fun hfull => ?_, fun hroom w hrelease => ?_⟩⟩
  · exact faults_of_bound h hbind hexec (hbody.trans (State.mxSubmit_of_bad hcheck))
  · rw [exec_of_bound h hbind hexec, hbody, State.mxSubmit_of_full hcheck hfull, hcur]
    rfl
  · exact ends_of_bound h hbind hexec (hbody.trans (State.mxSubmit_of_room hcheck hroom hrelease))

/-! ## Status (09 R194) -/

section
variable {s : State} (h : Calm s) (hbind : s.me.sta.bind = 2) {d a : Reg}
include h hbind

theorem mxstat_puts {v : Nat} (hsel : (s.mat (coreOf s.cur)).select (s.me.reg a).toNat = some v) :
    Claim.Puts s (.mxstat d a) 4 d (BitVec.ofNat 64 v) :=
  puts_of_bound h hbind rfl (by simp only [State.me] at hsel; simp only [State.reg, hsel])

theorem mxstatResume_ends : Claim.Ends s .mxstatResume 4 (if (s.mat (coreOf s.cur)).stop then
    s.modMat (coreOf s.cur) (fun m => { m with stop := false, cause := 0, stopAddr := 0, stopInfo := 0 }) else s) :=
  ends_of_bound h hbind rfl rfl

theorem mxstat_faults (hsel : (s.mat (coreOf s.cur)).select (s.me.reg a).toNat = none) :
    Claim.Faults s (.mxstat d a) Cause.reservedBits 0 0 :=
  faults_of_bound (e := { code := Cause.reservedBits }) h hbind rfl (by simp only [State.me] at hsel; simp only [State.reg, hsel]; rfl)

end

theorem Mat.select_tile (m : Mat) {n : Nat} (hlo : 8 ≤ n) (hhi : n ≤ 15) : m.select n = some (SMap.at {} m.shown (n - 8)).word := by
  unfold Mat.select
  rw [if_neg (by omega), if_neg (by omega), if_neg (by omega), if_neg (by omega), if_pos ⟨hlo, hhi⟩]

theorem Mat.select_none (m : Mat) {n : Nat} (h : 3 < n ∧ n < 8 ∨ 18 < n) : m.select n = none := by
  unfold Mat.select
  rw [if_neg (by omega), if_neg (by omega), if_neg (by omega), if_neg (by omega), if_neg (by omega), if_neg (by omega), if_neg (by omega),
    if_neg (by omega)]

theorem Mat.select_gang (m : Mat) : m.select 18 = some (match m.project.gang with | none => 0 | some g => g.word + g.base * 2 ^ 16) := rfl

/-- The status word by whether the queue is empty. -/
theorem Mat.status_eq (m : Mat) : m.status = (if m.queue = [] then 0 else 1) + m.stop.toNat * 2 +
    (if m.stop then m.cause.toNat * 4 else 0) + m.queue.length % 16 * 2 ^ 16 := by
  unfold Mat.status
  cases m.queue <;> rfl

theorem Gang.shown_eq (g : Gang) : g.word + g.base * 2 ^ 16 = g.rows + g.cols * 2 ^ 4 + g.myRow * 2 ^ 8 + g.myCol * 2 ^ 12 + g.base * 2 ^ 16 := rfl

/-- Settles O39: an unbound thread stops at the gate; a bound one submits its record as `submits_of_bound` says, waits by comparing tickets
with the counts, and reads each selector. -/
theorem matrixInstructions : Obligations.MatrixInstructions := by
  intro s d a sr v h core u n widest all accept
  refine ⟨fun hbind => List.forall_iff_forall_mem.mp ?_, fun hbind => ⟨?_, ?_, ⟨?_, ?_⟩, ?_, ?_, ?_, ?_, ?_, ?_, ?_, ?_, ?_, ?_⟩⟩
  · and_intros
    all_goals exact faults_unboundMat h.prefix_ hbind rfl rfl rfl
  · exact fun e hread => faults_of_bound h hbind rfl (by simp only [State.reg, State.me] at hread ⊢; simp only [hread, Stop.res])
  · exact fun r t hread => submits_of_bound h hbind rfl (by simp only [State.reg, State.me] at hread ⊢; simp only [hread])
  · exact fun e hcheck => faults_of_bound h hbind rfl (State.mxWindowStore_of_bad hcheck)
  · exact fun hcheck hcur => submits_of_bound h hbind rfl (State.mxWindowStore_of_good hcheck) hcur
  · exact fun hlate => faults_of_bound (e := { code := Cause.reservedBits }) h hbind rfl (if_pos hlate)
  · exact fun hticket hdone => ends_of_bound h hbind rfl ((if_neg (not_le.mpr hticket)).trans (if_pos hdone))
  · exact fun hticket hdone => waits_of_bound h hbind rfl ((if_neg (not_le.mpr hticket)).trans (if_neg (not_lt.mpr hdone)))
  · exact fun hdone => ends_of_bound h hbind rfl (if_pos hdone)
  · exact fun hdone => waits_of_bound h hbind rfl (if_neg (not_le.mpr hdone))
  · have hputs {v w : Nat} (hsel : u.select n = some v) (hw : v = w) : Claim.Puts s (.mxstat d a) 4 d (BitVec.ofNat 64 w) :=
      hw ▸ mxstat_puts h hbind hsel
    refine ⟨fun hn => ?_, fun hn => ?_, fun hn => ?_, fun hlo hhi => ?_, fun hn => ?_, fun hn => ?_, fun hn => ?_, fun hn hg => ?_,
      fun g hn hg => ?_, fun hn => ?_⟩
    · exact hputs (by rw [hn]; rfl) u.status_eq
    · exact hputs (by rw [hn]; rfl) rfl
    · exact hputs (by rw [hn]; rfl) rfl
    · exact hputs (u.select_tile hlo hhi) rfl
    · exact hputs (by rw [hn]; rfl) rfl
    · exact hputs (v := bitsAt u.shownMask 0 64) (by rw [hn]; rfl) (by simp [bitsAt])
    · exact hputs (v := bitsAt u.shownMask 64 64) (by rw [hn]; rfl) (Nat.mod_eq_of_lt (by have := u.shownMask.isLt; omega))
    · exact hputs (v := 0) (by rw [hn, u.select_gang, hg]) rfl
    · exact hputs (by rw [hn, u.select_gang, hg]) g.shown_eq
    · exact mxstat_faults h hbind (u.select_none hn)
  · intro hstop
    refine ⟨(mxstatResume_ends h hbind).trans ?_, ends_of_bound h hbind rfl (if_pos hstop)⟩
    rw [if_pos hstop]
  · intro hstop
    have hrun : ¬ u.stop = true := by simpa using hstop
    refine ⟨(mxstatResume_ends h hbind).trans ?_, faults_of_bound (e := { code := Cause.reservedBits }) h hbind rfl (if_neg hrun)⟩
    rw [if_neg hrun]
    rfl
  · exact fun hidle => ends_of_bound h hbind rfl (if_pos (by simpa using hidle))
  · exact fun hbusy => waits_of_bound h hbind rfl (if_neg (by simpa using hbusy))

end Sys2Proof.Machine
end

section
/-! A store of a tile where memory is not in its canonical form (09 R201): a byte that becomes 0 leaves the list, and what stood behind it
out of order shows. -/

namespace Sys2Proof.Machine

/-- The `TSTORE` of one element of 8 bits to byte 0 of cluster 0's scratchpad. -/
def oneByteStore : MCmd where
  record := (BitVec.ofNat 256 (5 + 2 ^ 32 + 2 ^ 48 + 2 ^ 112 + 2 ^ 180)).setWidth 512
  ctx := 0
  ticket := 0
  part := 0

/-- The unit of core 0 has the store at its head, and its tile's one row is 0. Bank 0 of cluster 0 is scratchpad. Memory lists the bank's first
byte before byte 0, so that a read of byte 0 stops before it comes to the 1 that is listed for it. -/
def hidingByte : State :=
  { clus := [(0, { bankmode := 1 })], mats := [(0, { queue := [oneByteStore], tiles := [(0, { data := [(0, (0#1).setWidth 2048)] })] })],
    mem := [(sramLoc 0 0 0, 1), (0, 1)] }

theorem hidingByte_tileBytes : hidingByte.tileBytes (mxEng 0 oneByteStore) (hidingByte.mat 0) oneByteStore.record
    (rfirst oneByteStore.record + oneByteStore.tile) = [(sramLoc 0 0 0, 0)] := by decide

/-- The store of a 0 takes the bank's byte off the list, and byte 0 reads 1. -/
theorem hidingByte_tstore {t : State} (h : exec (.tstore 0) hidingByte = .next t) : t.mem.read 0 = 1 := by
  have hread : (match exec (.tstore 0) hidingByte with | .next u => u.mem.read 0 | _ => 0) = 1 := by decide
  rwa [h] at hread

/-- Refutes O40: the clause of `Claim.MatrixCommands` on `TSTORE` says that every byte outside the tile stays, of every state, and not only of
one whose memory is in canonical form (`WellKept.mem`). In `hidingByte` the store of one byte, a 0, changes what byte 0 reads. -/
theorem not_matrixChunksAndCommands : ¬ Obligations.MatrixChunksAndCommands := by
  rintro ⟨-, hcommands, -⟩
  obtain ⟨-, -, -, -, hstore, -⟩ := hcommands hidingByte 0 oneByteStore [] rfl rfl (by decide) (by decide)
  obtain ⟨t, hexec, -, -, hsame⟩ := hstore rfl (by decide) (by decide) (by decide) (by rw [hidingByte_tileBytes]; decide)
    (by rw [hidingByte_tileBytes]; decide)
  have hkept : t.mem.read 0 = hidingByte.mem.read 0 := hsame 0 (by rw [hidingByte_tileBytes]; decide)
  rw [hidingByte_tstore hexec] at hkept
  exact absurd hkept (by decide)

end Sys2Proof.Machine
end

section
/-! Memory instructions of a calm thread (10 R209 to R235): they run behind a gate that asks for nothing, and end as their own rules end. -/

namespace Sys2Proof.Machine

section
variable {s : State} (h : Calm s) {i : Instr} {specOk : Bool} {len : Nat} {body : State → Res}
  (hexec : exec i s = goes (s.run { specOk := specOk } len body))
include h hexec

theorem exec_of_calm : exec i s = .next (s.finish s.cur len (body s)) := hexec.trans (congrArg goes (h.run nofun nofun nofun))

theorem ends_of_done {u : State} (hbody : body s = .done u) : Claim.Ends s i len u :=
  (exec_of_calm h hexec).trans (by rw [hbody, h.finish_done])

theorem faults_of_fault {e : Exc} (hbody : body s = .fault e) : exec i s = .next (s.takeFault s.cur e) :=
  (exec_of_calm h hexec).trans (by rw [hbody, State.finish_fault])

theorem blocks_of_wait {u : State} {w : Why} (hbody : body s = .wait u w) : exec i s = .next (u.block s.cur w len) :=
  (exec_of_calm h hexec).trans (by rw [hbody, State.finish_wait])

end

/-! ## Fences (10 R222) -/

@[simp] theorem State.pushMarker_cur (s : State) (c : Nat) (scp : BitVec 2) : (s.pushMarker c scp).cur = s.cur := by
  unfold State.pushMarker
  split <;> rfl

section
variable {s : State} (h : Calm s) {scp : BitVec 2}
include h

theorem fenceAcquire_ends : Claim.Ends s (.fence scp 1) 4 (s.acquire s.cur scp.toNat) := ends_of_done h rfl rfl

theorem fenceRelease_ends : Claim.Ends s (.fence scp 2) 4 (s.pushMarker s.cur scp) := ends_of_done h rfl rfl

theorem fenceBoth_ends : Claim.Ends s (.fence scp 3) 4 ((s.pushMarker s.cur scp).acquire s.cur scp.toNat) := by
  refine ends_of_done h rfl ?_
  simp

end

/-! ## Cache maintenance (10 R232) -/

section
variable {s : State} (h : Calm s) {scp : BitVec 2} {d a : Reg} {p : Imm 4} {segs : List (Nat × Nat)} {keep : Bool}

include h

theorem pref_ends_of_error {e : Stop} (hreach : s.reachLine (s.me.reg a + dispW 1 p) needR false true = .error e) :
    exec (.pref scp a p) s = .next (s.after (immLen p) id) :=
  ends_of_done h rfl (by simp only [State.me] at hreach; simp only [State.reg, hreach])

theorem pref_ends (hreach : Claim.ReachesLine s (s.me.reg a + dispW 1 p) needR false true segs keep)
    (hfree : s.readsHeld (cluOf s.cur) [lineOf (segs.headD (0, 0)).1] = false) :
    let v := s.coreStream (s.me.reg a + dispW 1 p)
    Claim.Ends s (.pref scp a p) (immLen p)
      (if scp.toNat < 2 then v.2.fillLine (cluOf s.cur) (lineOf (segs.headD (0, 0)).1) (keep && !v.1) else v.2) := by
  obtain ⟨space, hreach⟩ := hreach
  refine ends_of_done h rfl ?_
  simp only [State.me] at hreach
  simp only [State.reg, hreach, hfree, and_true, State.me]

theorem cleanCore_ends (hreach : Claim.ReachesLine s (s.me.reg a + dispW 1 p) needW true false segs keep) :
    Claim.Ends s (.clean 0 a p) (immLen p) s := by
  obtain ⟨space, hreach⟩ := hreach
  simp only [State.me] at hreach
  exact ends_of_done h rfl (by simp only [State.reg, hreach, if_true])

theorem cleanPlace_ends (hreach : Claim.ReachesLine s (s.me.reg a + dispW 1 p) needW true false segs keep) (hscp : 2 ≤ scp.toNat) {u : State}
    (hflush : s.flushLines s.cur [lineOf (segs.headD (0, 0)).1] = some u) : Claim.Ends s (.clean scp a p) (immLen p) u := by
  obtain ⟨space, hreach⟩ := hreach
  have hcore : scp ≠ 0 := by rintro rfl; exact absurd hscp (by decide)
  have hclu : scp ≠ 1 := by rintro rfl; exact absurd hscp (by decide)
  simp only [State.me] at hreach
  exact ends_of_done h rfl (by simp only [State.reg, hreach, hcore, hclu, hflush, if_false])

theorem inval_ends (hreach : Claim.ReachesLine s (s.me.reg a + dispW 1 p) needR false false segs keep)
    (hthrough : ∀ e ∈ (s.clu (cluOf s.cur)).throughs, e.line ≠ lineOf (segs.headD (0, 0)).1) :
    Claim.Ends s (.inval scp a p) (immLen p)
      (s.modClu (cluOf s.cur) (fun u => { u with cache := SMap.del u.cache (lineOf (segs.headD (0, 0)).1) })) := by
  obtain ⟨space, hreach⟩ := hreach
  have hnone : (s.clu (cluOf s.cur)).throughs.any (fun e => decide (e.line = lineOf (segs.headD (0, 0)).1)) = false := by simpa using hthrough
  simp only [State.me] at hreach
  exact ends_of_done h rfl (by simp only [State.reg, hreach, hnone, Bool.not_false, if_true])

/-- `INVAL` of another cluster in supervisor mode runs its own rules. -/
theorem exec_invalCluster (hsup : s.me.sta.sup = true) (hreach : Claim.ReachesLine s (s.me.reg a + dispW 1 p) needR false false segs keep) :
    exec (.invalCluster scp d a p) s = .next (s.finish s.cur (immLen p) (
      if (s.me.reg d).toNat % 512 ∉ (s.part s.me.part).clusters then Res.bad Cause.partitionViolation (s.me.reg a + dispW 1 p)
      else .done (s.invalidate ((s.me.reg d).toNat % 512) (lineOf (segs.headD (0, 0)).1)))) := by
  obtain ⟨space, hreach⟩ := hreach
  refine (congrArg goes (h.run (g := { priv := true }) (fun _ => hsup) nofun nofun)).trans ?_
  simp only [State.me] at hreach
  simp only [State.reg, hreach, State.me, State.myPart]
  rfl

end

/-- Settles O23: each instruction's own rules, once its access has reached its line. -/
theorem fencesAndCacheMaintenance : Obligations.FencesAndCacheMaintenance := by
  intro s scp d a p segs keep h ptr k line
  refine ⟨fenceAcquire_ends h, fenceRelease_ends h, fenceBoth_ends h, fun e => pref_ends_of_error h, pref_ends h, cleanCore_ends h,
    fun hreach hscp u => cleanPlace_ends h hreach hscp, fun hreach hthrough => ?inval, fun huser => ?user, fun hsup hreach => ?super⟩
  case inval =>
    refine ⟨_, inval_ends h hreach hthrough, rfl, ?_, ?_⟩
    · simp [k, line]
    · simp [State.me]
  case user => exact faults_privileged huser rfl rfl
  case super =>
    have hexec := exec_invalCluster (scp := scp) (d := d) h hsup hreach
    refine ⟨fun hout => ?_, fun hin => ?_⟩
    · rw [if_pos hout] at hexec
      exact hexec
    · rw [if_neg (not_not.mpr hin), h.finish_done] at hexec
      exact hexec

end Sys2Proof.Machine
end

section
/-! Remote operations (10 R233 to R235; 18 R428): the checks of the egress, the markers before one that writes, and the request. -/

namespace Sys2Proof.Machine

/-- Outside record and replay an ordered operation is no event (17 R414). -/
theorem State.ordered_of_noReplay {s : State} {c : Nat} (h : s.replayOf c = 0) (major loc : Nat) : s.ordered c major loc = some s := if_pos h

/-- The number of the next request to a target. -/
def State.nextSeq (s : State) (cap : BitVec 128) : Nat := SMap.at 0 s.pkg.eseqs (capNode cap)

/-- The request of the running thread's remote operation, with the next number of its target. -/
def State.nextReq (s : State) (cap : BitVec 128) (o : Word) (opc mop z : Nat) (opnd : BitVec 128) : FabPkt :=
  { s.request s.me.part opc mop z cap o opnd [] with eseq := s.nextSeq cap }

/-- The machine in which the running thread's request has been sent. -/
def State.sent (s : State) (q : FabPkt) (d : Reg) (z : Nat) (acq : Bool) : State :=
  s.modPkg (fun g => { g with
    eseqs := SMap.put s.pkg.eseqs q.tgtNode ((q.eseq + 1) % 2 ^ 32), outbox := g.outbox ++ [q],
    outst := g.outst ++ [{ eseq := q.eseq, ctx := some s.cur, pk := none, pkt := q, reg := d, sz := z, acq := acq }] })

/-- Of the operations of a thread's own, all but a plain `RLD` write (11 R242). -/
theorem reqWrites_iff {opc : Nat} {m : BitVec 4} (hopc : opc = opcRld ∨ opc = opcRst ∨ opc = opcRamo) :
    reqWrites opc m.toNat = true ↔ opc ≠ opcRld ∨ m ≠ 0 := by
  have hzero : m.toNat = 0 ↔ m = 0 := (BitVec.toNat_eq (y := 0#4)).symm
  rcases hopc with rfl | rfl | rfl <;> simp [reqWrites, opcRld, opcRst, opcRamo, opcRead, hzero]

theorem State.nextReq_opnd {s : State} {cap : BitVec 128} {o : Word} {opc mop z : Nat} {opnd : BitVec 128}
    (hopc : opc = opcRld ∨ opc = opcRst ∨ opc = opcRamo) : (s.nextReq cap o opc mop z opnd).opnd = opnd := by
  rcases hopc with rfl | rfl | rfl <;> rfl

section
variable {s : State} {cap : BitVec 128} {tag : Bool} {o : Word} {size perm opc mop z : Nat} {opnd : BitVec 128} {d : Reg} {acq : Bool}
  {maj : Option Nat}

theorem State.remote_of_refused {e : Exc} (hegress : s.egress cap tag o.toNat size perm (opBits opc mop) none = some e) :
    s.remote cap tag o size perm opc mop z opnd [] false d acq maj = .fault e := by
  simp only [State.remote, hegress]

/-- One that writes waits behind the thread's release markers (11 R242). -/
theorem State.remote_of_marker (hegress : s.egress cap tag o.toNat size perm (opBits opc mop) none = none) (hwrites : reqWrites opc mop = true)
    (hmarker : hasMarker s.me.buf = true) : s.remote cap tag o size perm opc mop z opnd [] false d acq maj = .wait s .marker := by
  unfold State.me at hmarker
  simp [State.remote, hegress, hwrites, hmarker]

section
variable (hroom : (s.pkg.outst.filter (fun o => decide (o.pkt.tgtNode = capNode cap))).length < 1024)
include hroom

theorem State.sendReq_of_room : s.sendReq (some s.cur) none none (s.request s.me.part opc mop z cap o opnd []) d z acq =
    some (s.nextSeq cap, s.sent (s.nextReq cap o opc mop z opnd) d z acq) :=
  if_neg (Nat.not_le.mpr hroom)

/-- A request of an operation that has not timed out before (10 R235), outside record and replay (17 R414). -/
theorem State.remote_of_room (hegress : s.egress cap tag o.toNat size perm (opBits opc mop) none = none)
    (hmarker : reqWrites opc mop = true → hasMarker s.me.buf = false) (hfirst : s.me.eseq = none) (hreplay : s.replayOf s.cur = 0) :
    s.remote cap tag o size perm opc mop z opnd [] false d acq maj =
      .wait ((s.sent (s.nextReq cap o opc mop z opnd) d z acq).modCtx s.cur (fun y =>
        { y with traced := if maj.isSome then some (s.me.pc, s.me.ih) else y.traced })) (.remote (s.nextSeq cap)) := by
  have hgo : (!(reqWrites opc mop && hasMarker s.me.buf)) = true := by
    cases hwrites : reqWrites opc mop
    · rfl
    · rw [hmarker hwrites]; rfl
  have hsend := State.sendReq_of_room (opc := opc) (mop := mop) (z := z) (o := o) (opnd := opnd) (d := d) (acq := acq) hroom
  unfold State.me at hgo hfirst hsend
  unfold State.remote
  cases maj with
  | none =>
    simp only [hegress, hgo, hfirst, Nat.not_le.mpr hroom, if_false, Bool.false_eq_true, hsend]
    rfl
  | some m =>
    simp only [hegress, hgo, hfirst, Nat.not_le.mpr hroom, if_false, Bool.false_eq_true, State.ordered_of_noReplay hreplay, ite_self, hsend]
    rfl

end

end

/-- Settles O28: the three ways in which `State.remote` ends, each for the five forms of the three instructions. -/
theorem remoteOperationsLeave : Obligations.RemoteOperationsLeave := by
  intro s m z d a b p h _ hreplay x cap off n low seq sends
  have hsends {i : Instr} {perm opc : Nat} {opnd : BitVec 128} {reg : Reg} {body : State → Res} {acq : Bool} {maj : Option Nat}
      (hopc : opc = opcRld ∨ opc = opcRst ∨ opc = opcRamo) (hexec : exec i s = goes (s.run {} (immLenX p) body))
      (hbody : body s = s.remote cap (x.tagOf a) off n perm opc m.toNat z.toNat opnd [] false reg acq maj) : sends i perm opc opnd reg := by
    have hwrites := reqWrites_iff (m := m) hopc
    refine ⟨fun e hegress => ?refused, fun hegress hkind hmarker => ?marker, fun hegress hfree hfirst hroom => ?room⟩
    case refused => exact faults_of_fault h hexec (hbody.trans (State.remote_of_refused hegress))
    case marker =>
      exact blocks_of_wait h hexec (hbody.trans (State.remote_of_marker hegress (hwrites.mpr hkind) hmarker))
    case room =>
      have hmarker (hw : reqWrites opc m.toNat = true) : hasMarker s.me.buf = false :=
        hfree.resolve_right fun hplain => (hwrites.mp hw).elim (· hplain.1) (· hplain.2)
      refine ⟨_, s.nextReq cap off opc m.toNat z.toNat opnd,
        blocks_of_wait h hexec (hbody.trans (State.remote_of_room hroom hegress hmarker hfirst hreplay)), rfl, rfl, rfl, rfl,
        rfl, rfl, rfl, rfl, rfl, State.nextReq_opnd hopc, ⟨_, rfl, rfl, rfl, rfl, rfl⟩, ?_, ?_, ?_, ?_, ?_, rfl⟩
      · exact (SMap.at_put _ _ _ _ _).trans (if_pos rfl)
      all_goals simp [State.block, State.sent, State.me, x, seq, State.nextSeq]
  exact ⟨hsends (.inl rfl) rfl rfl, hsends (.inl rfl) rfl rfl, hsends (.inr (.inl rfl)) rfl rfl, hsends (.inr (.inr rfl)) rfl rfl,
    hsends (.inr (.inr rfl)) rfl rfl⟩
end Sys2Proof.Machine
end

section
/-! The exact sum cell (06 R112, R113): a contribution adds its units to `ACC` modulo 2^448, counts, and sets its flags, and each of the three
takes two contributions in either order. -/

namespace Sys2Proof.Machine

/-- What a contribution adds to `ACC`, in units of 2^-160. -/
def xsUnits : FVal → Int
  | .fin neg m e _ => unitsOf neg m e (-160)
  | _ => 0

/-- The flags that a contribution sets. -/
def xsMark : FVal → Nat
  | .nan => 4
  | .inf neg => if neg then 2 else 1
  | .fin _ _ _ _ => 0

theorem xsMark_lt (v : FVal) : xsMark v < 2 ^ 8 := by
  cases v with
  | nan => decide
  | inf neg => cases neg <;> decide
  | fin neg m e sticky => exact Nat.two_pow_pos 8

/-- FLAGS as a number. -/
def xsFlags (c : BitVec 512) : Nat := bitsAt c 496 8

/-- A contribution to a cell whose `COUNT` is not full. -/
theorem xsAdd_eq {c : BitVec 512} {f : Nat} {v : FVal} {w : BitVec 512} (hcount : xsCount c + 1 < 2 ^ 48) (h : xsAdd c v f = some w) :
    f < 2 ^ 8 ∧ w = xsCell (xsAcc c + xsUnits v) (xsCount c + 1) (xsFlags c ||| xsMark v) f := by
  have hlast : ¬ xsCount c = 2 ^ 48 - 1 := by omega
  unfold xsAdd at h
  split at h
  · cases h
  · next hok =>
    refine ⟨by omega, ?_⟩
    simp only [hlast, decide_false, Bool.false_eq_true, if_false] at h
    cases v <;> simpa [xsUnits, xsMark, xsFlags, eq_comm] using h

theorem wrapTo_lt (w : Nat) (v : Int) : wrapTo w v < 2 ^ w := by
  rw [wrapTo_eq_ofInt]
  exact (BitVec.ofInt w v).isLt

theorem xsCell_toNat (acc : Int) (count flags tag : Nat) : (xsCell acc count flags tag).toNat =
    wrapTo 448 acc + count % 2 ^ 48 * 2 ^ 448 + flags % 2 ^ 8 * 2 ^ 496 + tag % 2 ^ 8 * 2 ^ 504 := by
  have := wrapTo_lt 448 acc
  unfold xsCell
  rw [BitVec.toNat_ofNat]
  exact Nat.mod_eq_of_lt (by omega)

theorem xsCount_xsCell (acc : Int) (count flags tag : Nat) : xsCount (xsCell acc count flags tag) = count % 2 ^ 48 := by
  have := wrapTo_lt 448 acc
  unfold xsCount bitsAt
  rw [xsCell_toNat]
  omega

theorem xsFlags_xsCell (acc : Int) (count flags tag : Nat) : xsFlags (xsCell acc count flags tag) = flags % 2 ^ 8 := by
  have := wrapTo_lt 448 acc
  unfold xsFlags bitsAt
  rw [xsCell_toNat]
  omega

/-- `ACC` is kept modulo 2^448. -/
theorem xsAcc_xsCell (acc : Int) (count flags tag : Nat) : xsAcc (xsCell acc count flags tag) = (BitVec.ofInt 448 acc).toInt := by
  have := wrapTo_lt 448 acc
  have hlow : (xsCell acc count flags tag).toNat % 2 ^ 448 = wrapTo 448 acc := by
    rw [xsCell_toNat]
    omega
  unfold xsAcc
  rw [hlow, signedOf_eq_toInt (by decide), wrapTo_eq_ofInt, BitVec.ofNat_toNat, BitVec.setWidth_eq]

/-- Two contributions one after the other. -/
theorem xsAdd_xsAdd {c c1 c2 : BitVec 512} {f : Nat} {v w : FVal} (hcount : xsCount c + 2 < 2 ^ 48) (h1 : xsAdd c v f = some c1)
    (h2 : xsAdd c1 w f = some c2) :
    c2 = xsCell (xsAcc c + xsUnits v + xsUnits w) (xsCount c + 2) (xsFlags c ||| xsMark v ||| xsMark w) f := by
  obtain ⟨-, rfl⟩ := xsAdd_eq (by omega) h1
  have hn : xsCount (xsCell (xsAcc c + xsUnits v) (xsCount c + 1) (xsFlags c ||| xsMark v) f) = xsCount c + 1 := by
    rw [xsCount_xsCell]
    exact Nat.mod_eq_of_lt (by omega)
  have hfl : xsFlags c ||| xsMark v < 2 ^ 8 := Nat.or_lt_two_pow (Nat.mod_lt _ (by decide)) (xsMark_lt v)
  obtain ⟨-, rfl⟩ := xsAdd_eq (by omega) h2
  rw [hn, xsFlags_xsCell, Nat.mod_eq_of_lt hfl, xsAcc_xsCell]
  unfold xsCell
  simp only [wrapTo_eq_ofInt, BitVec.ofInt_add, BitVec.ofInt_toInt]

theorem exactSumsAreOrderFree : Claim.ExactSumsAreOrderFree := by
  intro c c1 c2 d1 d2 v w f hcount h1 h2 h3 h4
  rw [xsAdd_xsAdd hcount h1 h2, xsAdd_xsAdd hcount h3 h4, add_right_comm, Nat.or_right_comm]

end Sys2Proof.Machine
end

section
/-! An `SC` that releases at system scope behind a store through a PEER handle that its peer has not acknowledged (10 R210, R211). -/

namespace Sys2Proof.Machine

/-- The thread's x1 points to the scratchpad of cluster 0, whose bank 0 is SCRATCH. Its buffer is empty, and a store of its own through a PEER
handle waits at the egress. -/
def storeOnItsWay : State :=
  { ctxs := [(0, { slot := .ready, x := (Vector.replicate 16 0).set 1 (BitVec.ofNat 64 (2 ^ 52)) })], clus := [(0, { bankmode := 1 })],
    pkg := { peerq := [{ tid := 0, part := 0, sup := false, clu := 0, hidx := 16, off := 0, data := [0] }] } }

theorem storeOnItsWay_calm : Calm storeOnItsWay := ⟨⟨rfl, .inl rfl, rfl⟩, rfl, rfl⟩

theorem storeOnItsWay_quiet : Claim.Quiet storeOnItsWay := by constructor <;> decide

theorem storeOnItsWay_wellKept : WellKept storeOnItsWay := by constructor <;> decide

/-- The `SC` with release order at system scope waits. -/
theorem storeOnItsWay_sc {t : State} (h : exec (.sc 3 1 6 2 1 (.short 0)) storeOnItsWay = .next t) : (t.ctx storeOnItsWay.cur).pc = 0 := by
  have hpc : (match exec (.sc 3 1 6 2 1 (.short 0)) storeOnItsWay with | .next u => (u.ctx storeOnItsWay.cur).pc | _ => 4) = 0 := by decide
  rwa [h] at hpc

/-- Refutes O24: `Claim.ReservationsComplete` says that an `SC` completes where nothing of its thread's is on its way (`Claim.Quiet`), and
`Claim.Quiet` does not speak of stores through PEER handles. In `storeOnItsWay` the release at system scope waits for the peer's
acknowledgement of one. -/
theorem not_atomicResults : ¬ Obligations.AtomicResults := by
  rintro ⟨-, hcomplete, -⟩
  obtain ⟨-, hsc⟩ := hcomplete storeOnItsWay [(sramLoc 0 0 0, 8)] false 3 1 6 2 1 (.short 0) storeOnItsWay_calm storeOnItsWay_quiet
    storeOnItsWay_wellKept (by decide) (by decide) (by decide) (by decide)
  obtain ⟨-, hfails⟩ := hsc ⟨0, rfl, rfl⟩ (by decide)
  obtain ⟨t, hexec, -, -, hpc, -⟩ := hfails (by decide)
  rw [storeOnItsWay_sc hexec] at hpc
  exact absurd hpc (by decide)

end Sys2Proof.Machine
end

section
/-! A buffered write that reaches its home where memory is not in its canonical form (10 R209): a byte that becomes 0 leaves the list, and what
stood behind it out of order shows. -/

namespace Sys2Proof.Machine

/-- A store of a 0 to byte 128. -/
def zeroEntry : BufEntry := { line := 1, mask := 1, data := (0#1).setWidth 1024 }

/-- The store stands in the buffer of context 0. Memory lists byte 128 before byte 0, so that a read of byte 0 stops before it comes to the 1
that is listed for it. -/
def hidingLine : State :=
  { ctxs := [(0, { slot := .ready, buf := [.entry zeroEntry] })], mem := [(128, 1), (0, 1)] }

/-- The write of the 0 takes byte 128 off the list, and byte 0 reads 1. -/
theorem hidingLine_homeWrite {t : State} (h : exec (.homeWrite (.buffer 0)) hidingLine = .next t) : t.mem.read 0 = 1 := by
  have hread : (match exec (.homeWrite (.buffer 0)) hidingLine with | .next u => u.mem.read 0 | _ => 0) = 1 := by decide
  rwa [h] at hread

/-- Refutes O22: the first clause of `Claim.WritesArriveAtTheirPlaces` says that every byte outside the write stays, of every state, and not
only of one whose memory is in canonical form (`WellKept.mem`). In `hidingLine` the write of one byte, a 0, changes what byte 0 reads. -/
theorem not_writesAndMarkersArrive : ¬ Obligations.WritesAndMarkersArrive := by
  rintro ⟨harrive, -⟩
  obtain ⟨hbuffer, -⟩ := harrive hidingLine 0 0 0 zeroEntry (by decide)
  obtain ⟨t, hexec, -, -, hsame⟩ := hbuffer rfl (by decide) rfl (by decide) (by decide)
  have hkept : t.mem.read 0 = hidingLine.mem.read 0 := hsame 0 (by decide)
  rw [hidingLine_homeWrite hexec] at hkept
  exact absurd hkept (by decide)

end Sys2Proof.Machine
end

section
/-! What follows a write at its place (10 R213, R216, R225, R227, R236): copies are invalidated, watches answered and iterations restarted,
while memory stays, and no reservation, no watch and no waiting request comes to be. -/

namespace Sys2Proof.Machine

theorem SMap.at_map_default {α : Type} (f : α → α) (d : α) (hf : f d = d) (m : SMap α) (k : Nat) :
    SMap.at d (m.map fun p => (p.1, f p.2)) k = f (SMap.at d m k) := by
  induction m with
  | nil => exact hf.symm
  | cons p r ih =>
    simp only [List.map_cons, SMap.at]
    split
    · exact hf.symm
    · split
      · rfl
      · exact ih

/-- In `t` memory, the words' states and the granules' tags are those of `s`, and no reservation, watch or request of a retry list is new. -/
structure Undisturbed (s t : State) : Prop where
  mem : t.mem = s.mem
  empties : t.empties = s.empties
  mtags : t.mtags = s.mtags
  retry : ∀ k, (s.clu k).retry = [] → (t.clu k).retry = []
  resv : ∀ c r, (t.ctx c).resv = some r → (s.ctx c).resv = some r
  watches : ∀ l, (s.dirAt l).watches = [] → (t.dirAt l).watches = []

section
variable {s t : State} (h : Undisturbed s t)

theorem Undisturbed.refl (s : State) : Undisturbed s s := ⟨rfl, rfl, rfl, fun _ => id, fun _ _ => id, fun _ => id⟩

include h

theorem Undisturbed.modClu {k : Nat} {f : Cluster → Cluster} (hf : ∀ u, (f u).retry = u.retry) : Undisturbed s (t.modClu k f) :=
  { h with
    retry := fun j hj => by
      rw [State.modClu_clu]
      split
      · next he => exact (hf _).trans (he ▸ h.retry j hj)
      · exact h.retry j hj }

theorem Undisturbed.modCtx {c : Nat} {f : Ctx → Ctx} (hf : ∀ x, (f x).resv = x.resv) : Undisturbed s (t.modCtx c f) :=
  { h with
    resv := fun d r hr => by
      rw [State.modCtx_ctx] at hr
      split at hr
      · next he => exact h.resv d r (he ▸ (hf _).symm.trans hr)
      · exact h.resv d r hr }

theorem Undisturbed.modDir {l : Nat} {f : DirLine → DirLine} (hf : ∀ d, (f d).watches = d.watches) : Undisturbed s (t.modDir l f) :=
  { h with
    watches := fun j hj => by
      rw [State.modDir_dirAt]
      split
      · next he => exact (hf _).trans (he ▸ h.watches j hj)
      · exact h.watches j hj }

theorem Undisturbed.unwatch {l : Nat} : Undisturbed s (t.modDir l (fun d => { d with watches := [] })) :=
  { h with
    watches := fun j hj => by
      rw [State.modDir_dirAt]
      split
      · rfl
      · exact h.watches j hj }

theorem Undisturbed.modPkg {f : Pkg → Pkg} : Undisturbed s (t.modPkg f) := { h with }

theorem Undisturbed.dirEvent {e : DirEv} : Undisturbed s (t.dirEvent e) := by
  unfold State.dirEvent
  exact h.modClu fun _ => rfl

theorem Undisturbed.refreshCopy {clu line : Nat} : Undisturbed s (t.refreshCopy clu line) := h.modClu fun _ => rfl

theorem Undisturbed.giveReply {c : Nat} {r : Reply} : Undisturbed s (t.giveReply c r) := h.modCtx fun _ => rfl

omit h in
theorem Undisturbed.ite {p : Prop} [Decidable p] {a b : State} (ha : Undisturbed s a) (hb : Undisturbed s b) :
    Undisturbed s (if p then a else b) := by
  split
  · exact ha
  · exact hb

omit h in
theorem Undisturbed.foldl {α : Type} {t : State} {f : State → α → State} {l : List α} (h : Undisturbed s t)
    (hf : ∀ t a, Undisturbed s t → Undisturbed s (f t a)) : Undisturbed s (l.foldl f t) :=
  List.foldlRecOn l f h fun t ht a _ => hf t a ht

/-! ## A restart, and the inbox (10 R213; 15 R359) -/

theorem Undisturbed.withdraw {c : Nat} : Undisturbed s (t.withdraw c) := by
  unfold State.withdraw
  extract_lets clu opening core dir s1
  refine Undisturbed.modCtx (t := s1) ⟨h.mem, h.empties, h.mtags, fun k hk => ?_, h.resv, fun l hl => ?_⟩ fun _ => rfl
  · have hclu : s1.clu k = clu (t.clu k) := SMap.at_map_default clu {} rfl t.clus k
    simp [hclu, clu, h.retry k hk]
  · have hdir : s1.dirAt l = dir (t.dirAt l) := SMap.at_map_default dir {} rfl t.dir l
    simp [hdir, dir, h.watches l hl]

theorem Undisturbed.restart {c : Nat} : Undisturbed s (t.restart c) := by
  unfold State.restart
  split
  · exact h
  · refine Undisturbed.modClu (Undisturbed.modCtx (Undisturbed.ite h.withdraw.modPkg h) ?_) ?_
    all_goals exact fun _ => rfl

theorem Undisturbed.restartSpilled {clu key : Nat} : Undisturbed s (t.restartSpilled clu key) := by
  refine Undisturbed.modClu ?_ fun _ => rfl
  exact { h with }

theorem Undisturbed.hitSpilled {clu line : Nat} : Undisturbed s (t.hitSpilled clu line) := h.foldl fun _ _ h => h.restartSpilled

theorem Undisturbed.hitReaders {clu line : Nat} : Undisturbed s (t.hitReaders clu line) :=
  (h.foldl fun _ _ h => Undisturbed.ite h.restart h).hitSpilled

theorem Undisturbed.applyLine {clu line : Nat} : Undisturbed s (t.applyLine clu line) := by
  refine Undisturbed.hitReaders (h.modClu ?_)
  exact fun _ => rfl

theorem Undisturbed.applyInbox {clu : Nat} : Undisturbed s (t.applyInbox clu) := (h.foldl fun _ _ h => h.applyLine).modClu fun _ => rfl

theorem Undisturbed.invalidate {clu line : Nat} : Undisturbed s (t.invalidate clu line) := by
  unfold State.invalidate
  extract_lets full s1
  have h1 : Undisturbed s s1 := Undisturbed.ite h.applyLine h
  exact h1.modClu fun _ => rfl

/-! ## A write is noted (10 R216) -/

theorem Undisturbed.wakeWatches {line : Nat} : Undisturbed s (t.wakeWatches line) := by
  unfold State.wakeWatches
  extract_lets ws
  split
  · exact h
  · refine Undisturbed.unwatch (h.foldl fun s w h => ?_)
    split
    · exact h.modPkg
    · exact Undisturbed.ite h.giveReply h.giveReply

end

/-- A line whose watches have been answered has none. -/
theorem State.wakeWatches_watches (s : State) (line : Nat) : ((s.wakeWatches line).dirAt line).watches = [] := by
  unfold State.wakeWatches
  extract_lets ws
  split
  · next hnone => exact List.isEmpty_iff.mp hnone
  · simp

/-- A reservation of a line ends. -/
def Ctx.endResv (line : Nat) (x : Ctx) : Ctx := if x.resv.any (fun r => decide (r.line = line)) then { x with resv := none } else x

/-- The machine in which the reservations of a line have ended (10 R225). -/
def State.endResvs (s : State) (line : Nat) : State :=
  { s with
    ctxs := s.ctxs.map (fun p => (p.1, p.2.endResv line))
    rresv := s.rresv.filter (fun r => decide (r.2.2 ≠ line)) }

theorem State.endResvs_resv {s : State} {line c : Nat} {r : Reserv} (hr : ((s.endResvs line).ctx c).resv = some r) :
    (s.ctx c).resv = some r ∧ r.line ≠ line := by
  have hctx : (s.endResvs line).ctx c = (s.ctx c).endResv line := SMap.at_map_default (Ctx.endResv line) _ rfl s.ctxs c
  rw [hctx, Ctx.endResv] at hr
  split at hr
  · cases hr
  · next hother =>
    rw [hr] at hother
    exact ⟨hr, by simpa using hother⟩

/-- What noting a write does to its line: its watches are answered once its reservations have ended, and what follows sets none. -/
theorem undisturbed_noteWrite (s : State) (wr : Writer) (line : Nat) :
    Undisturbed ((s.endResvs line).wakeWatches line) (s.noteWrite wr line) := by
  unfold State.noteWrite
  extract_lets _ s1 s2 _ s3 s4 _ s5 s6
  have h2 : Undisturbed s2 s2 := .refl s2
  have h3 : Undisturbed s2 s3 := h2.foldl fun _ _ h => h.invalidate
  have h4 : Undisturbed s2 s4 := by
    unfold s4
    split
    · exact h3
    · exact h3.refreshCopy
  have h5 : Undisturbed s2 s5 :=
    Undisturbed.ite h4.dirEvent (Undisturbed.ite ((h4.foldl fun _ _ h => h.invalidate).modDir fun _ => rfl)
      (Undisturbed.ite h4 (h4.modDir fun _ => rfl)))
  change Undisturbed s2 s6
  unfold s6
  split
  · exact h5
  · extract_lets u
    have hu : Undisturbed s2 u := Undisturbed.ite (h5.modCtx fun _ => rfl) h5
    exact Undisturbed.ite hu.hitReaders hu

section
variable {s t : State} (h : Undisturbed s t)
include h

theorem Undisturbed.trans {u : State} (h' : Undisturbed t u) : Undisturbed s u :=
  ⟨h'.mem.trans h.mem, h'.empties.trans h.empties, h'.mtags.trans h.mtags, fun k hk => h'.retry k (h.retry k hk),
    fun c r hr => h.resv c r (h'.resv c r hr), fun l hl => h'.watches l (h.watches l hl)⟩

theorem Undisturbed.endResvs {line : Nat} : Undisturbed s (t.endResvs line) :=
  { h with resv := fun c r hr => h.resv c r (State.endResvs_resv hr).1 }

theorem Undisturbed.noteWrite {wr : Writer} {line : Nat} : Undisturbed s (t.noteWrite wr line) :=
  h.endResvs.wakeWatches.trans (undisturbed_noteWrite t wr line)

end

theorem State.noteWrite_watches (s : State) (wr : Writer) (line : Nat) : ((s.noteWrite wr line).dirAt line).watches = [] :=
  (undisturbed_noteWrite s wr line).watches line (State.wakeWatches_watches _ line)

theorem State.noteWrite_resv {s : State} {wr : Writer} {line c : Nat} {r : Reserv} (hr : ((s.noteWrite wr line).ctx c).resv = some r) :
    r.line ≠ line :=
  (State.endResvs_resv ((Undisturbed.refl (s.endResvs line)).wakeWatches.resv c r ((undisturbed_noteWrite s wr line).resv c r hr))).2

/-- A write to several lines leaves none of them reserved or watched. -/
theorem noteWrites_effect (wr : Writer) (lines : List Nat) (s : State) :
    let t := lines.foldl (fun s l => s.noteWrite wr l) s
    Undisturbed s t ∧ (∀ c r, (t.ctx c).resv = some r → r.line ∉ lines) ∧ ∀ l ∈ lines, (t.dirAt l).watches = [] := by
  induction lines generalizing s with
  | nil => exact ⟨.refl s, by simp, by simp⟩
  | cons l lines ih =>
    obtain ⟨hkeeps, hresv, hwatches⟩ := ih (s.noteWrite wr l)
    refine ⟨(Undisturbed.refl s).noteWrite.trans hkeeps, fun c r hr => ?_, fun j hj => ?_⟩
    · rw [List.mem_cons, not_or]
      exact ⟨State.noteWrite_resv (hkeeps.resv c r hr), hresv c r hr⟩
    · rcases List.mem_cons.mp hj with rfl | hj
      · exact hkeeps.watches j (State.noteWrite_watches s wr j)
      · exact hwatches j hj

/-! ## The write itself -/

/-- Where no request waits for a word, serving the words' waiters does nothing (10 R231). -/
theorem State.serveWords_of_noWaiters {s : State} (h : ∀ k, (s.clu k).retry = []) (ls : List Nat) : s.serveWords ls = s :=
  List.foldlRecOn (motive := (· = s)) _ _ rfl fun t ht w _ => by
    subst ht
    simp only [h, List.isEmpty_nil, if_true]

theorem SMap.at_of_forall {α : Type} {P : α → Prop} {d : α} (hd : P d) {m : SMap α} (hm : ∀ q ∈ m, P q.2) (k : Nat) : P (SMap.at d m k) := by
  induction m with
  | nil => exact hd
  | cons p r ih =>
    simp only [SMap.at]
    split
    · exact hd
    · split
      · exact hm p List.mem_cons_self
      · exact ih fun q hq => hm q (List.mem_cons_of_mem p hq)

theorem State.retry_of_noWaiters {s : State} (h : ∀ q ∈ s.clus, q.2.retry = []) (k : Nat) : (s.clu k).retry = [] :=
  SMap.at_of_forall (P := fun u : Cluster => u.retry = []) rfl h k

/-- A byte that has been written to distinct places reads back. -/
theorem Memory.read_writes_of_mem {m : Memory} (w : m.wf = true) {bs : List (Nat × Byte)} (hbs : (bs.map (·.1)).Nodup) {q : Nat × Byte}
    (hq : q ∈ bs) : (m.writes bs).read q.1 = q.2 := by
  induction bs generalizing m with
  | nil => cases hq
  | cons p bs ih =>
    obtain ⟨hp, hbs⟩ := List.nodup_cons.mp hbs
    rcases List.mem_cons.mp hq with rfl | hq
    · exact (Memory.read_writes_of_notMem (Memory.write_wf w _ _) bs _ fun r hr he => hp (List.mem_map.mpr ⟨r, hr, he⟩)).trans
        ((Memory.read_write w _ _ _).trans (if_pos rfl))
    · exact ih (Memory.write_wf w _ _) hbs hq

theorem hasNat_delNat {l : List Nat} (h : l.Pairwise (· < ·)) (k : Nat) : hasNat (delNat l k) k = false := by
  induction l with
  | nil => rfl
  | cons a r ih =>
    obtain ⟨ha, hr⟩ := List.pairwise_cons.mp h
    simp only [delNat]
    split
    · next hlt => simp [hasNat, hlt]
    · split
      · next hlt heq =>
        rw [Bool.eq_false_iff, Ne, hasNat_iff_mem hr]
        exact fun hk => absurd (ha k hk) (by omega)
      · next hlt hne => simp [hasNat, hlt, hne, ih hr]

/-- A number whose key has been deleted from a rising list is gone, whatever else is deleted. -/
theorem hasNat_foldl_delNat {f : Nat → Nat} {ls : List Nat} {k : Nat} (hk : k ∈ ls) :
    ∀ {l : List Nat}, l.Pairwise (· < ·) → hasNat (ls.foldl (fun e a => delNat e (f a)) l) (f k) = false := by
  induction ls with
  | nil => cases hk
  | cons a ls ih =>
    intro l hl
    by_cases hmem : k ∈ ls
    · exact ih hmem (delNat_rising hl _)
    · obtain rfl : k = a := (List.mem_cons.mp hk).resolve_right hmem
      have hgone : f k ∉ ls.foldl (fun e a => delNat e (f a)) (delNat l (f k)) := by
        refine fun hin => ?_
        have hsub : f k ∈ delNat l (f k) :=
          List.foldlRecOn (motive := fun e : List Nat => f k ∈ e → f k ∈ delNat l (f k)) ls _ id
            (fun e he b _ hb => he ((delNat_sublist e (f b)).subset hb)) hin
        rw [← hasNat_iff_mem (delNat_rising hl _), hasNat_delNat hl] at hsub
        cases hsub
      rw [List.foldl_cons, Bool.eq_false_iff, Ne, hasNat_iff_mem (foldl_rising (fun _ a h => delNat_rising h (f a)) ls (delNat_rising hl _))]
      exact hgone

theorem writesEndReservations : Claim.WritesEndReservations := by
  intro s wr bs hretry hbs hkept t
  obtain ⟨hkeeps, hresv, hwatches⟩ := noteWrites_effect wr (linesOf (bs.map (·.1))) (s.rawWrite bs)
  have hplace : t = (linesOf (bs.map (·.1))).foldl (fun s l => s.noteWrite wr l) (s.rawWrite bs) :=
    State.serveWords_of_noWaiters (fun k => hkeeps.retry k (State.retry_of_noWaiters hretry k)) _
  rw [hplace]
  have hmem : ((linesOf (bs.map (·.1))).foldl (fun s l => s.noteWrite wr l) (s.rawWrite bs)).mem = s.mem.writes bs := hkeeps.mem
  refine ⟨fun q hq => ?_, fun l hl => ?_, hresv, fun q hq => ?_⟩
  · rw [hmem]
    exact Memory.read_writes_of_mem hkept.mem hbs hq
  · rw [hmem]
    exact Memory.read_writes_of_notMem hkept.mem bs l fun p hp he => hl (List.mem_map.mpr ⟨p, hp, he⟩)
  · have hloc : q.1 ∈ bs.map (·.1) := List.mem_map_of_mem hq
    refine ⟨hwatches _ (mem_linesOf.mpr ⟨q.1, hloc, rfl⟩), ?_, ?_⟩
    · unfold State.isFull
      rw [hkeeps.empties]
      exact congrArg (!·) (hasNat_foldl_delNat hloc hkept.empties)
    · rw [hkeeps.mtags]
      exact hasNat_foldl_delNat hloc hkept.mtags

end Sys2Proof.Machine
end

section
/-! Accesses at their place (10 R216): the atomic instructions, LR and SC among them, end there or wait for it. -/

namespace Sys2Proof.Machine

theorem leNat_lt (bs : List Byte) : leNat bs < 2 ^ (8 * bs.length) := by
  induction bs with
  | nil => decide
  | cons b r ih =>
    have hpow : 2 ^ (8 * (b :: r).length) = 256 * 2 ^ (8 * r.length) := by
      rw [List.length_cons, Nat.mul_succ, pow_add, mul_comm]
      rfl
    have := b.isLt
    rw [leNat, hpow]
    omega

theorem extend_eq_widen {z : BitVec 3} {v : Nat} (hz : z.toNat < 7) (hv : v < 2 ^ (8 * szBytes z.toNat)) :
    extend z.toNat v = Claim.widen z v := by
  unfold extend Claim.widen sextW
  unfold szBytes at *
  generalize z.toNat = k at *
  have hsmall {n : Nat} (hn : n ≤ 64) (hv : v < 2 ^ n) : BitVec.ofNat 64 v = (BitVec.ofNat n v).setWidth 64 := by
    refine BitVec.eq_of_toNat_eq ?_
    rw [BitVec.toNat_setWidth, BitVec.toNat_ofNat, BitVec.toNat_ofNat, Nat.mod_eq_of_lt hv]
  have hlow {n : Nat} (hn : n ≤ 64) : (BitVec.ofNat 64 v).setWidth n = BitVec.ofNat n v := BitVec.setWidth_ofNat_of_le hn v
  interval_cases k
  · exact congrArg (BitVec.signExtend 64) (hlow (by decide))
  · exact hsmall (by decide) hv
  · exact congrArg (BitVec.signExtend 64) (hlow (by decide))
  · exact hsmall (by decide) hv
  · exact congrArg (BitVec.signExtend 64) (hlow (by decide))
  · exact hsmall (by decide) hv
  · rfl
section
variable {s u : State} {ptr : Word} {size need al : Nat} {r : Reach} {wr rd : Bool} {rel : Option Nat} {ls : List Nat}
  (h : Claim.AtPlace s ptr size need al r wr rd rel u ls)
include h

/-- An operation that has got to its place is performed there. -/
theorem State.atPlace_eq (atMem : State → List Nat → Res) (atPeer : State → HEntry → Nat → Res) :
    s.atPlace ptr size need al r wr rd rel atMem atPeer = atMem u ls := by
  obtain ⟨segs, keep, s1, s2, ⟨space, haccess, -⟩, rfl, hrel, hmarker, hflush, rfl, hfree⟩ := h
  have hgo : (wr && hasMarker (s1.ctx s1.cur).buf) = false := by
    cases wr
    · rfl
    · exact hmarker rfl
  have hwrite : (wr && ((s2.coreStream ptr).2.placeReply (cluOf s.cur) (lineOf ((spanAll segs).headD 0)) (spanAll segs)).lockedFor
      (lineOf ((spanAll segs).headD 0)) ((s2.coreStream ptr).2.placeReply (cluOf s.cur) (lineOf ((spanAll segs).headD 0)) (spanAll segs)).cur) =
      false := by
    cases wr
    · rfl
    · exact hfree rfl
  unfold State.atPlace
  cases rel with
  | none =>
    subst hrel
    simp only [haccess, hgo, hflush, hwrite, Bool.false_eq_true, if_false]
  | some k => simp only [haccess, hrel, hgo, hflush, hwrite, Bool.false_eq_true, if_false]

theorem length_of_atPlace : ls.length = size := by
  obtain ⟨segs, keep, s1, s2, ⟨space, -, hlen⟩, rfl, -⟩ := h
  exact hlen

theorem valueAt_lt_of_atPlace (v : State) : v.valueAt ls < 2 ^ (8 * size) := by
  have hlt := leNat_lt (v.bytesAt ls)
  rwa [State.bytesAt, List.length_map, length_of_atPlace h] at hlt

end

theorem State.acqIf_decide (t : State) (p : Prop) [Decidable p] (k : Nat) : t.acqIf (decide p) k = if p then t.acquire t.cur k else t := by
  simp only [State.acqIf, decide_eq_true_eq]

section
variable {s s0 u : State} (h : Calm s) {ptr : Word} {size need al : Nat} {r : Reach} {wr rd : Bool} {rel : Option Nat} {ls : List Nat}
  (hplace : Claim.AtPlace s0 ptr size need al r wr rd rel u ls) {i : Instr} {len : Nat} {body : State → Res}
  (hexec : exec i s = goes (s.run {} len body)) {atMem : State → List Nat → Res} {atPeer : State → HEntry → Nat → Res}
  (hbody : body s = s0.atPlace ptr size need al r wr rd rel atMem atPeer)
include h hplace hexec hbody

/-- The instruction of a calm thread whose operation has got to its place ends as the operation there does. -/
theorem exec_at_place : exec i s = .next (s.finish s.cur len (atMem u ls)) := by
  rw [exec_of_calm h hexec, hbody, State.atPlace_eq hplace]

theorem ends_at_place {v : State} (hmem : atMem u ls = .done v) : Claim.Ends s i len v :=
  ends_of_done h hexec (hbody.trans ((State.atPlace_eq hplace _ _).trans hmem))

theorem blocks_at_place {v : State} {w : Why} (hmem : atMem u ls = .wait v w) : exec i s = .next (v.block s.cur w len) :=
  blocks_of_wait h hexec (hbody.trans ((State.atPlace_eq hplace _ _).trans hmem))

end

/-! ## LR and SC (10 R225) -/

section
variable {s u v : State} (h : Calm s) {ls : List Nat} {scp o : BitVec 2} {z : BitVec 3} {d a : Reg} {p : Imm 8}
include h

theorem lr_ends (hz : z.toNat < 7) {u1 : State} (hplace : Claim.AtPlace (if o = 1 then s.acquire s.cur scp.toNat else s)
      (s.me.reg a + dispW (szBytes z.toNat) p) (szBytes z.toNat) needA (szBytes z.toNat) .atomic false true none u ls)
    (hturn : u.lrTurn u.cur (lineOf (ls.headD 0)) = (true, u1)) (hordered : u1.ordered u1.cur 0x23 (ls.headD 0) = some v) :
    Claim.Ends s (.lr scp o z d a p) (immLen p) ((((v.dropCopy (ls.headD 0)).modCtx v.cur (fun x =>
      { x with resv := some ⟨lineOf (ls.headD 0), s.me.reg a + dispW (szBytes z.toNat) p, szBytes z.toNat⟩ })).setReg d
        (Claim.widen z (v.valueAt ls))).acqIf (decide (o = 1)) scp.toNat) := by
  refine ends_at_place h hplace rfl (State.lr.eq_1 ..) ?_
  simp only [hturn, State.inOrder, hordered, extend_eq_widen hz (valueAt_lt_of_atPlace hplace v)]
  rfl

/-- The machine that an `SC` leaves, from `w`, what it has written or dropped: a lock of the thread's own ends, and so does its reservation. -/
def State.afterSc (v w : State) (d : Reg) (line : Nat) (ok : Bool) : State :=
  ((if (v.dirAt line).lock = some v.cur then w.unlock line else w).modCtx v.cur (fun x =>
    { x with resv := none, scFailed := if ok then delNat x.scFailed line else addNat x.scFailed line })).setReg d (if ok then 0 else 1)

section
variable (hplace : Claim.AtPlace s (s.me.reg a + dispW (szBytes z.toNat) p) (szBytes z.toNat) needA (szBytes z.toNat) .atomic true false
    (if o = 1 then some scp.toNat else none) u ls) (hordered : u.ordered u.cur 0x24 (ls.headD 0) = some v)
include hplace hordered

theorem sc_ends_of_held (hheld : (v.ctx v.cur).resv =
      some ⟨lineOf (ls.headD 0), s.me.reg a + dispW (szBytes z.toNat) p, szBytes z.toNat⟩) :
    Claim.Ends s (.sc scp o z d a p) (immLen p) (v.afterSc (v.writeAt ls (v.reg d).toNat) d (lineOf (ls.headD 0)) true) := by
  refine ends_at_place h hplace rfl (State.sc.eq_1 ..) ?_
  simp only [State.me] at hheld
  simp only [State.inOrder, hordered, State.reg, hheld, decide_true, if_true]
  rfl

theorem sc_ends_of_lost (hlost : (v.ctx v.cur).resv ≠
      some ⟨lineOf (ls.headD 0), s.me.reg a + dispW (szBytes z.toNat) p, szBytes z.toNat⟩) :
    Claim.Ends s (.sc scp o z d a p) (immLen p) (v.afterSc (v.dropCopy (ls.headD 0)) d (lineOf (ls.headD 0)) false) := by
  refine ends_at_place h hplace rfl (State.sc.eq_1 ..) ?_
  simp only [State.me] at hlost
  simp only [State.inOrder, hordered, State.reg, hlost, decide_false, Bool.false_eq_true, if_false]
  rfl

end

end

theorem reservationResults : Claim.ReservationResults := by
  intro s u u1 v ls scp o z d a p h _ hz _ n ptr line acq
  refine ⟨fun hplace hturn hordered => ?lr, fun hplace hordered hcur hreg => ⟨fun hheld => ?held, fun hlost => ?lost⟩⟩
  case lr => simpa only [State.acqIf_decide] using lr_ends (d := d) h hz hplace hturn hordered
  case held => exact hcur ▸ hreg ▸ sc_ends_of_held (d := d) h hplace hordered hheld
  case lost => exact hcur ▸ sc_ends_of_lost (d := d) h hplace hordered hlost

/-- Settles O25: LR and SC end at their place, and a write that is noted for its lines ends their reservations and watches. -/
theorem reservations : Obligations.Reservations := ⟨reservationResults, writesEndReservations⟩

end Sys2Proof.Machine
end

section
/-! Line waits, exact sum cells and full-empty words at their place (10 R227 to R231). -/

namespace Sys2Proof.Machine

/-! ## Line waits and cells -/

theorem lineWaitsAndCells : Claim.LineWaitsAndCells := by
  intro s u ls scp o z k f d a b p q h _ hz _ n val cell acq
  refine ⟨fun hplace => ⟨fun hnow hcur hreg => ?answered, fun hsame hroom hcur hreg => ?watched⟩,
    fun hplace hcur hreg => ⟨fun w hw => ?added, fun hnone => ?format⟩, fun hplace => ?read⟩
  case answered =>
    rw [← hreg] at hnow
    have hval : extend z.toNat (u.valueAt ls) = Claim.widen z val := extend_eq_widen hz (valueAt_lt_of_atPlace hplace u)
    refine ends_at_place h hplace rfl (State.waitrs.eq_1 ..) ((if_pos hnow).trans ?_)
    simp only [hval, State.acqIf_decide]
    rfl
  case watched =>
    have hstays : ¬ (u.valueAt ls ≠ (u.reg d).toNat % 2 ^ (8 * n) ∨ 64 ≤ u.watchCount (ls.headD 0)) := by
      rw [hreg]
      exact fun hnow => hnow.elim (absurd hsame) (by omega)
    refine blocks_at_place h hplace rfl (State.waitrs.eq_1 ..) ((if_neg hstays).trans ?_)
    rw [hcur]
  case added =>
    refine ends_at_place h hplace rfl (State.red.eq_1 ..) ?_
    rw [hreg]
    simp only [cell, val] at hw
    simp only [hw]
  case format =>
    refine (exec_at_place h hplace rfl (State.red.eq_1 ..)).trans ?_
    rw [hreg]
    simp only [cell, val] at hnone
    simp only [hnone]
    rfl
  case read =>
    refine ends_at_place h hplace rfl (State.xsrd.eq_1 ..) ?_
    simp only [State.acqIf_decide]
    rfl

/-! ## Full-empty instructions (10 R230, R231) -/

section
variable {s u v : State} (h : Calm s) {ls : List Nat} {scp : BitVec 2} {d a : Reg} {p : Imm 4} {m : FeMode} {i : Instr}
  (hexec : exec i s = goes (s.run {} (immLen p) fun s => s.fe m scp d a p))
  (hplace : Claim.AtPlace s (s.me.reg a + dispW 8 p) 8 needF 8 .fe (decide (m ≠ .read)) m.loads
    (if m.loads then none else some scp.toNat) u ls)
include h hexec hplace

/-- The request by which a full-empty instruction that cannot proceed waits. -/
def State.feWaits (s u : State) (m : FeMode) (d : Reg) (l : Nat) : FeReq :=
  { ctx := u.cur, loc := l, mode := m, data := s.me.reg d, reg := if m.loads then d else 0, tag := u.phaseOf u.cur }

theorem fe_ends (hready : m.ready (u.isFull (ls.headD 0)) = true) (hordered : u.ordered u.cur m.major (ls.headD 0) = some v) :
    let r := v.fePerform (writerOf v.cur) (ls.headD 0) m (s.me.reg d)
    let w := r.2.serveWords [ls.headD 0]
    Claim.Ends s i (immLen p) ((if m.loads then (w.dropCopy (ls.headD 0)).setReg d r.1 else w).acqIf m.loads scp.toNat) := by
  refine ends_at_place h hplace hexec (State.fe.eq_1 ..) ?_
  simp only [hready, if_true, State.inOrder, hordered]
  rfl

theorem fe_blocks (hready : m.ready (u.isFull (ls.headD 0)) = false) :
    exec i s = .next ((if (u.clu (u.placeClu (ls.headD 0))).retry.length < 256 then
      u.modClu (u.placeClu (ls.headD 0)) (fun c => { c with retry := c.retry ++ [s.feWaits u m d (ls.headD 0)] }) else u).block s.cur
        (.retry (ls.headD 0)) (immLen p)) := by
  refine blocks_at_place h hplace hexec (State.fe.eq_1 ..) ?_
  have hwaits := State.feArrive_notReady (r := s.feWaits u m d (ls.headD 0)) hready {} (fun _ s => s)
  simp only [hready, Bool.false_eq_true, if_false]
  refine congrArg (Res.wait · _) ((congrArg (Option.getD · u) hwaits).trans ?_)
  exact apply_ite (Option.getD · u) ..

end

theorem fullEmptyInstructions : Claim.FullEmptyInstructions := by
  intro s u v ls scp d a p h t ht m loads l k hplace r w y q
  have hloads : m.loads = loads := FeMode.loads_eq m
  have hexec : exec t.2 s = goes (s.run {} (immLen p) fun s => s.fe m scp d a p) := by
    simp only [List.mem_append, List.mem_cons, List.not_mem_nil, or_false] at ht
    rcases ht with (rfl | rfl | rfl | rfl) | ht
    · rfl
    · rfl
    · rfl
    · rfl
    · split at ht
      · next hd =>
        subst hd
        obtain rfl := List.mem_singleton.mp ht
        rfl
      · cases ht
  rw [← hloads] at hplace
  have hblocks := fun hready => fe_blocks h hexec hplace hready
  simp only [State.feWaits, hloads] at hblocks
  refine ⟨fun hready hordered => ?_, fun hready hroom => (hblocks hready).trans (by rw [if_pos hroom]),
    fun hready hfull => (hblocks hready).trans (by rw [if_neg (Nat.not_lt.mpr hfull)])⟩
  have hends := fe_ends h hexec hplace hready (by simpa only [FeMode.major, hloads] using hordered)
  rw [hloads] at hends
  refine ⟨fun hl => ?_, fun hl => ?_⟩
  · rw [hl] at hends
    exact hends
  · rw [hl] at hends
    exact hends

/-! ## Full-empty modes (10 R230) -/

theorem length_leBytes (n v : Nat) : (leBytes n v).length = n := by
  induction n generalizing v with
  | zero => rfl
  | succ n ih => exact congrArg (· + 1) (ih _)

theorem leNat_leBytes_eq_mod (n v : Nat) : leNat (leBytes n v) = v % 256 ^ n := by
  induction n generalizing v with
  | zero => exact (Nat.mod_one v).symm
  | succ n ih =>
    rw [leBytes, leNat, ih, BitVec.toNat_ofNat]
    exact Nat.mod_mul.symm.trans (congrArg (v % ·) (pow_succ' 256 n).symm)

theorem nodup_span (l n : Nat) : (span l n).Nodup := List.nodup_range.map (add_right_injective l)

/-- Bytes written at distinct places read back, all of them. -/
theorem Memory.map_read_writes {m : Memory} (w : m.wf = true) {ls : List Nat} {bs : List Byte} (hlen : ls.length = bs.length)
    (hls : ls.Nodup) : ls.map (m.writes (ls.zip bs)).read = bs := by
  refine List.ext_getElem (by simpa using hlen) fun i hi hbi => ?_
  have hli : i < ls.length := by simpa using hi
  have hzip : (ls[i], bs[i]) ∈ ls.zip bs := List.mem_iff_getElem.mpr ⟨i, by simp [hlen, hbi], by simp⟩
  rw [List.getElem_map]
  exact Memory.read_writes_of_mem w (by rwa [List.map_fst_zip hlen.le]) hzip

section
variable {s t : State} {l : Nat}

theorem State.peekN_of_mem (h : t.mem = s.mem) (n : Nat) : t.peekN l n = s.peekN l n := by rw [State.peekN, State.peek, h]; rfl

theorem SameMem.of_mem (h : t.mem = s.mem) (ls : List Nat) : SameMem ls s t := fun _ _ => by rw [h]

variable (hkept : WellKept s) (wr : Writer) (v : Word)
include hkept

/-- The machine in which a word has been made empty by a write that leaves its data. -/
def State.emptied (s : State) (l : Nat) : State := { s with empties := addNat s.empties (l / 8), mtags := delNat s.mtags (l / 16) }

theorem isFull_emptied : (s.emptied l).isFull l = false := by
  have hin : hasNat (addNat s.empties (l / 8)) (l / 8) = true :=
    (hasNat_iff_mem (addNat_rising hkept.empties _) _).mpr (mem_addNat_iff.mpr (.inl rfl))
  exact congrArg (!·) hin

/-- What a mode that leaves the data and empties the word does. -/
theorem emptied_noteWrite : let t := (s.emptied l).noteWrite wr (lineOf l)
    t.isFull l = false ∧ BitVec.ofNat 64 (t.peekN l 8) = BitVec.ofNat 64 (s.peekN l 8) ∧ SameMem (span l 8) s t := by
  have hkeeps : Undisturbed (s.emptied l) ((s.emptied l).noteWrite wr (lineOf l)) := (Undisturbed.refl _).noteWrite
  refine ⟨?_, congrArg _ (State.peekN_of_mem hkeeps.mem 8), SameMem.of_mem hkeeps.mem _⟩
  rw [← isFull_emptied hkept (l := l), State.isFull, hkeeps.empties]
  rfl

/-- What a mode that writes the word and fills it does. -/
theorem filled_noteWrite : let t := (s.rawWrite ((span l 8).zip (leBytes 8 v.toNat))).noteWrite wr (lineOf l)
    t.isFull l = true ∧ BitVec.ofNat 64 (t.peekN l 8) = v ∧ SameMem (span l 8) s t := by
  intro t
  have hkeeps : Undisturbed (s.rawWrite ((span l 8).zip (leBytes 8 v.toNat))) t := (Undisturbed.refl _).noteWrite
  have hlen : (span l 8).length = (leBytes 8 v.toNat).length := by simp [span, length_leBytes]
  have hlocs : ((span l 8).zip (leBytes 8 v.toNat)).map (·.1) = span l 8 := List.map_fst_zip hlen.le
  have hmem : t.mem = s.mem.writes ((span l 8).zip (leBytes 8 v.toNat)) := hkeeps.mem
  refine ⟨?_, ?_, fun j hj => ?_⟩
  · have hgone : hasNat ((span l 8).foldl (fun e l => delNat e (l / 8)) s.empties) (l / 8) = false :=
      hasNat_foldl_delNat (f := (· / 8)) (List.mem_map.mpr ⟨0, by decide, rfl⟩) hkept.empties
    rw [State.isFull, hkeeps.empties]
    exact congrArg (!·) ((congrArg (fun ls => hasNat (ls.foldl (fun e l => delNat e (l / 8)) s.empties) (l / 8)) hlocs).trans hgone)
  · rw [State.peekN, State.peek, hmem, Memory.map_read_writes hkept.mem hlen (nodup_span l 8), leNat_leBytes_eq_mod]
    refine BitVec.eq_of_toNat_eq ?_
    have := v.isLt
    rw [BitVec.toNat_ofNat]
    omega
  · rw [hmem]
    refine Memory.read_writes_of_notMem hkept.mem _ j fun q hq he => hj ?_
    rw [← hlocs, ← he]
    exact List.mem_map_of_mem hq

end

theorem fullEmptyModes : Claim.FullEmptyModes := by
  intro s wr l v _ hkept old is
  have hempties : is .take false old := ⟨rfl, emptied_noteWrite hkept wr⟩
  have hfills : is .put true v := ⟨rfl, filled_noteWrite hkept wr v⟩
  refine ⟨⟨rfl, rfl, rfl, fun _ _ => rfl⟩, hempties, hfills, hfills, hempties, fun m => ?_⟩
  cases m <;> decide

/-- Settles O26: each operation ends, waits or faults at its place by the value there; an exact sum adds whole numbers, so the order is free. -/
theorem lineWaitsCellsAndFullEmpty : Obligations.LineWaitsCellsAndFullEmpty :=
  ⟨⟨lineWaitsAndCells, exactSumsAreOrderFree⟩, fullEmptyModes, fullEmptyInstructions⟩

end Sys2Proof.Machine
end

section
/-! What a load returns (10 R209, R212, R213, R219; 11 R240): what a thread sees of memory hangs on its buffer, its core's readable entries,
its cluster's copies and the homes, and neither the detectors nor the errors that a load corrects change any of these. -/

namespace Sys2Proof.Machine

/-! ## What the view of memory hangs on -/

/-- In `t` everything that a view of memory hangs on, and everything that decides how a cluster's inbox is applied, is as in `s`. -/
structure SameView (s t : State) : Prop where
  mem : t.mem = s.mem
  ctxs : t.ctxs = s.ctxs
  clus : t.clus = s.clus
  spilled : t.spilled = s.spilled
  shared : ∀ k, (t.core k).shared = (s.core k).shared

theorem SMap.at_map_key {α β : Type} (g : α → β) (f : Nat → α → α) (hg : ∀ i x, g (f i x) = g x) (d : α) (m : SMap α) (k : Nat) :
    g (SMap.at d (m.map fun p => (p.1, f p.1 p.2)) k) = g (SMap.at d m k) := by
  induction m with
  | nil => rfl
  | cons p r ih =>
    simp only [List.map_cons, SMap.at]
    split
    · rfl
    · split
      · exact hg p.1 p.2
      · exact ih

section
variable {s t : State} (h : SameView s t)

theorem SameButDetectors.sameView (h : SameButDetectors s t) : SameView s t := by
  obtain ⟨he, hshared⟩ := h
  refine ⟨?_, ?_, ?_, ?_, hshared⟩ <;> rw [he]

include h

theorem SameView.ctx (c : Nat) : t.ctx c = s.ctx c := by unfold State.ctx; rw [h.ctxs]

theorem SameView.clu (k : Nat) : t.clu k = s.clu k := by unfold State.clu; rw [h.clus]

theorem SameView.draw : SameView s t.draw.2 := { h with }

theorem SameView.correct {ls : List Nat} : SameView s (t.correct ls) := by
  unfold State.correct
  split
  · exact h
  · exact { h with }

theorem SameView.viewByte (c l : Nat) : t.viewByte c l = s.viewByte c l := by
  unfold State.viewByte State.taggedByte State.cachedByte State.homeByte
  simp only [h.ctx, h.clu, h.shared, h.mem]

/-! ## One change on both sides -/

theorem SameView.modClu (k : Nat) (f : Cluster → Cluster) : SameView (s.modClu k f) (t.modClu k f) :=
  { h with clus := by simp only [State.modClu, h.clu, h.clus] }

theorem SameView.modCtx (c : Nat) (f : Ctx → Ctx) : SameView (s.modCtx c f) (t.modCtx c f) :=
  { h with ctxs := by simp only [State.modCtx, State.setCtx, h.ctx, h.ctxs] }

theorem SameView.modPkg (f g : Pkg → Pkg) : SameView (s.modPkg f) (t.modPkg g) := { h with }

omit h in
theorem State.withdraw_shared (s : State) (c k : Nat) : ((s.withdraw c).core k).shared = (s.core k).shared := by
  unfold State.withdraw
  extract_lets clu opening core dir s1
  exact SMap.at_map_key CoreSt.shared core (fun _ _ => rfl) {} s.cores k

theorem SameView.withdraw (c : Nat) : SameView (s.withdraw c) (t.withdraw c) where
  mem := h.mem
  ctxs := by
    simp only [State.withdraw, State.modCtx, State.setCtx, State.ctx, h.ctxs]
  clus := by
    simp only [State.withdraw, State.modCtx, State.setCtx, h.clus]
  spilled := h.spilled
  shared k := by rw [State.withdraw_shared, State.withdraw_shared, h.shared]

theorem SameView.restart (c : Nat) : SameView (s.restart c) (t.restart c) := by
  unfold State.restart
  rw [h.ctx]
  split
  · exact h
  · refine SameView.modClu (SameView.modCtx ?_ c _) _ _
    split
    · exact (h.withdraw c).modPkg _ _
    · exact h

theorem SameView.restartSpilled (clu key : Nat) : SameView (s.restartSpilled clu key) (t.restartSpilled clu key) := by
  unfold State.restartSpilled
  refine SameView.modClu ?_ _ _
  exact { h with spilled := by simp only [h.spilled] }

omit h in
/-- One change after another, on both sides. -/
theorem SameView.foldl {α : Type} {f g : State → α → State} (hf : ∀ s t a, SameView s t → SameView (f s a) (g t a)) (l : List α) :
    ∀ {s t : State}, SameView s t → SameView (l.foldl f s) (l.foldl g t) := by
  induction l with
  | nil => exact fun h => h
  | cons a l ih => exact fun h => ih (hf _ _ a h)

theorem SameView.holdsBaton (c : Nat) : t.holdsBaton c = s.holdsBaton c := by
  unfold State.holdsBaton
  simp only [h.ctx, h.clu]

theorem SameView.hitSpilled (clu line : Nat) : SameView (s.hitSpilled clu line) (t.hitSpilled clu line) := by
  have hreads : t.spilledReader clu line = s.spilledReader clu line := by
    funext z
    unfold State.spilledReader
    rw [h.clu]
  unfold State.hitSpilled
  rw [h.spilled, hreads]
  exact SameView.foldl (fun _ _ p h => h.restartSpilled clu (spillKey p.2.ctx.tid)) _ h

theorem SameView.hitReaders (clu line : Nat) : SameView (s.hitReaders clu line) (t.hitReaders clu line) := by
  have hctxs : t.ctxsOf clu = s.ctxsOf clu := by
    unfold State.ctxsOf
    rw [h.ctxs]
  unfold State.hitReaders
  rw [hctxs]
  refine SameView.hitSpilled (SameView.foldl (fun s t c h => ?_) _ h) clu line
  rw [h.ctx, h.holdsBaton]
  split
  · exact h.restart c
  · exact h

theorem SameView.applyLine (clu line : Nat) : SameView (s.applyLine clu line) (t.applyLine clu line) :=
  (h.modClu clu _).hitReaders clu line

theorem SameView.applyInbox (clu : Nat) : SameView (s.applyInbox clu) (t.applyInbox clu) := by
  unfold State.applyInbox
  rw [h.clu]
  exact (SameView.foldl (fun _ _ l h => h.applyLine clu l) _ h).modClu clu _

/-- The bytes that a load finds are in the view of its thread as it is, or as it is once the cluster has applied its inbox. -/
theorem SameView.loadBytes (c : Nat) (ls : List Nat) (keep : Bool) :
    ∃ w, (w = s ∨ w = s.applyInbox (cluOf c)) ∧ (t.loadBytes c ls keep).1 = ls.map (w.viewByte c) := by
  have hfresh : ∃ w, (w = s ∨ w = s.applyInbox (cluOf c)) ∧ SameView w (t.freshen c ls) := by
    unfold State.freshen
    dsimp only
    split
    · exact ⟨_, .inr rfl, h.draw.applyInbox (cluOf c)⟩
    · exact ⟨s, .inl rfl, h.draw⟩
  obtain ⟨w, hw, hview⟩ := hfresh
  exact ⟨w, hw, List.map_congr_left fun l _ => hview.correct.viewByte c l⟩

end

/-! ## What a load leaves of the words' states and the granules' tags -/

section
variable {s t : State} (h : Undisturbed s t)
include h

theorem Undisturbed.recordSharer {line clu : Nat} : Undisturbed s (t.recordSharer line clu) := by
  refine Undisturbed.ite h (Undisturbed.ite (h.modDir ?_) (Undisturbed.ite (h.modDir ?_) (Undisturbed.dirEvent (h.modDir ?_))))
  all_goals exact fun _ => rfl

theorem Undisturbed.touchLine {clu line : Nat} : Undisturbed s (t.touchLine clu line) := by
  unfold State.touchLine
  split
  · exact h
  · exact h.modClu fun _ => rfl

theorem Undisturbed.keepLine {clu line : Nat} {data : BitVec 1024} {through : Bool} :
    Undisturbed s (t.keepLine clu line data through).2 := by
  unfold State.keepLine
  extract_lets way
  clear_value way
  cases way
  · exact h
  · refine Undisturbed.touchLine (h.modClu ?_)
    exact fun _ => rfl

theorem Undisturbed.tileSeen {clu : Nat} {lines : List Nat} {all : Bool} : Undisturbed s (t.tileSeen clu lines all) :=
  Undisturbed.ite h.applyInbox h

theorem Undisturbed.fillLine {clu line : Nat} {keep : Bool} : Undisturbed s (t.fillLine clu line keep) := by
  unfold State.fillLine
  extract_lets
  exact Undisturbed.ite h (Undisturbed.ite h.touchLine
    (Undisturbed.ite h.tileSeen.recordSharer h.tileSeen.recordSharer.keepLine))

theorem Undisturbed.correct {ls : List Nat} : Undisturbed s (t.correct ls) := by
  unfold State.correct
  split
  · exact h
  · exact { h with }

theorem Undisturbed.loadBytes {c : Nat} {ls : List Nat} {keep : Bool} : Undisturbed s (t.loadBytes c ls keep).2 := by
  have hdraw : Undisturbed s t.draw.2 := { h with }
  have hfresh : Undisturbed s (t.freshen c ls) := Undisturbed.ite hdraw.applyInbox hdraw
  exact hfresh.correct.foldl fun _ _ h => h.fillLine

theorem Undisturbed.acquire {c scope : Nat} : Undisturbed s (t.acquire c scope) := Undisturbed.ite h.applyInbox h

theorem Undisturbed.setReg {d : Reg} {v : Word} : Undisturbed s (t.setReg d v) :=
  h.modCtx fun x => by
    unfold Ctx.setReg
    split <;> rfl

end

theorem Leaves.acquire {c : Nat} {s t : State} (h : Leaves c s t) (hspec : (s.ctx c).spec = none) {d scope : Nat} :
    Leaves c s (t.acquire d scope) := Leaves.ite (h.applyInbox hspec) h

/-! ## The load -/

section
variable {s t u : State}

theorem Leaves.trans {c : Nat} (h : Leaves c s t) (h' : Leaves c t u) : Leaves c s u :=
  ⟨h'.mem.trans h.mem, h'.ports.trans h.ports, h'.cur.trans h.cur, h'.ctx.trans h.ctx⟩

theorem SameButDetectors.undisturbed (h : SameButDetectors s t) : Undisturbed s t := by
  rw [h.1]
  exact { Undisturbed.refl s with }

end

theorem Ctx.spec_setReg (x : Ctx) (d : Reg) (v : Word) : (x.setReg d v).spec = x.spec := by
  unfold Ctx.setReg
  split <;> rfl

theorem State.not_speculating {s : State} {c : Nat} (h : (s.ctx c).spec = none) : s.speculating c = false := by simp [State.speculating, h]

/-- What a load of the running context finds, and the machine with the copies that its cluster then has. -/
def State.loaded (s : State) (ptr : Word) (segs : List (Nat × Nat)) (keep : Bool) : List Byte × State :=
  (s.coreStream ptr).2.loadBytes s.cur (spanAll segs) (keep && !(s.coreStream ptr).1)

section
variable {s : State} {ptr : Word} {segs : List (Nat × Nat)} {keep : Bool}

theorem loaded_undisturbed : Undisturbed s (s.loaded ptr segs keep).2 := (sameButDetectors_coreStream s ptr).undisturbed.loadBytes

theorem loaded_view : ∃ w, (w = s ∨ w = s.applyInbox (cluOf s.cur)) ∧ (s.loaded ptr segs keep).1 = (spanAll segs).map (w.viewByte s.cur) :=
  (sameButDetectors_coreStream s ptr).sameView.loadBytes s.cur _ _

variable (hspec : (s.ctx s.cur).spec = none)
include hspec

theorem loaded_leaves : Leaves s.cur s (s.loaded ptr segs keep).2 :=
  ((sameButDetectors_coreStream s ptr).leaves s.cur).loadBytes hspec

/-- A load that is not held, of a thread that is not speculative, is done at once. -/
theorem loadAt_done (hfree : s.readsHeld (cluOf s.cur) (s.fetched s.cur (spanAll segs)) = false) (fill : Word → State → State) :
    s.loadAt ptr segs keep fill = .done (fill (BitVec.ofNat 64 (leNat (s.loaded ptr segs keep).1)) (s.loaded ptr segs keep).2) := by
  have hcalm : s.speculating s.cur = false := State.not_speculating hspec
  have hleaves : Leaves s.cur s (s.loaded ptr segs keep).2 := loaded_leaves hspec
  have hafter : (s.loaded ptr segs keep).2.speculating (s.loaded ptr segs keep).2.cur = false := by
    rw [hleaves.cur]
    exact State.not_speculating (hleaves.ctx ▸ hspec)
  unfold State.loadAt
  simp only [State.loaded] at hafter
  simp only [hcalm, hfree, State.restarted, State.loaded, hafter, Bool.false_and, Bool.false_eq_true, if_false]

end

theorem load_done {s u : State} {ptr : Word} {segs : List (Nat × Nat)} {keep : Bool} {space : Nat} {d : Reg} {z scope : Nat} {P : Prop}
    [Decidable P] (hu : u = if P then s.acquire s.cur scope else s) (hspec : (u.ctx u.cur).spec = none)
    (haccess : u.access u.cur ptr (szBytes z) needR (if P then szBytes z else 1) .plain false true = .ok (.mem segs keep space))
    (hfree : u.readsHeld (cluOf u.cur) (u.fetched u.cur (spanAll segs)) = false) :
    s.load ptr d z (decide P) scope = .done (((u.loaded ptr segs keep).2.setReg d
      (extend z (BitVec.ofNat 64 (leNat (u.loaded ptr segs keep).1)).toNat)).acqIf (decide P) scope) := by
  unfold State.load
  simp only [decide_eq_true_eq, ← hu, haccess, State.acqIf]
  exact loadAt_done hspec hfree _

/-- What a completed load leaves of its thread, where `u` is the machine in which it has found its value. -/
theorem loads_of_leaves {s u t : State} (hu : Leaves s.cur s u) (hkeeps : Undisturbed s u) {d : Reg} {v : Word} {len : Nat}
    (ht : Leaves s.cur (u.setReg d v) t) (hut : Undisturbed (u.setReg d v) t) :
    Claim.Loads s (t.modCtx s.cur (fun x => { x with pc := s.me.pc + BitVec.ofNat 64 len })) len d v := by
  have hctx : t.ctx s.cur = s.me.setReg d v := by
    rw [ht.ctx, State.setReg, State.modCtx_ctx, hu.cur, if_pos rfl, hu.ctx]
    rfl
  have hkept : Undisturbed s t := hkeeps.setReg.trans hut
  unfold Claim.Loads
  simp only [State.modCtx_ctx, if_true, hctx]
  exact ⟨fun r => Ctx.reg_setReg s.me d r v, trivial, Ctx.setReg_sta .., Ctx.setReg_buf .., hkept.mem, hkept.empties, hkept.mtags⟩

theorem szBytes_le (z : Nat) : szBytes z ≤ 8 := by
  unfold szBytes
  split_ifs <;> decide

/-- The value that a load's bytes make, extended by its type. -/
theorem extend_leNat {z : BitVec 3} (hz : z.toNat < 7) {bs : List Byte} (hbs : bs.length = szBytes z.toNat) :
    extend z.toNat (BitVec.ofNat 64 (leNat bs)).toNat = Claim.widen z (leNat bs) := by
  have hlt : leNat bs < 2 ^ (8 * szBytes z.toNat) := hbs ▸ leNat_lt bs
  have hword : leNat bs < 2 ^ 64 := hlt.trans_le (Nat.pow_le_pow_right (by decide) (Nat.mul_le_mul_left 8 (szBytes_le z.toNat)))
  rw [BitVec.toNat_ofNat, Nat.mod_eq_of_lt hword]
  exact extend_eq_widen hz hlt

/-- Settles O20: the bytes are those of the thread's view, and the copies, marks and detectors that a load moves are no memory. -/
theorem loadReturnsView : Obligations.LoadReturnsView := by
  intro s scp o z d a p segs keep h hz _ n ptr u hreach hfree
  obtain ⟨space, haccess, hlen⟩ := hreach
  have hu : Leaves s.cur s u := Leaves.ite ((Leaves.refl s.cur s).acquire h.spec) (.refl s.cur s)
  have hukeeps : Undisturbed s u := Undisturbed.ite (Undisturbed.refl s).acquire (.refl s)
  have hspec : (u.ctx u.cur).spec = none := by
    rw [hu.cur, hu.ctx]
    exact h.spec
  obtain ⟨w, hw, hbytes⟩ := loaded_view (s := u) (ptr := ptr) (segs := segs) (keep := keep)
  have hleaves : Leaves u.cur u (u.loaded ptr segs keep).2 := loaded_leaves hspec
  rw [← hu.cur] at hfree
  have hbody := load_done (d := d) (z := z.toNat) (P := o = 1) rfl hspec haccess hfree
  rw [hu.cur] at hw hbytes hleaves
  have hvalue : extend z.toNat (BitVec.ofNat 64 (leNat (u.loaded ptr segs keep).1)).toNat =
      Claim.widen z (leNat ((spanAll segs).map (w.viewByte s.cur))) := by
    rw [extend_leNat hz (by rw [hbytes, List.length_map]; exact hlen), hbytes]
  rw [hvalue] at hbody
  have hspec' : (((u.loaded ptr segs keep).2.setReg d (Claim.widen z (leNat ((spanAll segs).map (w.viewByte s.cur))))).ctx s.cur).spec = none := by
    rw [State.setReg, State.modCtx_ctx, hleaves.cur, hu.cur, if_pos rfl, Ctx.spec_setReg, hleaves.ctx, hu.ctx]
    exact h.spec
  refine ⟨_, w, hw, ends_of_done h (specOk := decide (o = 0)) rfl hbody, ?_⟩
  refine loads_of_leaves (hu.trans hleaves) (hukeeps.trans loaded_undisturbed) ?_ ?_
  · exact Leaves.ite ((Leaves.refl _ _).acquire hspec') (.refl _ _)
  · exact Undisturbed.ite (Undisturbed.refl _).acquire (.refl _)

end Sys2Proof.Machine
end

section
/-! What a store enters into its thread's buffer (10 R209, R210, R219, R221): the entry of each line takes the line's bytes, and the newest
entry that holds a byte is the one that the thread reads. -/

namespace Sys2Proof.Machine

/-! ## The bytes of an entry -/

theorem bitOf_setBit {n : Nat} (x : BitVec n) {i j : Nat} (hj : j < n) : bitOf (x ||| 1#n <<< i) j = (bitOf x j || decide (j = i)) := by
  simp only [bitOf_eq_getLsbD, BitVec.getLsbD_or, BitVec.getLsbD_shiftLeft, BitVec.getLsbD_one, hj]
  congr 1
  by_cases h : j = i
  · subst h
    simp [Nat.zero_lt_of_lt hj]
  · have : j - i = 0 ↔ j ≤ i := Nat.sub_eq_zero_iff_le
    grind

theorem lineByte_eq_lane (d : BitVec 1024) (i : Nat) : lineByte d i = BitVec.ofNat 8 (lane d 8 i) := by
  refine BitVec.eq_of_toNat_eq ?_
  simp [lineByte, lane, bitsAt]

theorem lineByte_setLineByte (d : BitVec 1024) {i : Nat} (hi : i < 128) (b : Byte) (j : Nat) :
    lineByte (setLineByte d i b) j = if j = i then b else lineByte d j := by
  have hset : lane (setLineByte d i b) 8 j = if j = i then b.toNat % 2 ^ 8 else lane d 8 j := lane_setLane d 8 (by omega) b.toNat j
  rw [lineByte_eq_lane, lineByte_eq_lane, hset]
  split
  · exact BitVec.eq_of_toNat_eq (by simp [b.isLt])
  · rfl

theorem BufEntry.byteAt_put {e : BufEntry} {a : Nat} (h : e.line = lineOf a) (b : Byte) (l : Nat) :
    (e.put a b).byteAt l = if l = a then some b else e.byteAt l := by
  have hmod : l % 128 < 128 := Nat.mod_lt _ (by decide)
  unfold BufEntry.byteAt BufEntry.put
  simp only [bitOf_setBit e.mask hmod, lineByte_setLineByte e.data (Nat.mod_lt a (by decide : 0 < 128))]
  by_cases hline : e.line = lineOf l
  · have hsame : l % 128 = a % 128 ↔ l = a := by
      unfold lineOf at h hline
      omega
    by_cases hla : l = a
    · simp [hla, h]
    · simp [hline, hla, hsame]
  · have hla : l ≠ a := fun he => hline (he ▸ h)
    simp [hline, hla]

/-- An entry with more bytes of its line: those bytes, and beside them its own. -/
theorem byteAt_foldl_put {bs : List (Nat × Byte)} (hnodup : (bs.map (·.1)).Nodup) :
    ∀ {e : BufEntry}, (∀ b ∈ bs, lineOf b.1 = e.line) →
      let f := bs.foldl (fun e b => e.put b.1 b.2) e
      f.line = e.line ∧ (∀ q ∈ bs, f.byteAt q.1 = some q.2) ∧ ∀ l, l ∉ bs.map (·.1) → f.byteAt l = e.byteAt l := by
  induction bs with
  | nil => exact fun _ => ⟨rfl, by simp, fun _ _ => rfl⟩
  | cons b bs ih =>
    intro e hlines f
    obtain ⟨hb, hnodup⟩ := List.nodup_cons.mp hnodup
    have hline : e.line = lineOf b.1 := (hlines b List.mem_cons_self).symm
    obtain ⟨hf, hin, hout⟩ := ih hnodup (e := e.put b.1 b.2) fun q hq => hlines q (List.mem_cons_of_mem b hq)
    refine ⟨hf, fun q hq => ?_, fun l hl => ?_⟩
    · rcases List.mem_cons.mp hq with rfl | hq
      · exact (hout _ hb).trans ((BufEntry.byteAt_put hline _ _).trans (if_pos rfl))
      · exact hin q hq
    · rw [List.map_cons, List.mem_cons, not_or] at hl
      exact (hout l hl.2).trans ((BufEntry.byteAt_put hline _ _).trans (if_neg hl.1))

/-! ## The newest byte of a buffer -/

/-- The byte of an item at a location, if it is an entry that holds it. -/
def BufItem.byteAt (l : Nat) : BufItem → Option Byte
  | .entry e => e.byteAt l
  | _ => none

theorem ownByte_concat (b : List BufItem) (i : BufItem) (l : Nat) : ownByte (b ++ [i]) l = (i.byteAt l).or (ownByte b l) := by
  rw [ownByte, List.foldl_append]
  cases i with
  | entry e =>
    change (match e.byteAt l with | some v => some v | none => ownByte b l) = (e.byteAt l).or (ownByte b l)
    cases e.byteAt l <;> rfl
  | _ => rfl

theorem ownByte_append (a b : List BufItem) (l : Nat) : ownByte (a ++ b) l = (ownByte b l).or (ownByte a l) := by
  induction b using List.reverseRecOn with
  | nil => simp [ownByte]
  | append_singleton b i ih => rw [← List.append_assoc, ownByte_concat, ih, ownByte_concat, Option.or_assoc]

/-- A change of items that leaves each one's byte leaves the newest. -/
theorem ownByte_map {g : BufItem → BufItem} {l : Nat} (h : ∀ i, (g i).byteAt l = i.byteAt l) (b : List BufItem) :
    ownByte (b.map g) l = ownByte b l := by
  induction b using List.reverseRecOn with
  | nil => rfl
  | append_singleton b i ih => rw [List.map_append, List.map_singleton, ownByte_concat, ih, h, ownByte_concat]

/-- Where an item of a buffer holds a byte, and no item holds another, the newest is that byte. -/
theorem ownByte_of_agree {b : List BufItem} {l : Nat} {v : Byte} (hsome : ∃ i ∈ b, i.byteAt l = some v)
    (hall : ∀ i ∈ b, i.byteAt l = none ∨ i.byteAt l = some v) : ownByte b l = some v := by
  induction b using List.reverseRecOn with
  | nil => simp at hsome
  | append_singleton b i ih =>
    rw [ownByte_concat]
    rcases hall i (by simp) with hnone | hv
    · rw [hnone, Option.none_or]
      refine ih ?_ fun j hj => hall j (List.mem_append_left _ hj)
      obtain ⟨j, hj, hjv⟩ := hsome
      rcases List.mem_append.mp hj with hj | hj
      · exact ⟨j, hj, hjv⟩
      · rw [List.mem_singleton.mp hj, hnone] at hjv
        cases hjv
    · rw [hv, Option.some_or]

/-! ## The bytes of a line enter a buffer -/

/-- The thread whose buffer was `a` reads, with the buffer `b`, some new bytes, and every other byte as before. -/
def Enters (bs : List (Nat × Byte)) (a b : List BufItem) : Prop :=
  (∀ q ∈ bs, ownByte b q.1 = some q.2) ∧ ∀ l, l ∉ bs.map (·.1) → ownByte b l = ownByte a l

/-- The items behind the last marker of a buffer. -/
def behindMarkers (b : List BufItem) : List BufItem :=
  (b.reverse.takeWhile (fun i => match i with | .marker _ => false | _ => true)).reverse

/-- Whether an item is an entry of a line. -/
def BufItem.ofLine (line : Nat) : BufItem → Bool
  | .entry e => decide (e.line = line)
  | _ => false

/-- An item whose entry, if it is one of a line, is changed. -/
def BufItem.modLine (line : Nat) (f : BufEntry → BufEntry) : BufItem → BufItem
  | .entry e => if e.line = line then .entry (f e) else .entry e
  | i => i

theorem front_append_behindMarkers (b : List BufItem) : b.take (b.length - (behindMarkers b).length) ++ behindMarkers b = b := by
  obtain ⟨front, hfront⟩ : behindMarkers b <:+ b := by
    rw [← List.reverse_prefix, behindMarkers, List.reverse_reverse]
    exact List.takeWhile_prefix _
  have hlen : b.length - (behindMarkers b).length = front.length := by
    have := congrArg List.length hfront
    rw [List.length_append] at this
    omega
  rw [hlen]
  calc b.take front.length ++ behindMarkers b
      = (front ++ behindMarkers b).take front.length ++ behindMarkers b := by rw [hfront]
    _ = front ++ behindMarkers b := by rw [List.take_left]
    _ = b := hfront

theorem entriesOf_append (a b : List BufItem) : entriesOf (a ++ b) = entriesOf a ++ entriesOf b := List.filterMap_append ..

theorem length_entriesOf_modLine (line : Nat) (f : BufEntry → BufEntry) (b : List BufItem) :
    (entriesOf (b.map (BufItem.modLine line f))).length = (entriesOf b).length := by
  induction b with
  | nil => rfl
  | cons i b ih =>
    cases i with
    | entry e =>
      rw [List.map_cons, BufItem.modLine]
      split <;> exact congrArg (· + 1) ih
    | _ => exact ih

/-- Bytes of a line that each entry of the line takes enter a buffer that has one. -/
theorem enters_modLine {bs : List (Nat × Byte)} {line : Nat} {f : BufEntry → BufEntry} {tail : List BufItem}
    (hlines : ∀ b ∈ bs, lineOf b.1 = line) (hany : tail.any (BufItem.ofLine line) = true)
    (hf : ∀ e, e.line = line → (f e).line = line ∧ (∀ q ∈ bs, (f e).byteAt q.1 = some q.2) ∧
      ∀ l, l ∉ bs.map (·.1) → (f e).byteAt l = e.byteAt l) (front : List BufItem) :
    Enters bs (front ++ tail) (front ++ tail.map (BufItem.modLine line f)) := by
  refine ⟨fun q hq => ?_, fun l hl => ?_⟩
  · have htail : ownByte (tail.map (BufItem.modLine line f)) q.1 = some q.2 := by
      refine ownByte_of_agree ?_ fun j hj => ?_
      · obtain ⟨i, hi, hline⟩ := List.any_eq_true.mp hany
        refine ⟨_, List.mem_map_of_mem hi, ?_⟩
        cases i with
        | entry e =>
          have he : e.line = line := of_decide_eq_true hline
          rw [BufItem.modLine, if_pos he]
          exact (hf e he).2.1 q hq
        | _ => cases hline
      · obtain ⟨i, -, rfl⟩ := List.mem_map.mp hj
        cases i with
        | entry e =>
          rw [BufItem.modLine]
          split
          · next he => exact .inr ((hf e he).2.1 q hq)
          · next he => exact .inl (if_neg fun h => he (h.1.trans (hlines q hq)))
        | _ => exact .inl rfl
    rw [ownByte_append, htail, Option.some_or]
  · rw [ownByte_append, ownByte_append, ownByte_map fun i => ?_]
    cases i with
    | entry e =>
      rw [BufItem.modLine]
      split
      · next he => exact (hf e he).2.2 l hl
      · rfl
    | _ => rfl

section
variable {s : State} {c line : Nat} {bs : List (Nat × Byte)} {nt wc keep : Bool} {rel : Option (BitVec 2)}
  (hlines : ∀ b ∈ bs, lineOf b.1 = line) (hnodup : (bs.map (·.1)).Nodup)
  (hroom : (entriesOf (s.ctx c).buf).length + s.sharedOf c < 8)
include hlines hnodup hroom

/-- With room in the buffer, and no entry of the line behind its last marker, the bytes enter as a new entry of theirs alone. -/
theorem bufferLine_new (hnone : (behindMarkers (s.ctx c).buf).any (BufItem.ofLine line) = false) :
    ∃ e : BufEntry, s.bufferLine c line bs nt wc keep rel = some (s.modCtx c (fun x => { x with buf := x.buf ++ [.entry e] })) ∧
      e.line = line ∧ e.rel = rel ∧ (∀ q ∈ bs, e.byteAt q.1 = some q.2) ∧ ∀ l, l ∉ bs.map (·.1) → e.byteAt l = none := by
  unfold State.bufferLine
  extract_lets x tail front merge inst fresh n sh
  obtain ⟨hline, hin, hout⟩ := byteAt_foldl_put hnodup (e := { line := line, mask := 0, data := 0, instant := inst, keep := true }) hlines
  refine ⟨fresh, ?_, hline, ?_, hin, fun l hl => (hout l hl).trans ?_⟩
  · rw [if_neg, if_pos]
    · rfl
    · exact hroom
    · exact Bool.eq_false_iff.mp hnone
  · change (if rel.isSome then rel else _) = rel
    cases rel <;> rfl
  · simp [BufEntry.byteAt, bitOf]

/-- With room in the buffer, the bytes of a line enter it. -/
theorem bufferLine_enters : ∃ b, s.bufferLine c line bs nt wc keep rel = some (s.modCtx c (fun x => { x with buf := b })) ∧
    Enters bs (s.ctx c).buf b ∧ (entriesOf b).length ≤ (entriesOf (s.ctx c).buf).length + 1 := by
  by_cases hany : (behindMarkers (s.ctx c).buf).any (BufItem.ofLine line) = true
  · unfold State.bufferLine
    extract_lets x tail front merge inst fresh n sh
    have hmap : tail.map (fun i => match i with | .entry e => if e.line = line then .entry (merge e) else .entry e | i => i) =
        tail.map (BufItem.modLine line merge) := List.map_congr_left fun i _ => by cases i <;> rfl
    have hwhole : front ++ tail = (s.ctx c).buf := front_append_behindMarkers _
    refine ⟨front ++ tail.map (BufItem.modLine line merge), (if_pos hany).trans ?_, ?_, ?_⟩
    · rw [← hmap]
      rfl
    · rw [← hwhole]
      refine enters_modLine hlines hany (fun e he => ?_) front
      obtain ⟨hline, hin, hout⟩ := byteAt_foldl_put hnodup (e := e) (he ▸ hlines)
      exact ⟨hline.trans he, hin, hout⟩
    · rw [← hwhole, entriesOf_append, entriesOf_append, List.length_append, List.length_append, length_entriesOf_modLine]
      omega
  · obtain ⟨e, hb, -, -, hin, hout⟩ := bufferLine_new (nt := nt) (wc := wc) (keep := keep) (rel := rel) hlines hnodup hroom
      (Bool.eq_false_iff.mpr hany)
    refine ⟨(s.ctx c).buf ++ [.entry e], hb, ⟨fun q hq => ?_, fun l hl => ?_⟩, ?_⟩
    · rw [ownByte_concat, BufItem.byteAt, hin q hq, Option.some_or]
    · rw [ownByte_concat, BufItem.byteAt, hout l hl, Option.none_or]
    · rw [entriesOf_append, List.length_append]
      rfl

end

/-- In `t` memory, the number of the thread's readable entries, and the record of context `c` but for its buffer are those of `s`. -/
structure Rebuffered (c : Nat) (s t : State) : Prop where
  mem : t.mem = s.mem
  shared : t.sharedOf c = s.sharedOf c
  ctx : t.ctx c = { s.ctx c with buf := (t.ctx c).buf }

section
variable {c : Nat} {s t u : State}

theorem Rebuffered.refl (c : Nat) (s : State) : Rebuffered c s s := ⟨rfl, rfl, rfl⟩

theorem rebuffered_modCtx (s : State) (c : Nat) (b : List BufItem → List BufItem) :
    Rebuffered c s (s.modCtx c (fun x => { x with buf := b x.buf })) := ⟨rfl, rfl, by simp⟩

theorem Rebuffered.trans (h : Rebuffered c s t) (h' : Rebuffered c t u) : Rebuffered c s u :=
  ⟨h'.mem.trans h.mem, h'.shared.trans h.shared, by rw [h'.ctx, h.ctx]⟩

theorem SameButDetectors.rebuffered (h : SameButDetectors s t) (c : Nat) : Rebuffered c s t :=
  ⟨(h.leaves c).mem, h.sharedOf c, by rw [(h.leaves c).ctx]⟩

theorem rebuffered_pushMarker (s : State) (c : Nat) (scp : BitVec 2) : Rebuffered c s (s.pushMarker c scp) := by
  unfold State.pushMarker
  extract_lets s1
  have hs1 : Rebuffered c s s1 := by
    unfold s1
    split
    · exact ⟨rfl, rfl, rfl⟩
    · exact .refl c s
  exact hs1.trans (rebuffered_modCtx s1 c (· ++ [.marker scp]))

theorem State.pushMarker_buf (s : State) (c : Nat) (scp : BitVec 2) : ((s.pushMarker c scp).ctx c).buf = (s.ctx c).buf ++ [.marker scp] := by
  unfold State.pushMarker
  rw [State.modCtx_ctx, if_pos rfl]
  split <;> rfl

theorem Rebuffered.untagBytes (h : Rebuffered c s t) {d : Nat} {ls : List Nat} : Rebuffered c s (t.untagBytes d ls) := by
  unfold State.untagBytes
  split
  · exact h
  · exact ⟨h.mem, h.shared, h.ctx⟩

theorem State.untagBytes_ctx (s : State) (d : Nat) (ls : List Nat) (c : Nat) : (s.untagBytes d ls).ctx c = s.ctx c := by
  unfold State.untagBytes
  split <;> rfl

end

/-- With room in the buffer for their lines, the bytes of a store enter it. -/
theorem bufferBytes_enters {s : State} {c : Nat} {bs : List (Nat × Byte)} {nt wc keep : Bool} {rel : Option (BitVec 2)}
    (hnodup : (bs.map (·.1)).Nodup)
    (hroom : (entriesOf (s.ctx c).buf).length + s.sharedOf c + (linesOf (bs.map (·.1))).length ≤ 8) :
    ∃ t, s.bufferBytes c bs nt wc keep rel = some t ∧ Rebuffered c s t ∧ Enters bs (s.ctx c).buf (t.ctx c).buf := by
  suffices hlines : ∀ lines : List Nat, lines.Nodup → ∀ s : State,
      (entriesOf (s.ctx c).buf).length + s.sharedOf c + lines.length ≤ 8 → ∃ t,
        lines.foldl (fun o l =>
          match o with
          | none => none
          | some s => s.bufferLine c l (bs.filter (fun b => decide (lineOf b.1 = l))) nt wc (keep && !decide (l ∈ ([] : List Nat))) rel 0)
            (some s) = some t ∧ Rebuffered c s t ∧
        (∀ q ∈ bs, lineOf q.1 ∈ lines → ownByte (t.ctx c).buf q.1 = some q.2) ∧
        ∀ l, l ∉ bs.map (·.1) ∨ lineOf l ∉ lines → ownByte (t.ctx c).buf l = ownByte (s.ctx c).buf l by
    obtain ⟨t, ht, hst, hin, hout⟩ := hlines _ (nodup_linesOf _) s hroom
    exact ⟨t, ht, hst, fun q hq => hin q hq (mem_linesOf.mpr ⟨q.1, List.mem_map_of_mem hq, rfl⟩), fun l hl => hout l (.inl hl)⟩
  clear hroom
  intro lines
  induction lines with
  | nil => exact fun _ s _ => ⟨s, rfl, .refl c s, by simp, fun _ _ => rfl⟩
  | cons k lines ih =>
    intro hk s hroom
    obtain ⟨hk, hlines⟩ := List.nodup_cons.mp hk
    rw [List.length_cons] at hroom
    have hof : ∀ q ∈ bs.filter (fun b => decide (lineOf b.1 = k)), lineOf q.1 = k := fun q hq => of_decide_eq_true (List.mem_filter.mp hq).2
    obtain ⟨b, hb, ⟨hbin, hbout⟩, hlen⟩ := bufferLine_enters (nt := nt) (wc := wc) (keep := keep && !decide (k ∈ ([] : List Nat))) (rel := rel)
      hof (hnodup.sublist (List.filter_sublist.map _)) (by omega : (entriesOf (s.ctx c).buf).length + s.sharedOf c < 8)
    have hsu := rebuffered_modCtx s c (fun _ => b)
    have hctx : ((s.modCtx c (fun x => { x with buf := b })).ctx c).buf = b := by simp
    obtain ⟨t, ht, hut, hin, hout⟩ := ih hlines (s.modCtx c (fun x => { x with buf := b })) (by rw [hctx, hsu.shared]; omega)
    rw [hctx] at hout
    refine ⟨t, ?_, hsu.trans hut, fun q hq hline => ?_, fun l hl => ?_⟩
    · rw [List.foldl_cons]
      exact (congrArg (List.foldl _ · lines) hb).trans ht
    · rcases List.mem_cons.mp hline with hqk | hline
      · rw [hout q.1 (.inr (hqk ▸ hk))]
        exact hbin q (List.mem_filter.mpr ⟨hq, decide_eq_true hqk⟩)
      · exact hin q hq hline
    · rw [hout l (hl.imp_right fun h hin => h (List.mem_cons_of_mem k hin))]
      refine hbout l fun hmem => ?_
      obtain ⟨q, hq, rfl⟩ := List.mem_map.mp hmem
      rcases hl with hl | hl
      · exact hl (List.mem_map_of_mem (List.mem_of_mem_filter hq))
      · exact hl (hof q hq ▸ List.mem_cons_self)

/-! ## The store -/

/-- A window handle reaches no memory (05 R82). -/
theorem access_window_ne_mem {s : State} {c : Nat} {ptr : Word} {size need al : Nat} {r : Reach} {wr rd : Bool} {segs : List (Nat × Nat)}
    {keep : Bool} {space : Nat} (hptr : ptr.toNat / 2 ^ 52 = 2) : s.access c ptr size need al r wr rd ≠ .ok (.mem segs keep space) := by
  have hres : ∀ o, s.resolve (s.who c) ptr size need = .ok o → ∃ off, o = .window off := by
    intro o
    simp only [State.resolve, hptr]
    simp only [OfNat.ofNat_ne_zero, false_or, Nat.reduceLeDiff, false_and, OfNat.ofNat_ne_one, if_false, if_true]
    split
    · exact nofun
    · split
      · exact nofun
      · exact fun h => ⟨_, (Except.ok.inj h).symm⟩
  unfold State.access
  dsimp only
  split
  · exact nofun
  · next o ho =>
    obtain ⟨off, rfl⟩ := hres o ho
    split
    · exact nofun
    · split
      · exact nofun
      · exact nofun

section
variable {s : State} {ptr v : Word} {z ord : Nat} {scope : BitVec 2} {segs : List (Nat × Nat)} {keep : Bool}

theorem store_of_reaches (hreach : Claim.Reaches s ptr (szBytes z) needW (if ord = 1 then szBytes z else 1) .plain true false segs keep) :
    s.store ptr v z ord scope = (s.coreStream ptr).2.storeAt ((spanAll segs).zip (leBytes (szBytes z) v.toNat)) ord scope
      (keep && !(s.coreStream ptr).1) := by
  obtain ⟨space, haccess, -⟩ := hreach
  unfold State.store
  rw [if_neg fun hwindow => access_window_ne_mem hwindow.1 haccess]
  simp only [haccess]

/-- A store of a thread that is not speculative is done once its bytes have entered the buffer. -/
theorem storeAt_done (hspec : (s.ctx s.cur).spec = none) {bs : List (Nat × Byte)} {t : State}
    (hbytes : (if ord = 1 then s.pushMarker s.cur scope else s).bufferBytes s.cur bs (decide (ord = 2)) (decide (ord = 3))
      (keep && decide (ord ≠ 2)) (if ord = 1 then some scope else none) = some t) :
    s.storeAt bs ord scope keep = .done (t.untagBytes s.cur (bs.map (·.1))) := by
  unfold State.storeAt
  simp only [State.not_speculating hspec, hbytes, Bool.false_eq_true, if_false]

end

/-- A store's bytes with their places. -/
def storedBytes (segs : List (Nat × Nat)) (n : Nat) (v : Word) : List (Nat × Byte) := (spanAll segs).zip (leBytes n v.toNat)

theorem storedBytes_locs {segs : List (Nat × Nat)} {n : Nat} (hlen : (spanAll segs).length = n) (v : Word) :
    (storedBytes segs n v).map (·.1) = spanAll segs := List.map_fst_zip (by rw [hlen, length_leBytes])

theorem State.coreStream_cur (s : State) (ptr : Word) : (s.coreStream ptr).2.cur = s.cur :=
  ((sameButDetectors_coreStream s ptr).leaves s.cur).cur

theorem rebuffered_coreStream (s : State) (ptr : Word) (c : Nat) : Rebuffered c s (s.coreStream ptr).2 :=
  (sameButDetectors_coreStream s ptr).rebuffered c

theorem Rebuffered.entries {s t : State} {c : Nat} (h : Rebuffered c s t) (hbuf : (t.ctx c).buf = (s.ctx c).buf) :
    (entriesOf (t.ctx c).buf).length + t.sharedOf c = (entriesOf (s.ctx c).buf).length + s.sharedOf c := by rw [hbuf, h.shared]

section
variable {s t : State} {scp o : BitVec 2} {z : BitVec 3} {d a : Reg} {p : Imm 8} {segs : List (Nat × Nat)} {keep : Bool}

/-- A store ends with its bytes in the buffer, where `t` is the machine that has taken them. -/
theorem st_ends (h : Calm s) {ptr : Word} (hptr : ptr = s.me.reg a + dispW (szBytes z.toNat) p)
    (hreach : Claim.Reaches s ptr (szBytes z.toNat) needW (if o.toNat = 1 then szBytes z.toNat else 1) .plain true false segs keep)
    (hbytes : (if o.toNat = 1 then (s.coreStream ptr).2.pushMarker s.cur scp else (s.coreStream ptr).2).bufferBytes s.cur
      (storedBytes segs (szBytes z.toNat) (s.me.reg d)) (decide (o.toNat = 2)) (decide (o.toNat = 3))
      ((keep && !(s.coreStream ptr).1) && decide (o.toNat ≠ 2)) (if o.toNat = 1 then some scp else none) = some t) :
    Claim.Ends s (.st scp o z d a p) (immLen p)
      (t.untagBytes s.cur ((storedBytes segs (szBytes z.toNat) (s.me.reg d)).map (·.1))) := by
  subst hptr
  have hspec : ((s.coreStream (s.me.reg a + dispW (szBytes z.toNat) p)).2.ctx s.cur).spec = none :=
    (congrArg Ctx.spec ((sameButDetectors_coreStream s _).leaves s.cur).ctx).trans h.spec
  refine ends_of_done h (specOk := decide (o = 0)) rfl ((store_of_reaches hreach).trans ?_)
  rw [← State.coreStream_cur s (s.me.reg a + dispW (szBytes z.toNat) p)] at hspec hbytes ⊢
  exact storeAt_done hspec hbytes

theorem Rebuffered.ends (h : Rebuffered s.cur s t) (pc : Word) :
    (t.modCtx s.cur (fun x => { x with pc := pc })).ctx s.cur = { s.me with buf := (t.ctx s.cur).buf, pc := pc } := by
  rw [State.modCtx_ctx, if_pos rfl, h.ctx]
  rfl

end

theorem storeEntersTheBuffer : Claim.StoreEntersTheBuffer := by
  intro s scp o z d a p segs keep h _ ho n hreach hnodup hroom
  obtain ⟨space, haccess, hlen⟩ := hreach
  have hlocs := storedBytes_locs hlen (s.me.reg d)
  have hv := rebuffered_coreStream s (s.me.reg a + dispW n p) s.cur
  have hbuf := congrArg Ctx.buf ((sameButDetectors_coreStream s (s.me.reg a + dispW n p)).leaves s.cur).ctx
  obtain ⟨t, ht, hvt, hin, hout⟩ := bufferBytes_enters (s := (s.coreStream (s.me.reg a + dispW n p)).2) (c := s.cur)
    (nt := decide (o.toNat = 2)) (wc := decide (o.toNat = 3))
    (keep := (keep && !(s.coreStream (s.me.reg a + dispW n p)).1) && decide (o.toNat ≠ 2)) (rel := none)
    (hlocs ▸ hnodup) (by rw [hv.entries hbuf, hlocs]; exact hroom)
  have hst : Rebuffered s.cur s (t.untagBytes s.cur ((storedBytes segs n (s.me.reg d)).map (·.1))) := (hv.trans hvt).untagBytes
  refine ⟨_, st_ends (scp := scp) h rfl (by rw [if_neg ho]; exact ⟨space, haccess, hlen⟩) (by rw [if_neg ho, if_neg ho]; exact ht), ?_⟩
  rw [hst.ends, State.untagBytes_ctx]
  rw [hlocs, hbuf] at hout
  exact ⟨hin, hout, rfl, rfl, rfl, rfl, hst.mem⟩

/-! ## The release store (10 R210, R219) -/

/-- The bytes of an entry, location by location of its line. -/
theorem BufEntry.bytes_eq_filterMap (e : BufEntry) :
    e.bytes = (List.range 128).filterMap (fun i => (e.byteAt (e.line * 128 + i)).map (fun b => (e.line * 128 + i, b))) := by
  suffices ∀ is : List Nat, (∀ i ∈ is, i < 128) → (is.filter (fun i => bitOf e.mask i)).map (fun i => (e.line * 128 + i, lineByte e.data i)) =
      is.filterMap (fun i => (e.byteAt (e.line * 128 + i)).map (fun b => (e.line * 128 + i, b))) from
    this _ fun i hi => List.mem_range.mp hi
  intro is his
  induction is with
  | nil => rfl
  | cons i is ih =>
    have hi : i < 128 := his i List.mem_cons_self
    have hbyte : e.byteAt (e.line * 128 + i) = if bitOf e.mask i then some (lineByte e.data i) else none := by
      have hline : lineOf (e.line * 128 + i) = e.line := by unfold lineOf; omega
      have hoff : (e.line * 128 + i) % 128 = i := by omega
      simp [BufEntry.byteAt, hline, hoff]
    rw [List.filter_cons, List.filterMap_cons, hbyte, ← ih fun j hj => his j (List.mem_cons_of_mem i hj)]
    cases bitOf e.mask i <;> rfl

/-- An entry that holds the bytes of a span of its line, and no other. -/
theorem bytes_of_byteAt {e : BufEntry} {l : Nat} {bs : List Byte} (hfit : l % 128 + bs.length ≤ 128) (hline : e.line = lineOf l)
    (hin : ∀ q ∈ (span l bs.length).zip bs, e.byteAt q.1 = some q.2) (hout : ∀ j, j ∉ span l bs.length → e.byteAt j = none) :
    e.bytes = (span l bs.length).zip bs := by
  have hloc (i : Nat) : e.line * 128 + (l % 128 + i) = l + i := by
    rw [hline, lineOf]
    omega
  have hmem (j : Nat) : j ∈ span l bs.length ↔ l ≤ j ∧ j < l + bs.length := by
    simp only [span, List.mem_map, List.mem_range]
    exact ⟨fun ⟨i, hi, he⟩ => by omega, fun hj => ⟨j - l, by omega, by omega⟩⟩
  have hrange : List.range 128 = List.range (l % 128) ++ ((List.range bs.length).map (l % 128 + ·) ++
      ((List.range (128 - (l % 128 + bs.length))).map (bs.length + ·)).map (l % 128 + ·)) := by
    rw [← List.map_append, ← List.range_add, ← List.range_add]
    congr 1
    omega
  rw [BufEntry.bytes_eq_filterMap, hrange, List.filterMap_append, List.filterMap_append]
  have hbefore : (List.range (l % 128)).filterMap (fun i => (e.byteAt (e.line * 128 + i)).map (fun b => (e.line * 128 + i, b))) = [] := by
    refine List.filterMap_eq_nil_iff.mpr fun i hi => ?_
    have hi := List.mem_range.mp hi
    rw [hout _ fun h => ?_]
    · rfl
    · rw [hmem, hline, lineOf] at h
      omega
  have hafter : (((List.range (128 - (l % 128 + bs.length))).map (bs.length + ·)).map (l % 128 + ·)).filterMap
      (fun i => (e.byteAt (e.line * 128 + i)).map (fun b => (e.line * 128 + i, b))) = [] := by
    refine List.filterMap_eq_nil_iff.mpr fun i hi => ?_
    rw [List.map_map] at hi
    obtain ⟨k, -, rfl⟩ := List.mem_map.mp hi
    rw [Function.comp_apply, hloc, hout _ fun h => ?_]
    · rfl
    · rw [hmem] at h
      omega
  have hspan : ((List.range bs.length).map (l % 128 + ·)).filterMap (fun i => (e.byteAt (e.line * 128 + i)).map (fun b => (e.line * 128 + i, b))) =
      (span l bs.length).zip bs := by
    have hzip : (span l bs.length).zip bs = (List.range bs.length).map (fun i => (l + i, bs.getD i 0)) :=
      List.ext_getElem (by simp [span]) fun i hi hi' => by
        have hlt : i < bs.length := by simpa using hi'
        simp [span, hlt]
    rw [hzip, List.filterMap_map, ← List.filterMap_eq_map]
    refine List.filterMap_congr fun i hi => ?_
    have hbyte := hin (l + i, bs.getD i 0) (hzip ▸ List.mem_map_of_mem hi)
    rw [Function.comp_apply, hloc, hbyte]
    rfl
  rw [hbefore, hafter, hspan, List.nil_append, List.append_nil]

theorem linesOf_of_one {ls : List Nat} {a : Nat} (hne : ls ≠ []) (h : ∀ l ∈ ls, lineOf l = a) : linesOf ls = [a] := by
  obtain ⟨l, hl⟩ := List.exists_mem_of_ne_nil ls hne
  have ha : a ∈ linesOf ls := mem_linesOf.mpr ⟨l, hl, h l hl⟩
  have hall : ∀ b ∈ linesOf ls, b = a := fun b hb => by
    obtain ⟨k, hk, rfl⟩ := mem_linesOf.mp hb
    exact h k hk
  have hnodup := nodup_linesOf ls
  rw [List.eq_replicate_of_mem hall, List.nodup_replicate] at hnodup
  exact List.eq_replicate_iff.mpr ⟨le_antisymm hnodup (List.length_pos_of_mem ha), hall⟩

theorem behindMarkers_concat_marker (b : List BufItem) (m : BitVec 2) : behindMarkers (b ++ [.marker m]) = [] := by
  simp [behindMarkers]

theorem entriesOf_concat_marker (b : List BufItem) (m : BitVec 2) : entriesOf (b ++ [.marker m]) = entriesOf b := by
  rw [entriesOf_append]
  exact List.append_nil _

/-- The bytes of a span of one line enter a buffer behind its last marker as an entry of their own. -/
theorem bufferBytes_behind_marker {s : State} {c l : Nat} {bs : List Byte} {nt wc keep : Bool} {rel : Option (BitVec 2)}
    {b : List BufItem} {m : BitVec 2} (hbuf : (s.ctx c).buf = b ++ [.marker m]) (hne : bs ≠ []) (hfit : l % 128 + bs.length ≤ 128)
    (hroom : (entriesOf b).length + s.sharedOf c < 8) :
    ∃ e : BufEntry, s.bufferBytes c ((span l bs.length).zip bs) nt wc keep rel =
      some (s.modCtx c (fun x => { x with buf := x.buf ++ [.entry e] })) ∧ e.rel = rel ∧ e.bytes = (span l bs.length).zip bs := by
  have hlocs : ((span l bs.length).zip bs).map (·.1) = span l bs.length := List.map_fst_zip (by simp [span])
  have hof : ∀ j ∈ span l bs.length, lineOf j = lineOf l := fun j hj => by
    obtain ⟨i, hi, rfl⟩ := List.mem_map.mp hj
    have := List.mem_range.mp hi
    unfold lineOf
    omega
  have hofz : ∀ q ∈ (span l bs.length).zip bs, lineOf q.1 = lineOf l := fun q hq => hof _ (hlocs ▸ List.mem_map_of_mem hq)
  have hspan : span l bs.length ≠ [] := by simpa [span] using hne
  obtain ⟨e, he, hline, hrel, hin, hout⟩ := bufferLine_new (s := s) (c := c) (nt := nt) (wc := wc)
    (keep := keep && !decide (lineOf l ∈ ([] : List Nat))) (rel := rel) hofz (by rw [hlocs]; exact nodup_span l bs.length)
    (by rw [hbuf, entriesOf_concat_marker]; exact hroom) (by rw [hbuf, behindMarkers_concat_marker]; rfl)
  refine ⟨e, ?_, hrel, bytes_of_byteAt hfit hline hin (by rwa [hlocs] at hout)⟩
  have hall : ((span l bs.length).zip bs).filter (fun b => decide (lineOf b.1 = lineOf l)) = (span l bs.length).zip bs :=
    List.filter_eq_self.mpr fun q hq => decide_eq_true (hofz q hq)
  rw [State.bufferBytes, hlocs, linesOf_of_one hspan hof, List.foldl_cons, List.foldl_nil, hall]
  exact he

theorem szBytes_pos (z : Nat) : 0 < szBytes z := by
  unfold szBytes
  split_ifs <;> decide

theorem releaseStoreStandsBehindItsMarker : Claim.ReleaseStoreStandsBehindItsMarker := by
  intro s scp z d a p l keep h _ n hreach hfit hroom
  have hv := rebuffered_coreStream s (s.me.reg a + dispW n p) s.cur
  have hbuf := congrArg Ctx.buf ((sameButDetectors_coreStream s (s.me.reg a + dispW n p)).leaves s.cur).ctx
  have hm := hv.trans (rebuffered_pushMarker (s.coreStream (s.me.reg a + dispW n p)).2 s.cur scp)
  have hlen : (leBytes n (s.me.reg d).toNat).length = n := length_leBytes n _
  have hmark := State.pushMarker_buf (s.coreStream (s.me.reg a + dispW n p)).2 s.cur scp
  rw [hbuf] at hmark
  obtain ⟨e, he, hrel, hbytes⟩ := bufferBytes_behind_marker (l := l) (bs := leBytes n (s.me.reg d).toNat)
    (nt := decide ((1#2).toNat = 2)) (wc := decide ((1#2).toNat = 3))
    (keep := (keep && !(s.coreStream (s.me.reg a + dispW n p)).1) && decide ((1#2).toNat ≠ 2)) (rel := some scp)
    hmark (List.ne_nil_of_length_pos (by rw [hlen]; exact szBytes_pos z.toNat)) (hlen.symm ▸ hfit) (by rw [hm.shared]; exact hroom)
  rw [hlen] at he hbytes
  have hspan : storedBytes [(l, n)] n (s.me.reg d) = (span l n).zip (leBytes n (s.me.reg d).toNat) :=
    congrArg (List.zip · _) (List.append_nil (span l n))
  have hends := st_ends (scp := scp) (o := 1) h rfl hreach (hspan.symm ▸ he)
  have hst := (hm.trans (rebuffered_modCtx _ s.cur (· ++ [.entry e]))).untagBytes (d := s.cur)
    (ls := (storedBytes [(l, n)] n (s.me.reg d)).map (·.1))
  refine ⟨_, e, hends, ?_⟩
  rw [hst.ends, State.untagBytes_ctx, State.modCtx_ctx, if_pos rfl]
  refine ⟨?_, hrel, hbytes, rfl, rfl, hst.mem⟩
  change _ ++ [BufItem.entry e] = _
  rw [hmark, List.append_assoc]
  rfl

/-- Settles O21: with room, a line's bytes join its entry behind the last marker, or are a new one, which the thread reads first. -/
theorem stores : Obligations.Stores := ⟨storeEntersTheBuffer, releaseStoreStandsBehindItsMarker⟩

end Sys2Proof.Machine
end
